-- ==== Sys2Proof/Word.lean ====
section
/-! DEFINITION. The word types of the model and the small closed types that command operands are
built from: who speaks (masters, agents), which unit is meant, and the samples a tick brings. -/

namespace Sys2Proof

/-- One byte of storage. -/
abbrev Byte := BitVec 8
/-- A general register, a control register, a virtual or bus address (R78). -/
abbrev Word := BitVec 64
/-- A floating register (R79). -/
abbrev Quad := BitVec 128

/-- The three masters of the service space (R62). -/
inductive Master where
  | portA | portB | manager
  deriving DecidableEq, Repr

/-- The holder code of a master (R63). -/
def Master.code : Master → Nat
  | .portA => 1
  | .portB => 2
  | .manager => 3

/-- An agent that issues coherence requests (R239, 07). `remote d` stands for any agent of another
package behind die number `d` (package × 4 + compute die). -/
inductive Agent where
  | pair (p : Fin 48)
  | cp (i : Fin 32)
  | zip (i : Fin 8)
  | crypt (i : Fin 8)
  | port (p : Fin 4)
  | almanac (sd : Fin 2)
  | remote (die : Fin 16)
  deriving DecidableEq, Repr

/-- Agents that cache lines: the pairs, here and on other packages (Table 10-4). -/
def Agent.allocates : Agent → Bool
  | .pair _ => true
  | .remote _ => true
  | _ => false

/-- What stops the package (R426): an error of class 4 of one of its pages, or the checkstop of another package of the
complex. -/
inductive StopSource where
  | page (p : BitVec 19)
  | package (pkg : Fin 4)
  deriving DecidableEq, Repr

/-- What a comparator or checkpoint fault of a pair is (R258, R265, R266, R272). -/
inductive MismatchKind where
  /-- A difference outside the input echo. -/
  | outputs
  /-- Every differing bit lies in the input echo. -/
  | echo
  /-- An internal parity error of a copy. -/
  | parity
  /-- One half of a checkpoint slot is uncorrectable. -/
  | ckptHalf
  /-- Both halves of the current checkpoint slot are uncorrectable. -/
  | ckptBoth
  deriving DecidableEq, Repr

/-- A separately switched power domain (Table 20-8). -/
inductive Domain where
  | pair (p : Fin 48)
  | cp (i : Fin 32)
  | port (p : Fin 4)
  | link (l : Fin 4)
  | other (n : Nat)
  deriving DecidableEq, Repr

/-- Why a path fails at once (R334). -/
inductive PathCause where
  | silence | linkDown | containment | crcBurst
  deriving DecidableEq, Repr

/-- The kinds of calibration step (R407). -/
inductive CalKind where
  | readWindow | writeTiming | zq
  deriving DecidableEq, Repr

/-- What one DIMM's SPD says, per channel (R390). `readable` is false for an SPD that cannot be read. -/
structure Spd where
  channel : Fin 16
  readable : Bool
  dimms : Nat
  ranksPerDimm : Nat
  dense32 : Bool
  gibPerDimm : Nat
  rated : Nat
  deriving DecidableEq, Repr

/-- The samples and inputs that arrive with one tick: the measurements of R491 and R496, the tick
echoes of R33. -/
structure TickIn where
  /-- Signed deviation of each die's tick echo, in 62.5 ps steps, dies 0 to 5. -/
  echo : List Int
  /-- Hottest sensor of each die, °C, dies 0 to 6. -/
  temps : List Nat
  /-- VFA, VFB, VSB and bus in mV (FEED_MV). -/
  mv : BitVec 64
  /-- PKG_W and VSB_MW (FEED_PWR). -/
  pwr : BitVec 32
  deriving DecidableEq, Repr

/-- The item of configuration a package sends in phase 05h (R452). -/
structure Coupling where
  pkg : Fin 4
  present : BitVec 4
  directory : Bool
  salt : BitVec 32
  slave : Bool
  /-- The sender's MASTER_LINK reaches the master. -/
  reaches : Bool
  deriving DecidableEq, Repr

/-- What an Initialisation phase finds when it completes (R449, R453). -/
structure PhaseIn where
  /-- SPD of the DIMMs, phase 03h. -/
  spds : List Spd
  /-- Channels with a lane that failed training, phase 04h. -/
  badLanes : List Nat
  /-- Die-to-die links that failed training, phase 04h. -/
  badLinks : List Nat
  /-- Coherence links trained, phase 04h. -/
  clTrained : List Nat
  /-- The asymmetry of each coherence link that training measured, in steps of 62.5 ps (R30). -/
  clAsym : List Int
  /-- SECONDS and steps copied by a slave, phase 05h (R30). -/
  slaveTod : Option (BitVec 64 × Nat)
  deriving DecidableEq, Repr

/-- Bits [lo + w - 1 : lo] of a word. -/
def field (x : BitVec n) (lo w : Nat) : Nat := (x.toNat >>> lo) % 2 ^ w

/-- Bit `i` of a word. -/
def bit (x : BitVec n) (i : Nat) : Bool := x.getLsbD i

/-- `b` as 0 or 1 of width 64. -/
def boolWord (b : Bool) : Word := if b then 1 else 0

end Sys2Proof
end

