-- ==== Sys2Proof/Syntax.lean ====
section
/-! DEFINITION. The commands of the block: one constructor for each row of the operation table, with
the operands the row's rule gives it. An instruction of a logical processor names the processor that
executes it (`lp`) and carries every field of its format (R84), so that a field the instruction does
not use can be checked for zero (R85). Events carry what the outside brings with them. -/

namespace Sys2Proof

/-- The commands (spec/opcode_table.json, one constructor a row). -/
inductive Instr where
  /-- TRANSIT_TICK (R35): A local tick edge on a die runs the tick boundary window events in fixed cycle order. -/
  | transitTick (inp : TickIn)
  /-- DIE_REALIGNMENT_COMPLETE (R33): Realignment of a deviating die completes, and Strikes are accepted again. -/
  | dieRealignmentComplete (die : Fin 6)
  /-- LANE_REMAP (R12): A die-to-die lane that failed CRC on more than 16 flits in one tick is remapped onto a spare lane in the next window. -/
  | laneRemap (link : Fin 13) (inbound : Bool)
  /-- IMBALANCE_EVENT (R43): A resource carrying more than four times its class mean for 1,000,000 counted ticks raises 0021h once. -/
  | imbalanceEvent (cls index : Nat)
  /-- PPS_EDGE (R23): A rising edge on a PPS input is filtered, counted, qualified and used to steer the loop. -/
  | ppsEdge (inputB : Bool) (off : Fin 160000) (highNs : Nat)
  /-- PPS_QUALIFICATION_LOSS (R25): A PPS input with no accepted edge for 1.5 s loses qualification. -/
  | ppsQualificationLoss (inputB : Bool) (off : Fin 160000)
  /-- REACQUIRE_TIMEOUT (R25): A loop that lost lock and has not reacquired within 1.5 s enters holdover. -/
  | reacquireTimeout
  /-- TIME_CODE_MESSAGE (R27): A received time-code message is checked and labels the next PPS edge, or raises 2014h in Operating mode. -/
  | timeCodeMessage (msg : BitVec 160) (sinceEdgeMs : Nat) (framing : Bool)
  /-- TIME_CODE_OUTPUT (R27): After each PPS_OUT edge the complex sends a time-code message while TCO_EN is set. -/
  | timeCodeOutput
  /-- TIME_TRANSFER_MESSAGE (R30): A time-transfer message between master and slave is timestamped, and the slave's offset is computed and slewed. -/
  | timeTransferMessage (link : Fin 4) (out back : Int)
  /-- KEEPER_DIE_LOSS (R34): Loss of the Keeper die puts the dies into holdover, in Degraded operating mode with no Strike. -/
  | keeperDieLoss
  /-- OSCILLATOR_INPUT_LOST (R507): No oscillator edge for 100 ns moves the TOD counters to the internal backup and raises 2016h. -/
  | oscillatorInputLost
  /-- OSCILLATOR_INPUT_RESTORED (R507): An input that has run for 1 s without a gap is taken back at cycle 24, and 0017h is raised. -/
  | oscillatorInputRestored
  /-- ALMANAC_RECORD_WRITTEN (R44): Once an Almanac record is globally visible, the writer advances ALM_WP. -/
  | almanacRecordWritten (die : Fin 7)
  /-- REGISTER_WRITE (R54): A service-space write to a register with no row of its own is performed by register type, or discarded and counted. -/
  | registerWrite (m : Master) (off : BitVec 31) (size : Nat) (v : Word)
  /-- DRAFT_WRITE (R70): A write by the Pen holder to an ST register sets its draft, and a change after PASS returns the drafts to dirty and cancels an uncommitted Strike. -/
  | draftWrite (m : Master) (off : BitVec 31) (size : Nat) (v : Word)
  /-- ERR_CLEAR (R57): COMMAND 01h clears ERR_FIRST and ERR_NEXT in one fabric cycle. -/
  | errClear (m : Master) (page : BitVec 19)
  /-- PEN_TAKE (R63): A master writes its own code to a free Pen and is granted it, with arbitration among contenders in one Keeper cycle. -/
  | penTake (contenders : List Master)
  /-- PEN_RELEASE (R66): The holder writes 00b, and the Pen is released with every draft discarded. -/
  | penRelease (m : Master)
  /-- PEN_BREAK (R66): A Service Port writes its own code with BREAK set, takes the Pen, and 2042h is raised. -/
  | penBreak (m : Master)
  /-- PEN_RENEW (R65): A write by the holder to PEN_RENEW sets LEASE_LEFT to 1,000. -/
  | penRenew (m : Master)
  /-- LEASE_EXPIRY (R66): LEASE_LEFT reaching zero releases the Pen, discards every draft and raises 2042h. -/
  | leaseExpiry
  /-- PROOF_START (R67): The holder writes PROOF_CMD with GO set, and Proof begins. -/
  | proofStart (m : Master)
  /-- PROOF_COMPLETE (R68): Proof finishes its checks and posts one code in PROOF_RESULT. -/
  | proofComplete
  /-- STRIKE_AT_TICK (R71): STRIKE_CMD OP 01b orders a Strike at STRIKE_TICK, or it is refused. -/
  | strikeAtTick (m : Master) (cycle : Fin 25000)
  /-- STRIKE_AT_E (R71): STRIKE_CMD OP 10b orders a Strike at the earliest permitted tick E. -/
  | strikeAtE (m : Master) (cycle : Fin 25000)
  /-- STRIKE_CANCEL (R71): STRIKE_CMD OP 11b cancels an ordered Strike that is not yet committed. -/
  | strikeCancel (m : Master)
  /-- ARM_ACKNOWLEDGEMENT (R73): A die acknowledges the arming of a Strike over the Keeper service link. -/
  | armAcknowledgement (die : Fin 7)
  /-- QUIESCE_ENTRY (R74): At cycle 8 of tick T minus 10, a quiesce-strike enters Quiesce mode. -/
  | quiesceEntry
  /-- UNIT_QUIESCED (R465): A unit reports quiesced once its Quiesce condition holds. -/
  | unitQuiesced (unit : Nat)
  /-- STRIKE_ACK_DEADLINE (R73): At cycle 20,000 of tick T minus 1 a Strike missing acknowledgements or quiesced reports is cancelled. -/
  | strikeAckDeadline
  /-- STRIKE_COMMIT (R73): At cycle 22,500 of tick T minus 1 the Strike is committed on the tick distribution lines. -/
  | strikeCommit
  /-- QUIESCE_EXIT (R74): From cycle 9 of tick T the units leave Quiesce and resume, and held offers are made. -/
  | quiesceExit
  /-- SIDEBAND_POINTER_WRITE (R505): An I3C private write sets the sideband page and offset pointer. -/
  | sidebandPointerWrite (portB : Bool) (bytes : List Byte)
  /-- SIDEBAND_READ (R505): An I3C private read returns 4 or 8 bytes from the pointer, and is refused with NACK beyond sixteen per tick. -/
  | sidebandRead (portB : Bool)
  /-- ADD (R93): Writes a plus b modulo 2^64 to GD. -/
  | add (lp : Fin 48) (d a b c : Fin 32)
  /-- SUB (R93): Writes a minus b to GD. -/
  | sub (lp : Fin 48) (d a b c : Fin 32)
  /-- ADDC (R98): Adds with carry-in from GC and writes the carry out to GC. -/
  | addc (lp : Fin 48) (d a b c : Fin 32)
  /-- SUBC (R98): Subtracts with borrow-in from GC and writes the borrow to GC. -/
  | subc (lp : Fin 48) (d a b c : Fin 32)
  /-- AND (R93): Writes the bitwise AND to GD. -/
  | and (lp : Fin 48) (d a b c : Fin 32)
  /-- OR (R93): Writes the bitwise OR to GD. -/
  | or (lp : Fin 48) (d a b c : Fin 32)
  /-- XOR (R93): Writes the bitwise XOR to GD. -/
  | xor (lp : Fin 48) (d a b c : Fin 32)
  /-- ANDN (R93): Writes a AND NOT b to GD. -/
  | andn (lp : Fin 48) (d a b c : Fin 32)
  /-- ORN (R93): Writes a OR NOT b to GD. -/
  | orn (lp : Fin 48) (d a b c : Fin 32)
  /-- XNOR (R93): Writes NOT (a XOR b) to GD. -/
  | xnor (lp : Fin 48) (d a b c : Fin 32)
  /-- SLL (R93): Shifts a left by b[5:0]. -/
  | sll (lp : Fin 48) (d a b c : Fin 32)
  /-- SRL (R93): Shifts a logically right by b[5:0]. -/
  | srl (lp : Fin 48) (d a b c : Fin 32)
  /-- SRA (R93): Shifts a arithmetically right by b[5:0]. -/
  | sra (lp : Fin 48) (d a b c : Fin 32)
  /-- ROL (R93): Rotates a left by b[5:0]. -/
  | rol (lp : Fin 48) (d a b c : Fin 32)
  /-- CLZ (R93): Counts the leading zero bits of a. -/
  | clz (lp : Fin 48) (d a b c : Fin 32)
  /-- CTZ (R93): Counts the trailing zero bits of a. -/
  | ctz (lp : Fin 48) (d a b c : Fin 32)
  /-- POPC (R93): Counts the one bits of a. -/
  | popc (lp : Fin 48) (d a b c : Fin 32)
  /-- EXTB (R93): Sign-extends a[7:0]. -/
  | extb (lp : Fin 48) (d a b c : Fin 32)
  /-- EXTH (R93): Sign-extends a[15:0]. -/
  | exth (lp : Fin 48) (d a b c : Fin 32)
  /-- EXTW (R93): Sign-extends a[31:0]. -/
  | extw (lp : Fin 48) (d a b c : Fin 32)
  /-- CMPEQ (R93): Writes 1 if a equals b, else 0. -/
  | cmpeq (lp : Fin 48) (d a b c : Fin 32)
  /-- CMPNE (R93): Writes 1 if a differs from b, else 0. -/
  | cmpne (lp : Fin 48) (d a b c : Fin 32)
  /-- CMPLT (R93): Writes 1 if a is less than b as signed, else 0. -/
  | cmplt (lp : Fin 48) (d a b c : Fin 32)
  /-- CMPLTU (R93): Writes 1 if a is less than b as unsigned, else 0. -/
  | cmpltu (lp : Fin 48) (d a b c : Fin 32)
  /-- CMPLE (R93): Writes 1 if a is at most b as signed, else 0. -/
  | cmple (lp : Fin 48) (d a b c : Fin 32)
  /-- CMPLEU (R93): Writes 1 if a is at most b as unsigned, else 0. -/
  | cmpleu (lp : Fin 48) (d a b c : Fin 32)
  /-- SEL (R93): Writes a if c is non-zero, else b. -/
  | sel (lp : Fin 48) (d a b c : Fin 32)
  /-- DADJ (R114): Adds two sixteen-digit packed register values with a decimal carry. -/
  | dadj (lp : Fin 48) (d a b c : Fin 32)
  /-- MUL (R99): Writes the low 64 bits of the product. -/
  | mul (lp : Fin 48) (d a b c : Fin 32)
  /-- MULWU (R99): Writes the unsigned 128-bit product to GD and GD+1. -/
  | mulwu (lp : Fin 48) (d a b c : Fin 32)
  /-- MULWS (R99): Writes the signed 128-bit product to GD and GD+1. -/
  | mulws (lp : Fin 48) (d a b c : Fin 32)
  /-- MULQ (R100): Multiplies two 128-bit operands into four registers on the iterative multiplier. -/
  | mulq (lp : Fin 48) (d a b c : Fin 32)
  /-- DIVS (R101): Signed division, writing the quotient to GD and the remainder to GC, with fixed results for divide by zero. -/
  | divs (lp : Fin 48) (d a b c : Fin 32)
  /-- DIVU (R101): Unsigned division, writing the quotient and the remainder. -/
  | divu (lp : Fin 48) (d a b c : Fin 32)
  /-- JR (R96): Writes the return address to GD and branches to GA. -/
  | jr (lp : Fin 48) (d a b c : Fin 32)
  /-- LBU (R95): Loads a byte, zero-extended. -/
  | lbu (lp : Fin 48) (t b : Fin 32) (disp : BitVec 16)
  /-- LBS (R95): Loads a byte, sign-extended. -/
  | lbs (lp : Fin 48) (t b : Fin 32) (disp : BitVec 16)
  /-- LHU (R95): Loads 2 bytes, zero-extended. -/
  | lhu (lp : Fin 48) (t b : Fin 32) (disp : BitVec 16)
  /-- LHS (R95): Loads 2 bytes, sign-extended. -/
  | lhs (lp : Fin 48) (t b : Fin 32) (disp : BitVec 16)
  /-- LWU (R95): Loads 4 bytes, zero-extended. -/
  | lwu (lp : Fin 48) (t b : Fin 32) (disp : BitVec 16)
  /-- LWS (R95): Loads 4 bytes, sign-extended. -/
  | lws (lp : Fin 48) (t b : Fin 32) (disp : BitVec 16)
  /-- LD (R95): Loads 8 bytes. -/
  | ld (lp : Fin 48) (t b : Fin 32) (disp : BitVec 16)
  /-- LDUP (R95): Loads 8 bytes and writes the effective address to B. -/
  | ldup (lp : Fin 48) (t b : Fin 32) (disp : BitVec 16)
  /-- STB (R95): Stores the low byte of T. -/
  | stb (lp : Fin 48) (t b : Fin 32) (disp : BitVec 16)
  /-- STH (R95): Stores the low 2 bytes of T. -/
  | sth (lp : Fin 48) (t b : Fin 32) (disp : BitVec 16)
  /-- STW (R95): Stores the low 4 bytes of T. -/
  | stw (lp : Fin 48) (t b : Fin 32) (disp : BitVec 16)
  /-- STD (R95): Stores 8 bytes of T. -/
  | std (lp : Fin 48) (t b : Fin 32) (disp : BitVec 16)
  /-- STDUP (R95): Stores 8 bytes and writes the effective address to B. -/
  | stdup (lp : Fin 48) (t b : Fin 32) (disp : BitVec 16)
  /-- LFS (R134): Loads 4 bytes into the binary32 position of a floating register. -/
  | lfs (lp : Fin 48) (t b : Fin 32) (disp : BitVec 16)
  /-- LFD (R134): Loads 8 bytes into the binary64 position. -/
  | lfd (lp : Fin 48) (t b : Fin 32) (disp : BitVec 16)
  /-- LFQ (R134): Loads 16 bytes into a floating register. -/
  | lfq (lp : Fin 48) (t b : Fin 32) (disp : BitVec 16)
  /-- STFS (R134): Stores the binary32 position of a floating register. -/
  | stfs (lp : Fin 48) (t b : Fin 32) (disp : BitVec 16)
  /-- STFD (R134): Stores the binary64 position. -/
  | stfd (lp : Fin 48) (t b : Fin 32) (disp : BitVec 16)
  /-- STFQ (R134): Stores all 16 bytes. -/
  | stfq (lp : Fin 48) (t b : Fin 32) (disp : BitVec 16)
  /-- LDUA (R183): Loads 8 bytes, checked as a User-state access. -/
  | ldua (lp : Fin 48) (t b : Fin 32) (disp : BitVec 16)
  /-- STUA (R183): Stores 8 bytes, checked as a User-state access. -/
  | stua (lp : Fin 48) (t b : Fin 32) (disp : BitVec 16)
  /-- ADDI (R94): Adds the sign-extended immediate. -/
  | addi (lp : Fin 48) (d a : Fin 32) (imm : BitVec 16)
  /-- ADDIS (R94): Adds the sign-extended immediate shifted left by 16. -/
  | addis (lp : Fin 48) (d a : Fin 32) (imm : BitVec 16)
  /-- ANDI (R94): Bitwise AND with the zero-extended immediate. -/
  | andi (lp : Fin 48) (d a : Fin 32) (imm : BitVec 16)
  /-- ORI (R94): Bitwise OR with the zero-extended immediate. -/
  | ori (lp : Fin 48) (d a : Fin 32) (imm : BitVec 16)
  /-- XORI (R94): Bitwise XOR with the zero-extended immediate. -/
  | xori (lp : Fin 48) (d a : Fin 32) (imm : BitVec 16)
  /-- CMPEQI (R94): Compares with the immediate for equality. -/
  | cmpeqi (lp : Fin 48) (d a : Fin 32) (imm : BitVec 16)
  /-- CMPLTI (R94): Compares with the immediate, signed less-than. -/
  | cmplti (lp : Fin 48) (d a : Fin 32) (imm : BitVec 16)
  /-- CMPLTUI (R94): Compares with the immediate, unsigned less-than. -/
  | cmpltui (lp : Fin 48) (d a : Fin 32) (imm : BitVec 16)
  /-- SHI (R94): Shifts or rotates by an immediate amount. -/
  | shi (lp : Fin 48) (d a : Fin 32) (imm : BitVec 16)
  /-- BZ (R96): Branches when GT is zero. -/
  | bz (lp : Fin 48) (t : Fin 32) (disp : BitVec 21)
  /-- BNZ (R96): Branches when GT is non-zero. -/
  | bnz (lp : Fin 48) (t : Fin 32) (disp : BitVec 21)
  /-- BAL (R96): Writes the return address to GT and branches. -/
  | bal (lp : Fin 48) (t : Fin 32) (disp : BitVec 21)
  /-- FENCE_L (R161): Waits until every earlier load is performed. -/
  | fenceL (lp : Fin 48) (d a b c : Fin 32)
  /-- FENCE_S (R161): Waits until every earlier store is performed. -/
  | fenceS (lp : Fin 48) (d a b c : Fin 32)
  /-- FENCE_A (R161): Waits until every earlier load and store is performed. -/
  | fenceA (lp : Fin 48) (d a b c : Fin 32)
  /-- RDTOD (R104): Writes the local die's SECONDS and FRACTION from one instant. -/
  | rdtod (lp : Fin 48) (d a b c : Fin 32) (off : Fin 160000)
  /-- RDTICK (R104): Writes the local Transit number. -/
  | rdtick (lp : Fin 48) (d a b c : Fin 32)
  /-- MFC (R82): Reads a control register into GD. -/
  | mfc (lp : Fin 48) (d a b c : Fin 32)
  /-- MTC (R82): Writes GA to a control register, with the checks that register carries. -/
  | mtc (lp : Fin 48) (d a b c : Fin 32)
  /-- RFE (R92): Restores PSWA and PSWS from the saved registers of the current state. -/
  | rfe (lp : Fin 48) (d a b c : Fin 32)
  /-- MCALL (R92): Enters Manager state with the code from register A. -/
  | mcall (lp : Fin 48) (d a b c : Fin 32)
  /-- SVC (R92): Enters Supervisor state, or Manager if intercepted, with the IMM code. -/
  | svc (lp : Fin 48) (d a : Fin 32) (imm : BitVec 16)
  /-- REP_I (R107): Repeats the next instruction GN times, interruptible between iterations. -/
  | repI (lp : Fin 48) (n : Fin 32) (low : BitVec 20) (body : Instr)
  /-- REP_N (R108): Repeats the next instruction up to 64 times as one uninterruptible instruction. -/
  | repN (lp : Fin 48) (n : Fin 32) (low : BitVec 20) (body : Instr)
  /-- SMOV (R103): Copies bytes in ascending order after a pre-test of every page. -/
  | smov (lp : Fin 48) (rg : Fin 32) (l1 l2 : BitVec 8) (b1 : Fin 32) (d1 : BitVec 11) (b2 : Fin 32) (d2 : BitVec 11)
  /-- SCMP (R103): Compares two byte strings and writes −1, 0 or +1. -/
  | scmp (lp : Fin 48) (rg : Fin 32) (l1 l2 : BitVec 8) (b1 : Fin 32) (d1 : BitVec 11) (b2 : Fin 32) (d2 : BitVec 11)
  /-- SXOR (R103): XORs the second operand into the first. -/
  | sxor (lp : Fin 48) (rg : Fin 32) (l1 l2 : BitVec 8) (b1 : Fin 32) (d1 : BitVec 11) (b2 : Fin 32) (d2 : BitVec 11)
  /-- DADD (R118): Adds two packed fields into the first operand. -/
  | dadd (lp : Fin 48) (rg : Fin 32) (l1 l2 : BitVec 8) (b1 : Fin 32) (d1 : BitVec 11) (b2 : Fin 32) (d2 : BitVec 11)
  /-- DSUB (R118): Subtracts packed fields into the first operand. -/
  | dsub (lp : Fin 48) (rg : Fin 32) (l1 l2 : BitVec 8) (b1 : Fin 32) (d1 : BitVec 11) (b2 : Fin 32) (d2 : BitVec 11)
  /-- DMUL (R120): Multiplies packed fields into the first operand. -/
  | dmul (lp : Fin 48) (rg : Fin 32) (l1 l2 : BitVec 8) (b1 : Fin 32) (d1 : BitVec 11) (b2 : Fin 32) (d2 : BitVec 11)
  /-- DDIV (R121): Divides packed fields, storing the quotient and the remainder. -/
  | ddiv (lp : Fin 48) (rg : Fin 32) (l1 l2 : BitVec 8) (b1 : Fin 32) (d1 : BitVec 11) (b2 : Fin 32) (d2 : BitVec 11)
  /-- DCMP (R119): Compares packed fields algebraically. -/
  | dcmp (lp : Fin 48) (rg : Fin 32) (l1 l2 : BitVec 8) (b1 : Fin 32) (d1 : BitVec 11) (b2 : Fin 32) (d2 : BitVec 11)
  /-- DSHR (R122): Shifts a packed field by a power of ten and rounds by the mode. -/
  | dshr (lp : Fin 48) (rg : Fin 32) (l1 l2 : BitVec 8) (b1 : Fin 32) (d1 : BitVec 11) (b2 : Fin 32) (d2 : BitVec 11)
  /-- DCOPY (R118): Copies a packed field with its sign normalised. -/
  | dcopy (lp : Fin 48) (rg : Fin 32) (l1 l2 : BitVec 8) (b1 : Fin 32) (d1 : BitVec 11) (b2 : Fin 32) (d2 : BitVec 11)
  /-- DZTP (R123): Converts zoned to packed. -/
  | dztp (lp : Fin 48) (rg : Fin 32) (l1 l2 : BitVec 8) (b1 : Fin 32) (d1 : BitVec 11) (b2 : Fin 32) (d2 : BitVec 11)
  /-- DPTZ (R124): Converts packed to zoned. -/
  | dptz (lp : Fin 48) (rg : Fin 32) (l1 l2 : BitVec 8) (b1 : Fin 32) (d1 : BitVec 11) (b2 : Fin 32) (d2 : BitVec 11)
  /-- DTOB (R125): Converts packed to signed binary. -/
  | dtob (lp : Fin 48) (rg : Fin 32) (l1 l2 : BitVec 8) (b1 : Fin 32) (d1 : BitVec 11) (b2 : Fin 32) (d2 : BitVec 11)
  /-- DFRB (R126): Converts signed binary to packed. -/
  | dfrb (lp : Fin 48) (rg : Fin 32) (l1 l2 : BitVec 8) (b1 : Fin 32) (d1 : BitVec 11) (b2 : Fin 32) (d2 : BitVec 11)
  /-- FADD_D (R139): Binary64 addition, correctly rounded. -/
  | faddD (lp : Fin 48) (d a b c : Fin 32)
  /-- FADD_Q (R139): Binary128 addition, correctly rounded. -/
  | faddQ (lp : Fin 48) (d a b c : Fin 32)
  /-- FSUB_D (R139): Binary64 subtraction. -/
  | fsubD (lp : Fin 48) (d a b c : Fin 32)
  /-- FSUB_Q (R139): Binary128 subtraction. -/
  | fsubQ (lp : Fin 48) (d a b c : Fin 32)
  /-- FMUL_D (R139): Binary64 multiplication. -/
  | fmulD (lp : Fin 48) (d a b c : Fin 32)
  /-- FMUL_Q (R139): Binary128 multiplication. -/
  | fmulQ (lp : Fin 48) (d a b c : Fin 32)
  /-- FDIV_D (R139): Binary64 division. -/
  | fdivD (lp : Fin 48) (d a b c : Fin 32)
  /-- FDIV_Q (R139): Binary128 division. -/
  | fdivQ (lp : Fin 48) (d a b c : Fin 32)
  /-- FSQRT_D (R139): Binary64 square root. -/
  | fsqrtD (lp : Fin 48) (d a b c : Fin 32)
  /-- FSQRT_Q (R139): Binary128 square root. -/
  | fsqrtQ (lp : Fin 48) (d a b c : Fin 32)
  /-- FMA_D (R139): Binary64 fused multiply-add. -/
  | fmaD (lp : Fin 48) (d a b c : Fin 32)
  /-- FMA_Q (R139): Binary128 fused multiply-add. -/
  | fmaQ (lp : Fin 48) (d a b c : Fin 32)
  /-- FMS_D (R139): Binary64 fused multiply-subtract. -/
  | fmsD (lp : Fin 48) (d a b c : Fin 32)
  /-- FMS_Q (R139): Binary128 fused multiply-subtract. -/
  | fmsQ (lp : Fin 48) (d a b c : Fin 32)
  /-- FCMPEQ (R144): Floating compare for equality into GD. -/
  | fcmpeq (lp : Fin 48) (q : Bool) (d a b c : Fin 32)
  /-- FCMPLT (R144): Floating compare less-than into GD. -/
  | fcmplt (lp : Fin 48) (q : Bool) (d a b c : Fin 32)
  /-- FCMPLE (R144): Floating compare less-or-equal into GD. -/
  | fcmple (lp : Fin 48) (q : Bool) (d a b c : Fin 32)
  /-- FCMPUN (R144): Floating compare unordered into GD. -/
  | fcmpun (lp : Fin 48) (q : Bool) (d a b c : Fin 32)
  /-- FMIN (R144): IEEE minimumNumber. -/
  | fmin (lp : Fin 48) (q : Bool) (d a b c : Fin 32)
  /-- FMAX (R144): IEEE maximumNumber. -/
  | fmax (lp : Fin 48) (q : Bool) (d a b c : Fin 32)
  /-- FMVF (R138): Moves two general registers into a floating register. -/
  | fmvf (lp : Fin 48) (d a b c : Fin 32)
  /-- FMVGH (R138): Moves the high half of a floating register to GD. -/
  | fmvgh (lp : Fin 48) (d a b c : Fin 32)
  /-- FMVGL (R138): Moves the low half of a floating register to GD. -/
  | fmvgl (lp : Fin 48) (d a b c : Fin 32)
  /-- FNEG (R138): Inverts bit 127. -/
  | fneg (lp : Fin 48) (d a b c : Fin 32)
  /-- FABS (R138): Clears bit 127. -/
  | fabs (lp : Fin 48) (d a b c : Fin 32)
  /-- FCPYSGN (R138): Takes bit 127 from FB. -/
  | fcpysgn (lp : Fin 48) (d a b c : Fin 32)
  /-- FMOV (R138): Copies all 128 bits. -/
  | fmov (lp : Fin 48) (d a b c : Fin 32)
  /-- FCVT (R145): Converts between binary formats, widening exactly or narrowing with rounding. -/
  | fcvt (lp : Fin 48) (k : Fin 6) (d a b c : Fin 32)
  /-- FCVTI (R146): Converts a float to a signed 64-bit integer. -/
  | fcvti (lp : Fin 48) (q : Bool) (d a b c : Fin 32)
  /-- FCVTU (R146): Converts a float to an unsigned 64-bit integer. -/
  | fcvtu (lp : Fin 48) (q : Bool) (d a b c : Fin 32)
  /-- FCVTF (R146): Converts a signed integer to a float. -/
  | fcvtf (lp : Fin 48) (q : Bool) (d a b c : Fin 32)
  /-- FCVTFU (R146): Converts an unsigned integer to a float. -/
  | fcvtfu (lp : Fin 48) (q : Bool) (d a b c : Fin 32)
  /-- FTOPD (R147): Converts a scaled float to a 31-digit packed integer. -/
  | ftopd (lp : Fin 48) (q : Bool) (d a b c : Fin 32)
  /-- FFRPD (R147): Converts a scaled 31-digit packed integer to a float. -/
  | ffrpd (lp : Fin 48) (q : Bool) (d a b c : Fin 32)
  /-- MFFPC (R136): Reads FPC into GD. -/
  | mffpc (lp : Fin 48) (d a b c : Fin 32)
  /-- MTFPC (R136): Writes FPC from GA. -/
  | mtfpc (lp : Fin 48) (d a b c : Fin 32)
  /-- LDRSV (R169): Loads and sets a reservation on the granule. -/
  | ldrsv (lp : Fin 48) (d a b c : Fin 32)
  /-- STCND (R172): Stores only if the reservation holds, and writes 1 or 0. -/
  | stcnd (lp : Fin 48) (d a b c : Fin 32)
  /-- CSWP (R172): Atomic compare and swap. -/
  | cswp (lp : Fin 48) (d a b c : Fin 32)
  /-- FADD (R172): Atomic fetch and add. -/
  | fadd (lp : Fin 48) (d a b c : Fin 32)
  /-- CCLN (R216): Cleans a line by address or by set and way. -/
  | ccln (lp : Fin 48) (d a b c : Fin 32)
  /-- CINV (R216): Invalidates a line, discarding dirty data. -/
  | cinv (lp : Fin 48) (d a b c : Fin 32)
  /-- CCLI (R216): Cleans and then invalidates a line. -/
  | ccli (lp : Fin 48) (d a b c : Fin 32)
  /-- CRANGE (R219): Starts a Burin range operation on one compute die if the engine is idle. -/
  | crange (lp : Fin 48) (d a b c : Fin 32)
  /-- CRSTAT (R223): Writes a Burin engine's status to GD. -/
  | crstat (lp : Fin 48) (d a b c : Fin 32)
  /-- TLBI_VA (R193): Removes the translations covering a virtual address in every pair and root port. -/
  | tlbiVa (lp : Fin 48) (d a b c : Fin 32)
  /-- TLBI_ASID (R193): Removes the non-global translations of an ASID. -/
  | tlbiAsid (lp : Fin 48) (d a b c : Fin 32)
  /-- TLBI_PART (R193): Removes every translation, zone and I/O cache entry of a context. -/
  | tlbiPart (lp : Fin 48) (d a b c : Fin 32)
  /-- IOSTART (R292): Starts a channel operation after both journal writes, or refuses it. -/
  | iostart (lp : Fin 48) (d a b c : Fin 32)
  /-- IOHALT (R304): Requests that an operation end early at a window boundary. -/
  | iohalt (lp : Fin 48) (d a b c : Fin 32)
  /-- IOCLEAR (R305): Stores and removes a pending status and ends any operation by force. -/
  | ioclear (lp : Fin 48) (d a b c : Fin 32)
  /-- IOTEST (R307): Stores and removes a pending status. -/
  | iotest (lp : Fin 48) (d a b c : Fin 32)
  /-- IOSTORE (R308): Stores the Subchannel Record. -/
  | iostore (lp : Fin 48) (d a b c : Fin 32)
  /-- IOMODIFY (R309): Replaces ENABLED, ISC and LPM of a subchannel. -/
  | iomodify (lp : Fin 48) (d a b c : Fin 32)
  /-- ACCESSED_DIRTY_UPDATE (R190): When the access is oldest, hardware sets A or D by compare-and-swap at the home, restarting the walk on failure. -/
  | accessedDirtyUpdate (lp : Fin 48) (va : Word) (store : Bool) (expected : Word)
  /-- CHECKPOINT_CLOSE (R261): A checkpoint interval closes clean, the new checkpoint becomes current and the gated stores are released. -/
  | checkpointClose (lp : Fin 48)
  /-- INTERVAL_LIMIT (R260): Reaching 256 instructions or 2,048 cycles closes the interval at the next boundary. -/
  | intervalLimit (lp : Fin 48)
  /-- RELEASED_ENTRY_DRAIN (R262): A released store-gate entry leaves for the L2 or the root port in release order. -/
  | releasedEntryDrain (lp : Fin 48)
  /-- DEVICE_STORE (R166): A Device store reaches the root port's posted queue, or is discarded on a down link. -/
  | deviceStore (lp : Fin 48) (rid : BitVec 16)
  /-- DEVICE_LOAD (R155): A Device load is issued as the oldest instruction and performed exactly once. -/
  | deviceLoad (lp : Fin 48) (rid : BitVec 16)
  /-- CREDIT_TIMEOUT (R167): A store held 1 ms without credit triggers containment, and the held writes are discarded. -/
  | creditTimeout (port : Fin 4) (rid : BitVec 16)
  /-- DEVICE_LOAD_TIMEOUT (R168): A Device load not completed within 1 ms completes with all ones and triggers containment. -/
  | deviceLoadTimeout (lp : Fin 48)
  /-- CONTAINMENT_COMPLETE (R167): The function is isolated, its held writes are discarded and counted as performed, and waiting barriers complete. -/
  | containmentComplete (port : Fin 4) (rid : BitVec 16)
  /-- POSTED_WRITE (R165): A root port performs an inbound posted write of a function in arrival order. -/
  | postedWrite (port : Fin 4) (rid : BitVec 16) (pasid : Option (BitVec 20)) (addr : Word) (data : List Byte)
  /-- DMA_REQUEST (R202): Open-function DMA is translated by context, PASID, walk and zone, or blocked. -/
  | dmaRequest (port : Fin 4) (rid : BitVec 16) (pasid : Option (BitVec 20)) (addr : Word) (write : Bool) (len : Nat) (data : List Byte)
  /-- MSIX_MESSAGE (R382): A posted MSI-X write is recognised, delivered within the budget, coalesced or discarded. -/
  | msixMessage (port : Fin 4) (rid : BitVec 16) (data : BitVec 32)
  /-- PREFETCH (R213): A confirmed stride stream requests lines ahead into the L1 and the L2. -/
  | prefetch (lp : Fin 48) (va : Word) (store : Bool)
  /-- L2_EVICTION (R215): An L2 evicts a line by EvC or WbM and holds the tag leaving until acknowledged. -/
  | l2Eviction (pair : Fin 48) (line : Nat)
  /-- BURIN_SET (R220): The Burin engine handles one set of every L2 and L3 on the die and advances its cursor. -/
  | burinSet (die : Fin 4)
  /-- BURIN_COMPLETE (R222): BUSY clears when the cursor has passed set 2,047 and every writeback has been acknowledged. -/
  | burinComplete (die : Fin 4)
  /-- RDS (R239): A shared read is ordered at the die ordering point or served at the home. -/
  | rds (who : Agent) (line : Nat)
  /-- RDO (R239): An ownership read is served at the die or at the home with SnpO. -/
  | rdo (who : Agent) (line : Nat)
  /-- UPG (R239): An upgrade invalidates the other copies and is answered with Ack. -/
  | upg (who : Agent) (line : Nat)
  /-- RDNA (R239): A non-allocating read returns a copy of the newest data. -/
  | rdna (who : Agent) (line : Nat)
  /-- WRL (R239): A full-line write by a non-caching agent is written to memory after SnpO. -/
  | wrl (who : Agent) (line : Nat) (data : List Byte) (poisoned : Bool)
  /-- WRP (R242): A partial write is merged at the home, optionally with a compare. -/
  | wrp (who : Agent) (line : Nat) (offset : Nat) (data : List Byte) (compare : Option (List Byte)) (poisoned : Bool)
  /-- EVC (R248): A clean eviction is acknowledged, or parked for a blocked line. -/
  | evc (who : Agent) (line : Nat)
  /-- WBM (R248): A dirty eviction is written to memory, or parked for a blocked line. -/
  | wbm (who : Agent) (line : Nat)
  /-- SNPS (R238): A shared snoop is answered by a die according to the state it holds. -/
  | snps (die : Fin 16) (line : Nat)
  /-- SNPO (R238): An ownership snoop invalidates the die's copies and is answered. -/
  | snpo (die : Fin 16) (line : Nat)
  /-- SNPNA (R238): A non-allocating snoop, or a PROBE, is answered without a change of state. -/
  | snpna (die : Fin 16) (line : Nat) (probe : Bool)
  /-- CROSSED (R249): The home takes the crossing eviction from the record and serves the transaction from it. -/
  | crossed (die : Fin 16) (line : Nat)
  /-- ACK (R254): An Ack with its flags completes a requester's or an evicter's wait. -/
  | ack (pair : Fin 48) (line : Nat) (shared hold stale cmpok poison : Bool)
  /-- RETRY (R236): A refused requester backs off, joins the reserve list or takes a ticket. -/
  | retry (pair : Fin 48) (line : Nat)
  /-- RETRY_REISSUE (R236): After its back-off wait a refused request is issued again. -/
  | retryReissue (pair : Fin 48) (line : Nat)
  /-- TICKET_PASS_OVER (R236): A ticket not reissued within 8,192 cycles of becoming lowest is passed over. -/
  | ticketPassOver (slice : Fin 96)
  /-- COMPACK (R239): CompAck ends the transaction and unblocks the line, updating the directory entry. -/
  | compack (line : Nat)
  /-- MRD (R239): The memory controller begins the read of a line for the home. -/
  | mrd (line : Nat) (badDevices : List (Fin 10))
  /-- MGO (R239): The memory controller delivers the read data directly to the requester. -/
  | mgo (line : Nat)
  /-- MDROP (R239): The memory controller discards the read data. -/
  | mdrop (line : Nat)
  /-- MWR (R239): The memory controller writes a line to DRAM or to scratch. -/
  | mwr (line : Nat)
  /-- DATA_FILL (R239): DataS, DataE or DataM fills the requester in L, E or M, and CompAck is sent. -/
  | dataFill (pair : Fin 48) (line : Nat)
  /-- DIRECTORY_PROBE (R245): Directory maintenance sends a PROBE to the recorded dies and removes stale pointers. -/
  | directoryProbe (line : Nat)
  /-- TRANSACTION_HOLD (R237): A transaction open for 1 ms sends its requester an Ack with HOLD, every 1 ms. -/
  | transactionHold (line : Nat)
  /-- SNOOP_TIMEOUT (R251): A snoop not answered within SNP_TO ends the transaction, with the line poisoned and 40A1h raised. -/
  | snoopTimeout (line : Nat)
  /-- REQUESTER_TIMEOUT (R252): A request with no response for 4 ms ends by type, and 40A2h is raised. -/
  | requesterTimeout (who : Agent) (line : Nat)
  /-- FLIT (R256): A received coherence-link flit is FEC-corrected and CRC-checked, and refused by NAK on failure. -/
  | flit (link : Fin 4) (flit : BitVec 2048)
  /-- NAK (R256): The sender replays from the refused flit. -/
  | nak (link : Fin 4) (seq : BitVec 12)
  /-- LINK_RETRAIN (R256): A link with more than 64 replays in one tick, or with flit lock lost, retrains, and 20A4h is raised. -/
  | linkRetrain (link : Fin 4) (lostLock : Bool)
  /-- LINK_RETRAIN_COMPLETE (R256): A retrain completes and the link resumes from its replay buffer, possibly at x8. -/
  | linkRetrainComplete (link : Fin 4) (ok : Bool) (x8 : Bool) (tookUs : Nat)
  /-- LINK_FAILED (R256): A link that fails retraining moves its traffic to the alternate route, or fences or checkstops a package. -/
  | linkFailed (link : Fin 4)
  /-- DEPARTURE_ANNOUNCEMENT (R463): A package entering warm reset announces its departure, and the others fence it or join the reset. -/
  | departureAnnouncement (pkg : Fin 4)
  /-- MISMATCH (R266): A comparator mismatch or copy parity error is classed and counted, and starts a retry or a sparing. -/
  | mismatch (pair : Fin 48) (kind : MismatchKind) (slice : Fin 22) (sinceEdge : Nat)
  /-- RETRY_RESTART (R265): After the copy reset and checkpoint load, fetch restarts at the checkpointed address. -/
  | retryRestart (pair : Fin 48)
  /-- DOMAIN_POWER_UP_COMPLETE (R490): A power domain, such as a dormant pair, finishes its ramp, initialisation or load. -/
  | domainPowerUpComplete (dom : Domain)
  /-- SPARING_WRITEBACK_COMPLETE (R15): The failing pair's released stores have drained and its L2 has been written back. -/
  | sparingWritebackComplete (pair : Fin 48)
  /-- CHECKPOINT_COPY_COMPLETE (R15): The checkpoint has been copied to the new pair and ECC-checked. -/
  | checkpointCopyComplete (pair : Fin 48)
  /-- SPARING_RESUME (R15): At cycle 32 of the window after the copy, the new pair takes the identity and resumes, and the old pair is power-gated. -/
  | sparingResume (pair : Fin 48)
  /-- ROTATION_PERIOD_EXPIRY (R275): DAYS after the previous rotation, a scheduled rotation begins its preparation. -/
  | rotationPeriodExpiry
  /-- BEGIN_ROTATION (R275): KEEPER COMMAND 10h begins a rotation at once, optionally on a named pair. -/
  | beginRotation (m : Master) (arg : BitVec 24)
  /-- PRE_CLEANING_END (R276): At cycle 64, with at most 4,096 dirty lines or after 100,000 ticks, pre-cleaning ends and the switch is ordered. -/
  | preCleaningEnd
  /-- ROTATION_SWITCH (R277): The active pair closes clean, drains and writes back, and its checkpoint is copied to the new pair. -/
  | rotationSwitch
  /-- ROTATION_RESUME (R277): At cycle 32 of tick S plus 3 the new pair resumes, and the old pair becomes dormant. -/
  | rotationResume
  /-- ROTATION_RETRY (R278): An abandoned rotation is tried again one hour later. -/
  | rotationRetry
  /-- DEBUG_HALT (R281): Writing 1 to DEBUG_CTL.HALT requests that the pair stop at the next boundary. -/
  | debugHalt (m : Master) (pair : Fin 48)
  /-- HALT_DONE (R281): The halted pair has drained its released entries, and HALT_DONE is set. -/
  | haltDone (pair : Fin 48)
  /-- DEBUG_STEP (R282): STEP runs one instruction from the checkpoint and halts again. -/
  | debugStep (m : Master) (pair : Fin 48)
  /-- DEBUG_RESUME (R282): Writing 0 to HALT reloads the copies from the checkpoint and resumes execution. -/
  | debugResume (m : Master) (pair : Fin 48)
  /-- CHECKPOINT_WINDOW_WRITE (R283): A write to the checkpoint window of a halted pair updates both halves of the current slot. -/
  | checkpointWindowWrite (m : Master) (pair : Fin 48) (off : BitVec 12) (size : Nat) (v : Word)
  /-- TAKEN (R424): PAIR COMMAND 10h power-gates a stopped pair and sets ROLE failed. -/
  | taken (m : Master) (pair : Fin 48)
  /-- INTERRUPT_OFFER_EXPIRY (R379): An offer not taken by the next presentation edge is withdrawn and made to the next enabled logical processor. -/
  | interruptOfferExpiry (lp : Fin 48)
  /-- IO_INTERRUPTION (R312): A logical processor takes an I/O-class interruption at the vector plus 100h. -/
  | ioInterruption (lp : Fin 48)
  /-- TICK_COMPARE (R380): A tick-compare external interruption is taken when the Transit number reaches C7. -/
  | tickCompare (lp : Fin 48)
  /-- SIGNAL (R381): A pending signal is taken as an external interruption. -/
  | signal (lp : Fin 48)
  /-- PARTITION_CHANGED (R373): A logical processor whose C16 was struck takes a Manager interruption at MVEC plus 300h. -/
  | partitionChanged (lp : Fin 48)
  /-- MACHINE_CHECK (R420): An asynchronous machine check for a record is taken at the vector plus 400h. -/
  | machineCheck (lp : Fin 48)
  /-- SIGNAL_STORE (R381): A store to the signal granule makes a signal pending, or is discarded and counted. -/
  | signalStore (lp : Fin 48) (page : Nat) (off : BitVec 12) (size : Nat) (v : Word)
  /-- COMMAND_WORD_FETCH (R294): A Command Word is fetched by RdNA after the previous command ends, and checked. -/
  | commandWordFetch (sch : BitVec 18)
  /-- FINAL_STATUS (R302): An operation ends, its final status becomes pending and FUNCTION becomes none. -/
  | finalStatus (sch : BitVec 18)
  /-- NOPATH_WAIT_EXPIRY (R311): An operation waiting without a usable path for NOPATH_WAIT seconds ends with NO_PATH. -/
  | nopathWaitExpiry (sch : BitVec 18)
  /-- ACK_FRAME (R325): An adapter ACK makes its window's bytes final and frees the window. -/
  | ackFrame (path : Fin 256) (rid : BitVec 16) (frame : BitVec 512)
  /-- STATUS_FRAME (R326): An adapter STATUS ends the command, chains or ends the operation after the journal write. -/
  | statusFrame (path : Fin 256) (rid : BitVec 16) (frame : BitVec 512)
  /-- HEARTBEAT (R333): An adapter HEARTBEAT brings a path up, zeroes SILENCE or requests resynchronisation. -/
  | heartbeat (path : Fin 256) (rid : BitVec 16) (frame : BitVec 512)
  /-- RESYNC (R338): An adapter RESYNC answer decides how the complex continues the operation. -/
  | resync (path : Fin 256) (rid : BitVec 16) (frame : BitVec 512)
  /-- INBOUND_FRAME_DISCARD (R335): An invalid inbound frame is discarded and counted, or triggers resynchronisation. -/
  | inboundFrameDiscard (path : Fin 256) (rid : BitVec 16) (frame : BitVec 512)
  /-- ADAPTER_DMA (R324): Adapter DMA is accepted only within a live window of the path, or blocked and counted. -/
  | adapterDma (port : Fin 4) (rid : BitVec 16) (addr : Word) (write : Bool) (len : Nat) (data : List Byte)
  /-- PATH_FAILED (R334): SILENCE reaching 60, a link down, containment or CRC failures fail a path and raise 2123h. -/
  | pathFailed (path : Fin 256) (cause : PathCause)
  /-- CP_STOP (R339): A channel processor stops on a mismatch or an error and is restarted or taken over. -/
  | cpStop (cp : Fin 32)
  /-- CP_TAKEOVER_COMPLETE (R339): The replacement CP has read the journal entries and resynchronised every operation. -/
  | cpTakeoverComplete (cp : Fin 32)
  /-- JQ_TAIL (R341): A doorbell write of JQ_TAIL posts descriptors, or is discarded as a spoof. -/
  | jqTail (ctx : Fin 129) (die : Fin 2) (q : Fin 64) (v : Word)
  /-- JQ_CTL (R343): Setting EN resets HEAD and TAIL, and clearing it stops dispatch. -/
  | jqCtl (ctx : Fin 129) (die : Fin 2) (q : Fin 64) (v : Word)
  /-- DESCRIPTOR_DISPATCH (R340): The dispatcher reads a posted descriptor and sends the job to a free engine. -/
  | descriptorDispatch (die : Fin 2)
  /-- DEFLATE_COMPRESS (R348): FUNC 01h compresses with DEFLATE. -/
  | deflateCompress (job : Nat)
  /-- DEFLATE_DECOMPRESS (R348): FUNC 02h decompresses DEFLATE. -/
  | deflateDecompress (job : Nat)
  /-- ZSTANDARD_COMPRESS (R348): FUNC 03h compresses with Zstandard. -/
  | zstandardCompress (job : Nat)
  /-- ZSTANDARD_DECOMPRESS (R348): FUNC 04h decompresses Zstandard. -/
  | zstandardDecompress (job : Nat)
  /-- AES_GCM_ENCRYPT (R349): FUNC 10h encrypts with AES-GCM. -/
  | aesGcmEncrypt (job : Nat)
  /-- AES_GCM_DECRYPT (R349): FUNC 11h decrypts with AES-GCM, zeroing the output on a tag failure. -/
  | aesGcmDecrypt (job : Nat)
  /-- AES_XTS_ENCRYPT (R347): FUNC 12h encrypts with AES-XTS. -/
  | aesXtsEncrypt (job : Nat)
  /-- AES_XTS_DECRYPT (R347): FUNC 13h decrypts with AES-XTS. -/
  | aesXtsDecrypt (job : Nat)
  /-- AES_CTR (R347): FUNC 14h applies AES-CTR. -/
  | aesCtr (job : Nat)
  /-- HASH (R347): FUNC 20h computes a digest. -/
  | hash (job : Nat)
  /-- HMAC (R347): FUNC 21h computes an HMAC with a key slot. -/
  | hmac (job : Nat)
  /-- ED25519_SIGN (R347): FUNC 30h signs with Ed25519. -/
  | ed25519Sign (job : Nat)
  /-- ED25519_VERIFY (R347): FUNC 31h verifies an Ed25519 signature. -/
  | ed25519Verify (job : Nat)
  /-- ECDSA_SIGN (R347): FUNC 32h signs with ECDSA. -/
  | ecdsaSign (job : Nat)
  /-- ECDSA_VERIFY (R347): FUNC 33h verifies an ECDSA signature. -/
  | ecdsaVerify (job : Nat)
  /-- ML_DSA_SIGN (R347): FUNC 34h signs with ML-DSA-65. -/
  | mlDsaSign (job : Nat)
  /-- ML_DSA_VERIFY (R347): FUNC 35h verifies an ML-DSA-65 signature. -/
  | mlDsaVerify (job : Nat)
  /-- ML_KEM_ENCAPSULATE (R347): FUNC 36h encapsulates with ML-KEM-768. -/
  | mlKemEncapsulate (job : Nat)
  /-- ML_KEM_DECAPSULATE (R347): FUNC 37h decapsulates with ML-KEM-768. -/
  | mlKemDecapsulate (job : Nat)
  /-- RANDOM_BYTES (R354): FUNC 40h writes DRBG output. -/
  | randomBytes (job : Nat)
  /-- COMPRESS_THEN_ENCRYPT (R355): FUNC 50h compresses and then encrypts with AES-GCM. -/
  | compressThenEncrypt (job : Nat)
  /-- DECRYPT_THEN_DECOMPRESS (R355): FUNC 51h authenticates, decrypts and decompresses. -/
  | decryptThenDecompress (job : Nat)
  /-- IMPORT (R353): FUNC 60h loads a clear secret into an empty slot. -/
  | importKey (job : Nat)
  /-- UNWRAP (R353): FUNC 61h unwraps a secret into a slot by RFC 3394. -/
  | unwrap (job : Nat)
  /-- WRAP (R353): FUNC 62h wraps an exportable slot under a KEK. -/
  | wrap (job : Nat)
  /-- GENERATE (R353): FUNC 63h generates a key from the DRBG. -/
  | generate (job : Nat)
  /-- PUBLIC (R353): FUNC 64h writes a key's public key. -/
  | publicKey (job : Nat)
  /-- ERASE (R353): FUNC 65h erases a slot and returns its new handle. -/
  | erase (job : Nat)
  /-- JOB_COMPLETE (R346): The completion record is written by one WrP after every store of the job, and any notification is made pending. -/
  | jobComplete (job : Nat)
  /-- ENGINE_ERROR (R360): A detected engine error stops the engine and restarts the job on another engine. -/
  | engineError (crypt : Bool) (eng : Fin 8)
  /-- DRBG_RESEED (R354): The DRBG reseeds every 1,000 ticks or after 2^20 requests. -/
  | drbgReseed (die : Fin 2)
  /-- ENTROPY_HEALTH_FAIL (R354): A health-test failure halts the DRBG and raises 2143h. -/
  | entropyHealthFail (die : Fin 2)
  /-- DRBG_RECOVERY (R354): After 1,024 passing samples the DRBG is seeded afresh and 0144h is raised. -/
  | drbgRecovery (die : Fin 2)
  /-- KEY_SLOT_ERROR (R350): An uncorrectable key-store copy is repaired from the other die, or the slot is erased. -/
  | keySlotError (slot : Fin 8192) (badSd0 badSd1 : Bool)
  /-- RELEASE (R375): PART COMMAND 10h releases a resource instance, or reports BUSY or not owned. -/
  | release (m : Master) (part : Fin 128) (arg : BitVec 24)
  /-- RECLAIM (R375): PART COMMAND 11h returns a released instance to use. -/
  | reclaim (m : Master) (part : Fin 128) (arg : BitVec 24)
  /-- PARTITION_RESET (R461): PART COMMAND 12h runs the partition reset steps within 1.2 ms. -/
  | partitionReset (m : Master) (part : Fin 128)
  /-- START (R459): PART COMMAND 13h begins a resetting partition at START_PSWA and START_PSWS. -/
  | start (m : Master) (part : Fin 128)
  /-- REFRESH_DUE (R399): A rank's refresh falls due and is issued, postponed or forced as a burst at P equal to 8. -/
  | refreshDue (ch : Fin 16) (rank : Fin 8) (busy : Bool)
  /-- ROW_CLOSE_TIMEOUT (R398): An open row with no request for 2 µs is closed. -/
  | rowCloseTimeout (ch : Fin 16) (rank : Fin 8) (sub : Bool) (bank : Fin 32)
  /-- DIMM_TEMPERATURE_READ (R400): Every 100 ticks the DIMM sensors are read, and HOT and the refresh rate are set. -/
  | dimmTemperatureRead (ch : Fin 16) (temps : List Nat)
  /-- SWEEP_READ (R404): Sweep reads, corrects and writes back one line as one indivisible operation. -/
  | sweepRead (ch : Fin 16) (badDevices : List (Fin 10))
  /-- CA_PARITY_ALERT (R405): An RDIMM parity alert makes the controller re-send commands, or fail the channel after 16 retries. -/
  | caParityAlert (ch : Fin 16)
  /-- CALIBRATION_CHECK (R407): A read-window, write-timing or ZQ check runs under the Calibration budget, and may retrain a lane. -/
  | calibrationCheck (ch : Fin 16) (rank : Fin 8) (sub : Bool) (lane : Fin 5) (kind : CalKind) (dir : Int)
  /-- MACHINE_CHECK_RING_WRITE (R416): The Keeper writes a record to a context's ring within one tick, and makes a check pending. -/
  | machineCheckRingWrite
  /-- EVQ_READ_POINTER_WRITE (R418): A port advances its event-queue read pointer, freeing slots. -/
  | evqReadPointerWrite (m : Master) (portB : Bool) (v : BitVec 32)
  /-- SERVICE_PORT_LINK_UP (R418): When a port's link comes up, its read pointer is set to EVQ_WP. -/
  | servicePortLinkUp (portB : Bool)
  /-- DIE_LOSS (R426): A die silent for SNP_TO, or a third failed lane, raises 8177h. -/
  | dieLoss (die : Fin 6)
  /-- CHECKSTOP (R426): A class-4 event stops every die within 1 µs and enters Checkstop mode. -/
  | checkstop (source : StopSource) (code : BitVec 16)
  /-- IMG_DATA (R437): An access to IMG_DATA reads or writes an image-slot word and advances IMG_IDX. -/
  | imgData (m : Master) (write : Bool) (v : Word)
  /-- START_VERIFICATION (R438): CS COMMAND 10h starts the verification of an image slot. -/
  | startVerification (m : Master) (slot : Fin 2)
  /-- VERIFICATION_COMPLETE (R438): Verification ends with PASS or the first failing check in IMG_STATE. -/
  | verificationComplete
  /-- ADVANCE (R439): CS COMMAND 11h raises the fused SVN to that of the current image. -/
  | advance (m : Master)
  /-- REVOKE_KEY_PAIR (R439): CS COMMAND 12h revokes a fused key pair. -/
  | revokeKeyPair (m : Master) (k : Fin 4)
  /-- CONTROL_STORE_ERROR (R435): A microword or nanoword fetch error is corrected, or starts a retry or a CP stop. -/
  | controlStoreError (dom : Domain) (correctable : Bool)
  /-- UPDATE_ROTATION (R442): GAP ticks after the previous switch, the next old pair is rotated onto the current image. -/
  | updateRotation
  /-- CP_UPDATE_HANDOVER (R443): An old CP hands its operations to a spare loaded from the current slot. -/
  | cpUpdateHandover (die : Fin 2)
  /-- UPDATE_NO_PROGRESS (R444): An update without progress for 1,000,000 ticks raises 2185h. -/
  | updateNoProgress
  /-- POWER_ON (R449): KEEPER COMMAND 20h starts Initialisation from Standby or Memory hold. -/
  | powerOn (m : Master)
  /-- PROCEED (R450): KEEPER COMMAND 21h continues Initialisation from phase CONFIG or after a failure. -/
  | proceed (m : Master)
  /-- SERVICE_STOP (R467): KEEPER COMMAND 22h halts every pair after any committed Strike. -/
  | serviceStop (m : Master)
  /-- RESUME (R467): KEEPER COMMAND 23h restarts the pairs and returns to the previous mode. -/
  | resume (m : Master)
  /-- HOLD (R468): KEEPER COMMAND 24h flushes the package and enters Memory hold. -/
  | hold (m : Master)
  /-- WARM_RESET (R462): KEEPER COMMAND 25h runs the warm reset sequence. -/
  | warmReset (m : Master)
  /-- COLD_RESET (R464): KEEPER COMMAND 26h stops every die without writeback and returns to Standby. -/
  | coldReset (m : Master)
  /-- IPL (R458): KEEPER COMMAND 28h removes a pending status and runs IPL again. -/
  | ipl (m : Master)
  /-- PKG_RESET_N (R448): A low of 10 µs or more on PKG_RESET_N acts as COLD_RESET. -/
  | pkgResetN (lowNs : Nat) (acts : Bool)
  /-- WARM_RESET_N (R448): A low of 10 µs or more on WARM_RESET_N acts as WARM_RESET where admitted. -/
  | warmResetN (lowNs : Nat) (acts : Bool)
  /-- VSB_APPLIED (R487): VSB returning moves the package from Off to Standby within 100 ms. -/
  | vsbApplied
  /-- VSB_LOST (R487): Loss of VSB with no active feed puts the package in Off. -/
  | vsbLost
  /-- INITIALISATION_PHASE_COMPLETE (R449): A start phase completes, and the sequence moves to the next phase or stops on a failure. -/
  | initialisationPhaseComplete (inp : PhaseIn)
  /-- COUPLING_EXCHANGE (R452): A package's coupling configuration is received and compared in phase 05h. -/
  | couplingExchange (c : Coupling)
  /-- COUPLING_TIMEOUT (R452): A package of PRESENT that has not exchanged within 60 s fails coupling. -/
  | couplingTimeout
  /-- LOAD_COMPLETE (R454): With the current slot VERIFIED, the control stores are written and checked, and the package enters Operating. -/
  | loadComplete (eccOk : Bool)
  /-- WARM_RESET_WRITEBACK_COMPLETE (R462): Every dirty line is in DRAM, DRAM enters self-refresh and the six dies are reset. -/
  | warmResetWritebackComplete
  /-- HOLD_FLUSH_ANNOUNCEMENT (R468): A coupled package announces its flush, and self-refresh proceeds once all have announced. -/
  | holdFlushAnnouncement (pkg : Fin 4)
  /-- HOLD_ANNOUNCEMENT_TIMEOUT (R468): Without every announcement within 100 ms, self-refresh is entered with HOLD_MASK taken as 00h. -/
  | holdAnnouncementTimeout
  /-- FEED_OUT_OF_RANGE (R479): A feed monitor's filter expires on an out-of-range feed, and its vote is sent to the arbiter. -/
  | feedOutOfRange (feedB : Bool) (monitor : Fin 3)
  /-- FEED_IN_RANGE (R481): A failed feed held in range by all monitors begins its repair count. -/
  | feedInRange (feedB : Bool) (monitor : Fin 3)
  /-- FEED_STATUS_CHANGE (R479): A deglitched change of FA_PG or FB_PG is filtered, voted or counted as chatter. -/
  | feedStatusChange (feedB : Bool) (level : Bool) (heldNs : Nat)
  /-- FEED_REPAIRED (R481): After 100,000 consecutive ticks in repair the feed becomes standby, and 01A3h is raised. -/
  | feedRepaired (feedB : Bool)
  /-- CHATTER_END (R483): A status input unchanged for 1,000 ticks stops chattering. -/
  | chatterEnd (feedB : Bool)
  /-- SWAP (R482): FEED COMMAND 10h makes the standby feed active by make-before-break. -/
  | swap (m : Master)
  /-- CLEAR_TRIP (R492): FEED COMMAND 11h clears TRIP. -/
  | clearTrip (m : Master)
  /-- BOTH_FEEDS_LOST (R484): The bus falling below 1.40 V with no feed opens both paths and enters Standby. -/
  | bothFeedsLost
  /-- THERMAL_TRIP (R492): A die at 110 °C or above for 10 ticks opens both feeds, enters Standby and sets TRIP. -/
  | thermalTrip
  /-- AGING_CHECK (R495): Every 100,000 ticks path slack is measured, and the core voltage may be raised one step. -/
  | agingCheck (die : Fin 4) (short : Bool)
  /-- BYPASS (R511): TAP instruction BYPASS. -/
  | bypass
  /-- IDCODE (R511): TAP instruction IDCODE returns the identification code. -/
  | idcode
  /-- SAMPLE_PRELOAD (R511): TAP instruction SAMPLE/PRELOAD. -/
  | samplePreload
  /-- EXTEST (R511): TAP instruction EXTEST, accepted in phase CONFIG only. -/
  | extest
  /-- EXTEST_PULSE (R511): TAP instruction EXTEST_PULSE, accepted in phase CONFIG only. -/
  | extestPulse
  /-- EXTEST_TRAIN (R511): TAP instruction EXTEST_TRAIN, accepted in phase CONFIG only. -/
  | extestTrain
  /-- CLAMP (R511): TAP instruction CLAMP, accepted in phase CONFIG only. -/
  | clamp
  /-- HIGHZ (R511): TAP instruction HIGHZ, accepted in phase CONFIG only. -/
  | highz
  /-- KEEPER_COPY_OUTVOTED (R8): A fault in one of the Keeper's three logic copies is outvoted and raises 0171h in the KEEPER page. -/
  | keeperCopyOutvoted (copy : Fin 3)
  /-- ARRAY_SWEEP_READ (R208): The on-die part of Sweep reads an L2 or L3 line in an idle array cycle and corrects a single-bit error in place. -/
  | arraySweepRead (l3 : Bool) (unit : Nat) (line : Nat) (errors : Nat)
  /-- UNASSIGNED_OPCODE (R87): A fetched word whose opcode or FN is unassigned raises a nullifying operation exception. -/
  | unassignedOpcode (lp : Fin 48) (word : BitVec 32)
  /-- DEVICE_LOAD_COMPLETION (R155): A Device load's completion returns to the pair, its data is written to the checkpoint array and the load is performed. -/
  | deviceLoadCompletion (lp : Fin 48) (data : Word) (poisoned : Bool)
  /-- POSTED_CREDIT_RETURN (R167): A function returns posted credit, and a Device store held for credit in the root port proceeds. -/
  | postedCreditReturn (port : Fin 4) (rid : BitVec 16) (n : Nat)
  /-- CONTAINMENT_RELEASE (R167): The partition manager releases the containment of a function, ending the all-ones loads and discarded stores. -/
  | containmentRelease (port : Fin 4) (rid : BitVec 16)
  /-- PCIE_LINK_DOWN (R166): A root port's link to a function goes down, so later Device stores are accepted and discarded with 2101h. -/
  | pcieLinkDown (port : Fin 4) (rid : BitVec 16)
  /-- PCIE_LINK_UP (R500): A root port link trains to a rate and width, shown in PCIE_LINK, which decides whether a Bexvos path may be brought up. -/
  | pcieLinkUp (port : Fin 4) (sub : Fin 4) (rate : BitVec 3) (width : BitVec 5)
      (rids : List (BitVec 16 × List (Nat × Nat)))
  /-- SERVICE_PORT_LINK_DOWN (R418): A Service Port's link goes down, so it stops receiving records and no longer holds queue slots from freeing. -/
  | servicePortLinkDown (portB : Bool)
  /-- SERVICE_PORT_READ (R54): A Service Port read of the service space, which a refused size or alignment answers with Completer Abort and counts under 0041h. -/
  | servicePortRead (m : Master) (off : BitVec 31) (size : Nat)
  /-- CANCEL_TIMEOUT (R305): When the adapter does not answer an IOCLEAR's cancel within 1 ms, CLEARED is posted with DETAIL 02h. -/
  | cancelTimeout (sch : BitVec 18)
  /-- RESERVATION_HOLD_EXPIRY (R173): The 256-core-cycle hold after an LDRSV ends, and ownership snoops waiting on the line are answered. -/
  | reservationHoldExpiry (lp : Fin 48)
  /-- PRESENTATION_EDGE (R267): Every 64 core cycles the presenter changes a pair's interrupt-pending lines and makes new offers. -/
  | presentationEdge (pair : Fin 48)
  /-- JOURNAL_ENTRY_ERROR (R332): An uncorrectable error in a journal entry is repaired from the other copy with 2126h, or with both copies lost raises 6127h. -/
  | journalEntryError (die : Fin 2) (index : Nat) (badPrimary badMirror : Bool)
  /-- IMAGE_SLOT_ERROR (R437): An uncorrectable error in an image slot's SRAM copy is repaired from the other system die's copy. -/
  | imageSlotError (slot : Fin 2) (word : BitVec 16) (badSd0 badSd1 : Bool)
  /-- WARM_RESET_N_RELEASE (R448): WARM_RESET_N returns high, and a package waiting at the start of Initialisation goes on. -/
  | warmResetNRelease
  /-- PKG_RESET_N_RELEASE (R448): PKG_RESET_N returns high, so POWER_ON is accepted again in Standby. -/
  | pkgResetNRelease
  /-- JQ_BASE (R343): A doorbell-page write to JQ_BASE sets the ring address, or is discarded while EN is set or counted as a spoof from a non-owner. -/
  | jqBase (ctx : Fin 129) (die : Fin 2) (q : Fin 64) (v : Word)
  deriving DecidableEq, Repr

end Sys2Proof
end

