-- ==== Sys2Proof/Decode.lean ====
section
/-! DEFINITION. The command that a word of the command table spells. The table gives none of its rows bits
(every row's `fields` is empty), so no word spells a command. -/

namespace Sys2Proof

/-- The command whose bits are `w`: none, for the table gives no row bits. -/
def decodeTableWord (_nbits _w : Nat) : Option Instr := none

end Sys2Proof
end

