-- ==== Sys2Proof/Config.lean ====
section
/-! DEFINITION. What the spec leaves open, as constants without a body: no proof can see a value of
them, and a claim about them holds for every value. -/

namespace Sys2Proof

/-- The n-th free value drawn: a random draw of the Keeper, a replacement choice, a serial, an instant
the spec does not fix (log 2). -/
opaque Config.freeWord : Nat → Word

/-- A free line of data: the content of granules a Strike has permuted, of a job's destination while it
runs (log 2). -/
opaque Config.freeByte : Nat → Nat → Byte

/-- The SHA-384 of the fused public keys, by key pair and scheme (log 5). -/
opaque Config.keyHash : Nat → Nat → List Byte

/-- IDENT: the vendor's identifier in bits 15:0 and the rest of the register (log 19). -/
opaque Config.ident : BitVec 32

/-- VERSION of the pages of a block type: its MAJOR and MINOR are not given (log 19). -/
opaque Config.version : Nat → BitVec 16

/-- The silicon revision of IDCODE (R511) and the manufacturer identity (log 19). -/
opaque Config.idcode : BitVec 32

/-- Byte `i` of what an engine computes by a standard the spec names and does not restate: which result,
and the inputs it depends on (log 22). -/
opaque Config.engByte : Nat → List (List Byte) → Nat → Byte

/-- A number an engine computes in the same way: the length of a compressed stream, a verdict (log 22). -/
opaque Config.engNat : Nat → List (List Byte) → Nat

/-- Requests a home slice serves in a tick, the capacity that R43 compares with; it is not given (log 95). -/
opaque Config.sliceCapacity : Nat

/-- The set of the second-level TLB of 8 ways that a leaf of a level and a page number is filed in; the index is not given
(log 109). -/
opaque Config.stlbSet : Nat → Nat → Fin 512

/-- A word of a control store that no image section gives: of the forerunner ROM, which the spec names and does not list, or
past the end of a section; by array (0 microwords, 1 nanowords; 2 and 3 the same of the ROM) and index (log 116). -/
opaque Config.storeWord : Nat → Nat → BitVec 192

/-- GEN of a key slot as the Keeper's random source draws it at a cold reset, by drawing and slot (R351). -/
opaque Config.keyGen : Nat → Nat → BitVec 32

end Sys2Proof
end

