-- ==== Sys2Proof/Machine/Tab.lean ====
section
/-! DEFINITION. Sparse tables: lists of (key, value) pairs in one canonical form, keys strictly rising
and no entry equal to what an unlisted key reads as. Memory, the register file and every large
directory of the package are such tables. A table read without a default is a partial one. -/

namespace Sys2Proof.Machine

/-- A sparse table by natural-number key. -/
abbrev Tab (α : Type) := List (Nat × α)

/-- The entry of a key, if listed. -/
def Tab.look : Tab α → Nat → Option α
  | [], _ => none
  | (k', v) :: m, k => if k' = k then some v else Tab.look m k

/-- The value of a key: its entry, or what an unlisted key reads as. -/
def Tab.read (d : Nat → α) (m : Tab α) (k : Nat) : α := (Tab.look m k).getD (d k)

/-- The table without a key. -/
def Tab.del (m : Tab α) (k : Nat) : Tab α := m.filter fun e => e.1 != k

/-- Insertion of a key the table does not list, in its place. -/
def Tab.ins : Tab α → Nat → α → Tab α
  | [], k, v => [(k, v)]
  | (k', v') :: m, k, v => if k < k' then (k, v) :: (k', v') :: m else (k', v') :: Tab.ins m k v

/-- A partial table with the entry of one key replaced. -/
def Tab.put (m : Tab α) (k : Nat) (v : α) : Tab α := Tab.ins (Tab.del m k) k v

/-- A table with the value of one key replaced; writing what an unlisted key reads as removes it. -/
def Tab.write [DecidableEq α] (d : Nat → α) (m : Tab α) (k : Nat) (v : α) : Tab α :=
  if v = d k then Tab.del m k else Tab.put m k v

/-- The keys rise strictly. -/
def Tab.rising : Tab α → Bool
  | [] => true
  | [_] => true
  | a :: b :: m => decide (a.1 < b.1) && Tab.rising (b :: m)

/-- The canonical form: keys strictly rising, no entry equal to the default. -/
def Tab.wf [DecidableEq α] (d : Nat → α) (m : Tab α) : Bool :=
  Tab.rising m && m.all fun e => decide (e.2 ≠ d e.1)

end Sys2Proof.Machine
end

