-- ==== Sys2Proof/Machine/State.lean ====
section
/-! DEFINITION. The state of one package as plain data: everything the spec gives the block, and the
queue of waiting commands. Registers that software reads as words and that no unit derives live in the
register file `regs`; every other piece of state has a field of its own. Fields the spec does not name
(the queue's bookkeeping, the outputs, the counter of free values) say so. -/

namespace Sys2Proof.Machine

/-- No command of this block stops the model with a fault: the spec gives each an effect. The one
constructor exists because the interface asks for a type. Safe: nothing raises it. -/
inductive Fault where
  /-- Raised by nothing. Safe. -/
  | unused
  deriving DecidableEq, Repr

/-- Why a command is refused. -/
inductive Refusal where
  /-- Answered by an arm of `exec` whose command has no meaning yet. Safe: the model stops. -/
  | notModelled (mnemonic : String)
  deriving DecidableEq, Repr

/-- Memory as address and byte pairs in canonical form (08 R513). -/
abbrev Memory := List Host.Cell

/-! ### Outputs -/

/-- What leaves the package. The list of outputs is the model's own record (log 3). -/
inductive Output where
  /-- A register value returned to a master. -/
  | reply (m : Master) (v : Word)
  /-- Completer Abort at a Service Port (R54). -/
  | abort (m : Master)
  /-- An I3C sideband reply (R505). -/
  | sideband (portB : Bool) (data : List Byte)
  /-- A frame on a channel path (13). -/
  | frame (path : Nat) (data : List Byte)
  /-- Data or Completer Abort for a DMA read of a function (R203). -/
  | dmaData (port : Nat) (rid : Nat) (data : List Byte)
  | dmaAbort (port : Nat) (rid : Nat)
  /-- A posted write or a read forwarded to a function (R153, R155). -/
  | posted (port : Nat) (rid : Nat) (addr : Nat) (data : List Byte)
  | request (port : Nat) (rid : Nat) (addr : Nat) (size : Nat)
  /-- The time-code message (R27). -/
  | timeCode (data : List Byte)
  /-- PPS_OUT rises (R28). -/
  | ppsOut
  /-- A time-transfer message leaves on a coherence link, with the instant of its departure in steps (R30). -/
  | timeTransfer (link : Nat) (departure : Nat)
  /-- A coherence message toward another package, or an answer to an agent that caches nothing: name, die or agent
  number, line (10). -/
  | message (name : String) (dest : Nat) (line : Nat)
  /-- The line of data that the message before it carries (R239, R255). -/
  | line (line : Nat) (data : List Byte)
  /-- A flit of a coherence link, with its sequence number and its 256 bytes (R255). -/
  | flit (link : Nat) (seq : Nat) (bytes : List Byte)
  /-- An announcement to the other packages of the complex (R253, R463, R468). -/
  | announce (name : String) (pkg : Nat)
  /-- The configuration of phase 05h to a package of PRESENT: its number, and PKG_ID, PRESENT, COH_INIT.MODE, HASH_SALT and
  TOD_INIT.ROLE of this one (R452). -/
  | coupling (dest pkg present : Nat) (directory : Bool) (salt : Nat) (slave : Bool)
  /-- Link-layer answers: NAK and replay from a sequence number (R256). -/
  | nak (link : Nat) (seq : Nat)
  | replay (link : Nat) (seq : Nat)
  /-- A test data register selected for shifting out, with its content (R511). -/
  | tap (name : String) (v : Word)
  deriving DecidableEq, Repr

/-! ### Fuses and time -/

/-- The orderable part (R1). -/
inductive Part where
  | tk4008 | tk3216
  deriving DecidableEq, Repr

/-- Fuses (R2, R439). -/
structure Fuses where
  part : Part
  svn : Nat
  revoked : BitVec 4
  deriving DecidableEq, Repr

/-- TOD_STATUS.STATE (Table 2-7). -/
inductive LoopState where
  | free | acquiring | locked | holdover
  deriving DecidableEq, Repr

/-- One PPS input's filter (R23). Instants are steps of 62.5 ps since the epoch. -/
structure PpsIn where
  /-- The previous accepted edge. -/
  last : Option Int
  /-- Consecutive accepted edges spaced 1 s ± 1 µs. -/
  run : Nat
  outliers : Nat
  qualified : Bool
  deriving DecidableEq, Repr

/-- The master TOD and its steering (02). -/
structure Time where
  seconds : Word
  /-- Steps of 62.5 ps within the second, below 16,000,000,000 (R19). -/
  steps : Nat
  /-- The Transit number (R20). -/
  transit : Word
  loop : LoopState
  /-- TOD_STATUS.ACTIVE. -/
  active : BitVec 2
  /-- The source steered to now; differs from TOD_CTL.SRC after an AUTO switch (R26). -/
  src : BitVec 2
  /-- Phase error in 62.5 ps steps. -/
  phaseErr : Int
  labelOk : Bool
  /-- The label of the next edge, in Initialisation (R27). -/
  label : Option Word
  /-- Consecutive edges with the phase error within ±5 ns (R24). -/
  within : Nat
  /-- Frequency correction in 0.001 ppb (02, Sources). -/
  freq : Int
  /-- Corrections of the last 1,000 s of the latest lock, newest first (R25). -/
  freqHist : List Int
  /-- A loop that had locked has lost lock and is acquiring again (R25). -/
  lostLock : Bool
  /-- Phase slew in 0.001 ppb. -/
  slew : Int
  ppsA : PpsIn
  ppsB : PpsIn
  /-- The selected source has been disqualified for its frequency (R24). -/
  freqBad : Bool
  oscLost : Bool
  /-- Dies whose tick deviates (R33). -/
  deviating : List Nat
  /-- Steps of 62.5 ps by which the slave counter of each die lags the Keeper's (R32, R33). -/
  dieOff : Vector Int 6
  /-- The Keeper die is lost and the dies run on their own rates (R34). -/
  dieHoldover : Bool
  /-- The link a slave takes time over (R30, R31). -/
  route : Option (Fin 4)
  /-- The latest instant that a RDTOD has returned, in steps after the edge of this tick (R19, R21). -/
  read : Int
  /-- PPS_OUT has risen at the last second and its time-code message has been sent (R27, R28). -/
  ppsOut : Bool
  tcSent : Bool
  /-- Ticks for which PPS_OUT stays high yet (21 R506). -/
  ppsHigh : Nat
  deriving DecidableEq, Repr

/-- An Almanac record captured and not yet written (R45, R46). -/
structure AlmRecord where
  transit : Word
  sec : Word
  frac : Word
  seq : BitVec 32
  type : Nat
  lines : Nat
  body : List Byte
  deriving DecidableEq, Repr

/-- One die's Almanac stream (R44, R45). -/
structure Almanac where
  cadence : Nat
  seq : BitVec 32
  waiting : List AlmRecord
  /-- Budget use summed over the cadence period, by activity × 256 + resource (Table 2-6). -/
  use : Tab Nat
  deriving DecidableEq, Repr

/-- Budgets and imbalance (R39, R43, R49). Keys are activity × 256 + resource. -/
structure Budgets where
  /-- Use of the current tick. -/
  use : Tab Nat
  /-- Activities held for lack of budget on a page's resources, this tick: key × as `use`. -/
  held : Tab Bool
  /-- Foreground traffic of the current tick, by class × 1024 + index (R43). -/
  fg : Tab Nat
  /-- Consecutive ticks of imbalance, by class × 1024 + index. -/
  run : Tab Nat
  /-- Resources whose imbalance event has been raised. -/
  raised : List Nat
  deriving DecidableEq, Repr

/-! ### The Keeper's staging machinery (03) -/

/-- The Pen (R63-R66). -/
structure Pen where
  holder : Option Master
  grantSeq : BitVec 16
  lease : Nat
  /-- Masters that have held the Pen since cold reset, latest first (R64). -/
  history : List Master
  deriving DecidableEq, Repr

/-- Proof (R67-R70). -/
structure Proof where
  code : Nat
  busy : Bool
  page : Nat
  off : Nat
  /-- Drafts proofed and unchanged since. -/
  proofed : Bool
  /-- The package was in Initialisation when the Proof was made (R72). -/
  inInit : Bool
  deriving DecidableEq, Repr

/-- STRIKE_RESULT.STATE. -/
inductive StrikeState where
  | idle | armed | committed | applied | cancelled | refused
  deriving DecidableEq, Repr

/-- The classes of Table 3-5, in rising order. -/
inductive StrikeClass where
  | tick | quiesce | init
  deriving DecidableEq, Repr

/-- The ordered Strike (R71-R74). -/
structure Strike where
  st : StrikeState
  reason : Nat
  /-- STRIKE_RESULT.TRANSIT. -/
  tick : BitVec 32
  /-- The full target while armed or committed. -/
  target : Word
  cls : StrikeClass
  /-- Dies that have yet to acknowledge arming. -/
  waitAcks : List Nat
  /-- The proofed values of a committed Strike, which no release of the Pen takes away (R66, R73). -/
  vals : Tab Word
  deriving DecidableEq, Repr

/-- One I3C sideband pointer (R505). -/
structure Sideband where
  ptr : Option Nat
  /-- Reads served this tick (R419). -/
  reads : Nat
  deriving DecidableEq, Repr

/-! ### Errors (17) -/

/-- ADDR_KIND of an event record (Table 17-3). -/
inductive AddrKind where
  | none | virt | abs | phys
  deriving DecidableEq, Repr

/-- An event record, before it is given the form of one destination (Table 17-3). `owner` is 0-127 a
partition, 128 the manager context. -/
structure EvRec where
  code : Nat
  subunit : Nat
  page : Nat
  transit : Word
  owner : Option Nat
  sync : Bool
  held : Bool
  absorbed : Bool
  ovf : Bool
  lp : Option (Fin 48)
  kind : AddrKind
  addr : Word
  detail : Word
  count : Nat
  /-- Destinations: bit 3 Port B, 2 Port A, 1 partition manager, 0 owning partition. -/
  route : BitVec 4
  deriving DecidableEq, Repr

/-- A copy of a record on its way to a context's ring (R416). -/
structure RingCopy where
  ctx : Nat
  seq : BitVec 32
  ev : EvRec
  deriving DecidableEq, Repr

/-- A machine check pending for a context (R420, R422). -/
structure Check where
  ctx : Nat
  /-- The logical processor it is made pending on, if it names one. -/
  lp : Option (Fin 48)
  seq : BitVec 32
  cls : Nat
  held : Bool
  /-- Its ring write has been made. -/
  ready : Bool
  deriving DecidableEq, Repr

/-- The event machinery (R413-R430). -/
structure Errors where
  /-- Records entered, by slot. -/
  evq : Tab (BitVec 32 × EvRec)
  wp : BitVec 32
  rpA : BitVec 32
  rpB : BitVec 32
  portUpA : Bool
  portUpB : Bool
  attnA : Bool
  attnB : Bool
  ringWait : List RingCopy
  checks : List Check
  /-- Last SEQ of each context. -/
  seqs : Tab (BitVec 32)
  /-- (page, code, owner) that have formed a record this tick (R413). -/
  once : List (Nat × Nat × Nat)
  /-- First cause of a checkstop: code and page (R426). -/
  stopCode : Nat
  stopPage : Nat
  stopTransit : BitVec 32
  degFeed : Bool
  degSpares : Bool
  degKeeper : Bool
  deriving DecidableEq, Repr

/-! ### Logical processors (04, 07, 08, 11, 15) -/

/-- Effective memory types (Table 8-4). -/
inductive MemType where
  | normal | uncached | device
  deriving DecidableEq, Repr

/-- The registers a checkpoint slot holds (R263) and LPID, which is derived. -/
structure Arch where
  pswa : Word
  psws : Word
  fpc : BitVec 32
  g : Vector Word 32
  f : Vector Quad 32
  c : Vector Word 32
  deriving DecidableEq, Repr

/-- One entry of the store gate: up to 64 bytes of one aligned block (R262). -/
structure GateEntry where
  ty : MemType
  /-- Physical address of the block divided by 64. -/
  blk : Nat
  /-- Bytes by physical address. -/
  bytes : Tab Byte
  /-- Context of the storing logical processor: partition, or 128 for the manager. -/
  ctx : Nat
  /-- The close that released it, as the processor numbers its closes; 0 while it is gated. Entries of one close and one
  line are performed together (R159, R160). -/
  grp : Nat
  deriving DecidableEq, Repr

inductive LpRun where
  | waiting | running | stopped
  deriving DecidableEq, Repr

inductive FenceKind where
  | l | s | a
  deriving DecidableEq, Repr

/-- The kinds of TLB maintenance (Table 8-7). -/
inductive TlbiKind where
  | va (walk : Bool) | asid | part
  deriving DecidableEq, Repr

/-- Where a load puts its data: a general register, sign-extended or not, or a floating register (R95, R134). -/
inductive LoadDst where
  | g (d : Fin 32) (signed : Bool)
  /-- The most significant bytes of a floating register. -/
  | f (d : Fin 32)
  deriving DecidableEq, Repr

/-- A Device load that has not completed (R155). -/
structure DevLoad where
  dst : LoadDst
  size : Nat
  /-- Physical address. -/
  addr : Nat
  /-- Address as the instruction formed it. -/
  va : Word
  /-- Bytes that have arrived. -/
  got : List Byte
  /-- Update of the base register. -/
  upd : Option (Fin 32 × Word)
  /-- Count register of the prefix that repeats the load. -/
  rep : Option (Fin 32)
  /-- The prefix is a REP.N. -/
  whole : Bool
  /-- The function it has been issued to. -/
  issued : Option (BitVec 16)
  deriving DecidableEq, Repr

/-- What a logical processor waits for in the middle of an instruction (R155, R161, R193). -/
inductive LpWait where
  | none
  | fence (k : FenceKind)
  /-- A TLB maintenance instruction: its effect follows once every earlier store is performed. -/
  | tlbi (k : TlbiKind) (va : Word) (asid : BitVec 16) (ctx : Nat)
  /-- Its entries are removed: what other processors of the context have stored through them, up to the closes listed by
  LPID, is still to be performed (R193). -/
  | tlbiEnd (ctx : Nat) (closes : List Nat)
  | load (l : DevLoad)
  deriving DecidableEq, Repr

/-- An interrupt-pending line of a pair for a source that names its processor (R267). -/
inductive IntLine where
  | tick
  | signal
  | check (seq : BitVec 32)
  deriving DecidableEq, Repr

/-- A logical processor (R6): its identity and everything that moves with it. -/
structure Lp where
  arch : Arch
  run : LpRun
  /-- The current checkpoint slot (R263). Its two halves hold the same, as do those of the other slot: an error in one half
  is corrected from the other as it is met (R272). -/
  ckpt : Arch
  /-- The slot that is not current: what was current before the last close. -/
  other : Arch
  /-- Which of the two slots is current. -/
  slot : Bool
  /-- Closes so far, as the model numbers them. -/
  closes : Nat
  /-- The registers before a REP.N some of whose iterations have been performed: what a nullifying exception restores
  (R108). -/
  repN : Option Arch
  gated : List GateEntry
  released : List GateEntry
  /-- Released Normal entries in the L2 that wait for ownership of their line (Table 1-5). -/
  owning : List GateEntry
  /-- Released Device stores on their way to a root port. -/
  toPort : List GateEntry
  /-- Stores sent to another package and not yet accepted there (Table 7-1). -/
  toFar : List GateEntry
  /-- Instructions since the last close (Table 11-1). -/
  icount : Nat
  /-- The reserved 256-byte granule, by line number (R170). -/
  reservation : Option Nat
  /-- The L2 holds the reserved line against ownership snoops (R173). -/
  resHold : Bool
  wait : LpWait
  /-- The handler-active latch (R420). -/
  handler : Bool
  /-- A signal is pending (R381). -/
  signal : Bool
  /-- A partition-changed interruption is pending, with the old partition (R373). -/
  partChanged : Option Nat
  /-- What its pair's lines have shown since the last presentation edge, but for offers (R267). -/
  lines : List IntLine
  deriving DecidableEq, Repr

/-! ### Core pairs (01, 08, 09, 11, 18) -/

/-- PAIR_STATE.ROLE (R283). -/
inductive Role where
  | dormant | preparing | active | leaving | halted | failed | stopped
  deriving DecidableEq, Repr

/-- Cache states of a held line (Table 10-1); a line that is not listed is in I. -/
inductive CohSt where
  | s | l | e | m
  deriving DecidableEq, Repr

/-- A line in an L2: its state, its way, and whether it is in the leaving state (R215). -/
structure L2Line where
  st : CohSt
  way : Nat
  leaving : Bool
  /-- A leaving line that has left dirty, by WbM (R215). -/
  wbm : Bool
  /-- A leaving line whose home has sent its Ack (R248). -/
  acked : Bool
  deriving DecidableEq, Repr

/-- A line in an L3 victim cache. -/
structure L3Line where
  st : CohSt
  way : Nat
  deriving DecidableEq, Repr

/-- Requests of the coherence protocol (Table 10-4), and a home's own directory work (R245, R246). -/
inductive ReqKind where
  | rdS | rdO | upg | rdNA | wrL | wrP | backInv | probe
  deriving DecidableEq, Repr

/-- A request an L2 has outstanding (R236, R237). -/
structure Miss where
  kind : ReqKind
  retries : Nat
  ticket : Option Nat
  /-- Data or an Ack has arrived and CompAck is owed. -/
  filled : Bool
  /-- The home has refused the request, and its Retry is on the way (R236). -/
  refused : Bool
  /-- The request has been refused and waits before it is issued again (R236). -/
  backoff : Bool
  /-- The Ack or data came with poison. -/
  poisoned : Bool
  deriving DecidableEq, Repr

/-- One stride stream of the prefetcher (R213). -/
structure Stream where
  /-- 4 KiB region of the last matched miss. -/
  region : Nat
  line : Nat
  stride : Int
  misses : Nat
  store : Bool
  deriving DecidableEq, Repr

/-- A cached leaf (R191). -/
structure TlbEntry where
  ctx : Nat
  /-- None for a global leaf. -/
  asid : Option (BitVec 16)
  level : Nat
  /-- Virtual address shifted right by the page's offset bits. -/
  vpn : Nat
  /-- Address of the leaf entry: absolute, or physical in the manager context. -/
  leafAt : Word
  /-- The leaf entry as the walk read it. -/
  leaf : Word
  u : Bool
  w : Bool
  x : Bool
  deriving DecidableEq, Repr

/-- A cached non-leaf entry of the walk cache: the table a virtual-address prefix leads to. -/
structure WalkEntry where
  ctx : Nat
  asid : BitVec 16
  /-- Level of the entry, 5 to 2. -/
  level : Nat
  prefix_ : Nat
  next : Word
  u : Bool
  w : Bool
  x : Bool
  deriving DecidableEq, Repr

/-- A cached zone entry. -/
structure ZoneLine where
  ctx : Nat
  zone : Nat
  entry : Word
  deriving DecidableEq, Repr

/-- Translation caches of a pair (Table 8-6); its two copies hold the same contents (R191). -/
structure Tlbs where
  itlb : List TlbEntry
  dtlb : List TlbEntry
  stlb : List TlbEntry
  stlbBig : List TlbEntry
  walkHi : List WalkEntry
  walkLo : List WalkEntry
  zones : List ZoneLine
  deriving DecidableEq, Repr

/-- The sequencer of a control store (R433, R434): the address of the microword it fetches next and its link register. The
copies of a pair, and the engines of a channel processor, run one sequence. -/
structure Seq where
  addr : BitVec 15
  link : BitVec 15
  deriving DecidableEq, Repr

def Seq.reset : Seq := { addr := 0, link := 0 }

/-- A core pair. -/
structure Pair where
  role : Role
  /-- The bound logical processor. -/
  lp : Option (Fin 48)
  powered : Bool
  failed : Bool
  retrying : Bool
  haltReq : Bool
  haltDone : Bool
  /-- STEP has been written: the halted pair runs one instruction (R282). -/
  step : Bool
  /-- DEBUG_CTL.OWNER. -/
  owner : BitVec 2
  irqHold : Bool
  /-- Transit numbers of counted mismatches, newest first (R266). -/
  window : List Nat
  /-- Transit numbers of DIVERGE_INPUT mismatches (R268). -/
  dwindow : List Nat
  /-- More than 64 DIVERGE_INPUT in the window: they are counted (R268). -/
  dcounted : Bool
  /-- An interval has closed clean since the last counted mismatch (R266). -/
  cleanSince : Bool
  activeTicks : Word
  /-- CS_VERSION of the loaded image (18). -/
  image : Word
  seq : Seq
  l1i : Tab Nat
  l1d : Tab Nat
  l2 : Tab L2Line
  lfsrI : BitVec 16
  lfsrD : BitVec 16
  lfsr2 : BitVec 16
  streams : List Stream
  tlbs : Tlbs
  misses : Tab Miss
  deriving DecidableEq, Repr

/-- A sparing in progress (R15, Table 1-8). -/
structure Sparing where
  src : Fin 48
  dst : Fin 48
  /-- The failing pair's L2 has been written back. -/
  wroteBack : Bool
  /-- The new pair is powered, initialised and loaded. -/
  powered : Bool
  /-- The checkpoint has been copied and checked. -/
  copied : Bool
  deriving DecidableEq, Repr

/-- The stages of a rotation (R275-R278). -/
inductive RotStage where
  | powering | cleaning | switchDue | switching | copied
  deriving DecidableEq, Repr

/-- A rotation in progress. -/
structure Rotation where
  src : Fin 48
  dst : Fin 48
  stage : RotStage
  /-- Ticks of pre-cleaning so far. -/
  ticks : Nat
  /-- Ordered by UPD_CTL, not by schedule (R442). -/
  update : Bool
  /-- No more than 4,096 lines were dirty when the switch was ordered (R277). -/
  few : Bool
  deriving DecidableEq, Repr

/-! ### Storage and coherence (09, 10) -/

/-- A request accepted at a home, or waiting there. -/
structure Req where
  kind : ReqKind
  who : Agent
  line : Nat
  /-- Bytes of a WrL or WrP by physical address. -/
  data : Tab Byte
  /-- Expected 8 bytes of a WrP with a compare (R242). -/
  compare : Option (List Byte)
  poisoned : Bool
  deriving DecidableEq, Repr

/-- An open home transaction (R235, R239). -/
structure Txn where
  req : Req
  /-- Dies whose answer is awaited. -/
  waitFor : List Nat
  /-- A die answered SHARED. -/
  shared : Bool
  /-- Data came from an M holder or from a crossed WbM. -/
  supplied : Bool
  /-- It came from an M holder. -/
  fromM : Bool
  /-- Dies that answered Crossed, the answer being on its way. -/
  crossing : List Nat
  /-- Dies whose Crossed has arrived and whose eviction is awaited. -/
  crossed : List Nat
  /-- Evictions parked in the record: the WbM's die, the EvC dies (R248). -/
  parkedWbm : Option Nat
  parkedEvc : List Nat
  /-- MRd issued, MGo or MDrop sent, data read. -/
  mrd : Bool
  mgo : Bool
  /-- The answer has been sent to the requester; CompAck is awaited. -/
  sent : Bool
  poisoned : Bool
  deriving DecidableEq, Repr

/-- The request side of one slice (R235, R236). -/
structure Slice where
  waiting : List Req
  reserve : List Req
  /-- Retries each refused request has received: who, line, count. -/
  refused : List (Agent × Nat × Nat)
  /-- Tickets not yet served, oldest first, with their holders. -/
  tickets : List (Nat × Agent × Nat)
  nextTicket : BitVec 16
  deriving DecidableEq, Repr

/-- A directory entry (Table 10-5). -/
structure DirEntry where
  x : Bool
  ovf : Bool
  dies : List Nat
  deriving DecidableEq, Repr

/-- A Burin engine (R219-R224). -/
structure Burin where
  busy : Bool
  op : Nat
  start : Nat
  len : Nat
  cursor : Nat
  owner : Option (Fin 48)
  ownerCtx : Nat
  written : Nat
  poison : Bool
  cancelled : Bool
  paused : Bool
  /-- Lines that were leaving when their set was passed, by pair: they count as handled once acknowledged (R220). -/
  waits : List (Fin 48 × Nat)
  deriving DecidableEq, Repr

/-- A flit that is held until it is acknowledged, with the message it carries (R256). -/
structure Sent where
  seq : BitVec 12
  name : String
  pkg : Nat
  dest : Nat
  line : Nat
  /-- The line of data of the message, if it has one. -/
  data : List Byte
  /-- The second flit of a message. -/
  second : Bool
  deriving DecidableEq, Repr

/-- A coherence link (R255, R256). -/
structure Link where
  up : Bool
  trained : Bool
  x8 : Bool
  /-- SEQ of the next flit to send. -/
  txSeq : BitVec 12
  /-- Unacknowledged flits, oldest first. -/
  replayBuf : List Sent
  /-- SEQ of the next flit expected. -/
  rxSeq : BitVec 12
  /-- Flits replayed this tick. -/
  replays : Nat
  retraining : Bool
  failedRetrains : Nat
  failed : Bool
  /-- Credits the far end has returned, and messages sent, by virtual channel (R254). -/
  returned : Vector Nat 5
  used : Vector Nat 5
  /-- The link's asymmetry as training measured it, in steps of 62.5 ps (R30). -/
  asym : Int
  deriving DecidableEq, Repr

/-! ### Root ports and open functions (07, 08, 15) -/

/-- A posted write or MSI-X message held in a root port. -/
structure Posted where
  addr : Nat
  data : List Byte
  lp : Option (Fin 48)
  /-- Context that stored it, and the close that released it. -/
  ctx : Nat
  grp : Nat
  deriving DecidableEq, Repr

/-- A PCIe function as its root port sees it (R166-R168, R383). -/
structure Func where
  up : Bool
  /-- Sub-link of its port that leads to it (R500). -/
  sub : Fin 4
  contained : Bool
  /-- A credit or completion timeout has triggered containment that is not complete. -/
  containing : Bool
  credit : Nat
  /-- Posted writes toward the function, oldest first. -/
  held : List Posted
  msixLeft : Nat
  coalesced : Bool
  /-- Base and length of its BARs on the bus, as its hierarchy reported them. -/
  bars : List (Nat × Nat)
  deriving DecidableEq, Repr

/-- An MSI-X message queued for its partition (R382, R383). -/
structure Msix where
  ctx : Nat
  port : Nat
  rid : Nat
  isc : Nat
  vector : Nat
  deriving DecidableEq, Repr

/-- What a root port caches for open functions (R204). -/
inductive IoCached where
  /-- A context entry, its two words. -/
  | context (e1 e2 : Word)
  /-- A PASID entry. -/
  | pasid (e : Word)
  | leaf (e : TlbEntry)
  | walk (e : WalkEntry)
  deriving DecidableEq, Repr

/-- An entry of a root port's cache, with its tags. -/
structure IoEntry where
  port : Nat
  rid : Nat
  pasid : Option (BitVec 20)
  part : Nat
  what : IoCached
  deriving DecidableEq, Repr

/-- I/O-class interruption sources (Table 15-5). -/
inductive IntSrc where
  | sch (n : Nat)
  | queue (die q : Nat)
  | msix (port rid vector : Nat)
  | coalesced (port rid : Nat)
  | check (seq : Nat)
  deriving DecidableEq, Repr

/-- An interruption offered to a logical processor (R379). -/
structure Offer where
  src : IntSrc
  ctx : Nat
  isc : Nat
  lp : Fin 48
  /-- Not taken by the edge after it was made: it is to be withdrawn (R379). -/
  old : Bool
  deriving DecidableEq, Repr

/-! ### Partitions and metering (15) -/

/-- Hardware's state of one partition (R374-R376, R385-R387). -/
structure PartSt where
  exists_ : Bool
  /-- PART_STATE reads resetting. -/
  resetting : Bool
  counters : Vector Word 16
  snap : Vector Word 16
  seq : BitVec 32
  /-- FLAGS of the next record (Table 15-7). -/
  flags : BitVec 3
  deriving DecidableEq, Repr

/-! ### Modes (19) -/

/-- The exclusive modes (Table 19-1). -/
inductive ModeKind where
  | off | standby | init | load | operating | serviceStop | hold | checkstop | compat
  deriving DecidableEq, Repr

/-- A mode transition in progress (R448). -/
inductive Transition where
  | none | warm | hold | serviceStop | resume | powerOn
  deriving DecidableEq, Repr

/-- The stages of an IPL: which of its operations is running, on which subchannel, and BOOT_BASE as it began (R458). -/
inductive IplStage where
  | none
  | first (sch base : Nat)
  | second (sch base : Nat)
  deriving DecidableEq, Repr

/-- The Keeper's mode machinery. -/
structure Mode where
  mode : ModeKind
  phase : Nat
  result : Nat
  warm : Bool
  held : Bool
  quiesce : Bool
  transition : Transition
  /-- The mode Service stop was entered from (R467). -/
  back : ModeKind
  pkgResetLow : Bool
  warmResetLow : Bool
  /-- The last Initialisation must clear every segment (R469), or clears those not retained. -/
  clear : Option (BitVec 8)
  /-- A failure has stopped the sequence (R453). -/
  stoppedAt : Bool
  /-- Packages that have exchanged their configuration in phase 05h, and whether they agreed (R452). -/
  heard : List Coupling
  /-- Packages coupled with. -/
  coupled : List Nat
  /-- Packages that have announced their flush (R468). -/
  flushed : List Nat
  /-- This package has flushed and announced. -/
  announced : Bool
  /-- Units that have reported quiesced (R74). -/
  quiet : List Nat
  /-- The warm reset has stopped, drained and ended everything but the writeback (Table 19-7). -/
  warmDrained : Bool
  /-- Saved MEM_INIT, HASH_SALT and FOR0-FOR3 cells of Memory hold (R469). -/
  saved : Tab Word
  /-- No control-store load since the cold reset or Memory hold (R450). -/
  slotsUnused : Bool
  ipl : IplStage
  deriving DecidableEq, Repr

/-! ### Memory channels (16) -/

/-- MC_STATE.STATE (R515). -/
inductive McSt where
  | unpopulated | training | running | selfRefresh | failed
  deriving DecidableEq, Repr

/-- One bank's page policy state (R398). -/
structure Bank where
  h : BitVec 4
  /-- The previous decision: leave the row open. -/
  leave : Bool
  last : Option Nat
  opened : Option Nat
  deriving DecidableEq, Repr

/-- A byte lane's training result and drift (R406, R407). -/
structure Lane where
  rdWidth : Nat
  wrWidth : Nat
  rdDrift : Int
  wrDrift : Int
  deriving DecidableEq, Repr

/-- One memory channel (R398-R407, R515). Banks are keyed rank × 64 + subchannel × 32 + bank, lanes
rank × 16 + subchannel × 8 + lane, devices subchannel × 16 + device. -/
structure Mc where
  st : McSt
  /-- What the DIMMs' SPD said (R390). -/
  spd : Option Spd
  hot : Bool
  mark0 : Option Nat
  mark1 : Option Nat
  cursor : Nat
  passes : BitVec 32
  banks : Tab Bank
  /-- Postponed refreshes per rank (R399). -/
  postponed : Tab Nat
  /-- Distinct lines each device has had corrected, with the Transit number (R402). -/
  corrected : Tab (List (Nat × Nat))
  /-- Command retries this tick (R405). -/
  retries : Nat
  lanes : Tab Lane
  deriving DecidableEq, Repr

/-! ### Control store (18) -/

/-- Image slots, fuses apart, and the concurrent update (R437-R444). -/
structure ControlStore where
  /-- Words by slot × 65,536 + word; unlisted words are zero (log 16). -/
  words : Tab Word
  /-- Table 18-6 codes of slots 0 and 1. -/
  res0 : Nat
  res1 : Nat
  ver0 : Bool
  ver1 : Bool
  /-- Slot under verification. -/
  busy : Option (Fin 2)
  /-- SLOT0_HDR and SLOT1_HDR of verified slots. -/
  hdr0 : Word
  hdr1 : Word
  /-- Fused key pair each verified slot is signed with. -/
  key0 : Nat
  key1 : Nat
  /-- A concurrent update is in progress (R442). -/
  updating : Bool
  /-- Ticks until the next update rotation may begin. -/
  gap : Nat
  /-- Ticks without progress. -/
  still : Nat
  deriving DecidableEq, Repr

/-! ### Feeds, thermal, boundary scan (20, 21) -/

/-- A_STATE and B_STATE (R496). -/
inductive FeedSt where
  | absent | failed | repairing | standby | active
  deriving DecidableEq, Repr

/-- One feed: the verdicts of its monitors (SD0, SD1, Keeper), its status input, its repair count. -/
structure FeedIn where
  st : FeedSt
  bad : Vector Bool 3
  /-- Level of the deglitched status input. -/
  pg : Bool
  /-- The status input has been deasserted for 1 µs. -/
  pgBad : Bool
  chat : Bool
  changes : Nat
  quiet : Nat
  repair : Nat
  deriving DecidableEq, Repr

/-- The feed arbiter, measurements and ageing (20). -/
structure Feeds where
  a : FeedIn
  b : FeedIn
  /-- The active feed: some false Feed A, some true Feed B. -/
  active : Option Bool
  trip : Bool
  vsbOk : Bool
  mv : Word
  pwr : BitVec 32
  /-- TJ of dies 0 to 6. -/
  tj : Vector Nat 7
  /-- Consecutive ticks at or above 110 °C. -/
  hot : Vector Nat 7
  over90 : Bool
  over95 : Bool
  /-- AGE in units of 2^-32 of one tick at 80 °C (R494). -/
  age : Vector Nat 7
  vgb : Vector Nat 4
  deriving DecidableEq, Repr

/-- Instructions of the test access port (Table 21-6). -/
inductive TapInstr where
  | bypass | idcode | sample | extest | extestPulse | extestTrain | clamp | highz
  deriving DecidableEq, Repr

/-- The test access port (R511). -/
structure TapState where
  instr : TapInstr
  /-- An instruction of the second row has been loaded since cold reset: PROCEED is discarded. -/
  used : Bool
  deriving DecidableEq, Repr


/-! ### Channel subsystem (12, 13) -/

/-- Subchannel FUNCTION (Table 12-2). -/
inductive SchFunc where
  | none | start | halt | clear
  deriving DecidableEq, Repr

/-- An Operation Status Word (Table 12-6). -/
structure Osw where
  parm : Word
  final : Bool
  progressLost : Bool
  haltLate : Bool
  fsc : Nat
  detail : Nat
  devstat : Nat
  residual : Nat
  cwaddr : Word
  serial : BitVec 32
  /-- Path of the last frame exchanged; none if none was sent. -/
  path : Option Nat
  paths : Nat
  deriving DecidableEq, Repr

/-- A subchannel (Table 12-2, Table 12-9). -/
structure Sch where
  /-- Serial of the current or last operation; none until the first draws its start (R321). -/
  serial : Option (BitVec 32)
  enabled : Bool
  isc : Nat
  lpm : BitVec 8
  func : SchFunc
  status : Option Osw
  /-- The interruption of the pending status has been taken (R379). -/
  taken : Bool
  /-- Path slot the previous operation started on (R336). -/
  lastSlot : Option Nat
  parm : Word
  started : Word
  bytes : Word
  deriving DecidableEq, Repr

/-- A Command Word (Table 12-5). -/
structure Cw where
  cmd : Nat
  cc : Bool
  cd : Bool
  idl : Bool
  prog : Bool
  sli : Bool
  skip : Bool
  count : Nat
  addr : Nat
  deriving DecidableEq, Repr

/-- One data area of the current command: its Command Word, and where it begins in the command's bytes. -/
structure Area where
  at_ : Nat
  cw : Cw
  start : Nat
  deriving DecidableEq, Repr

/-- A CMD or GRANT sent and its window (R320-R323). -/
structure Win where
  seq : Nat
  /-- Window slot at the root port; none for a frame with no data. -/
  slot : Option Nat
  len : Nat
  /-- Offset of its first byte in the command's data. -/
  off : Nat
  /-- Physical address of its first byte. -/
  phys : Nat
  toStorage : Bool
  skip : Bool
  last : Bool
  /-- 11h-14h for a CMD, 30h HALT, 31h CANCEL, 0 for a GRANT. -/
  cmd : Nat
  acked : Bool
  deriving DecidableEq, Repr

/-- Where an operation stands (Table 13-6 STATE). -/
inductive OpStage where
  | accepted | running | waiting | ended
  deriving DecidableEq, Repr

/-- An operation accepted on a subchannel and not yet removed (12, 13). -/
structure Op where
  ctx : Nat
  stage : OpStage
  parm : Word
  pathmask : BitVec 8
  inline : Option Word
  /-- An operation of the IPL's Keeper-held Command Word (R458). -/
  ipl : Bool
  serial : BitVec 32
  /-- The active Command Word, or the next to fetch. -/
  cwaddr : Nat
  /-- The areas of the current command, in order; empty before its first fetch. -/
  areas : List Area
  /-- The indirect data list entry in use: index, its start within the area, address, length (R297). -/
  idl : Option (Nat × Nat × Nat × Nat)
  /-- A Command Word is to be fetched next. -/
  fetchDue : Bool
  /-- The word to fetch continues a data chain. -/
  chainData : Bool
  jumps : Nat
  /-- The first command has been sent. -/
  sentFirst : Bool
  /-- Bytes of the current command granted, and carried by acknowledged windows. -/
  granted : Nat
  carried : Nat
  /-- Next channel sequence; highest sequence acknowledged with all before it. -/
  seq : Nat
  acked : Nat
  /-- Highest sequence whose answer is journalled (R331). -/
  journalled : Nat
  seqCmd : Nat
  wins : List Win
  path : Nat
  pathsUsed : List Nat
  cp : Nat
  /-- System die and index of the journal entry. -/
  die : Nat
  index : Nat
  /-- A STATUS of the current command is recorded, with its sequence. -/
  status : Option Nat
  devstat : Nat
  /-- A HALT has been asked for, and its sequence once sent. -/
  halt : Bool
  haltSeq : Option Nat
  /-- A cancel has been asked for, with the final status code and detail it gives, and its sequence once
  sent. -/
  cancel : Option (Nat × Nat)
  cancelSeq : Option Nat
  /-- A RESYNC has been sent and its answer is awaited. -/
  resync : Bool
  /-- The final status decided and not yet posted (FINAL_STATUS). -/
  ending : Option Osw
  /-- Ticks spent waiting without a path. -/
  waited : Nat
  /-- The inline job's number (R356). -/
  job : Option Nat
  /-- Its saved STATE at the last acknowledged window, and the bytes it has stored (R357). -/
  jobState : List Byte
  jobStored : List (Nat × Nat)
  jobIn : Nat
  jobOut : Nat
  deriving DecidableEq, Repr

/-- A journal entry (Table 13-6), by its fields. -/
structure JEntry where
  state : Nat
  ctx : Nat
  path : Nat
  cp : Nat
  sch : Nat
  serial : BitVec 32
  seqAcked : Nat
  seqCmd : Nat
  halt : Bool
  clear : Bool
  inline : Option Word
  statusRecorded : Bool
  pathmask : BitVec 8
  paths : Nat
  next : Nat
  total : Nat
  osw : Option Osw
  transit : BitVec 32
  deriving DecidableEq, Repr

/-- PATH_STATE.STATE. -/
inductive PathSt where
  | none | init | up | failed
  deriving DecidableEq, Repr

/-- A channel path (R333, R334). -/
structure Path where
  st : PathSt
  silence : Nat
  /-- Ticks since the last HEARTBEAT of the adapter, and consecutive ones no more than 200 µs apart. -/
  sinceBeat : Nat
  beats : Nat
  /-- Frames that failed CRC or VERSION this tick. -/
  bad : Nat
  /-- Resynchronisation is due at the next cycle 20 (R335). -/
  resyncDue : Bool
  /-- The adapter's largest SEG, as a code, and how many subchannels it serves. -/
  segMax : Nat
  serves : Nat
  deriving DecidableEq, Repr

/-- CP_STATE.ROLE. -/
inductive CpRole where
  | spare | active | failed | restarting
  deriving DecidableEq, Repr

/-- A channel processor (R339). -/
structure Cp where
  role : CpRole
  /-- Transit numbers of its stops in the last second. -/
  stops : List Nat
  /-- The CP that takes its operations over, in a takeover in progress. -/
  heir : Option Nat
  image : Word
  seq : Seq
  deriving DecidableEq, Repr

/-- The channel subsystem. -/
structure Channel where
  sch : Tab Sch
  ops : Tab Op
  /-- Journal entries by die × 65,536 + index: the primaries, and the mirrors on the other die. -/
  jrn : Tab JEntry
  mirror : Tab JEntry
  paths : Tab Path
  /-- Windows revoked: path, slot, Transit number (R324). -/
  revoked : List (Nat × Nat × Nat)
  cps : Vector Cp 32
  bootId : Word
  /-- Heartbeat count. -/
  beat : BitVec 32
  deriving DecidableEq, Repr

/-! ### Job queues, engines, key store (14) -/

/-- A job queue (R341, R343). -/
structure JQueue where
  tail : Nat
  head : Nat
  base : Word
  en : Bool
  isc : Nat
  size : Nat
  /-- A notification is pending (R346). -/
  notify : Bool
  deriving DecidableEq, Repr

/-- How a job ends, as its function found it; the completion record and these stores follow in
JOB_COMPLETE (R346). -/
structure JobEnd where
  status : Nat
  detail : Nat
  consumed : Nat
  produced : Nat
  result : List Byte
  /-- Bytes still to be stored, by physical address of their first byte. -/
  stores : List (Nat × List Byte)
  deriving DecidableEq, Repr

/-- A job read from a queue, or the inline job of a channel operation (R340, R356). Jobs of one queue are
numbered in slot order. -/
structure Job where
  /-- Queue: system die × 64 + number. -/
  q : Nat
  /-- Physical address of the descriptor. -/
  at_ : Nat
  desc : List Byte
  ctx : Nat
  /-- Engines it holds: numbers 0-7, four a die; none while it waits for one. -/
  zip : Option Nat
  crypt : Option Nat
  /-- Subchannel of an inline job. -/
  inline : Option Nat
  ended : Option JobEnd
  deriving DecidableEq, Repr

/-- An engine (R360). -/
structure Eng where
  failed : Bool
  restarting : Bool
  /-- Transit numbers of its stops in the last second. -/
  stops : List Nat
  deriving DecidableEq, Repr

/-- A loaded key slot (R352). -/
structure KeySlot where
  ty : Nat
  usage : BitVec 8
  secret : List Byte
  deriving DecidableEq, Repr

/-- A die's random bit generator (R354). -/
structure Drbg where
  ok : Bool
  healthFail : Bool
  /-- Requests and ticks since it was seeded. -/
  requests : Nat
  ticks : Nat
  deriving DecidableEq, Repr

/-- Queues, jobs, engines and the key store. -/
structure Engines where
  jqs : Tab JQueue
  /-- The dispatcher's next queue, by die. -/
  next : Vector Nat 2
  jobs : Tab Job
  /-- The model's own number of the next job. -/
  nextJob : Nat
  zips : Vector Eng 8
  crypts : Vector Eng 8
  keys : Tab KeySlot
  /-- GEN of each slot; an unlisted slot has the one drawn at the last cold reset. -/
  gens : Tab (BitVec 32)
  /-- Which drawing of every GEN was the last. -/
  genEpoch : Nat
  drbg : Vector Drbg 2
  deriving DecidableEq, Repr

/-- The handlers of a BCP frame that arrives at a port (13). -/
inductive FrameKind where
  | discard | ack | status | resync | heartbeat
  deriving DecidableEq, Repr

/-- What a function or an adapter sends to a root port, held there behind a write that is not performed yet (R165). -/
inductive PortMsg where
  | posted (port : Fin 4) (rid : BitVec 16) (pasid : Option (BitVec 20)) (addr : Word) (data : List Byte)
  | dma (port : Fin 4) (rid : BitVec 16) (pasid : Option (BitVec 20)) (addr : Word) (write : Bool) (len : Nat)
      (data : List Byte)
  | msix (port : Fin 4) (rid : BitVec 16) (data : BitVec 32)
  | adapter (port : Fin 4) (rid : BitVec 16) (addr : Word) (write : Bool) (len : Nat) (data : List Byte)
  | frame (path : Fin 256) (rid : BitVec 16) (frame : BitVec 512) (kind : FrameKind)
  deriving DecidableEq, Repr

/-! ### The state of the package -/

/-- The package, and the commands waiting for it. -/
structure State where
  /-- Commands waiting, first in, first out. -/
  pending : List Instr
  /-- The model's own counter: how many free values have been taken (log 2). -/
  freeCtr : Nat
  /-- The model's own record of what has left the package, newest first (log 3). -/
  out : List Output
  fuses : Fuses
  time : Time
  bud : Budgets
  /-- Almanac streams of dies 0 to 6. -/
  alm : Vector Almanac 7
  /-- Lanes remapped, by link × 2 + direction (R12). -/
  lanes : Tab Nat
  /-- The register file: live values by register key (03). -/
  regs : Tab Word
  /-- Draft values that differ from the live ones (R60). -/
  drafts : Tab Word
  /-- COMMAND of each page while a command is in progress (R57). -/
  cmds : Tab Word
  pen : Pen
  proof : Proof
  strike : Strike
  sideA : Sideband
  sideB : Sideband
  err : Errors
  lps : Vector Lp 48
  pairs : Vector Pair 48
  sparings : List Sparing
  rotation : Option Rotation
  /-- Ticks since the end of the last rotation (R275), and ticks until an abandoned one is tried again (R278). -/
  rotAge : Nat
  rotRetry : Option Nat
  /-- The rotation that was abandoned or deferred: its active pair, and whether an update ordered it (R278). -/
  rotAgain : Option (Fin 48 × Bool)
  mem : Memory
  /-- Granules whose lines a Strike has permuted (R397), by package offset in GiB, with the free value their
  stored bytes are mixed with: what they hold is undefined. -/
  scrambled : Tab Nat
  /-- Bytes of lines held in M or leaving dirty: the value every agent reads, ahead of memory (R230). -/
  dirty : Tab Byte
  /-- Lines whose data is poisoned, by line number (R231). -/
  poison : List Nat
  /-- Victim lines by die × 2^44 + line (R207). -/
  l3 : Tab L3Line
  /-- Replacement registers of the L3 slices, by slice (R209). -/
  lfsr3 : Tab (BitVec 16)
  /-- Open home transactions by line (R235). -/
  txns : Tab Txn
  slices : Tab Slice
  dir : Tab DirEntry
  burin : Vector Burin 4
  links : Vector Link 4
  /-- Fenced packages (R253). -/
  fenced : List Nat
  /-- Functions by port × 65,536 + requester ID. -/
  funcs : Tab Func
  msixQ : List Msix
  ioCache : List IoEntry
  /-- What has arrived at a root port behind a write that is not performed yet, in order (R165). -/
  portHeld : List PortMsg
  parts : Vector PartSt 128
  /-- Released instances: kind × 2^20 + index (R375). -/
  released : List Nat
  /-- The last logical processor each context's interruptions were offered to (R379). -/
  presLast : Tab Nat
  offers : List Offer
  /-- (page, key) events under a once-per-tick rule that have been raised (R324, R343, R382). -/
  onceTick : List (Nat × Nat)
  mode : Mode
  chan : Channel
  eng : Engines
  mcs : Vector Mc 16
  cs : ControlStore
  feed : Feeds
  tap : TapState
  deriving DecidableEq, Repr

/-! ### Reset -/

/-- PSWS at reset: PRIV is 10b, Manager (R80). -/
def pswsReset : Word := 0x8000000000000000

def Arch.reset : Arch :=
  { pswa := 0, psws := pswsReset, fpc := 0, g := Vector.replicate 32 0, f := Vector.replicate 32 0,
    c := Vector.replicate 32 0 }

def Lp.reset : Lp :=
  { arch := Arch.reset, run := .waiting, ckpt := Arch.reset, other := Arch.reset, slot := false, closes := 0,
    repN := none, gated := [], released := [], owning := [], toPort := [], toFar := [], icount := 0, reservation := none, resHold := false, wait := .none, handler := false,
    signal := false, partChanged := none, lines := [] }

def Tlbs.reset : Tlbs :=
  { itlb := [], dtlb := [], stlb := [], stlbBig := [], walkHi := [], walkLo := [], zones := [] }

/-- Whether a pair is a dormant one of the part: the last of each cluster, and on the TK4-3216-W the
last two (R3, R284). -/
def dormantPair (part : Part) (p : Nat) : Bool :=
  match part with
  | .tk4008 => p % 6 = 5
  | .tk3216 => p % 6 ≥ 4

/-- The number of the logical processor an active pair takes: active pairs are numbered in ascending page
index (R284). -/
def activeNumber (part : Part) (p : Nat) : Nat :=
  ((List.range p).filter fun q => !dormantPair part q).length

/-- A pair as its fuses leave it, unpowered. -/
def Pair.reset (part : Part) (p : Nat) : Pair :=
  { role := if dormantPair part p then .dormant else .active, lp := none,
    powered := false, failed := false, retrying := false, haltReq := false, haltDone := false, step := false,
    owner := 0, irqHold := false, window := [], dwindow := [], dcounted := false, cleanSince := true,
    activeTicks := 0, image := 0, seq := Seq.reset, l1i := [], l1d := [], l2 := [], lfsrI := 1, lfsrD := 1, lfsr2 := 1,
    streams := [], tlbs := Tlbs.reset, misses := [] }

def PpsIn.reset : PpsIn := { last := none, run := 0, outliers := 0, qualified := false }

def Time.reset : Time :=
  { seconds := 0, steps := 0, transit := 0, loop := .free, active := 0, src := 0, phaseErr := 0,
    labelOk := false, label := none, within := 0, freq := 0, freqHist := [], lostLock := false, slew := 0,
    ppsA := PpsIn.reset, ppsB := PpsIn.reset, freqBad := false, oscLost := false, deviating := [],
    dieOff := Vector.replicate 6 0, dieHoldover := false, route := none, read := 0, ppsOut := false,
    tcSent := false, ppsHigh := 0 }

def Burin.reset : Burin :=
  { busy := false, op := 0, start := 0, len := 0, cursor := 0, owner := none, ownerCtx := 0, written := 0,
    poison := false, cancelled := false, paused := false, waits := [] }

def Link.reset : Link :=
  { up := false, trained := false, x8 := false, txSeq := 0, replayBuf := [], rxSeq := 0, replays := 0,
    retraining := false, failedRetrains := 0, failed := false, returned := Vector.replicate 5 0,
    used := Vector.replicate 5 0, asym := 0 }

def PartSt.reset : PartSt :=
  { exists_ := false, resetting := false, counters := Vector.replicate 16 0,
    snap := Vector.replicate 16 0, seq := 0, flags := 0 }

def Mode.reset : Mode :=
  { mode := .standby, phase := 0, result := 0, warm := false, held := false, quiesce := false,
    transition := .none, back := .operating, pkgResetLow := false, warmResetLow := false, clear := none,
    stoppedAt := false, heard := [], coupled := [], flushed := [], announced := false, quiet := [],
    warmDrained := false, saved := [], slotsUnused := true, ipl := .none }

def Mc.reset : Mc :=
  { st := .unpopulated, spd := none, hot := false, mark0 := none, mark1 := none, cursor := 0, passes := 0,
    banks := [], postponed := [], corrected := [], retries := 0, lanes := [] }

def ControlStore.reset : ControlStore :=
  { words := [], res0 := 0, res1 := 0, ver0 := false, ver1 := false, busy := none, hdr0 := 0, hdr1 := 0,
    key0 := 0, key1 := 0, updating := false, gap := 0, still := 0 }

def FeedIn.reset : FeedIn :=
  { st := .absent, bad := Vector.replicate 3 true, pg := false, pgBad := true, chat := false, changes := 0,
    quiet := 0, repair := 0 }

def Feeds.reset : Feeds :=
  { a := FeedIn.reset, b := FeedIn.reset, active := none, trip := false, vsbOk := true, mv := 0, pwr := 0,
    tj := Vector.replicate 7 255, hot := Vector.replicate 7 0, over90 := false, over95 := false,
    age := Vector.replicate 7 0, vgb := Vector.replicate 4 0 }

def Errors.reset : Errors :=
  { evq := [], wp := 0, rpA := 0, rpB := 0, portUpA := false, portUpB := false, attnA := false,
    attnB := false, ringWait := [], checks := [], seqs := [], once := [], stopCode := 0, stopPage := 0,
    stopTransit := 0, degFeed := false, degSpares := false, degKeeper := false }

/-- A channel processor at reset: the last two of each system die are spare (log 13). -/
def Cp.reset (i : Nat) : Cp :=
  { role := if i % 16 ≥ 14 then .spare else .active, stops := [], heir := none, image := 0, seq := Seq.reset }

def Channel.reset : Channel :=
  { sch := [], ops := [], jrn := [], mirror := [], paths := [], revoked := [],
    cps := Vector.ofFn fun i => Cp.reset i.val, bootId := Config.freeWord 1, beat := 0 }

def Eng.reset : Eng := { failed := false, restarting := false, stops := [] }

def Drbg.reset : Drbg := { ok := false, healthFail := false, requests := 0, ticks := 0 }

def Engines.reset : Engines :=
  { jqs := [], next := Vector.replicate 2 0, jobs := [], nextJob := 0, zips := Vector.replicate 8 Eng.reset,
    crypts := Vector.replicate 8 Eng.reset, keys := [], gens := [], genEpoch := 0,
    drbg := Vector.replicate 2 Drbg.reset }

/-- The package right after reset: the Keeper in Standby, the six dies unpowered (19 R447). The first two
free values are HASH_SALT and BOOT_ID, drawn at cold reset. -/
def State.reset : State :=
  { pending := [], freeCtr := 2, out := [], fuses := { part := .tk4008, svn := 0, revoked := 0 },
    time := Time.reset, bud := { use := [], held := [], fg := [], run := [], raised := [] },
    alm := Vector.replicate 7 { cadence := 0, seq := 0, waiting := [], use := [] },
    lanes := [], regs := [], drafts := [], cmds := [],
    pen := { holder := none, grantSeq := 0, lease := 0, history := [] },
    proof := { code := 0, busy := false, page := 0, off := 0, proofed := false, inInit := false },
    strike := { st := .idle, reason := 0, tick := 0, target := 0, cls := .tick, waitAcks := [], vals := [] },
    sideA := { ptr := none, reads := 0 }, sideB := { ptr := none, reads := 0 }, err := Errors.reset,
    lps := Vector.replicate 48 Lp.reset, pairs := Vector.ofFn fun p => Pair.reset .tk4008 p.val,
    sparings := [], rotation := none, rotAge := 0, rotRetry := none, rotAgain := none, mem := [], scrambled := [], dirty := [], poison := [],
    l3 := [], lfsr3 := [], txns := [], slices := [], dir := [], burin := Vector.replicate 4 Burin.reset,
    links := Vector.replicate 4 Link.reset, fenced := [], funcs := [], msixQ := [], ioCache := [], portHeld := [],
    parts := Vector.replicate 128 PartSt.reset, released := [], presLast := [], offers := [],
    onceTick := [], mode := Mode.reset, chan := Channel.reset, eng := Engines.reset,
    mcs := Vector.replicate 16 Mc.reset, cs := ControlStore.reset, feed := Feeds.reset,
    tap := { instr := .idcode, used := false } }

end Sys2Proof.Machine
end

