-- ==== Sys2Proof/Machine/Regs.lean ====
section
/-! DEFINITION. The register map of the service space (03 R50-R61): which pages exist, which registers
each holds, their types, their implemented bits and their reset values, from the register tables of all
chapters. -/

namespace Sys2Proof.Machine

/-- Register types (Table 3-4). -/
inductive RegTy where
  | ro | lv | w1c | sc
  | st (c : StrikeClass)
  deriving DecidableEq, Repr

/-- One register, or an array of them. -/
structure RegDef where
  off : Nat
  /-- 4 or 8. -/
  bytes : Nat
  ty : RegTy
  /-- Bits that are not reserved. -/
  mask : Nat
  reset : Nat := 0
  count : Nat := 1
  stride : Nat := 8
  deriving DecidableEq, Repr

/-- Page index of a die, block type and instance (Table 3-1). -/
def pageIx (die type inst : Nat) : Nat := die * 65536 + type * 256 + inst

def pageDie (p : Nat) : Nat := p / 65536 % 8
def pageType (p : Nat) : Nat := p / 256 % 256
def pageInst (p : Nat) : Nat := p % 256

/-- The pages that exist (Table 3-2). -/
def pagePresent (p : Nat) : Bool :=
  let d := pageDie p
  let i := pageInst p
  let cd := decide (d < 4)
  let sd := decide (d = 4 ∨ d = 5)
  let half := fun (n : Nat) => decide (d = 4 ∧ i < n ∨ d = 5 ∧ n ≤ i ∧ i < 2 * n)
  match pageType p with
  | 0x01 => d = 6 && i = 0
  | 0x02 => d = 6 && i = 0
  | 0x03 => d = 6 && i = 0
  | 0x04 => d < 7 && i = 0
  | 0x08 => cd && i < 12
  | 0x09 => cd && i < 2
  | 0x0A => cd && i < 24
  | 0x0B => cd && i = 0
  | 0x10 => half 8
  | 0x11 => sd && i = 0
  | 0x18 => half 2
  | 0x19 => half 2
  | 0x20 => sd && i = 0
  | 0x21 => sd && i < 16
  | 0x22 => sd && i < 2
  | 0x28 => sd && i < 4
  | 0x29 => sd && i < 4
  | 0x2A => sd && i = 0
  | 0x30 => d = 4 && i < 128
  | 0x31 => d = 5 && i < 128
  | 0x38 => d < 7 && i = 0
  | 0x3C => d < 7 && i = 0
  | 0x3D => (d = 4 && (i = 0 || i = 1 || i = 4 || i = 6)) || (d = 5 && (i = 2 || i = 3 || i = 5))
  | _ => false

/-- Port-only pages (Table 3-2): FEED, and CS on KD. -/
def portOnly (p : Nat) : Bool :=
  pageType p = 0x02 || (pageType p = 0x38 && pageDie p = 6)

/-- Pages that own a budgeted resource (R40): MC pages and the BUDGET pages of the six dies. -/
def ownsResource (p : Nat) : Bool :=
  pageType p = 0x10 || (pageType p = 0x04 && pageDie p < 6)

def keeperPage : Nat := pageIx 6 0x01 0
def feedPage : Nat := pageIx 6 0x02 0
def todPage : Nat := pageIx 6 0x03 0
def budgetPage (die : Nat) : Nat := pageIx die 0x04 0
def pairPage (p : Nat) : Nat := pageIx (p / 12) 0x08 (p % 12)
def clusterPage (p : Nat) : Nat := pageIx (p / 12) 0x09 (p % 12 / 6)
def slicePage (sl : Nat) : Nat := pageIx (sl / 24) 0x0A (sl % 24)
def burinPage (d : Nat) : Nat := pageIx d 0x0B 0
def mcPage (ch : Nat) : Nat := pageIx (4 + ch / 8) 0x10 ch
def mapPage : Nat := pageIx 4 0x11 0
def pciePage (port : Nat) : Nat := pageIx (4 + port / 2) 0x18 port
def clinkPage (l : Nat) : Nat := pageIx (4 + l / 2) 0x19 l
def cssPage (sd : Nat) : Nat := pageIx (4 + sd) 0x20 0
def cpPage (c : Nat) : Nat := pageIx (4 + c / 16) 0x21 (c % 16)
def journalPage (sd copy : Nat) : Nat := pageIx (4 + sd) 0x22 copy
def zipPage (e : Nat) : Nat := pageIx (4 + e / 4) 0x28 (e % 4)
def cryptPage (e : Nat) : Nat := pageIx (4 + e / 4) 0x29 (e % 4)
def keystorePage (sd : Nat) : Nat := pageIx (4 + sd) 0x2A 0
def partPage (p : Nat) : Nat := pageIx 4 0x30 p
def meterPage (p : Nat) : Nat := pageIx 5 0x31 p
def csPage (die : Nat) : Nat := pageIx die 0x38 0
def errlogPage (die : Nat) : Nat := pageIx die 0x3C 0
/-- The ALMANAC page of a source die, on its writer's die (Table 1-2). -/
def almPage (die : Nat) : Nat :=
  pageIx (if die = 2 ∨ die = 3 ∨ die = 5 then 5 else 4) 0x3D die

def m32 : Nat := 0xFFFFFFFF
def m64 : Nat := 0xFFFFFFFFFFFFFFFF

/-- The common header (R56); BUDGET and BUDGET_USE only in pages that own a resource (R40). -/
def headerRegs (p : Nat) : List RegDef :=
  [⟨0x000, 4, .ro, m32, 0, 1, 8⟩, ⟨0x004, 4, .ro, m32, 0, 1, 8⟩, ⟨0x008, 4, .ro, m32, 0, 1, 8⟩,
   ⟨0x00C, 4, .sc, m32, 0, 1, 8⟩, ⟨0x010, 8, .ro, m64, 0, 1, 8⟩, ⟨0x018, 4, .ro, 0x8000FFFF, 0, 1, 8⟩,
   ⟨0x01C, 4, .lv, 0x7, 0, 1, 8⟩, ⟨0x020, 4, .lv, 0xFFF, 0x760, 1, 8⟩, ⟨0x02C, 4, .ro, 0xF, 0, 1, 8⟩] ++
  (if ownsResource p then
    [⟨0x024, 4, .st .tick, 0x800001FF, 0x100, 1, 8⟩, ⟨0x028, 4, .ro, 0xF80F01FF, 0, 1, 8⟩]
  else [])

/-- KEEPER (Tables 3-8, 17-6; 11 ROT_CTL; 19 R471). -/
def keeperRegs : List RegDef :=
  [⟨0x040, 4, .lv, 0x80000003, 0, 1, 8⟩, ⟨0x044, 4, .ro, m32, 0, 1, 8⟩, ⟨0x048, 4, .lv, 0, 0, 1, 8⟩,
   ⟨0x04C, 4, .sc, 1, 0, 1, 8⟩, ⟨0x050, 8, .ro, m64, 0, 1, 8⟩, ⟨0x058, 4, .sc, 3, 0, 1, 8⟩,
   ⟨0x060, 8, .lv, m64, 0, 1, 8⟩, ⟨0x068, 8, .ro, m64, 0, 1, 8⟩, ⟨0x0A0, 4, .ro, m32, 0, 1, 8⟩,
   ⟨0x0C0, 4, .st .tick, 0x800001FF, 0x8000001E, 1, 8⟩, ⟨0x0C4, 4, .st .init, 0x80000000, 0, 1, 8⟩,
   ⟨0x100, 4, .ro, m32, 0, 1, 8⟩, ⟨0x104, 4, .lv, m32, 0, 1, 8⟩, ⟨0x108, 4, .lv, m32, 0, 1, 8⟩,
   ⟨0x10C, 4, .w1c, m32, 0, 1, 8⟩, ⟨0x110, 4, .ro, 0xC0000000, 0, 1, 8⟩, ⟨0x118, 8, .ro, m64, 0, 1, 8⟩,
   ⟨0x120, 4, .ro, m32, 0, 1, 8⟩, ⟨0x140, 4, .ro, m32, 0, 1, 8⟩, ⟨0x148, 4, .lv, 0xE003FFFF, 0, 1, 8⟩,
   ⟨0x150, 8, .lv, m64, 0, 1, 8⟩, ⟨0x158, 8, .lv, m64, 0, 1, 8⟩, ⟨0x160, 4, .lv, 0xFF, 0xFF, 1, 8⟩,
   ⟨0x168, 8, .lv, 0x000FFFFFFFFFF000, 0, 1, 8⟩, ⟨0x200, 8, .ro, m64, 0, 16, 8⟩]

/-- FEED (R496). -/
def feedRegs : List RegDef :=
  [⟨0x040, 4, .ro, m32, 0, 1, 8⟩, ⟨0x048, 8, .ro, m64, 0, 1, 8⟩, ⟨0x050, 4, .ro, m32, 0, 1, 8⟩,
   ⟨0x058, 8, .ro, m64, 0, 1, 8⟩, ⟨0x060, 4, .ro, 0xFFFF, 0, 1, 8⟩, ⟨0x080, 4, .ro, m32, 0, 7, 4⟩,
   ⟨0x7C0, 4, .w1c, m32, 0, 3, 4⟩]

/-- TOD (Table 2-7). -/
def todRegs : List RegDef :=
  [⟨0x040, 8, .ro, m64, 0, 1, 8⟩, ⟨0x048, 8, .ro, m64, 0, 1, 8⟩, ⟨0x050, 8, .ro, m64, 0, 1, 8⟩,
   ⟨0x060, 4, .st .tick, 0xF8000000, 0, 1, 8⟩, ⟨0x064, 4, .st .init, 0xB0000000, 0, 1, 8⟩,
   ⟨0x068, 4, .ro, m32, 0, 1, 8⟩, ⟨0x06C, 4, .lv, m32, 0, 1, 8⟩, ⟨0x070, 4, .w1c, m32, 0, 1, 8⟩]

/-- BUDGET (R48): ACT_SWEEP, ACT_CAL, ACT_TEL, ACT_WEAR, ACT_DIR with the defaults of Table 2-5 in each field. -/
def budgetRegs : List RegDef :=
  [⟨0x040, 4, .st .tick, 0x07FFFFFF, 20 * 0x40201, 1, 8⟩, ⟨0x044, 4, .st .tick, 0x07FFFFFF, 10 * 0x40201, 1, 8⟩,
   ⟨0x048, 4, .st .tick, 0x07FFFFFF, 5 * 0x40201, 1, 8⟩, ⟨0x04C, 4, .st .tick, 0x07FFFFFF, 30 * 0x40201, 1, 8⟩,
   ⟨0x050, 4, .st .tick, 0x07FFFFFF, 10 * 0x40201, 1, 8⟩]

/-- PAIR (R283, 18 CS_VERSION). The checkpoint window 380h-75Fh is LV or RO by the pair's role. -/
def pairRegs : List RegDef :=
  [⟨0x040, 4, .ro, m32, 0, 1, 8⟩, ⟨0x048, 4, .lv, 0xE0000003, 0, 1, 8⟩, ⟨0x050, 8, .ro, m64, 0, 1, 8⟩,
   ⟨0x058, 8, .ro, m64, 0, 1, 8⟩, ⟨0x060, 8, .ro, m64, 0, 1, 8⟩, ⟨0x380, 8, .lv, m64, 0, 124, 8⟩,
   ⟨0x7C0, 4, .w1c, m32, 0, 3, 4⟩, ⟨0x7CC, 4, .ro, m32, 0, 1, 8⟩, ⟨0x7D0, 8, .w1c, m64, 0, 1, 8⟩,
   ⟨0x7D8, 8, .ro, m64, 0, 1, 8⟩]

def clusterRegs : List RegDef := [⟨0x040, 4, .st .tick, 0x80001F07, 0x80001004, 1, 8⟩]

def sliceRegs : List RegDef := [⟨0x7C0, 4, .ro, m32, 0, 1, 8⟩, ⟨0x7C4, 4, .w1c, m32, 0, 4, 4⟩]

def burinRegs : List RegDef :=
  [⟨0x040, 4, .st .quiesce, 0xF, 0, 1, 8⟩, ⟨0x048, 4, .ro, m32, 0, 1, 8⟩]

/-- MC (R410). -/
def mcRegs : List RegDef :=
  [⟨0x040, 4, .st .tick, 0xC0000000, 0, 1, 8⟩, ⟨0x048, 4, .ro, m32, 0, 1, 8⟩, ⟨0x050, 8, .ro, m64, 0, 1, 8⟩,
   ⟨0x058, 4, .lv, 0xFF, 0, 1, 8⟩, ⟨0x05C, 4, .ro, m32, 0, 1, 8⟩, ⟨0x7C0, 4, .w1c, m32, 0, 5, 4⟩]

/-- MAP of SD0 (R410, R369, 10 COH registers, R381). -/
def mapRegs : List RegDef :=
  [⟨0x040, 4, .st .init, 0xF00001FF, 0, 1, 8⟩, ⟨0x044, 4, .ro, m32, 0, 1, 8⟩,
   ⟨0x048, 4, .st .init, m32, 0, 1, 8⟩, ⟨0x060, 8, .st .quiesce, 0xE0FFFFFFFFF00000, 0, 4, 8⟩,
   ⟨0x0C0, 4, .st .init, 0x830F0000, 0x00010000, 1, 8⟩, ⟨0x0C4, 4, .st .tick, 0x1F, 4, 1, 8⟩,
   ⟨0x0C8, 4, .st .init, m32, 0, 1, 8⟩, ⟨0x100, 4, .lv, 0x7FF, 0, 1, 8⟩,
   ⟨0x108, 8, .st .quiesce, m64, 0x8080808080808080, 1, 8⟩, ⟨0x7C0, 4, .w1c, m32, 0, 1, 8⟩]

/-- PCIE (08 R200, 13, 15 R371, 21 R500). -/
def pcieRegs : List RegDef :=
  [⟨0x040, 4, .st .init, 0xFE000000, 0x18000000, 1, 8⟩, ⟨0x048, 4, .ro, m32, 0, 1, 8⟩,
   ⟨0x100, 8, .st .quiesce, 0x000FFFFFFFF00001, 0, 1, 8⟩, ⟨0x140, 4, .st .tick, 0xFF, 16, 48, 4⟩,
   ⟨0x200, 8, .st .quiesce, 0xF000FFFF00000000, 0x2000000000000000, 64, 16⟩,
   ⟨0x208, 8, .st .quiesce, 0xFFFFFFFFFFFFFFC0, 0, 64, 16⟩, ⟨0x600, 4, .ro, m32, 0, 64, 4⟩,
   ⟨0x700, 4, .st .quiesce, 0xFFF0FFFF, 0, 48, 4⟩, ⟨0x7C0, 4, .w1c, m32, 0, 4, 4⟩]

def clinkRegs : List RegDef := [⟨0x7C0, 4, .w1c, m32, 0, 2, 4⟩]

/-- CSS (R314, R370). -/
def cssRegs (sd0 : Bool) : List RegDef :=
  [⟨0x040, 4, .st .tick, 0xFFF, 30, 1, 8⟩, ⟨0x048, 4, .ro, m32, 0, 1, 8⟩, ⟨0x7C0, 4, .w1c, m32, 0, 3, 4⟩] ++
  (if sd0 then
    [⟨0x100, 4, .lv, 0x3FFFF, 0, 1, 8⟩, ⟨0x108, 8, .st .quiesce, m64, m64, 1, 8⟩,
     ⟨0x110, 8, .st .quiesce, 0x800000000000FFFF, 0, 1, 8⟩, ⟨0x118, 4, .st .quiesce, 0xFF, 0, 1, 8⟩,
     ⟨0x11C, 4, .st .tick, 0x80000000, 0x80000000, 1, 8⟩]
  else [])

def cpRegs : List RegDef :=
  [⟨0x040, 4, .ro, m32, 0, 1, 8⟩, ⟨0x060, 8, .ro, m64, 0, 1, 8⟩, ⟨0x7C0, 4, .w1c, m32, 0, 1, 8⟩]

def journalRegs : List RegDef := [⟨0x7C0, 4, .w1c, m32, 0, 1, 8⟩]

def engineRegs (zip : Bool) : List RegDef :=
  [⟨0x040, 4, .ro, m32, 0, 1, 8⟩, ⟨0x7C0, 4, .w1c, m32, 0, 1, 8⟩, ⟨0x7C8, 8, .w1c, m64, 0, 2, 8⟩,
   ⟨0x7D8, 4, .w1c, m32, 0, 1, 8⟩] ++ (if zip then [⟨0x7E0, 4, .w1c, m32, 0, 1, 8⟩] else [])

def keystoreRegs : List RegDef := [⟨0x040, 4, .ro, m32, 0, 1, 8⟩, ⟨0x7C0, 4, .w1c, m32, 0, 1, 8⟩]

/-- PART (Table 15-2, 19 R471). -/
def partRegs : List RegDef :=
  [⟨0x040, 4, .st .quiesce, 0x80000000, 0, 1, 8⟩, ⟨0x044, 4, .st .tick, 0x3FFFF, 0, 1, 8⟩,
   ⟨0x048, 8, .st .quiesce, m64, 0, 1, 8⟩, ⟨0x050, 4, .st .quiesce, 0xFF, 0, 1, 8⟩,
   ⟨0x058, 8, .st .quiesce, m64, 0, 2, 8⟩, ⟨0x068, 4, .st .quiesce, 0x3FFF1FFF, 0, 1, 8⟩,
   ⟨0x070, 4, .st .quiesce, 0x7F7F, 0, 4, 4⟩, ⟨0x080, 8, .st .quiesce, 0x000FFFFFFFFC7FFF, 0, 1, 8⟩,
   ⟨0x0A0, 4, .ro, m32, 0, 1, 8⟩, ⟨0x0A8, 4, .ro, 0xC0000000, 0, 1, 8⟩, ⟨0x0B0, 8, .lv, m64, 0, 3, 8⟩,
   ⟨0x7C0, 4, .w1c, m32, 0, 2, 4⟩]

/-- METER (R386, R387). -/
def meterRegs : List RegDef :=
  [⟨0x040, 4, .st .tick, 0x80000007, 3, 1, 8⟩, ⟨0x048, 8, .st .tick, m64, 0, 1, 8⟩,
   ⟨0x050, 4, .st .tick, m32, 0, 1, 8⟩, ⟨0x058, 4, .ro, m32, 0, 1, 8⟩, ⟨0x060, 4, .lv, m32, 0, 1, 8⟩,
   ⟨0x068, 4, .w1c, m32, 0, 1, 8⟩, ⟨0x100, 8, .ro, m64, 0, 16, 8⟩]

/-- CS (18). -/
def csRegs (kd : Bool) : List RegDef :=
  [⟨0x7C0, 4, .w1c, m32, 0, 1, 8⟩] ++
  (if kd then
    [⟨0x040, 4, .lv, 0x8000FFFF, 0, 1, 8⟩, ⟨0x048, 8, .lv, m64, 0, 1, 8⟩, ⟨0x050, 4, .ro, m32, 0, 1, 8⟩,
     ⟨0x058, 8, .ro, m64, 0, 2, 8⟩, ⟨0x068, 4, .ro, 0xFFF, 0, 1, 8⟩, ⟨0x080, 4, .st .tick, 1, 0, 1, 8⟩,
     ⟨0x084, 4, .st .tick, 0x8000FFFF, 100, 1, 8⟩, ⟨0x088, 4, .ro, 0xFFFF, 0, 1, 8⟩]
  else [])

/-- ERRLOG of SD0 (R430). -/
def errlogRegs : List RegDef :=
  [⟨0x040, 4, .lv, 0xFF, 0, 1, 8⟩, ⟨0x048, 8, .st .tick, 0x800FFFFFFFFFF00F, 0, 1, 8⟩,
   ⟨0x050, 4, .ro, m32, 0, 1, 8⟩, ⟨0x054, 4, .w1c, m32, 0, 1, 8⟩]

/-- ALMANAC (R49). -/
def almRegs : List RegDef :=
  [⟨0x040, 4, .st .tick, 0x8000FFFF, 10, 1, 8⟩, ⟨0x048, 8, .st .tick, m64, 0, 1, 8⟩,
   ⟨0x050, 4, .st .tick, m32, 0, 1, 8⟩, ⟨0x058, 4, .ro, m32, 0, 1, 8⟩, ⟨0x060, 4, .lv, m32, 0, 1, 8⟩,
   ⟨0x068, 4, .w1c, m32, 0, 1, 8⟩]

/-- The body registers of a page. -/
def bodyRegs (p : Nat) : List RegDef :=
  match pageType p with
  | 0x01 => keeperRegs
  | 0x02 => feedRegs
  | 0x03 => todRegs
  | 0x04 => budgetRegs
  | 0x08 => pairRegs
  | 0x09 => clusterRegs
  | 0x0A => sliceRegs
  | 0x0B => burinRegs
  | 0x10 => mcRegs
  | 0x11 => if pageDie p = 4 then mapRegs else []
  | 0x18 => pcieRegs
  | 0x19 => clinkRegs
  | 0x20 => cssRegs (pageDie p = 4)
  | 0x21 => cpRegs
  | 0x22 => journalRegs
  | 0x28 => engineRegs true
  | 0x29 => engineRegs false
  | 0x2A => keystoreRegs
  | 0x30 => partRegs
  | 0x31 => meterRegs
  | 0x38 => csRegs (pageDie p = 6)
  | 0x3C => if pageDie p = 4 then errlogRegs else []
  | 0x3D => almRegs
  | _ => []

def pageRegs (p : Nat) : List RegDef := headerRegs p ++ bodyRegs p

/-- Whether register `r` covers offset `off`, and then the offset of its element. -/
def RegDef.covers (r : RegDef) (off : Nat) : Option Nat :=
  if off < r.off then none
  else
    let i := (off - r.off) / r.stride
    if i < r.count ∧ (off - r.off) % r.stride < r.bytes then some (r.off + i * r.stride)
    else none

/-- The register at an offset of a page, with the offset of its element. -/
def findReg : List RegDef → Nat → Option (RegDef × Nat)
  | [], _ => none
  | r :: rs, off =>
    match r.covers off with
    | some o => some (r, o)
    | none => findReg rs off

def regAt (p off : Nat) : Option (RegDef × Nat) := findReg (pageRegs p) off

/-- Key of a register in the register file: page, offset, and the index of an indexed register. -/
def regKey (p off : Nat) (idx : Nat := 0) : Nat := idx * 2147483648 + p * 4096 + off

def keyPage (k : Nat) : Nat := k / 4096 % 524288
def keyOff (k : Nat) : Nat := k % 4096
def keyIdx (k : Nat) : Nat := k / 2147483648

/-- Reset value of the register a key names. HASH_SALT is drawn at random (a free value), and the three
shared granules of the owner array read FEh (R369). -/
def regReset (k : Nat) : Word :=
  if k = regKey mapPage 0x048 then (Config.freeWord 0) &&& 0xFFFFFFFF
  else if keyPage k = mapPage ∧ keyOff k = 0x108 ∧
      (keyIdx k = 1151 ∨ keyIdx k = 1279 ∨ keyIdx k = 1407) then 0x80808080808080FE
  else
    match regAt (keyPage k) (keyOff k) with
    | some (r, _) => BitVec.ofNat 64 r.reset
    | none => 0

end Sys2Proof.Machine
end

