-- ==== Sys2Proof/Machine/Ops.lean ====
section
/-! DEFINITION. The named operations over the package's state that every family uses: register cells,
free values, outputs, bytes and lines of memory, the physical map, and the latching and reporting of
events (17 R411-R418). -/

namespace Sys2Proof.Machine

/-! ### Register cells -/

/-- Live value of a register. -/
def cell (s : State) (k : Nat) : Word := Tab.read regReset s.regs k

/-- The state with the live value of a register replaced. -/
def setCell (s : State) (k : Nat) (v : Word) : State :=
  { s with regs := Tab.write regReset s.regs k v }

/-- Draft value of an ST register: equal to the live value unless a draft write has changed it (R60). -/
def draftOf (s : State) (k : Nat) : Word := (Tab.look s.drafts k).getD (cell s k)

/-- A field of a live register. -/
def cellField (s : State) (p off lo w : Nat) (idx : Nat := 0) : Nat := field (cell s (regKey p off idx)) lo w

def cellBit (s : State) (p off i : Nat) : Bool := bit (cell s (regKey p off)) i

/-- A saturating counter of `w` bits advances by `n`. -/
def satAdd (w : Nat) (v : Word) (n : Nat) : Word := BitVec.ofNat 64 (min (2 ^ w - 1) (v.toNat + n))

/-- A 32-bit saturating telemetry counter counts `n`. -/
def bump (s : State) (p off : Nat) (n : Nat := 1) (idx : Nat := 0) : State :=
  setCell s (regKey p off idx) (satAdd 32 (cell s (regKey p off idx)) n)

/-- A 64-bit telemetry counter counts `n`. -/
def bump64 (s : State) (p off n : Nat) : State :=
  setCell s (regKey p off) (cell s (regKey p off) + BitVec.ofNat 64 n)

/-! ### Free values and outputs -/

/-- The next free value (log 2). -/
def freeNow (s : State) : Word := Config.freeWord s.freeCtr

/-- The state after a free value has been taken. -/
def taken (s : State) (n : Nat := 1) : State := { s with freeCtr := s.freeCtr + n }

def emit (o : Output) (s : State) : State := { s with out := o :: s.out }

/-! ### Vectors by natural-number index -/

/-- Element of a vector, with a default beyond its end. -/
def vget (v : Vector α n) (d : α) (i : Nat) : α := v.toArray.getD i d

/-- Replacement of an element, none beyond its end. -/
def vset (v : Vector α n) (i : Nat) (x : α) : Vector α n := v.setIfInBounds i x

/-! ### Bytes -/

/-- Big-endian value of bytes (R83). -/
def beVal (l : List Byte) : Nat := l.foldl (fun a b => a * 256 + b.toNat) 0

/-- The low `n` bytes of a number, most significant first. -/
def beBytes : Nat → Nat → List Byte
  | 0, _ => []
  | n + 1, v => BitVec.ofNat 8 (v / 256 ^ n) :: beBytes n v

/-- The low `n` bytes of a number, least significant first. -/
def leBytes : Nat → Nat → List Byte
  | 0, _ => []
  | n + 1, v => BitVec.ofNat 8 v :: leBytes n (v / 256)

/-- Little-endian value of bytes. -/
def leVal (l : List Byte) : Nat := beVal l.reverse

/-- One bit of the reflected CRC-32C register: polynomial 1EDC6F41h, reflected 82F63B78h. -/
def crcBit (c : BitVec 32) : BitVec 32 :=
  if c.getLsbD 0 then (c >>> 1) ^^^ 0x82F63B78#32 else c >>> 1

def crcByte (c : BitVec 32) (b : Byte) : BitVec 32 :=
  let x := c ^^^ b.setWidth 32
  crcBit (crcBit (crcBit (crcBit (crcBit (crcBit (crcBit (crcBit x)))))))

/-- CRC-32C of a byte string. -/
def crc32c (l : List Byte) : BitVec 32 := ~~~ (l.foldl crcByte 0xFFFFFFFF#32)

/-! ### Processors, pairs and contexts -/

/-- The manager context's number. -/
def mgrCtx : Nat := 128

def lpAt (s : State) (lp : Fin 48) : Lp := s.lps[lp]

def setLp (s : State) (lp : Fin 48) (x : Lp) : State := { s with lps := s.lps.set lp x }

def updLp (s : State) (lp : Fin 48) (f : Lp → Lp) : State := setLp s lp (f (lpAt s lp))

def pairAt (s : State) (p : Fin 48) : Pair := s.pairs[p]

def setPair (s : State) (p : Fin 48) (x : Pair) : State := { s with pairs := s.pairs.set p x }

def updPair (s : State) (p : Fin 48) (f : Pair → Pair) : State := setPair s p (f (pairAt s p))

/-- All pairs, and all logical processors, by index. -/
def all48 : List (Fin 48) := List.finRange 48

/-- The pair a logical processor is bound to. -/
def pairOf (s : State) (lp : Fin 48) : Option (Fin 48) :=
  all48.find? fun p => (pairAt s p).lp = some lp

/-- PRIV of PSWS: 0 User, 1 Supervisor, 2 Manager (R80). -/
def privOf (w : Word) : Nat := field w 62 2

/-- Bits of a control register that are not reserved; the others read zero (R3). -/
def maskC (c : Fin 32) : Word :=
  match c.val with
  | 0 => 0x000FFFFFFFFFF000
  | 1 => 0xFFFF
  | 2 => 0xFFFFFFFFFFFFF000
  | 3 => 0xFFFFFFFFFFFFFFFC
  | 4 => 0xFE00000000000000
  | 5 => 0xFF03FFFF
  | 12 => 0xFF
  | 16 => 0xFF
  | 17 => 0x000FFFFFFFFC7FFF
  | 18 => 0xFFFFFFFFFFFFF000
  | 19 => 0xFFFFFFFFFFFFFFFC
  | 20 => 0xFE00000000000000
  | 21 => 0xFF03FFFF
  | 23 => 0x1FFE
  | _ => BitVec.allOnes 64

/-- Bits of PSWS and of FPC that are not reserved (R80, R135). -/
def maskPsws : Word := 0xFE00000000000000
def maskFpc : BitVec 32 := 0x00071F1F

/-- Context number an owner code names: 0-127 a partition, 80h the manager context. -/
def ctxOfCode (c : Nat) : Nat := if c ≥ 128 then mgrCtx else c

/-- The partition C16 names, 128 for 80h. -/
def lpPart (s : State) (lp : Fin 48) : Nat := ctxOfCode ((lpAt s lp).arch.c[16].toNat % 256)

/-- The context a logical processor runs in: the manager context in Manager state. -/
def lpCtx (s : State) (lp : Fin 48) : Nat :=
  if privOf (lpAt s lp).arch.psws = 2 then mgrCtx else lpPart s lp

/-- Number of logical processors of the part (R284). -/
def lpCount (s : State) : Nat := match s.fuses.part with | .tk4008 => 40 | .tk3216 => 32

/-- Whether LP_MASK of partition `p` assigns logical processor `lp`. -/
def lpMaskHas (s : State) (p lp : Nat) : Bool := cellBit s (partPage p) 0x048 lp

/-- The partition LP_MASK assigns a logical processor to, 128 for none (R366). -/
def lpOwner (s : State) (lp : Nat) : Nat :=
  ((List.range 128).find? fun p => lpMaskHas s p lp).getD mgrCtx

/-- The package's number, COH_INIT.PKG_ID. -/
def pkgId (s : State) : Nat := cellField s mapPage 0x0C0 24 2

/-- C13 of a logical processor (R284). -/
def lpid (s : State) (lp : Fin 48) : Word := BitVec.ofNat 64 (pkgId s * 16384 + lp.val)

/-! ### Installed memory and the physical map (R392, R513) -/

/-- Populated channels whose SPD has been read. -/
def populated (s : State) : List Nat :=
  (List.range 16).filter fun c =>
    match (vget s.mcs (s.mcs[0]) c).spd with | some d => d.dimms != 0 | none => false

/-- Q, the capacity of one channel in GiB. -/
def qGib (s : State) : Nat :=
  match (populated s).head? with
  | some c => match (vget s.mcs (s.mcs[0]) c).spd with | some d => d.dimms * d.gibPerDimm | none => 0
  | none => 0

/-- Installed DRAM in GiB. -/
def installedGib (s : State) : Nat := (populated s).length * qGib s

def gib : Nat := 1073741824

/-- Live scratch ways of a compute die (R225). -/
def scrWays (s : State) (d : Nat) : Nat := cellField s (burinPage d) 0x040 0 4

/-- Regions of the physical map. -/
inductive Region where
  | dram | scratch (die : Nat) | mmio (port : Nat) | doorbell (sd : Nat) | signal | service | none
  deriving DecidableEq, Repr

/-- Package offset of a physical address. -/
def pkgOff (a : Nat) : Nat := a % 2 ^ 50

/-- Whether a physical address is of this package. -/
def localPkg (s : State) (a : Nat) : Bool := a / 2 ^ 50 = pkgId s

/-- Whether a physical address names a package of the complex that can be reached. Another package is
taken to have the same memory installed (log 20). -/
def reachable (s : State) (a : Nat) : Bool :=
  localPkg s a || s.mode.coupled.contains (a / 2 ^ 50)

/-- The region of a physical address (R513). -/
def regionOf (s : State) (a : Nat) : Region :=
  let o := pkgOff a
  if a ≥ 2 ^ 52 || !reachable s a then .none
  else if o < installedGib s * gib then .dram
  else if 0x100000000000 ≤ o ∧ o < 0x100100000000 then
    let d := (o - 0x100000000000) / 0x40000000
    if (o - 0x100000000000) % 0x40000000 < scrWays s d * 12582912 then .scratch d else .none
  else if 0x200000000000 ≤ o ∧ o < 0x240000000000 then
    let p := (o - 0x200000000000) / 0x10000000000
    let k := (o - 0x200000000000) % 0x10000000000 / 0x40000000
    if k = 1023 then
      if p = 0 then .doorbell 0 else if p = 1 then .signal else if p = 2 then .doorbell 1 else .mmio p
    else .mmio p
  else if 0x300000000000 ≤ o ∧ o < 0x300080000000 then .service
  else .none

/-- The zone table a ZTBASE or PART_ZT value describes lies within installed DRAM (R197, R367). -/
def zoneTableIn (s : State) (v : Word) : Bool :=
  let base := field v 18 34 * 2 ^ 18
  regionOf s base = .dram && regionOf s (base + 8 * (field v 0 15 + 1) - 1) = .dram

def Region.isDevice : Region → Bool
  | .mmio _ => true
  | .doorbell _ => true
  | .signal => true
  | .service => true
  | _ => false

/-- Memory that holds lines: DRAM and configured scratch. -/
def Region.isStorage : Region → Bool
  | .dram => true
  | .scratch _ => true
  | _ => false

/-- The address hash salt (R211). -/
def salt (s : State) : Nat := (cell s (regKey mapPage 0x048)).toNat % 2 ^ 32

/-- XOR of the k-bit fields of a number, over 44 bits (R393). -/
def foldBits (k : Nat) : Nat → Nat → Nat
  | 0, _ => 0
  | n + 1, v => if k = 0 then 0 else (v % 2 ^ k) ^^^ foldBits k n (v / 2 ^ k)

/-- Granule of MEM_INIT.GRAN, as a power of two. -/
def granBits (s : State) : Nat :=
  match cellField s mapPage 0x040 28 2 with | 0 => 8 | 1 => 12 | 2 => 16 | _ => 21

/-- The place of a DRAM offset among the populated channels: channel and channel-local address. -/
def dramAt (s : State) (o : Nat) : Nat × Nat :=
  let ch := populated s
  let n := ch.length
  let r := cellField s mapPage 0x040 0 9
  let q := qGib s
  if o < n * (q - r) * gib then
    let g := granBits s
    let k := Nat.log2 n
    let u := o / 2 ^ g
    let v := u / 2 ^ k
    let ix := (u % 2 ^ k) ^^^ foldBits k 44 (v % 2 ^ 44) ^^^ (salt s / 2 ^ 24 % 2 ^ k)
    (ch.getD (ix % 2 ^ k) 0, v * 2 ^ g + o % 2 ^ g)
  else
    let x := o - n * (q - r) * gib
    let w := max 1 (r * gib)
    (ch.getD (x / w) 0, (q - r) * gib + x % w)

/-- Channel of a line of this package's DRAM. -/
def channelOf (s : State) (line : Nat) : Nat := (dramAt s (pkgOff (line * 256))).1

/-! ### Memory -/

/-- Line number of a physical address. -/
def lineOf (a : Nat) : Nat := a / 256

/-- Package of a line. -/
def linePkg (line : Nat) : Nat := line * 256 / 2 ^ 50

/-- This package holds the home of a line. -/
def homeHere (s : State) (line : Nat) : Bool := linePkg line == pkgId s

def dirMode (s : State) : Bool := cellBit s mapPage 0x0C0 31

/-- A cache of this package holds a line. -/
def heldHere (s : State) (line : Nat) : Bool :=
  (s.pairs.any fun p => (Tab.look p.l2 line).isSome) ||
    [0, 1, 2, 3].any fun d => (Tab.look s.l3 (d * 2 ^ 44 + line)).isSome

/-- The newest data of a line may be in another package: its home is there, or a die there may hold it in M (R240). -/
def farMay (s : State) (line : Nat) : Bool :=
  !homeHere s line ||
    if dirMode s then
      (match Tab.look s.dir line with
       | some e => e.x && e.dies.any fun d => d / 4 != pkgId s
       | none => false)
    else s.mode.coupled.any fun p => !s.fenced.contains p

/-- The newest data of a line is in this package. -/
def visible (s : State) (line : Nat) : Bool := !farMay s line || heldHere s line

/-- The home of a line is lost: its package is fenced (R252, R253). -/
def lostHome (s : State) (line : Nat) : Bool := !homeHere s line && s.fenced.contains (linePkg line)

/-- What an unlisted byte of memory reads as: zero, as clearing leaves it (19 Table 19-3) and as new
scratch reads (R228). -/
def memDefault : Nat → Byte := fun _ => 0

/-- What a byte is mixed with where it is stored: a free value in a granule that a Strike has permuted, zero
elsewhere (R397, log 26). -/
def memMask (s : State) (a : Nat) : Byte :=
  match Tab.look s.scrambled (a / 2 ^ 30) with
  | some e => Config.freeByte e a
  | none => 0

/-- The channel of a line of this package's DRAM has failed (R405). -/
def failedChannel (s : State) (line : Nat) : Bool :=
  (s.mcs.any fun m => m.st = .failed) && decide (regionOf s (line * 256) = .dram) && localPkg s (line * 256) &&
    decide ((vget s.mcs (s.mcs[0]) (channelOf s line)).st = .failed)

/-- The byte in memory. -/
def memByte (s : State) (a : Nat) : Byte := Tab.read memDefault s.mem a ^^^ memMask s a

/-- A byte written in memory; writes to a failed channel are discarded (R405). -/
def memPut (s : State) (a : Nat) (b : Byte) : State :=
  if failedChannel s (lineOf a) then s
  else { s with mem := Tab.write memDefault s.mem a (b ^^^ memMask s a) }

/-- Bytes written in memory from an address upward. -/
def memWrite (s : State) : Nat → List Byte → State
  | _, [] => s
  | a, b :: bs => memWrite (memPut s a b) (a + 1) bs

/-- The newest performed value of a byte in this package, a dirty line's, else memory's (R158, R230). -/
def curByte (s : State) (a : Nat) : Byte := (Tab.look s.dirty a).getD (memByte s a)

/-- The byte every agent reads: of a line whose newest data may be in another package, a free value (log 46). -/
def seenByte (s : State) (a : Nat) : Byte :=
  if visible s (lineOf a) then curByte s a else Config.freeByte s.freeCtr a

/-- The free values that reads of other packages' data have taken are used up. -/
def freshen (s : State) : State := if s.mode.coupled.isEmpty then s else taken s

/-- Bytes every agent reads from an address upward. -/
def curBytes (s : State) (a : Nat) : Nat → List Byte
  | 0 => []
  | n + 1 => seenByte s a :: curBytes s (a + 1) n

/-- Big-endian value every agent reads. -/
def curVal (s : State) (a n : Nat) : Nat := beVal (curBytes s a n)

def curWord (s : State) (a : Nat) : Word := BitVec.ofNat 64 (curVal s a 8)

/-- Dirty bytes with bytes put from an address upward. -/
def dirtyPut (d : Tab Byte) : Nat → List Byte → Tab Byte
  | _, [] => d
  | a, b :: bs => dirtyPut (Tab.put d a b) (a + 1) bs

/-- Whether data that comes from another package is poisoned: a free value, but for a lost home, which ends every read
with poison (R231, R252). -/
def farPoison (s : State) (line : Nat) : Bool :=
  lostHome s line || (Config.freeByte s.freeCtr (2 ^ 60 + line)).getLsbD 0

/-- A read of a line delivers poison: it is poisoned, or its channel has failed and no cache holds it, or it comes so from
another package (R231, R252, R405). -/
def linePoison (s : State) (line : Nat) : Bool :=
  s.poison.contains line || (failedChannel s line && !(s.pairs.any fun p => (Tab.look p.l2 line).isSome)) ||
    (!visible s line && farPoison s line)

/-- Whether any line of a byte range is poisoned. -/
def anyPoison (s : State) (a n : Nat) : Bool :=
  decide (0 < n) &&
    ((s.poison.any fun l => decide (lineOf a ≤ l ∧ l ≤ lineOf (a + n - 1))) ||
     (((s.mcs.any fun m => m.st = .failed) || !s.mode.coupled.isEmpty) &&
      (List.range (lineOf (a + n - 1) - lineOf a + 1)).any fun i => linePoison s (lineOf a + i)))

def setPoison (s : State) (line : Nat) (p : Bool) : State :=
  { s with poison := if p then (if s.poison.contains line then s.poison else line :: s.poison)
                     else s.poison.filter (· != line) }

/-- A dirty line's bytes move to memory: it becomes clean (WbM, MWr). -/
def writeBack (s : State) (line : Nat) : State :=
  let bs := s.dirty.filter fun e => e.1 / 256 = line
  bs.foldl (fun s e => memPut s e.1 e.2) { s with dirty := s.dirty.filter fun e => e.1 / 256 != line }

/-- A dirty line's bytes are discarded (CINV, a WrL that replaces the line). -/
def discardDirty (s : State) (line : Nat) : State :=
  { s with dirty := s.dirty.filter fun e => e.1 / 256 != line }

/-! ### Owners -/

/-- Owner-array code of an entry as it reads: FFh beyond installed DRAM (R369). -/
def ownerEntry (s : State) (e : Nat) : Nat :=
  if e < 8192 ∧ e ≥ installedGib s then 0xFF
  else field (cell s (regKey mapPage 0x108 (e / 8))) (8 * (7 - e % 8)) 8

/-- Owner-array entry index of a package offset of DRAM or a port window, if it has one. -/
def ownerIx (a : Nat) : Option Nat :=
  let o := pkgOff a
  if o < 8192 * gib then some (o / gib)
  else if 0x200000000000 ≤ o ∧ o < 0x240000000000 then
    some (8192 + (o - 0x200000000000) / 0x40000000)
  else none

/-- Owner code of the granule that holds a physical address. -/
def granuleOwner (s : State) (a : Nat) : Nat :=
  match ownerIx a with
  | some e => ownerEntry s e
  | none => 0xFF

/-- Context that owns a granule, for events (Table 17-2). -/
def granuleCtx (s : State) (a : Nat) : Option Nat :=
  let c := granuleOwner s a
  if c < 128 then some c else if c = 128 then some mgrCtx else none

/-! ### Events (17) -/

/-- An event as its block reports it. -/
structure Event where
  page : Nat
  code : Nat
  sub : Nat := 0
  detail : Nat := 0
  owner : Option Nat := none
  lp : Option (Fin 48) := none
  kind : AddrKind := .none
  addr : Word := 0
  sync : Bool := false
  absorbed : Bool := false
  /-- Destinations added whatever ERR_ROUTE holds. -/
  route : BitVec 4 := 0
  deriving DecidableEq, Repr

/-- Class of an error code (R411). -/
def classOf (code : Nat) : Nat := code / 8192

/-- Latching in ERR_FIRST, or counting in ERR_NEXT (R57, R413). -/
def latch (s : State) (e : Event) : State :=
  let kf := regKey e.page 0x010
  if field (cell s kf) 48 16 = 0 then
    setCell s kf (BitVec.ofNat 64 (e.code * 2 ^ 48 + e.sub % 65536 * 2 ^ 32 + s.time.transit.toNat % 2 ^ 32))
  else
    let kn := regKey e.page 0x018
    let v := cell s kn
    if field v 0 16 = 0xFFFF then setCell s kn (v ||| 0x80000000) else setCell s kn (v + 1)

/-- Destinations of a record (R414): those ERR_ROUTE gives its class, and those a rule adds whatever it holds
(R66, R424). -/
def routeOf (s : State) (e : Event) : BitVec 4 :=
  if classOf e.code ≥ 3 then 0xF#4
  else BitVec.ofNat 4 (cellField s e.page 0x020 (4 * classOf e.code) 4) ||| e.route

/-- A handler of the context is active: on the processor the record names, or on any of the context
(Table 17-4). -/
def handlerActive (s : State) (ctx : Nat) (lp : Option (Fin 48)) : Bool :=
  match lp with
  | some l => if lpPart s l = ctx then (lpAt s l).handler
              else all48.any fun i => (lpAt s i).handler && decide (lpPart s i = ctx)
  | none => all48.any fun i => (lpAt s i).handler && decide (lpPart s i = ctx)

/-- The SEQ after `q`, never 0 (R416). -/
def nextSeq (q : BitVec 32) : BitVec 32 := if q = 0xFFFFFFFF#32 then 1 else q + 1

/-- Delivery of one copy to a context: its SEQ is assigned, the copy waits for its ring write, and for a
Recovered or Deferred record a check becomes pending (R416, R420, R422). -/
def deliverCtx (s : State) (ctx : Nat) (r : EvRec) : State :=
  let q := nextSeq (Tab.read (fun _ => 0) s.err.seqs ctx)
  let cls := classOf r.code
  let named := if r.owner = some ctx then r.lp.filter (fun l => lpPart s l = ctx) else none
  let held := handlerActive s ctx named
  let wantsCheck := (cls = 1 || cls = 2) && !r.absorbed && !(r.sync && r.owner = some ctx)
  let r' := { r with held := held && wantsCheck }
  { s with err := { s.err with
      seqs := Tab.write (fun _ => 0) s.err.seqs ctx q,
      ringWait := s.err.ringWait ++ [⟨ctx, q, r'⟩],
      checks := if wantsCheck then s.err.checks ++ [⟨ctx, named, q, cls, held, false⟩] else s.err.checks } }

/-- Whether entering one more record would overwrite a slot unread by a port whose link is up (R418). -/
def evqFull (s : State) : Bool :=
  (s.err.portUpA && decide ((s.err.wp - s.err.rpA).toNat ≥ 256)) ||
  (s.err.portUpB && decide ((s.err.wp - s.err.rpB).toNat ≥ 256))

/-- Entry of a record in the Keeper event queue, or its count in EVQ_OVF (R418). -/
def enterEvq (s : State) (r : EvRec) : State :=
  if evqFull s then bump s keeperPage 0x10C
  else
    let q := nextSeq s.err.wp
    { s with err := { s.err with
        evq := Tab.put s.err.evq (s.err.wp.toNat % 256) (q, r), wp := s.err.wp + 1 } }

/-- The Keeper die runs: it has a supply and is not lost. -/
def keeperRuns (s : State) : Bool := s.mode.mode != .off && !s.err.degKeeper

/-- The record an event forms. -/
def recordOf (s : State) (e : Event) (route : BitVec 4) : EvRec :=
  let n := cell s (regKey e.page 0x018)
  { code := e.code, subunit := e.sub % 65536, page := e.page, transit := s.time.transit, owner := e.owner,
    sync := e.sync, held := false, absorbed := e.absorbed, ovf := bit n 31, lp := e.lp,
    kind := e.kind, addr := e.addr, detail := BitVec.ofNat 64 e.detail, count := field n 0 16,
    route := route }

/-- The record of an unmasked event: one per code, owner and tick, to each destination (R413, R414, R418). The Keeper forms it: a
lost one forms none (log 126). -/
def formRecord (s : State) (e : Event) : State :=
  let cls := classOf e.code
  let masked := decide (cls < 3) && cellBit s e.page 0x01C cls
  let key := (e.page, e.code, match e.owner with | some o => o + 1 | none => 0)
  if masked || s.err.once.contains key || s.err.degKeeper then s
  else
    let route := routeOf s e
    let r := recordOf s e route
    let s := { s with err := { s.err with once := key :: s.err.once } }
    let s := match e.owner with
      | some o => if route.getLsbD 0 && decide (o < mgrCtx) then deliverCtx s o r else s
      | none => s
    let s := if route.getLsbD 1 || (route.getLsbD 0 && e.owner = some mgrCtx) then deliverCtx s mgrCtx r
             else s
    if route.getLsbD 2 || route.getLsbD 3 || decide (cls ≥ 3) then enterEvq s r else s

/-- Reporting of an event. The first record not entered since EVQ_OVF was cleared raises 0174h in the KEEPER page, whose own
record, finding the queue as full, is counted only (Table 17-7). -/
def report (s : State) (e : Event) : State :=
  let t := formRecord s e
  if cell s (regKey keeperPage 0x10C) = 0 ∧ cell t (regKey keeperPage 0x10C) ≠ 0 then
    let x : Event := { page := keeperPage, code := 0x0174 }
    formRecord (latch t x) x
  else t

/-- Latching and reporting of an event, without the actions of classes 3 and 4. -/
def logEvent (s : State) (e : Event) : State := report (latch s e) e

/-- An access is refused or discarded: event 0041h of the KEEPER page, with the code of the master in SUBUNIT (R54, R512).
A lost Keeper die counts nothing. -/
def discard (s : State) (m : Master) (off : Nat) (isWrite : Bool) : State :=
  if s.err.degKeeper then s
  else logEvent s {
    page := keeperPage, code := 0x0041, sub := m.code * 16384 + off % 4096,
    detail := off / 4096 + (if isWrite then 524288 else 0) }

/-- Event under a once-per-tick rule of its own (R324, R343, R382). -/
def onceEvent (s : State) (key : Nat) (e : Event) : State :=
  if s.onceTick.contains (e.page, key) then s
  else logEvent { s with onceTick := (e.page, key) :: s.onceTick } e

/-! ### Meters (R385) -/

/-- The state of one partition. -/
def partAt (s : State) (p : Nat) : PartSt := vget s.parts PartSt.reset p

def updPart (s : State) (p : Nat) (f : PartSt → PartSt) : State :=
  { s with parts := vset s.parts p (f (partAt s p)) }

/-- A meter counter of a partition counts `n`, modulo 2^64; the manager context has no meter. -/
def meter (s : State) (ctx i n : Nat) : State :=
  if ctx < mgrCtx then
    updPart s ctx fun x => { x with counters := vset x.counters i (vget x.counters 0 i + BitVec.ofNat 64 n) }
  else s

/-! ### Assignments (R366) -/

/-- The context that holds a subchannel set. -/
def setOwner (s : State) (set : Nat) : Nat :=
  ((List.range 128).find? fun p => cellBit s (partPage p) 0x050 set).getD mgrCtx

/-- The context that holds a job queue: die 0 or 1, queue 0-63. -/
def queueOwner (s : State) (die q : Nat) : Nat :=
  ((List.range 128).find? fun p => cellBit s (partPage p) (0x058 + 8 * die) q).getD mgrCtx

/-- The context that holds a key slot. -/
def keyOwner (s : State) (slot : Nat) : Nat :=
  ((List.range 128).find? fun p =>
    let b := cellField s (partPage p) 0x068 0 13
    decide (b ≤ slot ∧ slot < b + cellField s (partPage p) 0x068 16 14)).getD mgrCtx

/-- Whether a partition exists: PART_CTL.EN is live and set (R367). -/
def partExists (s : State) (p : Nat) : Bool := cellBit s (partPage p) 0x040 31

/-- Owner code a context is written as in descriptors, frames and pages. -/
def ctxCode (ctx : Nat) : Nat := if ctx ≥ mgrCtx then 0x80 else ctx

/-- Whether an assignable thing has been released and not yet struck or reclaimed (R375). -/
def isReleased (s : State) (kind ix : Nat) : Bool := s.released.contains (kind * 1048576 + ix)

end Sys2Proof.Machine
end

