-- ==== Sys2Proof/Machine/Traffic.lean ====
section
/-! DEFINITION. The budgeted resources of a package (02 R37, R49), the links a message crosses between its dies, and the
foreground traffic that R43 compares. -/

namespace Sys2Proof.Machine

/-! ### Resources

Numbers of the model: 0-15 the DRAM channels, 16 + d the ring of compute die d, 32 + 8 × d + p the outbound
direction of link port p of die d. The inbound direction of a port is the outbound one of the port at its far end. -/

def resDram (ch : Nat) : Nat := ch
def resRing (die : Nat) : Nat := 16 + die
def resLink (die port : Nat) : Nat := 32 + 8 * die + port

/-- The dies next to a die, by link port (R49, Table 1-3). -/
def neighbours (die : Nat) : List Nat :=
  match die with
  | 0 => [4, 5, 1, 3]
  | 1 => [4, 5, 0, 2]
  | 2 => [4, 5, 1, 3]
  | 3 => [4, 5, 0, 2]
  | 4 => [0, 1, 2, 3, 5]
  | 5 => [0, 1, 2, 3, 4]
  | _ => []

/-- The link ports a message leaves by on its way between two dies: the direct one, or across the lower-numbered of
the two neighbouring compute dies (log 45). -/
def hops (a b : Nat) : List Nat :=
  if a = b then []
  else
    match (neighbours a).findIdx? fun d => d = b with
    | some p => [resLink a p]
    | none =>
      match (neighbours a).find? fun d => decide (d < 4) && (neighbours d).contains b with
      | some m => ((neighbours a).findIdx? fun d => d = m).toList.map (resLink a) ++
                  ((neighbours m).findIdx? fun d => d = b).toList.map (resLink m)
      | none => []

/-! ### Foreground traffic (R43)

Classes: 0 the DRAM channels, in slots; 1 the home slices, in requests; 2 the link directions, by die × 8 + port of the
sender, in units of 64 bytes. -/

def fgKey (cls i : Nat) : Nat := cls * 1024 + i

/-- Foreground traffic is counted on a resource. -/
def countFg (s : State) (cls i n : Nat) : State :=
  { s with bud := { s.bud with
      fg := Tab.write (fun _ => 0) s.bud.fg (fgKey cls i) (Tab.read (fun _ => 0) s.bud.fg (fgKey cls i) + n) } }

/-- A message between two dies of the package, with or without a line of data, on every link it crosses. -/
def countHops (s : State) (a b : Nat) (data : Bool) : State :=
  (hops a b).foldl (fun s r => countFg s 2 (r - 32) (if data then 5 else 1)) s

end Sys2Proof.Machine
end

