-- ==== Sys2Proof/Machine/DramMap.lean ====
section
/-! DEFINITION. Where a package offset of DRAM lies (16 R392-R396, R408): its channel, its channel-local
address, its rank, bank and row, its self-refresh segment, and the
access of a line at its bank (R398). -/

namespace Sys2Proof.Machine

/-- A fixed-order region as drafted or live: enabled, channel, first granule, size. -/
def forOf (v : Word) : Bool × Nat × Nat × Nat := (bit v 63, field v 52 4, field v 30 22 % 2 ^ 20, field v 20 10)

/-- The order of a line's region: 3 for the default, else FORn.ORDER (R395, R396). -/
def orderOf (s : State) (o : Nat) : Nat :=
  match (List.range 4).find? fun n =>
      let (en, _, b, sz) := forOf (cell s (regKey mapPage (0x060 + 8 * n)))
      en && decide (b ≤ o / gib ∧ o / gib < b + sz) with
  | some n => cellField s mapPage (0x060 + 8 * n) 61 2
  | none => 3

/-- What the DIMMs of a channel say: the same on every populated one (R390). -/
def spdOf (s : State) : Option Spd := (populated s).head?.bind fun c => (vget s.mcs Mc.reset c).spd

/-- Ranks of a channel as a power of two. -/
def rankBits (s : State) : Nat := match spdOf s with | some d => Nat.log2 (d.dimms * d.ranksPerDimm) | none => 0

/-- The devices are 32 Gb. -/
def dense (s : State) : Bool := match spdOf s with | some d => d.dense32 | none => false

/-- Subchannel, rank, bank and row of a channel-local line under an order (Table 16-2). -/
structure DramPlace where
  sub : Nat
  rank : Nat
  bank : Nat
  row : Nat
  deriving DecidableEq, Repr

def placeOf (s : State) (order local_ : Nat) : DramPlace :=
  let m := local_ / 256
  let r := rankBits s
  let rowW := if dense s then 17 else 16
  match order with
  | 1 => { sub := m % 2, row := m / 2 ^ 6 % 2 ^ rowW, bank := m / 2 ^ (6 + rowW) % 32,
           rank := m / 2 ^ (11 + rowW) % 2 ^ r }
  | 2 => { sub := m % 2, bank := m / 2 % 32, rank := m / 2 ^ 6 % 2 ^ r, row := m / 2 ^ (11 + r) }
  | 0 => { sub := m % 2, bank := m / 2 ^ 6 % 32, rank := m / 2 ^ 11 % 2 ^ r, row := m / 2 ^ (11 + r) }
  | _ => { sub := m % 2, bank := (m / 2 ^ 6 % 32) ^^^ (m / 2 ^ (11 + r) % 32), rank := m / 2 ^ 11 % 2 ^ r,
           row := m / 2 ^ (11 + r) }

/-- The segment of a DRAM offset: the top three ROW bits (R408). -/
def segmentOf (s : State) (o : Nat) : Nat :=
  let (_, l) := dramAt s o
  (placeOf s (orderOf s o) l).row / 2 ^ (if dense s then 14 else 13) % 8

/-- DRAM is cleared but for the retained segments (R408, R449, R469). A permuted granule that is cleared whole
holds zeros; one of which only stripes are cleared stays free (log 26). -/
def clearDram (s : State) (keep : BitVec 8) : State :=
  let inDram := fun a => decide (pkgOff a < 8192 * gib) && localPkg s a
  let gone := fun a => inDram a && !keep.getLsbD (segmentOf s (pkgOff a))
  { s with
    mem := s.mem.filter fun e => !gone e.1,
    poison := s.poison.filter fun l => !gone (l * 256),
    scrambled := s.scrambled.filter fun e =>
      let o := e.1 % 2 ^ 20 * gib
      !(if keep = 0 then true else orderOf s o != 1 && !keep.getLsbD (segmentOf s o)) }

def mcAt (s : State) (ch : Nat) : Mc := vget s.mcs Mc.reset ch

def updMc (s : State) (ch : Nat) (f : Mc → Mc) : State := { s with mcs := vset s.mcs ch (f (mcAt s ch)) }

/-! ### Page policy (R398) -/

def bankDefault : Bank := { h := 0, leave := false, last := none, opened := none }

def bankKey (rank sub bank : Nat) : Nat := rank * 64 + sub * 32 + bank

/-- An access to a row of a bank: its history, the decision, and whether the row stays open. -/
def bankAccess (s : State) (ch rank sub bank row : Nat) : State :=
  let k := bankKey rank sub bank
  let b := Tab.read (fun _ => bankDefault) (mcAt s ch).banks k
  let h := (b.h <<< 1) ||| (if b.last = some row then 1 else 0)
  let ones := (List.range 4).countP fun i => h.getLsbD i
  let leave := if ones ≥ 3 then true else if ones ≤ 1 then false else b.leave
  let keep := match cellField s (mcPage ch) 0x040 30 2 with
    | 0 => leave
    | 1 => true
    | _ => false
  let s := if b.opened = some row then bump s (mcPage ch) 0x7D0 else s
  let b' : Bank := { h := h, leave := leave, last := some row, opened := if keep then some row else none }
  updMc s ch fun m => { m with banks := Tab.write (fun _ => bankDefault) m.banks k b' }

/-- The access of a line of this package's DRAM at its bank. -/
def lineAccess (s : State) (line : Nat) : State :=
  let o := pkgOff (line * 256)
  let (ch, a) := dramAt s o
  let p := placeOf s (orderOf s o) a
  bankAccess s ch p.rank p.sub p.bank p.row

/-! ### Accesses of lines -/

/-- A line is read from or written to this package's DRAM: foreground traffic of its channel, and an access at its bank. -/
def countDram (s : State) (line : Nat) : State :=
  if regionOf s (line * 256) = .dram && homeHere s line then lineAccess (countFg s 0 (channelOf s line) 1) line else s

/-- A line has been written to DRAM; one written poisoned is counted (R403). -/
def wroteDram (s : State) (line : Nat) : State :=
  let t := countDram s line
  if regionOf s (line * 256) = .dram && homeHere s line && s.poison.contains line then
    bump t (mcPage (channelOf s line)) 0x7C8
  else t

end Sys2Proof.Machine
end

