-- ==== Sys2Proof/Machine/Lines.lean ====
section
/-! DEFINITION. Lines of the caches: placement hashes (R211), tags and replacement (R205-R210), eviction
(R215), removal, ownership, and the reads and writes of agents that cache nothing (R239). -/

namespace Sys2Proof.Machine

/-! ### Placement (R211, R226) -/

/-- The mix of a line number that both hashes start from. -/
def hashMix (a : Nat) : Nat :=
  (a % 65536) ^^^ (a / 65536 % 65536) ^^^ (a / 2 ^ 32 % 4096)

def hashL (sl a : Nat) : Nat := hashMix a ^^^ (sl % 65536)
def hashH (sl a : Nat) : Nat := hashMix a ^^^ (sl / 65536 % 65536)

/-- The slice, 0-23, of a line on any compute die: its die ordering point and its victim L3. -/
def localSlice (s : State) (line : Nat) : Nat := hashL (salt s) line * 24 / 65536

/-- The home slice, 0-95, of a line on the package its address names. -/
def homeSlice (s : State) (line : Nat) : Nat :=
  let o := pkgOff (line * 256)
  if 0x100000000000 ≤ o ∧ o < 0x100100000000 then
    let d := (o - 0x100000000000) / 0x40000000
    d * 24 + (o - 0x100000000000) % 0x40000000 / 256 % 24
  else hashH (salt s) line * 96 / 65536

/-- Place of a scratch line in the L3 of its die: slice, set and way (R226). -/
def scratchPlace (line : Nat) : Nat × Nat × Nat :=
  let n := pkgOff (line * 256) % 0x40000000 / 256
  (n % 24, n / 24 % 2048, 15 - n / 24 / 2048)

/-- Compute die, 0-15 over the complex, that holds a line's home. -/
def homeDie (s : State) (line : Nat) : Nat := linePkg line * 4 + homeSlice s line / 24

/-- The die of the complex a pair of this package lies on. -/
def pairDie (s : State) (p : Fin 48) : Nat := pkgId s * 4 + p.val / 12

/-! ### Messages to other packages (R255, R256) -/

/-- A coherence link that carries traffic. -/
def linkUp (s : State) (l : Nat) : Bool :=
  (vget s.links Link.reset l).up && !(vget s.links Link.reset l).failed

/-- The link that traffic for a package leaves by: the direct one of COH_ROUTE, else the alternate (R256). -/
def linkTo (s : State) (pkg : Nat) : Option Nat :=
  let r := cellField s mapPage 0x0C8 (8 * pkg) 8
  if !r.testBit 7 then none
  else if linkUp s (r / 32 % 4) then some (r / 32 % 4)
  else if r.testBit 4 && linkUp s (r / 4 % 4) then some (r / 4 % 4)
  else none

/-- The virtual channels (Table 10-7): request, snoop, response, data, writeback. -/
def virtualChannel (name : String) : Nat :=
  if ["SnpS", "SnpO", "SnpNA", "SnpNA PROBE"].contains name then 1
  else if ["DataS", "DataE", "DataM", "DataS POISON", "DataE POISON", "DataM POISON"].contains name then 3
  else if ["EvC", "WbM"].contains name then 4
  else if ["RdS", "RdO", "Upg", "RdNA", "WrL", "WrP", "store", "load", "maintenance"].contains name then 0
  else 2

/-- Header of a flit that carries messages: SEQ, ACKSEQ, TYPE 00b; which channel it returns credits for and how many is
free (Table 10-8, log 108). -/
def flitHeader (s : State) (k : Link) (seq : BitVec 12) : Nat :=
  seq.toNat * 2 ^ 36 + (k.rxSeq - 1).toNat * 2 ^ 24 + (freeNow s).toNat % 4096 * 2 ^ 12

/-- A flit of 256 bytes: header, fifteen slots, CRC-32C, and a code over them that the spec names only (Table 10-8). Slots
that are not given are free. -/
def flitBytes (s : State) (k : Link) (seq : BitVec 12) (slots : List Byte) : List Byte :=
  let free := fun (i n : Nat) => (List.range n).map fun j => Config.freeByte s.freeCtr (2 ^ 61 + seq.toNat * 512 + i + j)
  let body := beBytes 6 (flitHeader s k seq) ++ slots ++ free slots.length (240 - slots.length)
  body ++ beBytes 4 (crc32c body).toNat ++ free 250 6

/-- The flits of a message: it begins a flit of its own (log 108), in one slot whose layout the spec does not give, with a
line of data in sixteen more, which span two flits. -/
def messageFlits (s : State) (k : Link) (data : List Byte) : List (BitVec 12 × List Byte) :=
  let head := (List.range 16).map fun j => Config.freeByte s.freeCtr (2 ^ 61 + 2 ^ 60 + j)
  if data.isEmpty then [(k.txSeq, flitBytes s k k.txSeq head)]
  else [(k.txSeq, flitBytes s k k.txSeq (head ++ data.take 224)),
        (k.txSeq + 1, flitBytes s k (k.txSeq + 1) (data.drop 224))]

/-- A message with a line of data or none leaves for another package, in flits that are held until they are acknowledged
(R255, R256). Nothing leaves for a fenced package, or for one no link leads to (R253). -/
def toPkgData (name : String) (pkg dest line : Nat) (data : List Byte) (s : State) : State :=
  if s.fenced.contains pkg then s
  else
    match linkTo s pkg with
    | none => s
    | some l =>
      let k := vget s.links Link.reset l
      let fl := messageFlits s k data
      let buf := k.replayBuf ++ fl.zipIdx.map fun f => (⟨f.1.1, name, pkg, dest, line, data, decide (f.2 = 1)⟩ : Sent)
      let c := virtualChannel name
      let k' := { k with txSeq := k.txSeq + BitVec.ofNat 12 fl.length, replayBuf := buf.drop (buf.length - 1024),
                         used := vset k.used c (vget k.used 0 c + 1) }
      let s := emit (.message name dest line) { taken s with links := vset s.links l k' }
      let s := if data.isEmpty then s else emit (.line line data) s
      fl.foldl (fun s f => emit (.flit l f.1.toNat f.2) s) s

def toPkg (name : String) (pkg dest line : Nat) (s : State) : State := toPkgData name pkg dest line [] s

/-- A message to a die of the complex leaves the package if the die is of another one. -/
def sendDie (name : String) (die line : Nat) (s : State) : State :=
  if die / 4 = pkgId s then s else toPkg name (die / 4) die line s

/-- Bytes of a line as this package holds them. -/
def lineBytes (s : State) (line : Nat) : List Byte := (List.range 256).map fun i => curByte s (line * 256 + i)

/-- A message to a die of another package with the line's data. -/
def sendLine (name : String) (die line : Nat) (s : State) : State :=
  if die / 4 = pkgId s then s else toPkgData name (die / 4) die line (lineBytes s line) s

/-! ### Foreground traffic of lines (R43) -/

/-- A request is served by a home slice. -/
def countSlice (s : State) (line : Nat) : State := if homeHere s line then countFg s 1 (homeSlice s line) 1 else s

/-- A message between a die of the package and the home of a line, or the link toward it. -/
def countTo (s : State) (die line : Nat) (data back : Bool) : State :=
  let far := if homeHere s line then homeSlice s line / 24
    else match linkTo s (linePkg line) with | some l => 4 + l / 2 | none => 4
  if back then countHops s far die data else countHops s die far data

/-- A read of a line by a pair that goes through the home and memory. -/
def countRead (s : State) (p : Fin 48) (line : Nat) : State :=
  countTo (countTo (countDram (countSlice s line) line) (p.val / 12) line false false) (p.val / 12) line true true

/-! ### Replacement (R209, R210) -/

/-- One cycle of a replacement register, whose feedback polynomial is x^16 + x^14 + x^13 + x^11 + 1 (R209). DESIGN CHOICE
(log 107): it shifts toward its most significant bit, and the sum of the four taps enters at bit 0. -/
def lfsrStep (r : BitVec 16) : BitVec 16 :=
  (r <<< 1) ||| (BitVec.ofBool (r.getLsbD 15 ^^ r.getLsbD 13 ^^ r.getLsbD 12 ^^ r.getLsbD 10)).setWidth 16

def lfsrRun : Nat → BitVec 16 → BitVec 16
  | 0, r => r
  | n + 1, r => lfsrRun n (lfsrStep r)

/-- A replacement register at the moment of a choice: it advances every cycle, and how many have passed since the last choice
is a free number (log 107). -/
def lfsrNow (s : State) (r : BitVec 16) : BitVec 16 := lfsrRun ((freeNow s).toNat % 65535) r

/-- The victim way: the lowest invalid one, else the one that the register's value gives among the eligible ways in
ascending order; none if no way is eligible. -/
def pickWay (ways : List Nat) (used : List Nat) (locked : List Nat) (r : BitVec 16) : Option Nat :=
  match ways.find? (fun w => !used.contains w) with
  | some w => some w
  | none =>
    let el := ways.filter (fun w => !locked.contains w)
    el[r.toNat % el.length]?

/-! ### The L2 -/

def l2Find (s : State) (p : Fin 48) (line : Nat) : Option L2Line := Tab.look (pairAt s p).l2 line

/-- State a pair's L2 holds a line in, leaving lines apart. -/
def l2State (s : State) (p : Fin 48) (line : Nat) : Option CohSt :=
  match l2Find s p line with
  | some x => if x.leaving then none else some x.st
  | none => none

/-- A line leaves the L1s of a pair (R206). -/
def l1Drop (s : State) (p : Fin 48) (line : Nat) : State :=
  updPair s p fun x => { x with l1i := Tab.del x.l1i line, l1d := Tab.del x.l1d line }

/-- The reservation on a line is lost by the processor bound to a pair (Table 7-8). -/
def loseReservation (s : State) (p : Fin 48) (line : Nat) : State :=
  match (pairAt s p).lp with
  | some lp => updLp s lp fun x =>
      if x.reservation = some line then { x with reservation := none, resHold := false } else x
  | none => s

/-- Every processor's reservation on a line is lost, but that of one pair if it is named. -/
def loseReservations (s : State) (line : Nat) (keep : Option (Fin 48) := none) : State :=
  all48.foldl (fun s lp => if keep = some lp then s else
    updLp s lp fun x => if x.reservation = some line then { x with reservation := none, resHold := false }
                        else x) s

/-- A line leaves an L2 and the L1s of its pair. -/
def l2Drop (s : State) (p : Fin 48) (line : Nat) : State :=
  updPair (l1Drop s p line) p fun x => { x with l2 := Tab.del x.l2 line }

/-- A line is removed from an L2 and the L1s of its pair, with the reservation on it. -/
def l2Remove (s : State) (p : Fin 48) (line : Nat) : State := loseReservation (l2Drop s p line) p line

def l2SetState (s : State) (p : Fin 48) (line : Nat) (st : CohSt) : State :=
  updPair s p fun x =>
    match Tab.look x.l2 line with
    | some l => { x with l2 := Tab.put x.l2 line { l with st := st } }
    | none => x

/-- Leaving lines of an L2 (R215). -/
def leavingCount (s : State) (p : Fin 48) : Nat := ((pairAt s p).l2.filter fun e => e.2.leaving).length

/-- Eviction of a line: its tag stays in the leaving state until the home acknowledges (R215). -/
def l2Evict (s : State) (p : Fin 48) (line : Nat) : State :=
  match l2Find s p line with
  | some l =>
    if l.leaving then s
    else
      let s := l1Drop s p line
      let s := updPair s p fun x =>
        { x with l2 := Tab.put x.l2 line { l with leaving := true, wbm := l.st = .m } }
      let s := loseReservation s p line
      if l.st = .m then sendLine "WbM" (homeDie s line) line (countTo s (p.val / 12) line true false)
      else sendDie "EvC" (homeDie s line) line s
  | none => s

/-- Ways an L2 set uses, and those that are not eligible: leaving lines, and lines with a fill out (R209). -/
def l2SetWays (s : State) (p : Fin 48) (line : Nat) : List Nat × List Nat :=
  let x := pairAt s p
  let inSet := x.l2.filter fun e => e.1 % 2048 = line % 2048
  (inSet.map (fun e => e.2.way),
   (inSet.filter fun e => e.2.leaving || (Tab.look x.misses e.1).isSome).map (fun e => e.2.way))

/-! ### The L3 victim caches (R207) -/

def l3Key (die line : Nat) : Nat := die * 2 ^ 44 + line

/-- A line of a die's victim cache; dies are those of this package, 0-3. -/
def l3Find (s : State) (die line : Nat) : Option L3Line := Tab.look s.l3 (l3Key die line)

def l3Remove (s : State) (die line : Nat) : State := { s with l3 := Tab.del s.l3 (l3Key die line) }

/-- A clean line evicted from an L2 of a die is written into the victim slice; a line that finds no
eligible way is dropped. Scratch lines are never placed there (R227). -/
def l3Place (s : State) (die line : Nat) (st : CohSt) : State :=
  let sl := localSlice s line
  let o := pkgOff (line * 256)
  if 0x100000000000 ≤ o ∧ o < 0x100100000000 then s
  else
    let inSet := s.l3.filter fun e =>
      e.1 / 2 ^ 44 = die && e.1 % 2048 = line % 2048 && localSlice s (e.1 % 2 ^ 44) = sl
    let k := die * 24 + sl
    let r := lfsrNow s ((Tab.look s.lfsr3 k).getD 1)
    match pickWay (List.range (16 - scrWays s die)) (inSet.map (·.2.way)) [] r with
    | none => s
    | some w =>
      let l3 := s.l3.filter fun e => !(inSet.any fun v => v.1 = e.1 && v.2.way = w)
      let s := taken s
      { s with l3 := Tab.put l3 (l3Key die line) ⟨st, w⟩, lfsr3 := Tab.put s.lfsr3 k r }

/-! ### The directory and the home's records (R235, R240, R244) -/

/-- Pairs of a die of this package. -/
def pairsOfDie (die : Nat) : List (Fin 48) := all48.filter fun p => p.val / 12 = die

def txnAt (s : State) (line : Nat) : Option Txn := Tab.look s.txns line

def putTxn (s : State) (line : Nat) (t : Txn) : State := { s with txns := Tab.put s.txns line t }

def sliceNone : Slice := { waiting := [], reserve := [], refused := [], tickets := [], nextTicket := 0 }

def sliceAt (s : State) (sl : Nat) : Slice := Tab.read (fun _ => sliceNone) s.slices sl

def updSlice (s : State) (sl : Nat) (f : Slice → Slice) : State :=
  { s with slices := Tab.write (fun _ => sliceNone) s.slices sl (f (sliceAt s sl)) }

/-- The compute die a requester lies on; system agents lie on none. -/
def agentDie (s : State) (a : Agent) : Option Nat :=
  match a with
  | .pair p => some (pairDie s p)
  | .remote d => some d.val
  | _ => none

/-- Requests that need a directory entry: the requester will hold the line. -/
def ReqKind.holds (k : ReqKind) : Bool :=
  match k with | .rdS => true | .rdO => true | .upg => true | _ => false

/-- Every compute die of the complex that a snoop can reach: a fenced package's link stop answers at once (R253). -/
def allDies (s : State) : List Nat :=
  ((pkgId s :: s.mode.coupled).filter fun p => !s.fenced.contains p).flatMap fun p =>
    [4 * p, 4 * p + 1, 4 * p + 2, 4 * p + 3]

/-- The dies that a request's snoops go to. In directory mode a read snoops the one recorded die when X is set, and
none when it is clear, OVF or not. -/
def snoopDies (s : State) (r : Req) : List Nat :=
  let l :=
    if !dirMode s then allDies s
    else
      match Tab.look s.dir r.line with
      | none => []
      | some e =>
        match r.kind with
        | .rdS => if e.x then e.dies else []
        | .rdNA => if e.x then e.dies else []
        | _ => if e.ovf then allDies s else e.dies
  l.filter fun d => agentDie s r.who != some d && !s.fenced.contains (d / 4)

/-- Set of a line in its slice's directory. -/
def dirSet (line : Nat) : Nat := (line % 4096) ^^^ (line / 4096 % 4096)

def sameSet (s : State) (a b : Nat) : Bool := homeSlice s a == homeSlice s b && dirSet a == dirSet b

/-- Ways of a line's set in use, those that open transactions will take among them. -/
def waysUsed (s : State) (line : Nat) : Nat :=
  (s.dir.filter fun e => sameSet s e.1 line).length +
  (s.txns.filter fun e => e.2.req.kind.holds && (Tab.look s.dir e.1).isNone && sameSet s e.1 line).length

/-- A request needs a way and its set has none free. -/
def wayShort (s : State) (r : Req) : Bool :=
  dirMode s && r.kind.holds && (Tab.look s.dir r.line).isNone && decide (waysUsed s r.line ≥ 16)

/-- A pair of this package has a line in the leaving state. -/
def leavingAnywhere (s : State) (line : Nat) : Bool :=
  all48.any fun p => match l2Find s p line with | some l => l.leaving | none => false

/-- A request of a die is open for a line, or a line is leaving one of its L2s: requests of the die for it wait (R215,
R233). -/
def dieWaits (s : State) (die line : Nat) : Bool :=
  (pairsOfDie die).any fun p => (Tab.look (pairAt s p).misses line).isSome ||
    match l2Find s p line with | some l => l.leaving | none => false

/-- A line is blocked at its home: a transaction is open, or a request waits for it (R235). -/
def blocked (s : State) (line : Nat) : Bool :=
  (txnAt s line).isSome || (sliceAt s (homeSlice s line)).waiting.any fun r => r.line = line

/-- A request runs through its home with no wait and no answer of another package: its home is here, its line is not
blocked and not leaving, its directory set has a way, and every die it snoops is of this package. -/
def homeFree (s : State) (r : Req) : Bool :=
  homeHere s r.line && !blocked s r.line && !leavingAnywhere s r.line && !wayShort s r &&
    (snoopDies s r).all fun d => d / 4 = pkgId s

/-- A write of an agent may run: at a home here, on a line that is not blocked and not leaving an L2. -/
def canWrite (s : State) (line : Nat) : Bool := !homeHere s line || (!blocked s line && !leavingAnywhere s line)

/-- The same of every line of some byte ranges. -/
def canWriteAll (s : State) (l : List (Nat × Nat)) : Bool :=
  l.all fun r => r.2 = 0 || (List.range ((r.1 + r.2 - 1) / 256 - r.1 / 256 + 1)).all fun i => canWrite s (r.1 / 256 + i)

/-- Lines that a pair may cache: DRAM, and scratch of its own package (R227, R243). -/
def cacheable (s : State) (line : Nat) : Bool :=
  match regionOf s (line * 256) with
  | .dram => true
  | .scratch _ => homeHere s line
  | _ => false

def dirFree (s : State) (line : Nat) : State := { s with dir := Tab.del s.dir line }

/-! ### Fills -/

/-- A victim's eviction is served at once: its home is here and its line is not blocked (R248). -/
def leavesNow (s : State) (line : Nat) : Bool := homeHere s line && !blocked s line

/-- A victim leaves an L2, its home answering at once: a dirty line by WbM, which writes memory and frees the entry, a clean
one by EvC to the die's victim cache (R207, R245, R248). -/
def l2EvictNow (s : State) (p : Fin 48) (line : Nat) : State :=
  match l2State s p line with
  | some .m => l2Remove (dirFree (wroteDram (writeBack (countTo s (p.val / 12) line true false) line) line) line) p line
  | some st => l3Place (l2Remove s p line) (p.val / 12) line st
  | none => s

/-- The way of a pair's L2 that a line would take, the line it holds, and the register's value at the choice. -/
def l2Victim (s : State) (p : Fin 48) (line : Nat) : Option (Nat × Option Nat × BitVec 16) :=
  let (used, locked) := l2SetWays s p line
  let r := lfsrNow s (pairAt s p).lfsr2
  (pickWay (List.range 16) used locked r).map fun w =>
    (w, ((pairAt s p).l2.find? fun e => e.1 % 2048 = line % 2048 && e.2.way = w).map (·.1), r)

/-- A line is placed in an L2, a victim of its set leaving at once if need be. None: the line is leaving, or no way is
eligible, or the victim must wait for its home; the fill waits (R209, R215). -/
def l2Place (s : State) (p : Fin 48) (line : Nat) (st : CohSt) : Option State :=
  match l2Find s p line with
  | some l => if l.leaving then none else some (l2SetState s p line st)
  | none =>
    match l2Victim s p line with
    | none => none
    | some (w, v, r) =>
      let put := fun (s : State) => updPair (taken s) p fun x =>
        { x with l2 := Tab.put x.l2 line ⟨st, w, false, false, false⟩, lfsr2 := r }
      match v with
      | none => some (put s)
      | some v => if leavesNow s v then some (put (l2EvictNow s p v)) else none

/-- A fill that waits for a way has its victim leave, unless a line of the set is leaving already (R209, R215). -/
def fillRoom (s : State) (p : Fin 48) (line : Nat) : State :=
  if (pairAt s p).l2.any (fun e => e.1 % 2048 = line % 2048 && e.2.leaving) || decide (leavingCount s p ≥ 32) then s
  else
    match l2Victim s p line with
    | some (_, some v, r) => l2Evict (updPair (taken s) p fun x => { x with lfsr2 := r }) p v
    | _ => s

/-- A fill of an L1: data or instruction. The victim's register works as in R209. -/
def l1Place (s : State) (p : Fin 48) (line : Nat) (instr : Bool) : State :=
  let x := pairAt s p
  let t := if instr then x.l1i else x.l1d
  if (Tab.look t line).isSome then s
  else
    let inSet := t.filter fun e => e.1 % 64 = line % 64
    let r := lfsrNow s (if instr then x.lfsrI else x.lfsrD)
    match pickWay (List.range 8) (inSet.map (·.2)) [] r with
    | none => s
    | some w =>
      let t' := Tab.put (t.filter fun e => !(e.1 % 64 = line % 64 && e.2 = w)) line w
      updPair (taken s) p fun x =>
        if instr then { x with l1i := t', lfsrI := r } else { x with l1d := t', lfsrD := r }

/-! ### Copies over the package -/

/-- Every copy of a line on one die is removed, with the reservations on it, but those of one pair if it is named. -/
def dieRemove (s : State) (die line : Nat) (keep : Option (Fin 48) := none) : State :=
  let s := (pairsOfDie die).foldl (fun s p =>
    if keep = some p then s
    else loseReservation (if (l2State s p line).isSome then l2Drop s p line else s) p line) s
  l3Remove s die line

/-- Every copy of a line in the package is removed, but that of one pair if it is named. Dirty data stays
in the overlay for the caller to move. -/
def removeCopies (s : State) (line : Nat) (keep : Option (Fin 48) := none) : State :=
  [0, 1, 2, 3].foldl (fun s d => dieRemove s d line keep) s

/-- Every copy of a line in the package is made clean: an M copy is written back and kept. The caller
names the state a formerly dirty copy takes. -/
def cleanCopies (s : State) (line : Nat) (st : CohSt) : State :=
  let s := writeBack s line
  all48.foldl (fun s p => if l2State s p line = some .m then l2SetState s p line st else s) s

/-- The pair that holds a line in E or M. -/
def ownerPair (s : State) (line : Nat) : Option (Fin 48) :=
  all48.find? fun p => l2State s p line = some .m || l2State s p line = some .e

/-- Whether a die of this package holds a copy of a line. -/
def dieHolds (s : State) (die line : Nat) : Bool :=
  ((pairsOfDie die).any fun p => (l2State s p line).isSome) || (l3Find s die line).isSome

/-! ### The directory (R244, R245) -/

/-- The entry after RdS: the die is added; X is set if it took E. -/
def dirAdd (s : State) (line die : Nat) (excl : Bool) : State :=
  if !dirMode s || linePkg line != pkgId s then s
  else
    let e := (Tab.look s.dir line).getD ⟨false, false, []⟩
    let e' : DirEntry :=
      if e.ovf then { e with x := false }
      else if e.dies.contains die then { e with x := excl }
      else if e.dies.length ≥ 4 then ⟨false, true, e.dies⟩
      else ⟨excl, false, e.dies ++ [die]⟩
    let s := if e'.ovf && !e.ovf then bump s (slicePage (homeSlice s line)) 0x7D0 else s
    { s with dir := Tab.put s.dir line e' }

/-- The entry after RdO and Upg: the requester's die alone, with X. -/
def dirOwn (s : State) (line die : Nat) : State :=
  if !dirMode s || linePkg line != pkgId s then s
  else { s with dir := Tab.put s.dir line ⟨true, false, [die]⟩ }

/-! ### Accesses of agents that cache nothing, and ownership taken at once -/

/-- A WrP or WrL of part or all of one line, performed at the home: every cached copy goes, an M holder's
bytes are merged, a whole line replaces poison, a partial write leaves it (R239, R403). Reservations on
the line are lost (Table 7-8). -/
def writeLine (s : State) (a : Nat) (bs : List Byte) (poisoned : Bool := false) : State :=
  let line := lineOf a
  let whole := decide (a % 256 = 0 ∧ bs.length ≥ 256)
  let s := if whole then discardDirty s line else writeBack s line
  let s := dirFree (loseReservations (removeCopies s line) line) line
  let s := memWrite s a (bs.take 256)
  if whole || poisoned then setPoison s line poisoned else s

/-- Another pair's L2 holds the line of its processor's reservation against ownership snoops (R173). -/
def heldLine (s : State) (p : Fin 48) (line : Nat) : Bool :=
  all48.any fun q => q != p && (match (pairAt s q).lp with
    | some lp => (lpAt s lp).resHold && (lpAt s lp).reservation = some line
    | none => false)

/-- An L2 of the die other than a pair's that holds a line in one of some states. -/
def holderOn (s : State) (p : Fin 48) (line : Nat) (st : List CohSt) : Option (Fin 48) :=
  (pairsOfDie (p.val / 12)).find? fun q =>
    q != p && match l2State s q line with | some x => st.contains x | none => false

def l3HolderOn (s : State) (p : Fin 48) (line : Nat) (st : List CohSt) : Bool :=
  match l3Find s (p.val / 12) line with | some l => st.contains l.st | none => false

/-- Ownership of a line taken by a pair's L2 in one piece: on the die where Table 10-2 completes it there, else through the
home, where nothing there makes it wait (R234, R239). Every other copy goes and the line is held in M; data that another L2
held dirty stays in the overlay and moves with the line. None: the line waits, for a request of the die, a hold, the
home, a die of another package or a way. -/
def takeOwnership (s : State) (p : Fin 48) (line : Nat) : Option State :=
  let die := p.val / 12
  let mine := l2State s p line
  if mine = some .m then some s
  else if dieWaits s die line || heldLine s p line || !cacheable s line then none
  else if mine = some .e then some (loseReservations (l2SetState s p line .m) line ((pairAt s p).lp))
  else if (holderOn s p line [.e, .m]).isSome || l3HolderOn s p line [.e] then
    l2Place (loseReservations (dieRemove s die line (some p)) line ((pairAt s p).lp)) p line .m
  else
    let kind : ReqKind := if mine.isSome || (holderOn s p line [.l]).isSome || l3HolderOn s p line [.l] then .upg else .rdO
    if !homeFree s ⟨kind, .pair p, line, [], none, false⟩ then none
    else
      let s := loseReservations (removeCopies (countRead s p line) line (some p)) line ((pairAt s p).lp)
      (l2Place s p line .m).map fun s => dirOwn s line (pairDie s p)

/-- A readable copy of a line taken by a pair's L2 in one piece, as RdS takes one: on the die an M holder gives its line and
an L or E holder its answer (Table 10-2), else through the home, where nothing there makes it wait: E if no die holds a
copy, else L. A load takes no reservation away (R171). None: the line waits. -/
def takeCopy (s : State) (p : Fin 48) (line : Nat) : Option State :=
  let die := p.val / 12
  if (l2State s p line).isSome then some s
  else if dieWaits s die line || !cacheable s line then none
  else
    match holderOn s p line [.m], holderOn s p line [.l, .e] with
    | some q, _ => l2Place (l2Drop s q line) p line .m
    | none, some q => l2Place (l2SetState s q line .s) p line .l
    | none, none =>
      if l3HolderOn s p line [.l, .e] then l2Place (l3Remove s die line) p line .l
      else if !homeFree s ⟨.rdS, .pair p, line, [], none, false⟩ then none
      else
        let held := [0, 1, 2, 3].any fun d => dieHolds s d line
        let known := dirMode s && match Tab.look s.dir line with
          | some e => e.ovf || e.dies.any fun d => d != pairDie s p
          | none => false
        let s := all48.foldl (fun s q =>
          if l2State s q line = some .m then l2SetState (writeBack s line) q line .l
          else if l2State s q line = some .e then l2SetState s q line .l else s) (countRead s p line)
        let s := [0, 1, 2, 3].foldl (fun s d => match l3Find s d line with
          | some l => if l.st = .e then { s with l3 := Tab.put s.l3 (l3Key d line) { l with st := .l } } else s
          | none => s) s
        let st : CohSt := if held || known then .l else .e
        (l2Place s p line st).map fun s => dirAdd s line (pairDie s p) (st = .e)

/-- A dirty line of an L2 leaves by WbM: its home writes memory and frees its entry (R245, R248). -/
def flushLine (s : State) (p : Fin 48) (line : Nat) : State :=
  let s := countTo s (p.val / 12) line true false
  if homeHere s line then dirFree (wroteDram (writeBack s line) line) line
  else writeBack (sendLine "WbM" (homeDie s line) line s) line

/-- A dirty line of an L2 is written to memory and kept clean, in E: its entry stays. The spec names no message for that to a home
in another package (log 118). -/
def cleanLine (s : State) (p : Fin 48) (line : Nat) : State :=
  let s := countTo s (p.val / 12) line true false
  let s := if homeHere s line then wroteDram s line else sendLine "clean" (homeDie s line) line s
  l2SetState (writeBack s line) p line .e

end Sys2Proof.Machine
end

