-- ==== Sys2Proof/Machine/Home.lean ====
section
/-! DEFINITION. The home side of the coherence protocol (10 R235, R236, R239-R250): acceptance and refusal of
requests, open transactions, directory victims, answers, evictions, and the end of a transaction. -/

namespace Sys2Proof.Machine

/-! ### Records -/

/-- An agent's number in the model's record of answers. -/
def agentNo (a : Agent) : Nat :=
  match a with
  | .pair p => p.val
  | .cp i => 64 + i.val
  | .zip i => 96 + i.val
  | .crypt i => 104 + i.val
  | .port p => 112 + p.val
  | .almanac d => 116 + d.val
  | .remote d => 128 + d.val

/-- An answer to a requester: a flit to another package, or recorded for an agent that caches nothing. A pair takes
its answers by ACK, RETRY and DATA_FILL. -/
def answer (a : Agent) (name : String) (line : Nat) (s : State) : State :=
  match a with
  | .pair _ => s
  | .remote d => sendDie name d.val line s
  | _ => emit (.message name (agentNo a) line) s

/-- A data message's name: it carries POISON where the line it brings is poisoned (R231, R254). -/
def dataName (s : State) (t : Txn) (name : String) : String :=
  if t.poisoned || linePoison s t.req.line then name ++ " POISON" else name

/-- A line of data goes to a requester. A pair takes it by DATA_FILL. -/
def answerLine (t : Txn) (name : String) (s : State) : State :=
  let line := t.req.line
  match t.req.who with
  | .pair _ => s
  | .remote d => sendLine (dataName s t name) d.val line s
  | a => emit (.line line (lineBytes s line)) (emit (.message (dataName s t name) (agentNo a) line) s)

/-- A home's own work is no request (R245, R246). -/
def ReqKind.isWork (k : ReqKind) : Bool :=
  match k with | .backInv => true | .probe => true | _ => false

/-- Requests for which the home reads memory when it opens (Table 10-4); a partial write is merged into the data. -/
def ReqKind.reads (k : ReqKind) : Bool :=
  match k with | .rdS => true | .rdO => true | .rdNA => true | .wrP => true | _ => false

/-- The request message's name. -/
def ReqKind.name (k : ReqKind) : String :=
  match k with
  | .rdS => "RdS"
  | .rdO => "RdO"
  | .upg => "Upg"
  | .rdNA => "RdNA"
  | .wrL => "WrL"
  | .wrP => "WrP"
  | .backInv => "BackInv"
  | .probe => "Probe"

/-- Snoops of Table 10-4, and PROBE. -/
inductive SnoopKind where
  | s | o | na | probe
  deriving DecidableEq, Repr

def ReqKind.snoop (k : ReqKind) : SnoopKind :=
  match k with
  | .rdS => .s
  | .rdNA => .na
  | .probe => .probe
  | _ => .o

def SnoopKind.name (k : SnoopKind) : String :=
  match k with
  | .s => "SnpS"
  | .o => "SnpO"
  | .na => "SnpNA"
  | .probe => "SnpNA PROBE"

/-! ### Opening -/

def openTxn (s : State) (r : Req) : State :=
  let ds := snoopDies s r
  let t : Txn := { req := r, waitFor := ds, shared := false, supplied := false, fromM := false, crossing := [],
                   crossed := [], parkedWbm := none, parkedEvc := [], mrd := false, mgo := false,
                   sent := r.kind = .upg && ds.isEmpty, poisoned := false }
  let home := homeSlice s r.line / 24
  let s := ds.foldl (fun s d => sendDie r.kind.snoop.name d r.line
    (if d / 4 = pkgId s then countHops s home (d % 4) false else s)) (putTxn (countSlice s r.line) r.line t)
  if t.sent then answer r.who "Ack" r.line s else s

/-- A request whose line is not blocked and that needs no further way opens its transaction. -/
def tryOpen (s : State) (r : Req) : Option State :=
  if (txnAt s r.line).isSome || wayShort s r then none else some (openTxn s r)

/-- A victim of the set is invalidated to make room, unless one already is; none where every way's line is blocked
(R246). -/
def victimise (s : State) (line : Nat) : Option State :=
  if s.txns.any fun e => e.2.req.kind = .backInv && sameSet s e.1 line then some s
  else
    let l := s.dir.filter fun e => sameSet s e.1 line && (txnAt s e.1).isNone
    match l[(freeNow s).toNat % l.length]? with
    | none => none
    | some v =>
      let s := bump (taken s) (slicePage (homeSlice s line)) 0x7C8
      let r : Req := ⟨.backInv, .almanac 0, v.1, [], none, false⟩
      if (snoopDies s r).isEmpty then some (dirFree s v.1) else some (openTxn s r)

/-- Request buffers of a slice in use (R235). -/
def buffersUsed (s : State) (sl : Nat) : Nat :=
  (s.txns.filter fun e => !e.2.req.kind.isWork && homeSlice s e.1 == sl).length + (sliceAt s sl).waiting.length

def enqueue (s : State) (sl : Nat) (r : Req) : State :=
  updSlice s sl fun x => { x with waiting := x.waiting ++ [r] }

/-- Acceptance of a request: it opens, or waits in a buffer behind the others for its line; none where it is refused
(R235). -/
def accept (s : State) (r : Req) : Option State :=
  let sl := homeSlice s r.line
  if buffersUsed s sl ≥ 64 then none
  else if (txnAt s r.line).isSome || (sliceAt s sl).waiting.any fun w => w.line = r.line then some (enqueue s sl r)
  else
    match tryOpen s r with
    | some s => some s
    | none => (victimise s r.line).map fun s => (tryOpen s r).getD (enqueue s sl r)

/-- Waiting requests of a slice that can open do, in order of arrival; a freed buffer goes to the oldest request on
the reserve list (R235, R236). -/
def pump (s : State) (sl : Nat) : State :=
  let step := fun (acc : State × List Req) (r : Req) =>
    if acc.2.any fun w => w.line = r.line then (acc.1, acc.2 ++ [r])
    else
      match tryOpen acc.1 r with
      | some s => (s, acc.2)
      | none =>
        (if (txnAt acc.1 r.line).isSome then acc.1 else (victimise acc.1 r.line).getD acc.1, acc.2 ++ [r])
  let (s, kept) := (sliceAt s sl).waiting.foldl step (s, [])
  let s := updSlice s sl fun x => { x with waiting := kept }
  let take := fun (acc : State × List Req) (r : Req) =>
    if !acc.2.isEmpty then (acc.1, acc.2 ++ [r])
    else
      match accept acc.1 r with
      | some s => (s, [])
      | none => (acc.1, [r])
  let (s, kept) := (sliceAt s sl).reserve.foldl take (s, [])
  updSlice s sl fun x => { x with reserve := kept }

/-! ### Refusal (R236) -/

/-- The Retry of a refused request: one that holds a ticket carries its number (R236). -/
def sendRetry (r : Req) (s : State) : State :=
  let t := (sliceAt s (homeSlice s r.line)).tickets.find? fun t => t.2.1 = r.who && t.2.2 = r.line
  answer r.who (match t with | some t => "Retry " ++ toString t.1 | none => "Retry") r.line s

/-- A refused request: the Retry is counted. At the eighth the request is put on the reserve list of four, or takes
a ticket where the list is full or earlier tickets wait for its places. -/
def refuse (s : State) (r : Req) : State :=
  let sl := homeSlice s r.line
  let s := bump s (slicePage sl) 0x7C4
  let x := sliceAt s sl
  let me := fun (e : Agent × Nat × Nat) => e.1 = r.who && e.2.1 = r.line
  let n := match x.refused.find? me with | some e => e.2.2 + 1 | none => 1
  let rest := x.refused.filter fun e => !me e
  let s := match r.who with
    | .pair p => updPair s p fun y =>
        match Tab.look y.misses r.line with
        | some m => { y with misses := Tab.put y.misses r.line { m with refused := true } }
        | none => y
    | _ => s
  sendRetry r <|
    if n < 8 || x.tickets.any fun t => t.2.1 = r.who && t.2.2 = r.line then
      updSlice s sl fun x => { x with refused := (r.who, r.line, n) :: rest }
    else if x.reserve.length < 4 && x.tickets.isEmpty then
      updSlice s sl fun x => { x with refused := rest, reserve := x.reserve ++ [r] }
    else
      updSlice s sl fun x =>
        { x with refused := (r.who, r.line, n) :: rest, tickets := x.tickets ++ [(x.nextTicket.toNat, r.who, r.line)],
                 nextTicket := x.nextTicket + 1 }

/-- A request arrives at its home. One that carries a ticket gets only a place on the reserve list, and only with the
lowest ticket. -/
def arrive (s : State) (r : Req) : State :=
  let sl := homeSlice s r.line
  let x := sliceAt s sl
  let mine := fun (t : Nat × Agent × Nat) => t.2.1 = r.who && t.2.2 = r.line
  let forget := fun (s : State) =>
    updSlice s sl fun x => { x with refused := x.refused.filter fun e => !(e.1 = r.who && e.2.1 = r.line) }
  if x.reserve.any fun w => w.who = r.who && w.line = r.line then s
  else if x.tickets.any mine then
    if (x.tickets.head?.map mine).getD false && decide (x.reserve.length < 4) then
      pump (forget (updSlice s sl fun x => { x with tickets := x.tickets.drop 1, reserve := x.reserve ++ [r] })) sl
    else refuse s r
  else
    match accept s r with
    | some s => forget s
    | none => refuse s r

/-! ### Writes of agents that cache nothing -/

/-- The page a requester's timeout is raised in. -/
def agentPage (a : Agent) : Option Nat :=
  match a with
  | .pair p => some (pairPage p.val)
  | .cp i => some (cpPage i.val)
  | .zip i => some (zipPage i.val)
  | .crypt i => some (cryptPage i.val)
  | .port p => some (pciePage p.val)
  | .almanac _ => none
  | .remote _ => none

/-- 40A2h: a request whose home is lost has ended (R252). -/
def lostEvent (s : State) (who : Agent) (line : Nat) (owner : Option Nat) : State :=
  match agentPage who with
  | some p => logEvent s { page := p, code := 0x40A2, owner := owner, kind := .phys, addr := BitVec.ofNat 64 (line * 256) }
  | none => s

/-- Bytes of a request by physical address. -/
def reqBytes : Nat → List Byte → Tab Byte
  | _, [] => []
  | a, b :: l => (a, b) :: reqBytes (a + 1) l

/-- A line arrives from another package: what it carries, and whether that is poisoned, is not said here, and is free. -/
def freeLine (s : State) (line : Nat) : State :=
  setPoison (memWrite (taken s) (line * 256) ((List.range 256).map fun i => Config.freeByte s.freeCtr i)) line
    (farPoison s line)

/-- Caches of other packages give up a line that an agent of this package writes: a SnpO goes to each that may hold it, and
what one that may hold it in M supplies is free (log 123). -/
def farSnoop (s : State) (r : Req) : State :=
  let far := (snoopDies s r).filter fun d => d / 4 ≠ pkgId s
  let excl := !dirMode s || match Tab.look s.dir r.line with | some e => e.x | none => false
  if far.isEmpty then s
  else far.foldl (fun s d => sendDie "SnpO" d r.line s) (if excl && !heldHere s r.line then freeLine s r.line else s)

/-- Agents whose writes wait where they are until the line is free, and then run in one piece (log 123). -/
def writesAtOnce (a : Agent) : Bool :=
  match a with | .port _ => false | .remote _ => false | _ => true

/-- A write of part or all of one line by an agent: performed at once where its home lets it run so, else a request that
waits there, to be written by MWR. To another package it is sent; to a lost one it is discarded (R239, R252). -/
def agentWriteLine (s : State) (who : Agent) (a : Nat) (bs : List Byte) : State :=
  let line := lineOf a
  let r : Req := ⟨if bs.length ≥ 256 then .wrL else .wrP, who, line, reqBytes a bs, none, false⟩
  if homeHere s line then
    if homeFree s r || (writesAtOnce who && canWrite s line) then
      wroteDram (writeLine (countSlice (farSnoop s r) line) a bs) line
    else (accept s r).getD (enqueue s (homeSlice s line) r)
  else if lostHome s line then lostEvent s who line none
  else toPkgData r.kind.name (linePkg line) (homeDie s line) line bs (writeLine s a bs)

/-- A write of bytes by an agent that caches nothing, line by line. -/
def agentWriteAux (who : Agent) : Nat → State → Nat → List Byte → State
  | 0, s, _, _ => s
  | n + 1, s, a, bs =>
    if bs.isEmpty then s
    else
      let room := 256 - a % 256
      agentWriteAux who n (agentWriteLine s who a (bs.take room)) (a + room) (bs.drop room)

/-- A write of bytes by an agent that caches nothing: the Almanac writer where no other is named. -/
def agentWrite (s : State) (a : Nat) (bs : List Byte) (who : Agent := .almanac 0) : State :=
  agentWriteAux who (bs.length + 1) s a bs

/-! ### Evictions at the home (R248) -/

/-- Leaving copies of a line on a die of this package whose home has not acknowledged them. -/
def leavingPairs (s : State) (die line : Nat) : List (Fin 48) :=
  (pairsOfDie (die % 4)).filter fun p => match l2Find s p line with
    | some l => l.leaving && !l.acked
    | none => false

/-- The home's Ack of an eviction is on its way; a clean victim that did not cross is in the L3. -/
def ackLeaving (s : State) (die line : Nat) (stale : Bool) : State :=
  if die / 4 != pkgId s then sendDie (if stale then "Ack STALE" else "Ack") die line s
  else
    (leavingPairs s die line).foldl (fun s p =>
      match l2Find s p line with
      | none => s
      | some l =>
        let s := updPair s p fun x => { x with l2 := Tab.put x.l2 line { l with acked := true } }
        if l.wbm || stale then s else l3Place s (die % 4) line l.st) s

/-- An eviction of an unblocked line is served at once: memory is written for WbM, and the entry freed. -/
def serveEviction (s : State) (die line : Nat) (wbm : Bool) : State :=
  let s := if !wbm then s
    else if die / 4 = pkgId s then dirFree (wroteDram (writeBack s line) line) line
    else dirFree (freeLine (discardDirty s line) line) line
  ackLeaving s die line false

/-! ### The end of a transaction (R239, R245) -/

/-- The line is unblocked: evictions parked in the record are served, then whatever waits. -/
def endTxn (s : State) (line : Nat) : State :=
  match txnAt s line with
  | none => s
  | some t =>
    let s : State := { s with txns := Tab.del s.txns line }
    let s := match t.parkedWbm with | some d => serveEviction s d line true | none => s
    let s := t.parkedEvc.foldl (fun s d => serveEviction s d line false) s
    pump s (homeSlice s line)

/-- Dies the directory records for a line, but the requester's. -/
def recordedOthers (s : State) (t : Txn) : Bool :=
  dirMode s &&
    match Tab.look s.dir t.req.line with
    | none => false
    | some e => e.ovf || e.dies.any fun d => agentDie s t.req.who != some d

/-- RdS takes E: no die answered SHARED or supplied from M, and no other die is recorded (Table 10-4). -/
def takesE (s : State) (t : Txn) : Bool := !t.shared && !t.fromM && !recordedOthers s t

/-- Every snoop has been answered, and every crossed eviction taken. -/
def Txn.answered (t : Txn) : Bool := t.waitFor.isEmpty && t.crossing.isEmpty && t.crossed.isEmpty

/-- The home's next step once every snoop is answered: data that a holder or a crossed WbM supplied goes to the
requester, an upgrade is acknowledged, directory work ends. -/
def homeSettle (s : State) (line : Nat) : State :=
  match txnAt s line with
  | none => s
  | some t =>
    if !t.answered || t.sent then s
    else
      match t.req.kind with
      | .upg => answer t.req.who "Ack" line (putTxn s line { t with sent := true })
      | .rdS =>
        if t.supplied then answerLine t (if takesE s t then "DataE" else "DataS") (putTxn s line { t with sent := true })
        else s
      | .rdO =>
        if t.supplied then answerLine t (if t.fromM then "DataM" else "DataE") (putTxn s line { t with sent := true })
        else s
      | .rdNA => if t.supplied then endTxn (answerLine t "DataM" s) line else s
      | .wrL => s
      | .wrP => s
      | .backInv => endTxn (dirFree s line) line
      | .probe =>
        match Tab.look s.dir line with
        | some e => endTxn (if !t.shared && (e.ovf || e.dies.isEmpty) then dirFree s line else s) line
        | none => endTxn s line

end Sys2Proof.Machine
end

