-- ==== Sys2Proof/Machine/Gate.lean ====
section
/-! DEFINITION. The store gate (11 R260-R264, 07 R153-R160): gated and released entries, what a load takes
from them, the close of an interval, and the performing of released entries in memory. -/

namespace Sys2Proof.Machine

/-- Whether a store merges into an entry: the same 64-byte block, Normal memory (R154, R262). -/
def GateEntry.takes (e : GateEntry) (ty : MemType) (blk : Nat) : Bool :=
  e.ty = .normal && ty = .normal && e.blk = blk

/-- One piece of a store, within one 64-byte block, enters the gated part. -/
def gatePut : List GateEntry → MemType → Nat → List Byte → Nat → List GateEntry
  | [], ty, a, bs, ctx => [⟨ty, a / 64, dirtyPut [] a bs, ctx, 0⟩]
  | e :: l, ty, a, bs, ctx =>
    if e.takes ty (a / 64) && e.ctx = ctx then { e with bytes := dirtyPut e.bytes a bs } :: l
    else e :: gatePut l ty a bs ctx

/-- A store cut at 64-byte boundaries; bytes are at consecutive physical addresses. -/
def gateStore : Nat → List GateEntry → MemType → Nat → List Byte → Nat → List GateEntry
  | 0, l, _, _, _, _ => l
  | n + 1, l, ty, a, bs, ctx =>
    if bs.isEmpty then l
    else
      let room := 64 - a % 64
      gateStore n (gatePut l ty a (bs.take room) ctx) ty (a + room) (bs.drop room) ctx

/-- The byte of the youngest entry of a list, oldest first, that holds an address. -/
def gateByte (l : List GateEntry) (a : Nat) : Option Byte :=
  l.foldl (fun r e => if e.blk = a / 64 then (Tab.look e.bytes a).orElse (fun _ => r) else r) none

/-- The byte a logical processor loads: its own gated and released stores, youngest first, ahead of the L2
(R156, R262). -/
def lpByte (s : State) (x : Lp) (a : Nat) : Byte :=
  ((gateByte x.gated a).orElse fun _ => (gateByte x.released a).orElse fun _ => gateByte x.owning a).getD
    (seenByte s a)

def lpBytes (s : State) (x : Lp) (a : Nat) : Nat → List Byte
  | 0 => []
  | n + 1 => lpByte s x a :: lpBytes s x (a + 1) n

/-! ### The close of an interval -/

/-- Whether the released part has room for every gated entry (R262). -/
def closeRoom (x : Lp) : Bool := decide (x.released.length + x.gated.length ≤ 64)

/-- A clean close: the new checkpoint, written into the other slot, becomes current and every gated entry is released, in
one (R261, R263). -/
def closeLp (x : Lp) : Lp :=
  { x with ckpt := x.arch, other := x.ckpt, slot := !x.slot, closes := x.closes + 1,
           released := x.released ++ x.gated.map fun e => { e with grp := x.closes + 1 }, gated := [], icount := 0 }

/-- The close at an instruction boundary: without room it stays due (R260, R262). -/
def closeIfRoom (x : Lp) : Lp := if closeRoom x then closeLp x else { x with icount := 256 }

/-- The pair of a processor has closed an interval clean since its last counted mismatch (R266). -/
def markClean (s : State) (lp : Fin 48) : State :=
  match pairOf s lp with
  | some p => updPair s p fun x => { x with cleanSince := true }
  | none => s

/-- The interval of a logical processor closes. -/
def closeInterval (s : State) (lp : Fin 48) : State := markClean (updLp s lp closeLp) lp

/-! ### Performing released entries -/

/-- Bytes of an entry put into the line its L2 holds in M. -/
def mergeEntry (s : State) (e : GateEntry) : State :=
  { s with dirty := e.bytes.foldl (fun d b => Tab.put d b.1 b.2) s.dirty }

/-- Stores of a processor are performed in a line that its L2 holds in M: another processor's reservation on it is lost
(Table 7-8). -/
def mergeAll (s : State) (lp : Fin 48) (line : Nat) (es : List GateEntry) : State :=
  es.foldl mergeEntry (loseReservations s line (some lp))

/-- Stores of a pair's processor that waited in its L2 for ownership of a line are merged, the line being held in E or M: E
becomes M (Table 1-5). -/
def mergeWaiting (s : State) (p : Fin 48) (line : Nat) : State :=
  match (pairAt s p).lp with
  | none => s
  | some lp =>
    let mine := (lpAt s lp).owning.filter fun e => e.blk / 4 = line
    let own := match l2State s p line with | some .e => true | some .m => true | _ => false
    if mine.isEmpty || !own then s
    else updLp (mergeAll (l2SetState s p line .m) lp line mine) lp fun x =>
      { x with owning := x.owning.filter fun e => e.blk / 4 ≠ line }

/-- Ownership of a line taken by a pair's L2 in one piece, with the stores that waited for it merged. -/
def ownNow (s : State) (p : Fin 48) (line : Nat) : Option State :=
  (takeOwnership s p line).map fun s => mergeWaiting s p line

/-- Runs of consecutive addresses of an entry's bytes. -/
def entryRuns : Tab Byte → Option (Nat × List Byte) → List (Nat × List Byte)
  | [], none => []
  | [], some r => [r]
  | (k, b) :: l, none => entryRuns l (some (k, [b]))
  | (k, b) :: l, some (a, bs) =>
    if k = a + bs.length then entryRuns l (some (a, bs ++ [b])) else (a, bs) :: entryRuns l (some (k, [b]))

/-- Bytes of an entry written at the homes, run by run of consecutive addresses. -/
def writeEntry (s : State) (e : GateEntry) : State :=
  (entryRuns e.bytes none).foldl (fun s r => agentWrite s r.1 r.2) s

/-- The stores of one close to one line leave the gate for the L2: merged where the line is held in M or E, and none waits
before them, else they wait there for ownership of the line (Table 1-5, R156, R160, R262). -/
def drainNormal (s : State) (lp p : Fin 48) (es : List GateEntry) (line : Nat) : State :=
  let wait := fun (s : State) => updLp s lp fun x => { x with owning := x.owning ++ es }
  if (lpAt s lp).owning.any fun w => w.blk / 4 = line then wait s
  else
    match l2Find s p line with
    | some ⟨.m, _, false, _, _⟩ => mergeAll s lp line es
    | some ⟨.e, _, false, _, _⟩ => mergeAll (l2SetState s p line .m) lp line es
    | _ => wait s

/-- Every copy of scratch that another package homes is there: its stores go by WrP (R243). -/
def farScratch (s : State) (line : Nat) : Bool :=
  !homeHere s line && match regionOf s (line * 256) with | .scratch _ => true | _ => false

/-- A store whose home or unit is in another package is sent there, and performed once it is accepted (Table 7-1); to a lost
package it ends discarded (R252). -/
def sendFar (s : State) (lp : Fin 48) (name : String) (e : GateEntry) : State :=
  let line := e.blk / 4
  let who : Agent := match pairOf s lp with | some p => .pair p | none => .almanac 0
  if lostHome s line then lostEvent s who line (some (lpPart s lp))
  else
    (entryRuns e.bytes none).foldl (fun s r => toPkgData name (linePkg line) (homeDie s line) line r.2 s)
      (updLp s lp fun x => { x with toFar := x.toFar ++ [e] })

/-- The released entries that leave with the oldest: of a Normal one, all of its close and its line. -/
def leavesWith (e : GateEntry) (w : GateEntry) : Bool :=
  e.ty = .normal && w.ty = .normal && w.grp = e.grp && w.blk / 4 = e.blk / 4

/-- The oldest released entry leaves, if it is for storage and can: Normal for the L2; Uncached, scratch of another package, and
those of a processor that no pair runs any more, as WrP at the home, which an open transaction makes wait (R153, R262). None:
it is for a device, or waits. -/
def drainStore (s : State) (lp : Fin 48) : Option State :=
  match (lpAt s lp).released with
  | [] => none
  | e :: l =>
    let line := e.blk / 4
    if e.ty = .device then none
    else match pairOf s lp, e.ty = .normal && !farScratch s line with
    | some p, true =>
      some (drainNormal (updLp s lp fun x => { x with released := l.filter fun w => !leavesWith e w }) lp p
        (e :: l.filter (leavesWith e)) line)
    | _, _ =>
      if !homeHere s line then some (sendFar (updLp s lp fun x => { x with released := l }) lp "WrP" e)
      else if !canWrite s line then none
      else some (writeEntry (updLp s lp fun x => { x with released := l }) e)

/-- Released entries leave in order up to the first that is for a device or waits. -/
def drainStores : Nat → State → Fin 48 → State
  | 0, s, _ => s
  | n + 1, s, lp => match drainStore s lp with | some t => drainStores n t lp | none => s

/-- Lines of the stores that wait in an L2 for ownership are taken where they can be. -/
def ownWaiting (s : State) (lp : Fin 48) : State :=
  match pairOf s lp with
  | none => s
  | some p => (lpAt s lp).owning.foldl (fun s e => (ownNow s p (e.blk / 4)).getD s) s

/-- Every released entry of a processor is performed; none where one is for a device or waits. -/
def performAll (s : State) (lp : Fin 48) : Option State :=
  let t := ownWaiting (drainStores 64 s lp) lp
  if (lpAt t lp).released.isEmpty && (lpAt t lp).owning.isEmpty && (lpAt t lp).toFar.isEmpty then some t else none

/-- Storage entries of a processor that have been released reach memory, whatever waits (R273). Entries leave in order, so one
for a device keeps those behind it. -/
def drainStorage (s : State) (lp : Fin 48) : State :=
  let s := ownWaiting (drainStores 64 s lp) lp
  (lpAt s lp).owning.foldl writeEntry (updLp s lp fun x => { x with owning := [] })

/-- Nothing a processor has released is left in its gate, its L2 or on the way to a unit (R273). -/
def gateEmpty (x : Lp) : Bool := x.released.isEmpty && x.owning.isEmpty && x.toPort.isEmpty && x.toFar.isEmpty

/-- A root port holds a Device store of a processor for want of credit (R167). -/
def heldAtPort (s : State) (lp : Fin 48) : Bool :=
  s.funcs.any fun e => e.2.held.any fun h => h.lp = some lp

/-- Whether every earlier store of a processor is performed (R161): a Device store is once a root port's posted
queue has accepted it, not while it is held for credit. -/
def storesDone (s : State) (lp : Fin 48) : Bool :=
  let x := lpAt s lp
  x.gated.isEmpty && gateEmpty x && !heldAtPort s lp

end Sys2Proof.Machine
end

