-- ==== Sys2Proof/Machine/Translate.lean ====
section
/-! DEFINITION. Address translation and zones (08): the walk, permissions, accessed and dirty bits, the
translation caches, the zone table, the physical-map check, and I/O translation of open functions. -/

namespace Sys2Proof.Machine

/-- A program exception (Table 4-5, Table 8-5). -/
structure Exc where
  code : Nat
  reason : Nat
  addr : Word
  /-- Delivered to Manager state whatever ICTL holds (R186). -/
  toMgr : Bool := false
  /-- Met on the fetch of the first word: ILC is a free value (log 37). -/
  first : Bool := false
  /-- Of an unassigned opcode of 38h-3Fh under a prefix: ILC is 10b (R86). -/
  long : Bool := false
  deriving DecidableEq, Repr

/-- How an instruction ends other than by completing. -/
inductive Stop where
  /-- A nullifying exception (R90). -/
  | exc (e : Exc)
  /-- A completing exception: the state it leaves stands (R90). -/
  | done (e : Exc)
  /-- A synchronous machine check for poisoned data (R421), with the operand's address as formed. -/
  | sync (addr : Word) (first : Bool := false)
  /-- The instruction waits, and has done nothing. -/
  | wait
  /-- The instruction starts again: a swap of a translation entry has failed (R190). -/
  | again
  /-- The interval must close before the instruction (R116, R155). -/
  | close
  deriving DecidableEq, Repr

/-- A computation of an instruction over the state, which may stop. -/
abbrev Run := EStateM Stop State

def raiseExc (code reason : Nat) (addr : Word) : Run α := throw (.exc { code := code, reason := reason, addr := addr })

def operationExc : Run α := raiseExc 1 0 0
def privilegedExc : Run α := raiseExc 2 0 0
def specExc (reason : Nat := 0) : Run α := raiseExc 3 reason 0

/-- A check that raises a specification exception where it fails. -/
def specIf (bad : Bool) (reason : Nat := 0) : Run Unit := if bad then specExc reason else pure ()

/-- A check of an operand at an address, which a specification exception reports (R92, log 50). -/
def specAt (addr : Word) (bad : Bool) (reason : Nat := 0) : Run Unit :=
  if bad then raiseExc 3 reason addr else pure ()

/-- Addressing exception; causes 1 to 3 go to Manager state (R184, R186). -/
def addressingExc (cause level : Nat) (addr : Word) : Run α :=
  throw (.exc { code := 4, reason := cause * 16 + level, addr := addr, toMgr := decide (1 ≤ cause ∧ cause ≤ 3) })

def translationExc (cause level : Nat) (addr : Word) : Run α := raiseExc 6 (cause * 16 + level) addr

def protectionExc (cause : Nat) (addr : Word) : Run α := raiseExc 5 (cause * 16) addr

/-- Kinds of access. -/
inductive Access where
  | fetch | load | store
  deriving DecidableEq, Repr

/-! ### Zones (R197-R199, R368) -/

/-- Partition `part`'s scratch range on a die, in MiB: base and length. -/
def scrRange (s : State) (part d : Nat) : Nat × Nat :=
  (cellField s (partPage part) (0x070 + 4 * d) 0 7, cellField s (partPage part) (0x070 + 4 * d) 8 7)

/-- Whether a partition owns a queue of a system die (R343). -/
def ownsQueueOf (s : State) (part sd : Nat) : Bool :=
  (cell s (regKey (partPage part) (0x058 + 8 * sd))) != 0

/-- The check of a zone entry at a fill (R199), for a byte at `off` of the zone: the physical address, or
the cause. What another package assigns to the partition is its own: `far` says whether it does (log 110). -/
def zoneResolve (s : State) (part : Nat) (e : Word) (off : Nat) (far : Bool) : Except Nat Nat :=
  let kind := field e 61 2
  let gran := field e 30 22
  if !bit e 63 then .error 2
  else if kind = 3 ∨ field e 52 9 ≠ 0 ∨ field e 0 30 ≠ 0 then .error 3
  else if kind = 0 then
    let pa := gran * gib
    let owned := if localPkg s pa then granuleOwner s pa = part else far && reachable s pa
    if pkgOff pa < 8192 * gib ∧ owned then .ok (pa + off % gib) else .error 3
  else if kind = 1 then
    let pkg := gran / 2 ^ 20
    let d := gran % 4
    let (base, len) := scrRange s part d
    let mib := off % 2 ^ 27 / 2 ^ 20
    let owned := if pkg = pkgId s then decide (base ≤ mib ∧ mib < base + len) else far && s.mode.coupled.contains pkg
    if gran % 2 ^ 20 / 4 ≠ 0 ∨ off % gib ≥ 2 ^ 27 ∨ !owned then .error 3
    else .ok (pkg * 2 ^ 50 + 0x100000000000 + d * 0x40000000 + off % 2 ^ 27)
  else
    let pa := gran * gib
    let o := pkgOff pa
    if ¬(0x200000000000 ≤ o ∧ o < 0x240000000000) then .error 3
    else if !localPkg s pa then (if far && reachable s pa then .ok (pa + off % gib) else .error 3)
    else
      let ok := match ownerIx pa with
        | some ix => if ix = 9215 then ownsQueueOf s part 0 else if ix = 11263 then ownsQueueOf s part 1
                     else if ix = 10239 then true else ownerEntry s ix = part
        | none => false
      if ok then .ok (pa + off % gib) else .error 3

/-- Insertion into a cache of a fixed number of entries with random replacement (R191). -/
def capInsert (n rnd : Nat) (x : α) (l : List α) : List α :=
  if l.length < n then x :: l else x :: l.eraseIdx (rnd % n)

/-- Insertion into a set-associative cache of `n` ways: `same` are the entries of the set (R191). -/
def setInsert [DecidableEq α] (n rnd : Nat) (same : α → Bool) (x : α) (l : List α) : List α :=
  let w := l.filter same
  if w.length < n then x :: l
  else match w[rnd % n]? with
    | some y => x :: l.erase y
    | none => x :: l

/-- The pair a processor's translations are cached in. -/
def tlbPair (s : State) (lp : Fin 48) : Fin 48 := (pairOf s lp).getD 0

def tlbsOf (s : State) (lp : Fin 48) : Tlbs := (pairAt s (tlbPair s lp)).tlbs

def updTlbs (s : State) (lp : Fin 48) (f : Tlbs → Tlbs) : State :=
  updPair s (tlbPair s lp) fun x => { x with tlbs := f x.tlbs }

/-- Zone lookup of an absolute address for a processor: the physical address, through the zone cache or
the zone table at C17. `level` is that of the walk, 0 for the final address; `va` is the address the
access carried. The flag says whether the zone is of kind MMIO. -/
def zoneLookup (lp : Fin 48) (absA : Nat) (level : Nat) (va : Word) : Run (Nat × Bool) := do
  let s ← get
  let part := lpPart s lp
  let z := absA / gib
  let zt := (lpAt s lp).arch.c[17]
  if z > field zt 0 15 then addressingExc 1 level va
  else
    match (tlbsOf s lp).zones.find? fun e => e.ctx = part && e.zone = z with
    | some e =>
      match zoneResolve s part e.entry absA true with
      | .ok pa => pure (pa, field e.entry 61 2 = 2)
      | .error c => addressingExc c level va
    | none =>
      let at_ := field zt 18 34 * 2 ^ 18 + 8 * z
      if anyPoison s at_ 8 then throw (.sync va)
      else
        let e := curWord s at_
        let rnd := (freeNow s).toNat
        match zoneResolve s part e absA (rnd.testBit 63) with
        | .error c =>
          modify taken
          addressingExc c level va
        | .ok pa =>
          set (updTlbs (taken s) lp fun t => { t with zones := capInsert 64 rnd ⟨part, z, e⟩ t.zones })
          pure (pa, field e 61 2 = 2)

/-! ### The walk (R177-R181, R187) -/

/-- Bits of a page offset at a level (Table 8-2). -/
def levelShift (level : Nat) : Nat := 12 + 9 * (level - 1)

/-- Whether a virtual address is canonical (R177). -/
def canonical (va : Word) : Bool := field va 57 7 = (if bit va 56 then 127 else 0)

/-- What is wrong with an entry read at a level, as a translation cause (R179): 0 for nothing. -/
def entryFault (e : Word) (level : Nat) : Nat :=
  let leaf := bit e 1
  if !bit e 0 then 1
  else if bit e 2 || field e 55 9 != 0 || (leaf && decide (field e 52 3 > 2)) then 2
  else if leaf && level = 5 then 3
  else if !leaf && level = 1 then 3
  else if leaf && decide (field e 12 40 * 4096 % 2 ^ levelShift level ≠ 0) then 3
  else 0

/-- The physical address of a table entry, checked against the physical map before it is read (R187). -/
def tableAddr (lp : Fin 48) (mgr : Bool) (a level : Nat) (va : Word) : Run Nat := do
  let pa ← if mgr then pure a
    else do
      let (pa, mmio) ← zoneLookup lp a level va
      if mmio then translationExc 4 level va else pure pa
  let s ← get
  let r := regionOf s pa
  if r.isDevice then translationExc 4 level va
  else if r.isStorage then pure pa
  else addressingExc 4 level va

/-- A walk's result. -/
structure Walked where
  level : Nat
  leafAt : Nat
  leaf : Word
  u : Bool
  w : Bool
  x : Bool
  deriving DecidableEq, Repr

/-- A walk-cache entry is filed by its level: levels 5 and 4, levels 3 and 2 (Table 8-6). -/
def cacheWalk (s : State) (lp : Fin 48) (e : WalkEntry) : State :=
  let rnd := (freeNow s).toNat
  updTlbs (taken s) lp fun t =>
    if e.level ≥ 4 then { t with walkHi := capInsert 32 rnd e t.walkHi }
    else { t with walkLo := capInsert 128 rnd e t.walkLo }

/-- The walk from a level downward, at the table `tbl`, with the effective bits so far. -/
def walkFrom (lp : Fin 48) (mgr : Bool) (ctx : Nat) (asid : BitVec 16) (va : Word) :
    Nat → Nat → Bool → Bool → Bool → Run Walked
  | 0, _, _, _, _ => translationExc 3 1 va
  | level + 1, tbl, u, w, x => do
    let lv := level + 1
    let pa ← tableAddr lp mgr (tbl + 8 * field va (levelShift lv) 9) lv va
    let s ← get
    if anyPoison s pa 8 then throw (.sync va)
    else
      let e := curWord s pa
      let f := entryFault e lv
      if f ≠ 0 then translationExc f lv va
      else
        let u := u && bit e 3
        let w := w && bit e 4
        let x := x && bit e 5
        if bit e 1 then pure ⟨lv, pa, e, u, w, x⟩
        else
          let next := field e 12 40 * 4096
          set (cacheWalk s lp ⟨ctx, asid, lv, va.toNat / 2 ^ levelShift lv, BitVec.ofNat 64 next, u, w, x⟩)
          walkFrom lp mgr ctx asid va level next u w x

/-- The deepest walk-cache entry on an address's path. -/
def walkCached (t : Tlbs) (ctx : Nat) (asid : BitVec 16) (va : Word) : Option WalkEntry :=
  let hit := fun (l : List WalkEntry) (lv : Nat) => l.find? fun e =>
    e.ctx = ctx && e.asid = asid && e.level = lv && e.prefix_ = va.toNat / 2 ^ levelShift lv
  (hit t.walkLo 2).orElse fun _ => (hit t.walkLo 3).orElse fun _ =>
    (hit t.walkHi 4).orElse fun _ => hit t.walkHi 5

/-- A fresh walk of an address, through the walk cache if `cached`. -/
def walk (lp : Fin 48) (va : Word) (cached : Bool) : Run Walked := do
  let s ← get
  let cr := (lpAt s lp).arch.c
  let mgr := privOf (lpAt s lp).arch.psws = 2
  let ctx := lpCtx s lp
  let asid : BitVec 16 := BitVec.ofNat 16 (field cr[1] 0 16)
  match if cached then walkCached (tlbsOf s lp) ctx asid va else none with
  | some e => walkFrom lp mgr ctx asid va (e.level - 1) e.next.toNat e.u e.w e.x
  | none => walkFrom lp mgr ctx asid va 5 (field cr[0] 12 40 * 4096) true true true

/-- What R182 forbids of an access through a translation, as a protection cause: 0 for nothing. -/
def permFault (priv : Nat) (sug : Bool) (acc : Access) (asUser : Bool) (u w x : Bool) : Nat :=
  if acc = .store && !w then 1
  else if acc = .fetch && !x then 2
  else if asUser && !u then 6
  else if priv = 0 && !u then 3
  else if sug && priv != 0 && u && acc = .fetch then 4
  else if sug && priv != 0 && u && acc != .fetch && !asUser then 5
  else 0

/-- Effective memory type (Table 8-4); `mti` is none for an untranslated access. -/
def effType (r : Region) (mti : Option Nat) : MemType :=
  if r.isDevice then .device
  else match mti with
    | some 0 => .normal
    | some _ => .uncached
    | none => .normal

/-- The final address: zone lookup outside Manager state, then the physical-map check (R185). -/
def finalAddr (lp : Fin 48) (a : Nat) (mti : Option Nat) (acc : Access) (va : Word) :
    Run (Nat × MemType) := do
  let s ← get
  let pa ← if privOf (lpAt s lp).arch.psws = 2 then pure a
           else do let (pa, _) ← zoneLookup lp a 0 va; pure pa
  let s ← get
  let r := regionOf s pa
  if r = .none then addressingExc 4 0 va
  else
    let ty := effType r mti
    if acc = .fetch ∧ ty = .device then addressingExc 4 0 va else pure (pa, ty)

/-- Whether a cached leaf translates an address. -/
def TlbEntry.hits (e : TlbEntry) (ctx : Nat) (asid : BitVec 16) (va : Word) : Bool :=
  e.ctx = ctx && (e.asid = none || e.asid = some asid) && e.vpn = va.toNat / 2 ^ levelShift e.level

/-- A leaf is dropped from a pair's translation caches. -/
def dropLeaves (t : Tlbs) (p : TlbEntry → Bool) : Tlbs :=
  { t with itlb := t.itlb.filter fun e => !p e, dtlb := t.dtlb.filter fun e => !p e,
           stlb := t.stlb.filter fun e => !p e, stlbBig := t.stlbBig.filter fun e => !p e }

/-- The set of the second-level TLB a leaf belongs to. -/
def stlbSet (e : TlbEntry) : Fin 512 := Config.stlbSet e.level e.vpn

/-- A leaf is cached in the first-level TLB of its access kind and in the second level (Table 8-6). -/
def cacheLeaf (s : State) (lp : Fin 48) (acc : Access) (e : TlbEntry) : State :=
  let r := (freeNow s).toNat
  updTlbs (taken s) lp fun t =>
    let t := if acc = .fetch then { t with itlb := capInsert 64 r e t.itlb }
             else { t with dtlb := capInsert 96 r e t.dtlb }
    if e.level ≤ 2 then { t with stlb := setInsert 8 r (fun x => stlbSet x = stlbSet e) e t.stlb }
    else { t with stlbBig := capInsert 64 r e t.stlbBig }

def findLeaf (t : Tlbs) (acc : Access) (ctx : Nat) (asid : BitVec 16) (va : Word) : Option TlbEntry :=
  let f := fun (l : List TlbEntry) => l.find? fun e => e.hits ctx asid va
  (f (if acc = .fetch then t.itlb else t.dtlb)).orElse fun _ => (f t.stlb).orElse fun _ => f t.stlbBig

/-- A compare-and-swap of a whole translation entry at its home: a WrP with a compare (R190, R242). It fails for the moment
where an open transaction blocks the line. At a home in another package, whose entry the walk read as a free value, the
swap against it succeeds: a walk that a failed one restarts would read another free value (log 110). -/
def swapEntry (s : State) (at_ : Nat) (expect new : Word) : State × Bool :=
  let line := lineOf at_
  if homeHere s line then
    if !canWrite s line || curWord s at_ ≠ expect then (s, false) else (agentWrite s at_ (beBytes 8 new.toNat), true)
  else
    (toPkgData "WrP" (linePkg line) (homeDie s line) line (beBytes 8 expect.toNat ++ beBytes 8 new.toNat) s,
     !visible s line || curWord s at_ = expect)

/-- The same of an agent whose swap waits at its home until it can run (R235, R242). -/
def swapQueued (s : State) (who : Agent) (at_ : Nat) (expect new : Word) : State :=
  match swapEntry s at_ expect new with
  | (t, true) => t
  | (t, false) =>
    let line := lineOf at_
    let r : Req := ⟨.wrP, who, line, reqBytes at_ (beBytes 8 new.toNat), some (beBytes 8 expect.toNat), false⟩
    if homeHere s line && !canWrite s line then (accept s r).getD (enqueue s (homeSlice s line) r) else t

/-- Leaf bits A and, for a store, D. -/
def adBits (acc : Access) : Word := if acc = .store then 0xC0 else 0x40

/-! ### TLB maintenance (Table 8-7) -/

/-- Removal from one pair's caches: leaves and, where asked, walk and zone entries. -/
def tlbiPair (t : Tlbs) (k : TlbiKind) (va : Word) (asid : BitVec 16) (ctx : Nat) : Tlbs :=
  match k with
  | .va w =>
    let t := dropLeaves t fun e => e.hits ctx asid va
    if w then
      let keep := fun (e : WalkEntry) =>
        !(e.ctx = ctx && e.asid = asid && e.prefix_ = va.toNat / 2 ^ levelShift e.level)
      { t with walkHi := t.walkHi.filter keep, walkLo := t.walkLo.filter keep }
    else t
  | .asid =>
    let t := dropLeaves t fun e => e.ctx = ctx && e.asid = some asid
    let keep := fun (e : WalkEntry) => !(e.ctx = ctx && e.asid = asid)
    { t with walkHi := t.walkHi.filter keep, walkLo := t.walkLo.filter keep }
  | .part =>
    let t := dropLeaves t fun e => e.ctx = ctx
    let keep := fun (e : WalkEntry) => e.ctx != ctx
    { t with walkHi := t.walkHi.filter keep, walkLo := t.walkLo.filter keep,
             zones := t.zones.filter fun z => z.ctx != ctx }

/-- Cause of a protection exception of an access, which may need W besides (R182, R217); 0: none. -/
def accessFault (psws : Word) (acc : Access) (asUser needW u w x : Bool) : Nat :=
  let pf := permFault (privOf psws) (bit psws 61) acc asUser u w x
  if pf = 0 && needW && !w then 1 else pf

/-- A walk whose translation permits the access. -/
def walkAllowed (lp : Fin 48) (va : Word) (acc : Access) (asUser cached : Bool) (needW : Bool := false) : Run Walked := do
  let s ← get
  let psws := (lpAt s lp).arch.psws
  let wk ← walk lp va cached
  let pf := accessFault psws acc asUser needW wk.u wk.w wk.x
  if pf ≠ 0 then protectionExc pf va else pure wk

/-- A walk that fails caches nothing of what it has read (R188, R191). -/
def walkOrNone (lp : Fin 48) (va : Word) (acc : Access) (asUser cached : Bool) (needW : Bool := false) : Run Walked := do
  let old := tlbsOf (← get) lp
  tryCatch (walkAllowed lp va acc asUser cached needW) fun x => do
    modify fun s => updTlbs s lp fun _ => old
    throw x

/-- The final address of a translated access; where its zone-table read meets poison nothing of its walk stays cached
(R188). -/
def finalOf (lp : Fin 48) (old : Tlbs) (wk : Walked) (acc : Access) (va : Word) : Run (Nat × MemType) :=
  tryCatch (finalAddr lp (field wk.leaf 12 40 * 4096 + va.toNat % 2 ^ levelShift wk.level) (some (field wk.leaf 52 3)) acc va)
    fun
    | .sync a f => do
      modify fun s => updTlbs s lp fun _ => old
      throw (.sync a f)
    | x => throw x

/-- Translation of an access by a processor: physical address and effective memory type (R176-R195). A
cached leaf is used if it permits the access and carries the A and D bits it needs; otherwise it is dropped
and a walk decides, a fresh one before a translation or protection exception is raised (R194); hardware sets the bits by
a swap of the entry, and where that fails the access starts again (R190). CINV, a load, needs W too (R217). -/
def translate (lp : Fin 48) (va : Word) (acc : Access) (asUser : Bool := false) (needW : Bool := false) :
    Run (Nat × MemType) := do
  let s ← get
  let psws := (lpAt s lp).arch.psws
  if !bit psws 60 then
    if va.toNat ≥ 2 ^ 52 then addressingExc 4 0 va
    else finalAddr lp va.toNat none acc va
  else if !canonical va then translationExc 5 0 va
  else
    let ctx := lpCtx s lp
    let asid : BitVec 16 := BitVec.ofNat 16 (field (lpAt s lp).arch.c[1] 0 16)
    let need := adBits acc
    let hit := (findLeaf (tlbsOf s lp) acc ctx asid va).filter fun e =>
      accessFault psws acc asUser needW e.u e.w e.x = 0 && e.leaf &&& need = need
    match hit with
    | some e =>
      let sh := levelShift e.level
      finalAddr lp (field e.leaf 12 40 * 4096 + va.toNat % 2 ^ sh) (some (field e.leaf 52 3)) acc va
    | none =>
      set (updTlbs s lp fun t => dropLeaves t fun e => e.hits ctx asid va)
      let old := tlbsOf (← get) lp
      let wk ← tryCatch (walkOrNone lp va acc asUser true needW) fun
        | .exc e => if e.code = 5 ∨ e.code = 6 then do
                      modify fun s => updTlbs s lp fun t => tlbiPair t (.va true) va asid ctx
                      walkOrNone lp va acc asUser false needW
                    else throw (.exc e)
        | x => throw x
      let sh := levelShift wk.level
      let r ← finalOf lp old wk acc va
      let s ← get
      let leaf := wk.leaf ||| need
      let (s, ok) := if leaf = wk.leaf then (s, true) else swapEntry s wk.leafAt wk.leaf leaf
      if !ok then
        set s
        throw .again
      set (cacheLeaf s lp acc
        ⟨ctx, if bit leaf 8 then none else some asid, wk.level, va.toNat / 2 ^ sh, BitVec.ofNat 64 wk.leafAt,
         leaf, wk.u, wk.w, wk.x⟩)
      pure r

/-- Removal from every pair and from the root ports' I/O caches; the other packages hear of it (R193, R204). -/
def tlbiAll (s : State) (k : TlbiKind) (va : Word) (asid : BitVec 16) (ctx : Nat) : State :=
  let s := s.mode.coupled.foldl (fun s p => toPkg "invalidate" p p (va.toNat / 256) s) s
  let s := { s with pairs := s.pairs.map fun p => { p with tlbs := tlbiPair p.tlbs k va asid ctx } }
  match k with
  | .va w => { s with ioCache := s.ioCache.filter fun e =>
      !(e.part = ctx && match e.what with
        | .leaf l => l.vpn = va.toNat / 2 ^ levelShift l.level
        | .walk k => w && k.prefix_ = va.toNat / 2 ^ levelShift k.level
        | _ => false) }
  | .asid => s
  | .part => { s with ioCache := s.ioCache.filter fun e => e.part != ctx }

/-! ### I/O, channel and engine addresses -/

/-- Zone lookup of an absolute address of a partition through PART_ZT, with no cache (R202, R298, R359);
nothing where the table's entry cannot be read (R188, R203). The manager context's addresses are physical and must lie in granules it owns (R369). -/
def ctxPhys (s : State) (ctx absA : Nat) : Option Nat :=
  if ctx ≥ mgrCtx then
    if granuleOwner s absA = 0x80 || (match regionOf s absA with | .scratch _ => true | _ => false)
    then some absA else none
  else
    let zt := cell s (regKey (partPage ctx) 0x080)
    let z := absA / gib
    if absA ≥ 2 ^ 52 ∨ z > field zt 0 15 then none
    else
      let at_ := field zt 18 34 * 2 ^ 18 + 8 * z
      if anyPoison s at_ 8 then none
      else match zoneResolve s ctx (curWord s at_) absA ((freeNow s).getLsbD 62) with
      | .ok pa => if regionOf s pa = .none then none else some pa
      | .error _ => none

/-- A physical address of a context's storage: DRAM or configured scratch. -/
def ctxStorage (s : State) (ctx absA : Nat) : Option Nat :=
  (ctxPhys s ctx absA).filter fun pa => (regionOf s pa).isStorage

/-- Bytes of a context's storage, or nothing if any lies outside it or in a released granule (R345, R375).
Granules are 1 GiB, so a run is looked up granule by granule. -/
def ctxRuns (s : State) (ctx : Nat) : Nat → Nat → Nat → Option (List (Nat × Nat))
  | 0, _, _ => none
  | fuel + 1, a, n =>
    if n = 0 then some []
    else
      match ctxStorage s ctx a with
      | none => none
      | some pa =>
        if isReleased s 5 (pkgOff pa / gib) then none
        else
          let k := min n (gib - a % gib)
          match ctxStorage s ctx (a + k - 1), ctxRuns s ctx fuel (a + k) (n - k) with
          | some _, some l => some ((pa, k) :: l)
          | _, _ => none

/-- The physical runs of a byte range of a context's storage. -/
def ctxRange (s : State) (ctx a n : Nat) : Option (List (Nat × Nat)) := ctxRuns s ctx (n / gib + 2) a n

def readRuns (s : State) (l : List (Nat × Nat)) : List Byte := l.flatMap fun r => curBytes s r.1 r.2

/-- Bytes written over runs in order. -/
def splitRuns : List (Nat × Nat) → List Byte → List (Nat × List Byte)
  | [], _ => []
  | (a, n) :: l, bs => if bs.isEmpty then [] else (a, bs.take n) :: splitRuns l (bs.drop n)

def poisonRuns (s : State) (l : List (Nat × Nat)) : Bool := l.any fun r => anyPoison s r.1 r.2

/-- Non-leaf entries a walk has passed, as a walk cache keeps them, the last first. -/
abbrev Passed := List WalkEntry

/-- A walk for I/O at absolute addresses of a partition, as an access in User state (R202): the leaf's
place and the effective bits with the non-leaf entries it passed, or nothing where any cause of R184, R187 or R188 is
met. -/
def ioWalk (s : State) (part : Nat) (va : Word) : Nat → Nat → Bool → Bool → Passed → Option (Walked × Passed)
  | 0, _, _, _, _ => none
  | level + 1, tbl, u, w, l =>
    match ctxStorage s part (tbl + 8 * field va (levelShift (level + 1)) 9) with
    | none => none
    | some pa =>
      if anyPoison s pa 8 then none
      else
        let e := curWord s pa
        let u := u && bit e 3
        let w := w && bit e 4
        if entryFault e (level + 1) ≠ 0 then none
        else if bit e 1 then some (⟨level + 1, pa, e, u, w, false⟩, l)
        else
          let next := field e 12 40 * 4096
          ioWalk s part va level next u w
            (⟨part, 0, level + 1, va.toNat / 2 ^ levelShift (level + 1), BitVec.ofNat 64 next, u, w, false⟩ :: l)

end Sys2Proof.Machine
end

