-- ==== Sys2Proof/Machine/EngOps.lean ====
section
/-! DEFINITION. The shared operations of job queues, engines and the key store (14). -/

namespace Sys2Proof.Machine

/-! ### Queues -/

def jqDefault : JQueue := { tail := 0, head := 0, base := 0, en := false, isc := 0, size := 0, notify := false }

/-- A queue by system die × 64 + number. -/
def jqAt (s : State) (k : Nat) : JQueue := Tab.read (fun _ => jqDefault) s.eng.jqs k

def updJq (s : State) (k : Nat) (f : JQueue → JQueue) : State :=
  { s with eng := { s.eng with jqs := Tab.write (fun _ => jqDefault) s.eng.jqs k (f (jqAt s k)) } }

/-- The context that owns a queue. -/
def jqOwner (s : State) (k : Nat) : Nat := queueOwner s (k / 64) (k % 64)

/-- Number of slots of a ring (R341). -/
def jqSlots (x : JQueue) : Nat := 2 ^ (x.size + 4)

/-- The agent that reads and writes for a job: its cryptography engine, of a chain that stores, else its compression
engine. -/
def Job.agent (j : Job) : Agent :=
  match j.crypt, j.zip with
  | some c, _ => .crypt (Fin.ofNat 8 c)
  | none, some z => .zip (Fin.ofNat 8 z)
  | none, none => .almanac 0

/-- A job is running: it holds an engine, or has ended and not yet posted its record. -/
def Job.running (j : Job) : Bool := j.zip.isSome || j.crypt.isSome || j.ended.isSome

/-- Jobs of a queue that are running. -/
def jqRunning (s : State) (k : Nat) : Nat :=
  (s.eng.jobs.filter fun e => e.2.q = k && e.2.inline.isNone && e.2.running).length

/-- Jobs read from a queue and not completed. -/
def jqTaken (s : State) (k : Nat) : List (Nat × Job) :=
  s.eng.jobs.filter fun e => e.2.q = k && e.2.inline.isNone

/-! ### Descriptors (Table 14-1) -/

/-- The big-endian field of a descriptor at a byte offset. -/
def Job.fld (j : Job) (off n : Nat) : Nat := beVal ((j.desc.drop off).take n)

def Job.func (j : Job) : Nat := j.fld 1 1
def Job.flag (j : Job) (i : Nat) : Bool := (j.fld 2 1).testBit i
def Job.param (j : Job) : Nat := j.fld 4 4
def Job.src (j : Job) : Nat := j.fld 8 8
def Job.srcLen (j : Job) : Nat := j.fld 16 4
def Job.dstLen (j : Job) : Nat := j.fld 20 4
def Job.dst (j : Job) : Nat := j.fld 24 8
def Job.key (j : Job) : Nat := j.fld 32 8
def Job.key2 (j : Job) : Nat := j.fld 40 8
def Job.aux (j : Job) : Nat := j.fld 48 8
def Job.auxLen (j : Job) : Nat := j.fld 56 4
def Job.stateAt (j : Job) : Nat := j.fld 64 8
def Job.iv (j : Job) : List Byte := (j.desc.drop 80).take 16
def Job.tagIn (j : Job) : List Byte := (j.desc.drop 112).take 16

/-- Size of the state area of a function (Table 14-6). -/
def stateSize (func param : Nat) : Nat :=
  let zstd := 2 ^ (param / 16 % 16 + 10) + 16384
  match func with
  | 1 => 40960
  | 2 => 40960
  | 3 => zstd
  | 4 => zstd
  | 0x50 => (if param.testBit 16 then zstd else 40960) + 512
  | 0x51 => (if param.testBit 16 then zstd else 40960) + 512
  | _ => 512

/-! ### Engines -/

def zipAt (s : State) (e : Nat) : Eng := vget s.eng.zips Eng.reset e
def cryptAt (s : State) (e : Nat) : Eng := vget s.eng.crypts Eng.reset e

/-- Engines a function needs: ZIP, CRYPT (Table 14-2). -/
def needs (func : Nat) : Bool × Bool :=
  if func ≤ 4 then (true, false) else if func = 0x50 || func = 0x51 then (true, true) else (false, true)

/-- An engine of a kind that is free: working, not restarting, and held by no job. -/
def freeEng (s : State) (crypt : Bool) (e : Nat) : Bool :=
  let x := if crypt then cryptAt s e else zipAt s e
  !x.failed && !x.restarting && !(s.eng.jobs.any fun j => (if crypt then j.2.crypt else j.2.zip) = some e)

/-- Whether a die has a working engine of a kind. -/
def worksOn (s : State) (crypt : Bool) (die : Nat) : Bool :=
  (List.range 4).any fun i => !(if crypt then cryptAt s (die * 4 + i) else zipAt s (die * 4 + i)).failed

/-- What the dispatcher finds for one engine kind of a job on a die (R340). -/
inductive Found where
  | engine (e : Nat) | busy | absent
  deriving DecidableEq, Repr

def findEng (s : State) (crypt : Bool) (die : Nat) : Found :=
  let d := if worksOn s crypt die then some die else if worksOn s crypt (1 - die) then some (1 - die) else none
  match d with
  | none => .absent
  | some d =>
    match (List.range 4).find? fun i => freeEng s crypt (d * 4 + i) with
    | some i => .engine (d * 4 + i)
    | none => .busy

def setJob (s : State) (j : Nat) (x : Job) : State :=
  { s with eng := { s.eng with jobs := Tab.put s.eng.jobs j x } }

def jobEnd (status detail : Nat) : JobEnd :=
  { status := status, detail := detail, consumed := 0, produced := 0, result := [], stores := [] }

/-- A job's function has ended; its record is still to be written. -/
def endJob (s : State) (j : Nat) (x : Job) (e : JobEnd) : State := setJob s j { x with ended := some e }

/-- Engines for a job, where both it needs are free: it starts, or ends with NO_ENGINE (R340, R359). -/
def assignJob (s : State) (j : Nat) (x : Job) : State :=
  let die := x.q / 64
  let (z, c) := needs x.func
  let fz := if z then findEng s false die else .busy
  let fc := if c then findEng s true die else .busy
  if (z && fz = .absent) || (c && fc = .absent) then endJob s j x (jobEnd 0x51 0)
  else
    match z, c, fz, fc with
    | true, true, .engine a, .engine b => setJob s j { x with zip := some a, crypt := some b }
    | true, false, .engine a, _ => setJob s j { x with zip := some a }
    | false, true, _, .engine b => setJob s j { x with crypt := some b }
    | _, _, _, _ => setJob s j x

/-- Bytes a job's engines have moved, counted by the engines and in its context's meter as they move (R364, R385). -/
def countMoved (s : State) (x : Job) (consumed produced : Nat) : State :=
  let s := match x.zip with
    | some z =>
      let s := bump64 (bump64 s (zipPage z) 0x7C8 consumed) (zipPage z) 0x7D0 produced
      meter (meter s x.ctx 4 consumed) x.ctx 5 produced
    | none => s
  match x.crypt with
  | some c =>
    let s := bump64 (bump64 s (cryptPage c) 0x7C8 consumed) (cryptPage c) 0x7D0 produced
    meter (meter s x.ctx 6 consumed) x.ctx 7 produced
  | none => s

/-- A job's record has been written: its engines are free, and they and its context's meter count it (R364, R385). -/
def freeJob (s : State) (j : Nat) (x : Job) : State :=
  let s := match x.zip with | some z => bump s (zipPage z) 0x7C0 | none => s
  let s := match x.crypt with | some c => bump s (cryptPage c) 0x7C0 | none => s
  meter { s with eng := { s.eng with jobs := Tab.del s.eng.jobs j } } x.ctx 8 1

/-- The completion record, one WrP after every store of the job, its counts, and the notification (R346,
R364, R385). -/
def completeJob (s : State) (j : Nat) (x : Job) (e : JobEnd) : State :=
  let s := e.stores.foldl (fun s w => agentWrite s w.1 w.2 x.agent) s
  let res := e.result ++ List.replicate (16 - e.result.length) 0
  let s := agentWrite s (x.at_ + 96)
    (beBytes 1 e.status ++ beBytes 1 e.detail ++ beBytes 2 0 ++ beBytes 4 e.consumed ++ beBytes 4 e.produced ++
      beBytes 4 s.time.transit.toNat ++ res.take 16) x.agent
  let s := freeJob s j x
  if x.flag 7 then updJq s x.q fun q => { q with notify := true } else s

/-- Every line of a job's stores and of its record can be written (R346). -/
def canRecord (s : State) (x : Job) (e : JobEnd) : Bool :=
  canWriteAll s ((x.at_ + 96, 32) :: e.stores.map fun w => (w.1, w.2.length))

/-- Every memory-to-memory job of a context is ended with ABORTED, its record written (R361). -/
def abortJobs (s : State) (ctx : Option Nat) (detail : Nat) : State :=
  (s.eng.jobs.filter fun e => e.2.inline.isNone && (match ctx with | some c => e.2.ctx = c | none => true)).foldl
    (fun s e => completeJob s e.1 e.2 (jobEnd 3 detail)) s

/-- A spoofed descriptor or doorbell write is counted, with 2147h once per queue and tick (R343, R345). -/
def queueSpoof (s : State) (k : Nat) : State :=
  let pg := zipPage (k / 64 * 4 + k % 64 / 16)
  onceEvent (bump s pg 0x7E0) (k % 64) { page := pg, code := 0x2147, owner := some (jqOwner s k) }

/-! ### The key store (R350-R352) -/

/-- A drawn generation is never zero. -/
def nonZero (v : BitVec 32) : BitVec 32 := if v = 0 then 1 else v

def genAt (s : State) (slot : Nat) : BitVec 32 :=
  (Tab.look s.eng.gens slot).getD (nonZero (Config.keyGen s.eng.genEpoch slot))

/-- A new generation, never zero and never the old one (R351). -/
def newGen (old drawn : BitVec 32) : BitVec 32 :=
  if drawn = 0 || drawn = old then nonZero (old + 1) else drawn

/-- The slot takes a new generation. -/
def regenerate (s : State) (slot : Nat) : State :=
  let g := newGen (genAt s slot) ((freeNow s).setWidth 32)
  let s := taken s
  { s with eng := { s.eng with gens := Tab.put s.eng.gens slot g } }

/-- The handle of a slot's current content (Table 14-3). -/
def handleOf (s : State) (slot : Nat) : List Byte := beBytes 4 (genAt s slot).toNat ++ beBytes 4 slot

def loadKey (s : State) (slot : Nat) (x : KeySlot) : State :=
  let s := regenerate s slot
  { s with eng := { s.eng with keys := Tab.put s.eng.keys slot x } }

def eraseKey (s : State) (slot : Nat) : State :=
  let s := regenerate s slot
  { s with eng := { s.eng with keys := Tab.del s.eng.keys slot } }

/-- Every loaded slot of a context is erased (R350). -/
def eraseKeys (s : State) (ctx : Nat) : State :=
  (s.eng.keys.filter fun e => keyOwner s e.1 = ctx).foldl (fun s e => eraseKey s e.1) s

/-- Every slot is emptied with a fresh generation (R449). -/
def clearKeys (s : State) : State :=
  { s with freeCtr := s.freeCtr + 1, eng := { s.eng with keys := [], gens := [], genEpoch := s.freeCtr } }

end Sys2Proof.Machine
end

