-- ==== Sys2Proof/Machine/ChanOps.lean ====
section
/-! DEFINITION. The channel subsystem's shared operations (12, 13): subchannels and their paths, frames,
the journal, grant windows, resynchronisation, path failure, and the ending of an operation. -/

namespace Sys2Proof.Machine

/-! ### Subchannels and paths (R286, R370, R292, R315) -/

/-- A subchannel before anything has used it. -/
def schDefault : Sch :=
  { serial := none, enabled := false, isc := 0, lpm := 0, func := .none, status := none, taken := false, lastSlot := none,
    parm := 0, started := 0, bytes := 0 }

def schAt (s : State) (n : Nat) : Sch := Tab.read (fun _ => schDefault) s.chan.sch n

def setSch (s : State) (n : Nat) (x : Sch) : State :=
  { s with chan := { s.chan with sch := Tab.write (fun _ => schDefault) s.chan.sch n x } }

def updSch (s : State) (n : Nat) (f : Sch → Sch) : State := setSch s n (f (schAt s n))

def opAt (s : State) (n : Nat) : Option Op := Tab.look s.chan.ops n

def setOp (s : State) (n : Nat) (o : Op) : State :=
  { s with chan := { s.chan with ops := Tab.put s.chan.ops n o } }

/-- A path that has never been defined. -/
def pathDefault : Path :=
  { st := .none, silence := 0, sinceBeat := 0, beats := 0, bad := 0, resyncDue := false, segMax := 3,
    serves := 0 }

def pathAt (s : State) (p : Nat) : Path := Tab.read (fun _ => pathDefault) s.chan.paths p

def updPath (s : State) (p : Nat) (f : Path → Path) : State :=
  { s with chan := { s.chan with
      paths := Tab.write (fun _ => pathDefault) s.chan.paths p (f (pathAt s p)) } }

/-- The context that owns a subchannel of this package. -/
def schOwner (s : State) (n : Nat) : Nat := setOwner s (n / 32768)

/-- A device is bound to the subchannel (SCHB_DEV.BOUND). -/
def schBound (s : State) (n : Nat) : Bool := bit (cell s (regKey (cssPage 0) 0x110 n)) 63

def schPim (s : State) (n : Nat) : Nat := cellField s (cssPage 0) 0x118 0 8 n

/-- Bit 7 - k of a path mask stands for slot k (R370). -/
def maskHas (m k : Nat) : Bool := m.testBit (7 - k)

def slotPath (s : State) (n k : Nat) : Nat := cellField s (cssPage 0) 0x108 (8 * (7 - k)) 8 n

/-- BXP_CFG of a path. -/
def pathCfg (s : State) (p : Nat) : Word := cell s (regKey (pciePage (p / 64)) (0x200 + 16 * (p % 64)))

def pathRid (s : State) (p : Nat) : BitVec 16 := BitVec.ofNat 16 (field (pathCfg s p) 32 16)

/-- The system die of a path: 0 for SD0, 1 for SD1. -/
def pathDie (p : Nat) : Nat := p / 128

/-- Slots of the subchannel whose paths are installed and not failed (R292; log 23). -/
def goodSlots (s : State) (n : Nat) : List Nat :=
  (List.range 8).filter fun k => maskHas (schPim s n) k &&
    (let st := (pathAt s (slotPath s n k)).st; st = .init || st = .up)

/-- Paths used under LPM and PATHMASK (R291, R292). -/
def usableSlots (s : State) (n : Nat) (pathmask : BitVec 8) : List Nat :=
  let lpm := (schAt s n).lpm
  let m := if pathmask = 0 then lpm else pathmask &&& lpm
  (goodSlots s n).filter fun k => maskHas m.toNat k

/-- Slots in the rotation that begins after slot `k` (R336). -/
def rotation (k : Nat) : List Nat := (List.range 8).map fun i => (k + 1 + i) % 8

/-! ### Frames (R318-R321) -/

def frameBytes (ty path part sch serial seq flags code len addr aux : Nat) : List Byte :=
  let h := beBytes 1 1 ++ beBytes 1 ty ++ beBytes 1 path ++ beBytes 1 part ++ beBytes 4 sch ++
    beBytes 4 serial ++ beBytes 4 seq ++ beBytes 2 flags ++ beBytes 1 code ++ beBytes 1 0 ++
    beBytes 4 len ++ beBytes 8 addr ++ beBytes 8 aux ++ List.replicate 20 0
  h ++ beBytes 4 (crc32c h).toNat

/-- SCH of frames: bits 19:0 of the subchannel identifier (Table 12-1). -/
def schId (s : State) (n : Nat) : Nat := pkgId s * 262144 + n

/-- A frame of an operation leaves on its path and is metered, unless it is resent (R385). -/
def sendFrame (s : State) (n : Nat) (o : Op) (ty seq flags code len addr : Nat) (metered : Bool := true) :
    State :=
  let s := if metered then meter s o.ctx 9 1 else s
  emit (.frame o.path (frameBytes ty o.path (ctxCode o.ctx) (schId s n) o.serial.toNat seq flags code len
    addr 0)) s

/-- Bus address of a window (R323). -/
def winAddr (path : Nat) (w : Win) : Nat :=
  match w.slot with
  | some k => 0x8000000000000000 + path * 0x100000000 + k * 0x1000
  | none => 0

/-- The CMD or GRANT frame of a window (Table 13-2, Table 13-3). -/
def sendWin (s : State) (n : Nat) (o : Op) (w : Win) (metered : Bool := true) : State :=
  let flags := (if w.last then 0x4000 else 0) + (if w.toStorage then 0x2000 else 0)
  sendFrame s n o (if w.cmd = 0 then 4 else 1) w.seq flags w.cmd w.len (winAddr o.path w) metered

/-! ### The journal (R330, R331) -/

/-- Entries of a system die's primary journal. -/
def jrnActive (s : State) (die : Nat) : Nat := (s.chan.jrn.filter fun e => e.1 / 65536 = die).length

/-- The first key of a table's sorted keys that is free, from `n` upward. -/
def gapFrom : Tab α → Nat → Nat
  | [], n => n
  | (k, _) :: m, n => if k < n then gapFrom m n else if k = n then gapFrom m (n + 1) else n

/-- A free index of a die's primary journal and of its mirror. -/
def jrnRoom (s : State) (die : Nat) : Option Nat :=
  let i := gapFrom s.chan.jrn (die * 65536) - die * 65536
  if i < 65536 then some i else none

def jrnKey (die ix : Nat) : Nat := die * 65536 + ix

/-- The area whose Command Word is active. -/
def Op.area (o : Op) : Option Area := o.areas.getLast?

/-- Bytes of the active area that no acknowledged frame carried (R303). -/
def residualOf (s : State) (o : Op) : Nat :=
  match o.area with
  | some a => a.cw.count - (o.carried - a.start)
  | none =>
    match ctxStorage s o.ctx o.cwaddr with
    | some pa => curVal s (pa + 4) 4
    | none => 0

/-- The status word of an operation as it stands (Table 12-6). -/
def oswOf (s : State) (o : Op) (fsc detail : Nat) : Osw :=
  { parm := o.parm, final := true, progressLost := false, haltLate := false, fsc := fsc, detail := detail,
    devstat := o.devstat, residual := residualOf s o,
    cwaddr := BitVec.ofNat 64 (match o.area with | some a => a.at_ | none => o.cwaddr), serial := o.serial,
    path := if o.sentFirst then some o.path else none,
    paths := if o.sentFirst then o.pathsUsed.length else 0 }

/-- The command at CWADDR has been sent and its STATUS has not been received (R301). -/
def Op.unknown (o : Op) : Bool := o.sentFirst && o.status.isNone

/-- The bytes of a status word (Table 12-6). -/
def oswBytes (w : Osw) : List Byte :=
  beBytes 8 w.parm.toNat ++
  beBytes 1 ((if w.final then 128 else 64) + (if w.fsc ≠ 0 then 32 else 0) +
    (if w.progressLost then 16 else 0) + (if w.haltLate then 8 else 0)) ++
  beBytes 1 w.fsc ++ beBytes 1 w.detail ++ beBytes 1 w.devstat ++ beBytes 4 w.residual ++
  beBytes 8 w.cwaddr.toNat ++ beBytes 4 w.serial.toNat ++ beBytes 1 (w.path.getD 255) ++
  beBytes 1 w.paths ++ beBytes 2 0

/-- Partition absolute address of the next untransferred byte of the active area. -/
def nextOf (o : Op) : Nat :=
  match o.area with
  | some a => if a.cw.idl then (match o.idl with | some (_, st, ad, _) => ad + (o.carried - a.start - st) | none => a.cw.addr)
              else a.cw.addr + (o.carried - a.start)
  | none => 0

/-- An operation's journal entry, written to the primary and then to the mirror (R331). -/
def jrnWrite (s : State) (n : Nat) (o : Op) (st : Nat) (w : Option Osw := none) : State :=
  let x := schAt s n
  let e : JEntry :=
    { state := st, ctx := o.ctx, path := o.path, cp := o.cp, sch := schId s n, serial := o.serial,
      seqAcked := o.acked, seqCmd := o.seqCmd, halt := x.func = .halt, clear := x.func = .clear,
      inline := o.inline, statusRecorded := o.status.isSome, pathmask := o.pathmask,
      paths := o.pathsUsed.length, next := nextOf o, total := o.carried, osw := w,
      transit := BitVec.ofNat 32 s.time.transit.toNat }
  let k := jrnKey o.die o.index
  let s := { s with chan := { s.chan with jrn := Tab.put s.chan.jrn k e, mirror := Tab.put s.chan.mirror k e } }
  let hi := regKey (cssPage o.die) 0x7C0
  let s := if (cell s hi).toNat < jrnActive s o.die then setCell s hi (BitVec.ofNat 64 (jrnActive s o.die)) else s
  setOp s n { o with journalled := o.acked }

def jrnFree (s : State) (die ix : Nat) : State :=
  { s with chan := { s.chan with
      jrn := Tab.del s.chan.jrn (jrnKey die ix), mirror := Tab.del s.chan.mirror (jrnKey die ix) } }

/-- The number of the journal state an operation's stage is (Table 13-6). -/
def OpStage.code : OpStage → Nat
  | .accepted => 1
  | .running => 2
  | .waiting => 3
  | .ended => 4

/-! ### Operations of a context, of a path, of a CP -/

/-- Subchannels with an operation that holds a journal entry. -/
def opsList (s : State) : List (Nat × Op) := s.chan.ops

/-- Active operations of a context: those that hold a journal entry. -/
def opsOf (s : State) (ctx : Nat) : Nat := (s.chan.ops.filter fun e => e.2.ctx = ctx).length

def cpAt (s : State) (c : Nat) : Cp := vget s.chan.cps (Cp.reset c) c

def updCp (s : State) (c : Nat) (f : Cp → Cp) : State :=
  { s with chan := { s.chan with cps := vset s.chan.cps c (f (cpAt s c)) } }

/-- Operations a CP holds. -/
def cpOps (s : State) (c : Nat) : Nat :=
  (s.chan.ops.filter fun e => e.2.cp = c && e.2.stage != .ended).length

/-- The active CP of a die that holds the fewest operations, the lowest among equals (R336). -/
def chooseCp (s : State) (die : Nat) : Nat :=
  let act := (List.range 16).filter fun i => (cpAt s (die * 16 + i)).role = .active
  match act with
  | [] => die * 16
  | i :: is =>
    die * 16 + is.foldl (fun b j => if cpOps s (die * 16 + j) < cpOps s (die * 16 + b) then j else b) i

/-! ### Inline jobs (R356, R357) -/

/-- RESULT of an inline job that is done: a tag, or the CRC of a gzip stream, which the standard computes (log 22). -/
def inlineResult (s : State) (x : Job) (status : Nat) : List Byte :=
  let n := if status ≠ 1 then 0
    else if [0x10, 0x11, 0x50, 0x51].contains x.func then 16
    else if x.func ≤ 2 && x.param / 16 % 4 = 2 then 4 else 0
  ((List.range n).map fun i => Config.freeByte s.freeCtr i) ++ List.replicate (16 - n) 0

/-- The completion record of an inline job, written before the final status is journalled (R357). -/
def inlineRecord (s : State) (o : Op) (status detail : Nat) : State :=
  match o.job with
  | none => s
  | some j =>
    match Tab.look s.eng.jobs j with
    | none => s
    | some job =>
      let s := agentWrite s (job.at_ + 96)
        (beBytes 1 status ++ beBytes 1 detail ++ beBytes 2 0 ++ beBytes 4 o.jobIn ++ beBytes 4 o.jobOut ++
          beBytes 4 s.time.transit.toNat ++ inlineResult s job status) job.agent
      freeJob (taken s) j job

/-- What an inline job has still to write before its operation's final status can be written (R357). -/
def inlineReady (s : State) (o : Op) : Bool :=
  match o.job.bind fun j => Tab.look s.eng.jobs j with
  | some x => canWriteAll s ((x.at_ + 96, 32) :: o.jobStored)
  | none => true

/-- An operation's inline job moves to an engine of the die of its new path (R357). -/
def inlineMoves (s : State) (o : Op) (die : Nat) : State :=
  match o.job with
  | none => s
  | some j =>
    match Tab.look s.eng.jobs j with
    | some x => if x.q / 64 = die then s else assignJob s j { x with q := die * 64, zip := none, crypt := none }
    | none => s

/-! ### The end of an operation -/

/-- The ending is decided, if none has been (R302). -/
def decide_ (s : State) (n : Nat) (o : Op) (fsc detail : Nat) : State :=
  match o.ending with
  | some _ => setOp s n o
  | none => setOp s n { o with ending := some (oswOf s o fsc detail) }

/-- Whether a status is the one a halt or a clear asked for. -/
def askedFor (fsc : Nat) : Bool := fsc = 7 || fsc = 8 || fsc = 10 || fsc = 11

/-- FUNCTION becomes none and the final status becomes pending, together: the journal is written first, then
an ACK with OPEND ends the operation at the adapter; its windows go (R302, R326, R331). -/
def postFinal (s : State) (n : Nat) (o : Op) (w : Osw) : State :=
  let x := schAt s n
  let late := (x.func = .halt || x.func = .clear) && !askedFor w.fsc
  let w := { w with haltLate := late, progressLost := w.progressLost || x.status.isSome }
  let s := inlineRecord s o (if w.fsc = 0 then 1 else if w.fsc = 12 then w.detail else 3) 0
  let s := jrnWrite s n { o with stage := .ended, wins := [] } 4 (some w)
  let s := if o.sentFirst && o.cancelSeq = none && o.status.isSome
           then sendFrame s n o 2 (o.status.getD 0) 0x0400 0 0 0 else s
  let s := meter s o.ctx 11 1
  let s := if w.fsc = 9 then bump s (cssPage o.die) 0x7C8 else s
  let o' := (opAt s n).getD o
  let s := setOp s n { o' with ending := none, fetchDue := false, halt := false, cancel := none, resync := false }
  updSch s n fun x => { x with func := .none, status := some w, taken := false }

/-- The removal of a status: of a final one, with the operation and its journal entry (R302, R331). -/
def removeStatus (s : State) (n : Nat) : State :=
  let s := match (schAt s n).status, opAt s n with
    | some w, some o =>
      if w.final then
        let s := jrnFree s o.die o.index
        { s with chan := { s.chan with ops := Tab.del s.chan.ops n } }
      else s
    | _, _ => s
  updSch s n fun x => { x with status := none, taken := false }

/-- An operation still held when a reset's bound passes: it ends with the status of the reset, its frames in
flight leaving the outcome unknown (R301, R310, Table 19-7). -/
def endAtBound (s : State) (n : Nat) (o : Op) (fsc : Nat) : State :=
  if o.stage = .ended then s
  else postFinal s n o (o.ending.getD (oswOf s o fsc (if o.unknown then 2 else 0)))

/-! ### Windows (R322-R324) -/

/-- Window slots live on a path. -/
def liveSlots (s : State) (path : Nat) : List Nat :=
  s.chan.ops.flatMap fun e =>
    if e.2.path = path && e.2.stage != .ended then e.2.wins.filterMap (·.slot) else []

/-- Live windows of a root port. -/
def livePort (s : State) (port : Nat) : Nat :=
  ((List.range 64).map fun k => (liveSlots s (port * 64 + k)).length).sum

/-- A free window slot of a path; none where the port already holds 32,768. Which of the free slots the port
assigns is not stated: the search begins at a free value (R323, log 2). -/
def freeSlot (s : State) (path : Nat) : Option Nat :=
  let l := liveSlots s path
  if livePort s (path / 64) ≥ 32768 then none
  else
    let k0 := (Config.freeWord s.freeCtr).toNat
    ((List.range (l.length + 1)).map fun k => (k0 + k) % 65536).find? fun k => !l.contains k

/-- SEG of a path, in bytes (R322). -/
def segOf (s : State) (path : Nat) : Nat :=
  512 * 2 ^ min (field (pathCfg s path) 60 3) (pathAt s path).segMax

/-- A partition absolute address of an operation, checked against a DRAM zone the context owns, or for the
manager context against a granule it owns (R298). -/
def opDram (s : State) (ctx a n : Nat) : Option Nat :=
  match ctxPhys s ctx a with
  | some pa => if regionOf s pa = .dram && decide (n = 0 ∨ (ctxPhys s ctx (a + n - 1)).isSome) then some pa else none
  | none => none

/-- Where a new grant window may lie: not in a released granule (Table 15-3). -/
def windowDram (s : State) (ctx a n : Nat) : Option Nat :=
  (opDram s ctx a n).filter fun pa => !isReleased s 5 (pkgOff pa / gib)

/-- What the next segment of an area is: where it begins and how long it is, or a final status. -/
inductive Seg where
  | at_ (o : Op) (a len : Nat)
  | fail (fsc detail : Nat)
  deriving DecidableEq, Repr

/-- The indirect data list entry that covers an offset of an area, from entry `i` at offset `st` (R297). -/
def idlFind (s : State) (ctx list count off : Nat) : Nat → Nat → Nat → Except (Nat × Nat) (Nat × Nat × Nat × Nat)
  | 0, _, _ => .error (4, 6)
  | fuel + 1, i, st =>
    if i ≥ 8192 then .error (4, 6)
    else
      match opDram s ctx (list + 16 * i) 16 with
      | none => .error (5, 3)
      | some pa =>
        if anyPoison s pa 16 then .error (6, 1) else
        let a := curVal s pa 8
        let len := curVal s (pa + 8) 4
        if a ≥ 2 ^ 52 ∨ len = 0 ∨ len > 4096 ∨ curVal s (pa + 12) 4 ≠ 0 ∨ a % 4096 + len > 4096 ∨
            st + len > count then .error (4, 6)
        else if off < st + len then .ok (i, st, a, len)
        else idlFind s ctx list count off fuel (i + 1) (st + len)

/-- The next segment of the active area (R322). -/
def nextSeg (s : State) (o : Op) (a : Area) : Seg :=
  let pos := o.granted - a.start
  let seg := segOf s o.path
  if a.cw.idl then
    let cur := match o.idl with
      | some (i, st, ad, len) => if pos < st + len then Except.ok (i, st, ad, len)
          else idlFind s o.ctx a.cw.addr a.cw.count pos 8193 (i + 1) (st + len)
      | none => idlFind s o.ctx a.cw.addr a.cw.count pos 8193 0 0
    match cur with
    | .error (f, d) => .fail f d
    | .ok (i, st, ad, len) =>
      let x := ad + (pos - st)
      .at_ { o with idl := some (i, st, ad, len) } x (min (ad + len) ((x / seg + 1) * seg) - x)
  else
    let x := a.cw.addr + pos
    .at_ o x (min (a.cw.addr + a.cw.count) ((x / seg + 1) * seg) - x)

/-- Whether a command carries data to storage. -/
def toStorage (cmd : Nat) : Bool := cmd = 0x12 || cmd = 0x14

/-- The journal entry is rewritten before a frame that goes more than 32 sequences past it (R331). -/
def jrnBefore (s : State) (n : Nat) (o : Op) : State × Op :=
  if o.seq > o.journalled + 32 then (jrnWrite s n o o.stage.code, { o with journalled := o.acked }) else (s, o)

/-- A HALT or a CANCEL leaves, with the next sequence; the state and the operation (R320, R331). -/
def sendEnd (s : State) (n : Nat) (o : Op) (cmd : Nat) : State × Op :=
  let (s, o) := jrnBefore s n o
  let w : Win := ⟨o.seq, none, 0, o.carried, 0, false, false, false, cmd, false⟩
  (sendWin s n o w, { o with seq := o.seq + 1, wins := o.wins ++ [w] })

/-- A HALT or a CANCEL that is asked for and has not been sent leaves, while fewer than eight frames are unacknowledged
(R320). -/
def sendAsked (s : State) (n : Nat) (o : Op) : State :=
  if o.wins.length ≥ 8 then setOp s n o
  else if o.cancel.isSome && o.cancelSeq.isNone then
    let (s, p) := sendEnd s n o 0x31
    setOp s n { p with cancelSeq := some o.seq }
  else if o.halt && o.haltSeq.isNone && o.cancel.isNone then
    let (s, p) := sendEnd s n o 0x30
    setOp s n { p with haltSeq := some o.seq }
  else setOp s n o

/-- An early ending asked of the adapter, with the status it will give (R304, R305). -/
def sendCancel (s : State) (n : Nat) (o : Op) (fsc detail : Nat) : State :=
  sendAsked s n { o with cancel := some (fsc, detail) }

/-- An operation ended by a reset, as IOCLEAR would end it (R305, R310): at once where the adapter holds nothing
of it or no path leads there, else by a cancel at the adapter. An ending already decided, or a fault already
found, stands. -/
def endByReset (s : State) (n : Nat) (o : Op) (fsc : Nat) : State :=
  let found := match o.cancel with | some (f, _) => !askedFor f | none => false
  if o.stage = .ended || o.ending.isSome || found then s
  else if o.stage = .waiting then decide_ s n o fsc (if o.unknown then 2 else 0)
  else if !o.sentFirst then decide_ s n o fsc 0
  else sendCancel s n o fsc 0

/-- A fault of the channel program: the operation ends at once where every frame is answered, else once the
adapter has answered a cancel. -/
def failOp (s : State) (n : Nat) (o : Op) (fsc detail : Nat) : State :=
  if !o.sentFirst || (o.wins.isEmpty && o.status.isSome) then decide_ s n o fsc detail
  else sendCancel s n o fsc detail

/-- The command a window's frame names: the command's own for its CMD, 0 for a GRANT. -/
def firstCmd (o : Op) : Nat := match o.areas.head? with | some a => a.cw.cmd | none => 0

/-- Frames are granted while fewer than eight are unacknowledged and the area has bytes left (R320, R322);
the first of a command travels in its CMD. -/
def grant : Nat → State → Nat → Op → State
  | 0, s, n, o => setOp s n o
  | fuel + 1, s, n, o =>
    match o.area with
    | none => setOp s n o
    | some a =>
      let isCmd := o.granted = 0 && o.seqCmd = 0
      let none' := o.granted ≥ a.start + a.cw.count && !isCmd
      if none' || o.wins.length ≥ 8 || o.halt || o.cancel.isSome || o.ending.isSome || (o.status.isSome && !isCmd) ||
         o.stage = .waiting || o.resync || (pathAt s o.path).st != .up then setOp s n o
      else if a.cw.count = 0 then
        let (s, o) := jrnBefore s n o
        let w : Win := ⟨o.seq, none, 0, o.granted, 0, false, false, true, firstCmd o, false⟩
        let o := { o with seq := o.seq + 1, seqCmd := o.seq, wins := o.wins ++ [w], sentFirst := true, status := none,
                          stage := .running }
        setOp (sendWin s n o w) n o
      else
        match nextSeg s o a with
        | .fail f d => failOp s n o f d
        | .at_ o x len =>
          match windowDram s o.ctx x len, freeSlot s o.path with
          | none, _ => failOp s n o 5 2
          | some _, none => setOp s n o
          | some pa, some k =>
            let cmd := if isCmd then firstCmd o else 0
            let last := !a.cw.cd && decide (o.granted + len ≥ a.start + a.cw.count)
            let w : Win := ⟨o.seq, some k, len, o.granted, pa, toStorage (firstCmd o), a.cw.skip, last, cmd, false⟩
            let (s, o) := jrnBefore s n o
            let o := { o with seq := o.seq + 1, seqCmd := if isCmd then o.seq else o.seqCmd,
                              granted := o.granted + len, wins := o.wins ++ [w], sentFirst := true,
                              status := none, stage := .running }
            grant fuel (taken (setOp (sendWin s n o w) n o)) n o

/-- Grants as far as they go, on a path that is up (R333). -/
def grantAll (s : State) (n : Nat) (o : Op) : State :=
  grant 9 (setOp s n o) n o

/-! ### Resynchronisation (R338) -/

/-- Whether an operation awaits an answer of the adapter. -/
def awaits (o : Op) : Bool :=
  o.stage != .ended && o.sentFirst && o.ending.isNone

/-- A RESYNC is sent for an operation that awaits an answer. -/
def sendResync (s : State) (n : Nat) : State :=
  match opAt s n with
  | some o =>
    if awaits o then
      let s := bump s (pciePage (o.path / 64)) 0x7C8
      let s := sendFrame s n o 6 (max o.acked o.journalled) 0 0 0 0 false
      setOp s n { o with resync := true }
    else s
  | none => s

/-! ### Failure of a path (R334, R337) -/

/-- Revocation of the live windows of an operation on a path (R324). -/
def revoke (s : State) (o : Op) : State :=
  { s with chan := { s.chan with
      revoked := (o.wins.filterMap fun w => w.slot.map fun k => (o.path, k, s.time.transit.toNat)) ++
                 s.chan.revoked } }

/-- An operation's next path: in rotation after the path it is on, of those that are up, same die first, the other die only
with journal room (R337, log 23). -/
def nextPath (s : State) (n : Nat) (o : Op) : Option Nat :=
  let cur := ((List.range 8).find? fun k => slotPath s n k = o.path && maskHas (schPim s n) k).getD 7
  let us := (rotation cur).filter fun k => (usableSlots s n o.pathmask).contains k
  let ps := (us.map (slotPath s n)).filter fun p => (pathAt s p).st = .up
  match ps.find? fun p => pathDie p = o.die with
  | some p => some p
  | none => ps.find? fun p => (jrnRoom s (pathDie p)).isSome

/-- An operation is moved onto a path: on the other die it takes a journal entry there first; its windows
are given new slots when they are sent again. -/
def takePath (s : State) (n : Nat) (o : Op) (p : Nat) : State :=
  let d := pathDie p
  let o := { o with path := p, stage := if o.sentFirst then .running else .accepted,
                    pathsUsed := if !o.sentFirst || o.pathsUsed.contains p then o.pathsUsed else o.pathsUsed ++ [p],
                    wins := o.wins.map fun w => { w with slot := none }, waited := 0 }
  let o := if o.sentFirst then o else { o with pathsUsed := [p] }
  if d = o.die then
    let o := { o with cp := if (cpAt s o.cp).role = .active && o.cp / 16 = d then o.cp else chooseCp s d }
    jrnWrite s n o o.stage.code
  else
    match jrnRoom s d with
    | none => setOp s n o
    | some ix =>
      let (od, oi) := (o.die, o.index)
      let s := inlineMoves s o d
      let o := { o with die := d, index := ix, cp := chooseCp s d }
      jrnFree (jrnWrite s n o o.stage.code) od oi

/-- An operation goes on, on a path that is up: it resynchronises, or sends its first frame where its Command Word has been
fetched. -/
def goOn (s : State) (n : Nat) : State :=
  match opAt s n with
  | some o => if o.sentFirst then sendResync s n else if o.fetchDue then s else grantAll s n o
  | none => s

/-- An operation loses its path: it moves to the next one and goes on, or waits (R311, R337). -/
def movePath (s : State) (n : Nat) (o : Op) : State :=
  if o.stage = .ended then s
  else
    let s := revoke s o
    match nextPath s n o with
    | some p => goOn (takePath s n o p) n
    | none =>
      let o := { o with stage := .waiting, waited := 0, resync := false,
                        wins := o.wins.map fun w => { w with slot := none } }
      let s := jrnWrite s n o 3
      let o := (opAt s n).getD o
      let d := if o.unknown then 2 else 0
      match (schAt s n).func with
      | .halt => decide_ s n o 7 2
      | .clear => decide_ s n o 8 d
      | _ => setOp s n o

/-- A path fails: 2123h, and every operation on it moves or waits (R334, R337). -/
def failPath (s : State) (p : Nat) : State :=
  let st := (pathAt s p).st
  if st = .none || st = .failed then s
  else
    let s := updPath s p fun x => { x with st := .failed, beats := 0, sinceBeat := 0, bad := 0, resyncDue := false }
    let s := logEvent s { page := pciePage (p / 64), code := 0x2123, sub := p % 64 }
    (s.chan.ops.filter fun e => e.2.path = p).foldl (fun s e => movePath s e.1 ((opAt s e.1).getD e.2)) s

/-- Operations that wait for a path resume on one that has come up, and those placed on it while it was brought up send their
first frames (R311, R333). -/
def resumeWaiting (s : State) (p : Nat) : State :=
  (s.chan.ops.filter fun e => e.2.ending.isNone).foldl (fun s e =>
    if e.2.stage = .waiting then
      let us := (usableSlots s e.1 e.2.pathmask).map (slotPath s e.1)
      if us.contains p && (pathDie p = e.2.die || (jrnRoom s (pathDie p)).isSome) then goOn (takePath s e.1 e.2 p) e.1
      else s
    else if e.2.stage = .accepted && e.2.path = p then goOn s e.1
    else s) s

end Sys2Proof.Machine
end

