-- ==== Sys2Proof/Machine/PartOps.lean ====
section
/-! DEFINITION. How a logical processor begins and is reset (19 R456-R461), and what a reset of a partition
ends. -/

namespace Sys2Proof.Machine

/-- The control registers of a processor as it begins (Table 19-5). -/
def beginC (s : State) (lp : Fin 48) : Vector Word 32 :=
  let p := lpOwner s lp.val
  let c : Vector Word 32 := (Vector.replicate 32 (0 : Word)).set 16 (BitVec.ofNat 64 (ctxCode p))
  if p < mgrCtx then
    (c.set 17 (cell s (regKey (partPage p) 0x080))).set 18
      (cell s (regKey (partPage p) 0x0C0) &&& 0xFFFFFFFFFFFFF000)
  else c

/-- Registers of Table 19-5 with a start PSW. -/
def beginArch (s : State) (lp : Fin 48) (pswa psws : Word) : Arch :=
  { Arch.reset with pswa := pswa &&& 0xFFFFFFFFFFFFFFFC, psws := psws &&& maskPsws, c := beginC s lp }

/-- The pair that runs a processor holds no translation for it. -/
def emptyTlbs (s : State) (lp : Fin 48) : State :=
  match pairOf s lp with
  | some p => updPair s p fun x => { x with tlbs := Tlbs.reset }
  | none => s

/-- A logical processor begins (R457), its signal consumed. -/
def beginLp (s : State) (lp : Fin 48) (pswa psws : Word) : State :=
  let a := beginArch s lp pswa psws
  updLp (emptyTlbs s lp) lp fun x =>
    { x with arch := a, ckpt := a, run := .running, gated := [], icount := 0, reservation := none,
             resHold := false, wait := .none, handler := false, signal := false, partChanged := none, repN := none, lines := [] }

/-- A logical processor takes the state of Table 19-5 and waits (R461, R462). -/
def waitLp (s : State) (lp : Fin 48) : State :=
  let a := beginArch s lp 0 pswsReset
  updLp (emptyTlbs s lp) lp fun x =>
    { x with arch := a, ckpt := a, run := .waiting, gated := [], icount := 0, reservation := none,
             resHold := false, wait := .none, handler := false, signal := false, partChanged := none, repN := none, lines := [] }

/-- A logical processor stops at once, its gated entries discarded (R273). -/
def stopLp (s : State) (lp : Fin 48) : State :=
  updLp s lp fun x =>
    { x with run := .stopped, gated := [], icount := 0, reservation := none, resHold := false, wait := .none, repN := none }

/-- Logical processors of the package. -/
def allLps (s : State) : List (Fin 48) := all48.filter fun l => decide (l.val < lpCount s)

/-- Logical processors LP_MASK gives a context. -/
def lpsOf (s : State) (ctx : Nat) : List (Fin 48) := (allLps s).filter fun l => lpOwner s l.val = ctx

/-- A PCIe function that no register names. -/
def funcDefault : Func :=
  { up := false, sub := 0, contained := false, containing := false, credit := 0, held := [], msixLeft := 16,
    coalesced := false, bars := [] }

def funcAt (s : State) (port : Nat) (rid : BitVec 16) : Func :=
  Tab.read (fun _ => funcDefault) s.funcs (port * 65536 + rid.toNat)

def updFunc (s : State) (port : Nat) (rid : BitVec 16) (f : Func → Func) : State :=
  { s with funcs := Tab.write (fun _ => funcDefault) s.funcs (port * 65536 + rid.toNat) (f (funcAt s port rid)) }

/-- The OF_BIND entry of a function, by number, if it is bound (R371). -/
def bindOf (s : State) (port : Nat) (rid : BitVec 16) : Option Nat :=
  (List.range 48).find? fun n =>
    let v := cell s (regKey (pciePage port) (0x700 + 4 * n))
    bit v 31 && field v 0 16 = rid.toNat

/-- The context an OF_BIND entry names. -/
def bindCtx (s : State) (port n : Nat) : Nat :=
  ctxOfCode (cellField s (pciePage port) (0x700 + 4 * n) 23 8)

/-- Pending interruptions of a context are discarded: its queue notifications, messages, offers and machine
checks (R461). Statuses of its subchannels stay pending. -/
def dropPending (s : State) (ctx : Nat) : State :=
  let s := { s with
    msixQ := s.msixQ.filter fun m => m.ctx != ctx,
    offers := s.offers.filter fun o => o.ctx != ctx,
    err := { s.err with checks := s.err.checks.filter fun c => c.ctx != ctx } }
  let s := s.eng.jqs.foldl (fun s (e : Nat × JQueue) =>
    if jqOwner s e.1 = ctx then updJq s e.1 fun q => { q with notify := false } else s) s
  s.funcs.foldl (fun s (e : Nat × Func) =>
    let rid := BitVec.ofNat 16 e.1
    match bindOf s (e.1 / 65536) rid with
    | some n => if bindCtx s (e.1 / 65536) n = ctx then updFunc s (e.1 / 65536) rid fun f => { f with coalesced := false }
                else s
    | none => s) s

/-- Every operation of a context ends with the status of a reset. -/
def endOps (s : State) (ctx : Option Nat) (fsc : Nat) : State :=
  (s.chan.ops.filter fun e => match ctx with | some c => e.2.ctx = c | none => true).foldl
    (fun s e => endByReset s e.1 ((opAt s e.1).getD e.2) fsc) s

/-- A Burin operation of a context is cancelled: the engine stops at the end of its set (R224). -/
def cancelBurin (s : State) (ctx : Nat) : State :=
  { s with burin := s.burin.map fun b => if b.busy && b.ownerCtx = ctx then { b with cancelled := true } else b }

/-- Every operation that a warm reset's bound finds not ended is ended (Table 19-7). -/
def endOpsAtBound (s : State) (fsc : Nat) : State :=
  s.chan.ops.foldl (fun s e => endAtBound s e.1 ((opAt s e.1).getD e.2) fsc) s

/-- A partition reset is in progress while an operation of the partition has not ended (R376, R461). -/
def resetRuns (s : State) (p : Nat) : Bool :=
  (partAt s p).resetting && s.chan.ops.any fun e => e.2.ctx = p && e.2.stage != .ended

/-- The steps of a partition reset, in order; its operations may end later (R461). -/
def resetPartition (s : State) (p : Nat) : State :=
  let lps := lpsOf s p
  let s := lps.foldl (fun s l => drainStorage (stopLp s l) l) s
  let s := endOps (dropPending s p) (some p) 10
  let s := cancelBurin (eraseKeys (abortJobs s (some p) 1) p) p
  let s := lps.foldl waitLp s
  updPart (tlbiAll s .part 0 0 p) p fun x => { x with resetting := true, flags := x.flags ||| 1 }

end Sys2Proof.Machine
end

