-- ==== Sys2Proof/Machine/Error.lean ====
section
/-! DEFINITION. The actions of errors by class (17 R412, R425-R428): the end of a partition, the checkstop,
Degraded operating, and the entry into a mode. -/

namespace Sys2Proof.Machine

/-- The value of MODE_STATE.MODE (Table 19-1). -/
def ModeKind.code : ModeKind → Nat
  | .off => 0
  | .standby => 1
  | .init => 2
  | .load => 3
  | .operating => 4
  | .compat => 5
  | .serviceStop => 6
  | .hold => 7
  | .checkstop => 8

/-- The package runs programs. -/
def running (s : State) : Bool := s.mode.mode = .operating || s.mode.mode = .compat

/-- A mode is entered: 0194h with MODE (Table 19-10), PHASE and the transition over. -/
def enterMode (s : State) (m : ModeKind) (phase : Nat := 0) : State :=
  logEvent { s with mode := { s.mode with mode := m, phase := phase, transition := .none } }
    { page := keeperPage, code := 0x0194, sub := m.code }

/-- The package checkstops: every die stops, data only in caches and store gates is lost, DRAM keeps what
reached it in self-refresh; the first cause is latched (R426, R427). -/
def checkstopNow (s : State) (code page : Nat) : State :=
  if s.mode.mode = .checkstop then s
  else
    let s := { s with
      dirty := [], l3 := [], txns := [], slices := [],
      lps := s.lps.map fun x => { x with run := .stopped, gated := [], released := [], owning := [], toPort := [], toFar := [],
                                         wait := .none, repN := none, reservation := none, resHold := false },
      pairs := s.pairs.map fun x => { x with l1i := [], l1d := [], l2 := [], misses := [], streams := [] },
      mcs := s.mcs.map fun m => if m.st = .running || m.st = .training then { m with st := .selfRefresh } else m,
      mode := { s.mode with quiesce := false, transition := .none } }
    let s := if s.err.stopCode = 0 then { s with err := { s.err with
      stopCode := code, stopPage := page, stopTransit := BitVec.ofNat 32 s.time.transit.toNat } } else s
    emit (.announce "checkstop" (pkgId s)) (enterMode s .checkstop)

/-- An error with the actions of its class. A Partition-fatal one of the manager context is raised as
Package-checkstop, with its block code kept (R425). -/
def raise (s : State) (e : Event) : State :=
  match classOf e.code with
  | 3 =>
    match e.owner with
    | some p =>
      if p < mgrCtx then resetPartition (logEvent s e) p
      else
        let code := e.code % 8192 + 0x8000
        checkstopNow (logEvent s { e with code := code }) code e.page
    | none => logEvent s e
  | 4 => checkstopNow (logEvent s e) e.code e.page
  | _ => logEvent s e

/-- The causes of Degraded operating. -/
inductive Degraded where
  | feed | spares | keeper
  deriving DecidableEq, Repr

/-- A cause arises: 2172h once, with it in SUBUNIT; the loss of the Keeper no record can report (R428). -/
def degrade (s : State) (c : Degraded) : State :=
  match c with
  | .feed => if s.err.degFeed then s else
      logEvent { s with err := { s.err with degFeed := true } } { page := keeperPage, code := 0x2172, sub := 1 }
  | .spares => if s.err.degSpares then s else
      logEvent { s with err := { s.err with degSpares := true } } { page := keeperPage, code := 0x2172, sub := 2 }
  | .keeper => { s with err := { s.err with degKeeper := true } }

/-- The feed cause clears; with no cause left the package leaves Degraded operating (R428). -/
def feedRestored (s : State) : State :=
  if !s.err.degFeed then s
  else
    let s := { s with err := { s.err with degFeed := false } }
    if s.err.degSpares || s.err.degKeeper then s
    else logEvent s { page := keeperPage, code := 0x0173 }

end Sys2Proof.Machine
end

