-- ==== Sys2Proof/Machine/RegRead.lean ====
section
/-! DEFINITION. What a read of the service space returns (03 R54-R60): the value of every register, those
that the package's state composes among them, and the replies of Table 3-3. -/

namespace Sys2Proof.Machine

/-- `v` shifted to bit `lo`. -/
def at_ (v lo : Nat) : Nat := v * 2 ^ lo

def flagAt (b : Bool) (lo : Nat) : Nat := if b then 2 ^ lo else 0

/-! ### Presence and power -/

/-- A die is powered (Table 19-1, Table 19-3): KD while the Keeper runs, the six dies from phase CONFIG on. -/
def dieOn (s : State) (d : Nat) : Bool :=
  if d = 6 then s.mode.mode != .off && !s.err.degKeeper
  else match s.mode.mode with
    | .off => false
    | .standby => false
    | .hold => false
    | .init => s.mode.phase ≥ 2
    | _ => true

/-- The page a master can reach (R52, R54, R62). -/
def reaches (m : Master) (p : Nat) : Bool := pagePresent p && !(m = .manager && portOnly p)

/-- With the whole Keeper die lost there is no Service Port access to any page (R16, Table 1-9). -/
def portLost (s : State) (m : Master) : Bool := s.err.degKeeper && m != .manager

/-- A write by a master is performed by a page: the page is reached and powered, and in Checkstop it is the
KEEPER page (R54, R427). -/
def writable (s : State) (m : Master) (p : Nat) : Bool :=
  reaches m p && !portLost s m && dieOn s (pageDie p) && (s.mode.mode != .checkstop || p = keeperPage)

/-- An instance's power domain is on: spare channel processors stay powered (Table 20-8). -/
def instOn (s : State) (p : Nat) : Bool :=
  let i := pageInst p
  dieOn s (pageDie p) && (match pageType p with
    | 0x08 => (vget s.pairs (Pair.reset .tk4008 0) (pageDie p * 12 + i)).powered
    | 0x18 => !cellBit s p 0x040 29
    | _ => true)

/-- An instance is marked failed. -/
def instFailed (s : State) (p : Nat) : Bool :=
  let i := pageInst p
  match pageType p with
  | 0x08 => (vget s.pairs (Pair.reset .tk4008 0) (pageDie p * 12 + i)).failed
  | 0x10 => (vget s.mcs Mc.reset i).st = .failed
  | 0x19 => (vget s.links Link.reset i).failed
  | 0x21 => (cpAt s ((pageDie p - 4) * 16 + i)).role = .failed
  | 0x28 => (zipAt s ((pageDie p - 4) * 4 + i)).failed
  | 0x29 => (cryptAt s ((pageDie p - 4) * 4 + i)).failed
  | _ => false

/-! ### Drafts (R60) -/

/-- Eight owner-array entries as they read, the lowest in bits [63:56] (R369). -/
def ownGroup (s : State) (g : Nat) : Word :=
  BitVec.ofNat 64 ((List.range 8).foldl (fun v i => v * 256 + ownerEntry s (8 * g + i)) 0)

/-- Live value of an ST register as it reads. -/
def liveVal (s : State) (k : Nat) : Word :=
  if keyPage k = mapPage ∧ keyOff k = 0x108 then ownGroup s (keyIdx k) else cell s k

def draftVal (s : State) (k : Nat) : Word := (Tab.look s.drafts k).getD (liveVal s k)

/-- The class of the ST register a key names. -/
def keyClass (k : Nat) : StrikeClass :=
  match regAt (keyPage k) (keyOff k) with
  | some (r, _) => match r.ty with | .st c => c | _ => .tick
  | none => .tick

/-- Draft keys of a page. -/
def dirtyOf (s : State) (p : Nat) : List Nat := (s.drafts.filter fun e => keyPage e.1 = p).map (·.1)

/-- DRAFT_STATE of a page. -/
def draftState (s : State) (p : Nat) : Nat :=
  let d := dirtyOf s p
  flagAt (d.any fun k => keyClass k = .quiesce) 3 + flagAt (d.any fun k => keyClass k = .init) 2 +
    (if d.isEmpty then 0 else if s.proof.proofed then 2 else 1)

/-! ### Event records (17 Table 17-3) -/

def AddrKind.code : AddrKind → Nat
  | .none => 0
  | .virt => 1
  | .abs => 2
  | .phys => 3

/-- The bytes of an event record with the sequence of the ring or queue that holds it. -/
def evBytes (s : State) (r : EvRec) (seq : BitVec 32) : List Byte :=
  let b := beBytes 2 r.code ++ beBytes 2 r.subunit ++ beBytes 4 (at_ (pkgId s) 30 + r.page) ++
    beBytes 8 r.transit.toNat ++ beBytes 4 seq.toNat ++
    beBytes 1 (match r.owner with | some o => ctxCode o | none => 255) ++
    beBytes 1 (flagAt r.sync 7 + flagAt r.held 6 + flagAt r.absorbed 5 + flagAt r.ovf 4 + r.kind.code) ++
    beBytes 2 (match r.lp with | some l => (lpid s l).toNat | none => 0xFFFF) ++
    beBytes 8 r.addr.toNat ++ beBytes 8 r.detail.toNat ++ beBytes 4 r.count ++
    beBytes 1 r.route.toNat ++ List.replicate 15 0
  b ++ beBytes 4 (crc32c b).toNat

/-- Eight bytes of the record at a port's read pointer; zero in a slot that nothing has entered. -/
def evqData (s : State) (rp : BitVec 32) (i : Nat) : Nat :=
  match Tab.look s.err.evq (rp.toNat % 256) with
  | some (q, r) => beVal (((evBytes s r q).drop (8 * i)).take 8)
  | none => 0

/-! ### Composed registers, page by page -/

def StrikeState.code : StrikeState → Nat
  | .idle => 0
  | .armed => 1
  | .committed => 2
  | .applied => 3
  | .cancelled => 4
  | .refused => 5

def holderCode (s : State) : Nat := match s.pen.holder with | some m => m.code | none => 0

/-- A pair is halted. -/
def anyHalted (s : State) : Bool := all48.any fun p => (pairAt s p).role = .halted

def degraded (s : State) : Bool := s.err.degFeed || s.err.degSpares || s.err.degKeeper

/-- KEEPER registers the Keeper's state composes (Tables 3-8 and 17-6, 19 R471). DESIGN CHOICE (log 101): PEN_RENEW, an
LV register without fields, reads zero whatever was written; and STRIKE_CMD reads zero, its command being completed by
the acceptance or the refusal of the order, though the Strike is armed. -/
def keeperReg (s : State) (off : Nat) : Option Nat :=
  match off with
  | 0x040 => some (holderCode s)
  | 0x044 => some (at_ s.pen.grantSeq.toNat 16 + at_ (holderCode s) 14 + s.pen.lease)
  | 0x048 => some 0
  | 0x04C => some (flagAt s.proof.busy 0)
  | 0x050 => some (at_ s.proof.code 56 + flagAt s.proof.busy 55 + at_ s.proof.page 24 + s.proof.off)
  | 0x058 => some 0
  | 0x068 => some (at_ s.strike.st.code 61 + at_ s.strike.reason 48 + s.strike.tick.toNat)
  | 0x0A0 => some Config.ident.toNat
  | 0x100 => some s.err.wp.toNat
  | 0x104 => some s.err.rpA.toNat
  | 0x108 => some s.err.rpB.toNat
  | 0x110 => some (flagAt s.err.degFeed 31 + flagAt s.err.degSpares 30)
  | 0x118 => some (if s.err.stopCode = 0 then 0
                   else at_ s.err.stopCode 48 + at_ s.err.stopPage 24 + at_ (pkgId s) 22)
  | 0x120 => some (if s.err.stopCode = 0 then 0 else s.err.stopTransit.toNat)
  | 0x140 => some (at_ s.mode.mode.code 28 + flagAt (degraded s) 27 + flagAt s.mode.quiesce 26 +
      flagAt (running s && anyHalted s) 25 + flagAt s.mode.warm 24 + flagAt s.mode.held 23 + at_ s.mode.phase 8 + s.mode.result)
  | _ =>
    if 0x200 ≤ off ∧ off < 0x240 then some (evqData s s.err.rpA ((off - 0x200) / 8))
    else if 0x240 ≤ off ∧ off < 0x280 then some (evqData s s.err.rpB ((off - 0x240) / 8))
    else none

def FeedSt.code : FeedSt → Nat
  | .absent => 0
  | .failed => 1
  | .repairing => 2
  | .standby => 3
  | .active => 4

/-- Ticks until the repairing feed becomes standby (R481). -/
def repairLeft (s : State) : Nat :=
  if s.feed.a.st = .repairing then 100000 - s.feed.a.repair
  else if s.feed.b.st = .repairing then 100000 - s.feed.b.repair else 0

/-- FEED registers (20 R496); AGE is shown in whole hours, 360,000,000 ticks each. -/
def feedReg (s : State) (off : Nat) : Option Nat :=
  match off with
  | 0x040 => some (at_ (match s.feed.active with | none => 0 | some false => 1 | some true => 2) 30 +
      at_ s.feed.a.st.code 27 + at_ s.feed.b.st.code 24 + flagAt s.feed.vsbOk 23 + flagAt s.feed.a.chat 22 +
      flagAt s.feed.b.chat 21 + flagAt s.feed.trip 20 + repairLeft s)
  | 0x048 => some s.feed.mv.toNat
  | 0x050 => some s.feed.pwr.toNat
  | 0x058 => some ((List.range 7).foldl (fun v d => v + at_ (vget s.feed.tj 255 d) (8 * d)) 0)
  | 0x060 => some ((List.range 4).foldl (fun v d => v + at_ (vget s.feed.vgb 0 d) (4 * d)) 0)
  | _ => if 0x080 ≤ off ∧ off < 0x09C then some (vget s.feed.age 0 ((off - 0x080) / 4) / 2 ^ 32 / 360000000)
         else none

def LoopState.code : LoopState → Nat
  | .free => 0
  | .acquiring => 1
  | .locked => 2
  | .holdover => 3

/-- A signed quantity saturated to 16 bits. -/
def sat16 (x : Int) : Nat := (BitVec.ofInt 16 (max (-32768) (min 32767 x))).toNat

/-- Steps of 62.5 ps in a second (R19), and in a tick (R20). -/
def secSteps : Nat := 16000000000
def tickSteps : Nat := 160000

/-- An instant of the current tick, in steps since the epoch. -/
def instant (s : State) (off : Nat) : Nat := s.time.seconds.toNat * secSteps + s.time.steps + off

/-- The FRACTION word: FRACTION is steps × 2^34 / 16 × 10^9, rounded down, in bits 63:30 (R19, Table 2-1). -/
def todFrac (steps : Nat) : Nat := steps * 2 ^ 34 / 16000000000 * 2 ^ 30

/-- TOD registers (Table 2-7). -/
def todReg (s : State) (off : Nat) : Option Nat :=
  match off with
  | 0x040 => some s.time.seconds.toNat
  | 0x048 => some (todFrac s.time.steps)
  | 0x050 => some s.time.transit.toNat
  | 0x068 => some (at_ s.time.loop.code 29 + at_ s.time.active.toNat 27 + flagAt s.time.ppsA.qualified 26 +
      flagAt s.time.ppsB.qualified 25 + flagAt s.time.labelOk 24 + sat16 s.time.phaseErr)
  | _ => none

def Role.code : Role → Nat
  | .dormant => 0
  | .preparing => 1
  | .active => 2
  | .leaving => 3
  | .halted => 4
  | .failed => 5
  | .stopped => 6

/-- The words of a checkpoint slot, by the offset of each in the window 380h-757h (R283). -/
def ckptWord (a : Arch) (off : Nat) : Word :=
  if off = 0x380 then a.pswa
  else if off = 0x388 then a.psws
  else if off = 0x390 then a.fpc.setWidth 64
  else if off < 0x490 then vget a.g 0 ((off - 0x398) / 8 + 1)
  else if off < 0x690 then
    let f := vget a.f 0 ((off - 0x490) / 16)
    if off % 16 = 0 then (f >>> 64).setWidth 64 else f.setWidth 64
  else
    let i := (off - 0x690) / 8
    vget a.c 0 (if i < 13 then i else i + 3)

/-- Transit numbers of a window of 100,000 ticks that ends now (R266). -/
def inWindow (s : State) (l : List Nat) : List Nat := l.filter fun t => decide (t + 99999 ≥ s.time.transit.toNat)

/-- PAIR registers (R283). -/
def pairReg (s : State) (p : Fin 48) (off : Nat) : Option Nat :=
  let x := pairAt s p
  match off with
  | 0x040 => some (at_ x.role.code 29 + flagAt x.retrying 28 + flagAt x.haltDone 27 +
      at_ (match x.lp with | some l => ctxCode (lpPart s l) | none => 0xFF) 16 +
      (match x.lp with | some l => (lpid s l).toNat | none => 0xFFFF))
  | 0x048 => some (flagAt x.haltReq 31 + flagAt x.irqHold 29 + x.owner.toNat)
  | 0x060 => some x.image.toNat
  | 0x7CC => some (inWindow s x.window).length
  | 0x7D8 => some x.activeTicks.toNat
  | _ =>
    if 0x380 ≤ off ∧ off < 0x758 then
      some (match x.lp with
        | some l => (ckptWord (lpAt s l).ckpt off).toNat
        | none => 0)
    else none

def McSt.code : McSt → Nat
  | .unpopulated => 0
  | .training => 1
  | .running => 2
  | .selfRefresh => 3
  | .failed => 4

def markCode (m : Option Nat) : Nat := match m with | some d => d + 1 | none => 0

/-- MC registers (R410). -/
def mcReg (s : State) (ch off : Nat) : Option Nat :=
  let m := vget s.mcs Mc.reset ch
  match off with
  | 0x048 => some (at_ m.st.code 29 + flagAt m.hot 28 + at_ (markCode m.mark0) 20 + at_ (markCode m.mark1) 16)
  | 0x050 => some (at_ m.passes.toNat 32 + m.cursor)
  | 0x05C =>
    let i := (cell s (regKey (mcPage ch) 0x058)).toNat
    match Tab.look m.lanes (i / 32 * 16 + i / 16 % 2 * 8 + i % 16) with
    | some l => some (at_ (l.rdWidth % 256) 24 + at_ (l.wrWidth % 256) 16 +
        at_ (BitVec.ofInt 8 l.rdDrift).toNat 8 + (BitVec.ofInt 8 l.wrDrift).toNat)
    | none => some 0
  | _ => none

/-- MEM_CFG (R410): what the SPD read of Initialisation found. -/
def memCfg (s : State) : Nat :=
  match spdOf s with
  | some _ => at_ (match (populated s).length with | 4 => 1 | 8 => 2 | 16 => 3 | _ => 0) 30 + at_ (qGib s) 20 +
      at_ (rankBits s) 18 + flagAt (dense s) 17
  | none => 0

/-- PATH_STATE. -/
def pathReg (s : State) (p : Nat) : Nat :=
  let x := pathAt s p
  at_ (match x.st with | .none => 0 | .init => 1 | .up => 2 | .failed => 3) 29 + at_ x.silence 16 +
    min 0xFFFF ((s.chan.ops.filter fun e => e.2.path = p && e.2.stage != .ended).length)

def CpRole.code : CpRole → Nat
  | .spare => 0
  | .active => 1
  | .failed => 2
  | .restarting => 3

/-- ENG_STATE of an engine (R364). -/
def engReg (s : State) (crypt : Bool) (e : Nat) : Nat :=
  let x := if crypt then cryptAt s e else zipAt s e
  match s.eng.jobs.find? fun j => (if crypt then j.2.crypt else j.2.zip) = some e with
  | some j => at_ (if x.restarting then 2 else 1) 29 + flagAt (j.2.q / 64 != e / 4) 22 + at_ (j.2.q % 64) 16 +
      at_ j.2.func 8
  | none => at_ (if x.failed then 3 else if x.restarting then 2 else 0) 29

/-- Pairs and CPs that run an image other than the current slot's (R442, R444). -/
def currentImage (s : State) : Word :=
  let slot := cellField s (csPage 6) 0x080 0 1
  let h := if slot = 0 then s.cs.hdr0 else s.cs.hdr1
  BitVec.ofNat 64 (at_ (field h 32 32) 32 + at_ (field h 16 16) 16 + at_ slot 15 +
    flagAt (cellBit s keeperPage 0x0C4 31) 14)

/-- The image a channel processor runs: no CP runs the forerunner ROM. -/
def cpImage (w : Word) : Word := w &&& 0xFFFFFFFFFFFFBFFF

def oldPairs (s : State) : List (Fin 48) :=
  all48.filter fun p => (pairAt s p).role = .active && (pairAt s p).image != currentImage s

def oldCps (s : State) : List Nat :=
  (List.range 32).filter fun c => (cpAt s c).role = .active && (cpAt s c).image != cpImage (currentImage s)

/-- CS registers of KD (18). -/
def csReg (s : State) (off : Nat) : Option Nat :=
  match off with
  | 0x048 =>
    let i := cell s (regKey (csPage 6) 0x040)
    some (Tab.read (fun _ => 0) s.cs.words (field i 31 1 * 65536 + field i 0 16)).toNat
  | 0x050 => some (flagAt s.cs.ver0 31 + flagAt s.cs.ver1 30 + flagAt s.cs.busy.isSome 29 + at_ s.cs.res1 8 + s.cs.res0)
  | 0x058 => some (if s.cs.ver0 then s.cs.hdr0.toNat else 0)
  | 0x060 => some (if s.cs.ver1 then s.cs.hdr1.toNat else 0)
  | 0x068 => some (at_ s.fuses.revoked.toNat 8 + s.fuses.svn)
  | 0x088 => some (at_ (min 255 (oldPairs s).length) 8 + min 255 (oldCps s).length)
  | _ => none

/-- RATE and WIDTH of a port's sub-links are held as they train (21 R500); the METER page shows the latest
snapshot (15 R386). -/
def partReg (s : State) (p off : Nat) : Option Nat :=
  match off with
  | 0x0A8 => some (if !partExists s p then 0 else if (partAt s p).resetting then at_ 2 30 else at_ 1 30)
  | _ => none

def meterReg (s : State) (p off : Nat) : Option Nat :=
  if 0x100 ≤ off ∧ off < 0x180 then some (vget (partAt s p).snap 0 ((off - 0x100) / 8)).toNat else none

/-- Valid directory entries of a slice; none in broadcast mode (Table 10-9). -/
def dirValid (s : State) (sl : Nat) : Nat :=
  if dirMode s then (s.dir.filter fun e => homeSlice s e.1 = sl).length else 0

/-- The composed registers of a page's body. -/
def bodyReg (s : State) (p off : Nat) : Option Nat :=
  let d := pageDie p
  let i := pageInst p
  match pageType p with
  | 0x01 => keeperReg s off
  | 0x02 => feedReg s off
  | 0x03 => todReg s off
  | 0x08 => if h : d * 12 + i < 48 then pairReg s ⟨d * 12 + i, h⟩ off else none
  | 0x0A => if off = 0x7C0 then some (dirValid s (d * 24 + i)) else none
  | 0x0B => if off = 0x048 then
      let b := vget s.burin Burin.reset d
      some (flagAt b.busy 31 + at_ (scrWays s d) 24 + (if b.busy then b.cursor % 2048 else 0)) else none
  | 0x10 => mcReg s i off
  | 0x11 => if d = 4 && off = 0x044 then some (memCfg s) else none
  | 0x18 => if 0x600 ≤ off ∧ off < 0x700 then some (pathReg s (i * 64 + (off - 0x600) / 4)) else none
  | 0x20 => if off = 0x048 then some (jrnActive s (d - 4)) else none
  | 0x21 =>
    let c := (d - 4) * 16 + i
    if off = 0x040 then some (at_ (cpAt s c).role.code 29 + cpOps s c)
    else if off = 0x060 then some (cpAt s c).image.toNat else none
  | 0x28 => if off = 0x040 then some (engReg s false ((d - 4) * 4 + i)) else none
  | 0x29 => if off = 0x040 then some (engReg s true ((d - 4) * 4 + i)) else none
  | 0x2A => if off = 0x040 then
      let r := vget s.eng.drbg Drbg.reset (d - 4)
      some (flagAt r.ok 31 + flagAt r.healthFail 30 + s.eng.keys.length) else none
  | 0x30 => partReg s i off
  | 0x31 => meterReg s i off
  | 0x38 => if d = 6 then csReg s off else none
  | 0x3C => if d = 4 && off = 0x050 then
      some (Tab.read (fun _ => 0) s.err.seqs (cell s (regKey (errlogPage 4) 0x040)).toNat).toNat else none
  | _ => none

/-- The header registers that are not plain cells (R56). -/
def headerReg (s : State) (p off : Nat) : Option Nat :=
  match off with
  | 0x000 => some (flagAt (portOnly p) 31 + flagAt ((pageRegs p).any fun r => match r.ty with | .st _ => true | _ => false) 30 +
      at_ (pageDie p) 24 + at_ (pageType p) 16 + at_ (pageInst p) 8)
  | 0x004 => some (at_ (Config.version (pageType p)).toNat 16)
  | 0x008 => some (flagAt (instOn s p && !instFailed s p) 31 + flagAt (instFailed s p) 30 + flagAt (instOn s p) 29 +
      flagAt (s.mode.quiesce && s.mode.quiet.contains p) 28)
  | 0x00C => some (Tab.read (fun _ => 0) s.cmds p).toNat
  | 0x02C => some (draftState s p)
  | _ => none

/-- Which instance of an indexed register a page's index register selects (R369, R370, R430). -/
def regIx (s : State) (p off : Nat) : Nat :=
  match pageType p with
  | 0x11 => if off = 0x108 then (cell s (regKey p 0x100)).toNat % 2048 else 0
  | 0x20 => if 0x108 ≤ off ∧ off < 0x120 then (cell s (regKey p 0x100)).toNat % 262144 else 0
  | 0x3C => if off = 0x048 ∨ off = 0x054 then (cell s (regKey p 0x040)).toNat % 256 else 0
  | _ => 0

/-- The value of a whole register, 32 or 64 bits, at the offset of its element. -/
def regVal (s : State) (p off : Nat) (draft : Bool) : Nat :=
  let k := regKey p off (regIx s p off)
  if draft then (draftVal s k).toNat
  else
    match (headerReg s p off).orElse fun _ => bodyReg s p off with
    | some v => v
    | none => (liveVal s k).toNat

def RegTy.isSt : RegTy → Bool
  | .st _ => true
  | _ => false

/-- Four bytes at an offset of a present page: reserved offsets and the draft view of other types read zero
(R3, R56). -/
def readWord (s : State) (p off : Nat) : Nat :=
  let draft := decide (off ≥ 0x800)
  let lo := if draft then off - 0x800 else off
  match regAt p lo with
  | some (r, e) =>
    if draft && !r.ty.isSt then 0
    else
      let v := regVal s p e draft
      if r.bytes = 8 ∧ lo = e then v / 2 ^ 32 % 2 ^ 32 else v % 2 ^ 32
  | none => 0

/-- What a read of the service space finds. -/
inductive ReadReply where
  | value (v : Word)
  /-- Refused for its size or alignment; counted (Table 3-3). -/
  | refused
  deriving DecidableEq, Repr

/-- A read by a master at a service-space offset (Table 3-3). DESIGN CHOICE (log 100): a read of a wrong size or
alignment is refused before the page is looked at, of an absent page or an unpowered die too. -/
def readService (s : State) (m : Master) (off size : Nat) : ReadReply :=
  let p := off / 4096
  if ¬(size = 4 ∨ size = 8) ∨ off % size ≠ 0 then .refused
  else if !reaches m p then .value 0
  else if !dieOn s (pageDie p) then .value (BitVec.ofNat 64 (2 ^ (8 * size) - 1))
  else if size = 4 then .value (BitVec.ofNat 64 (readWord s p (off % 4096)))
  else .value (BitVec.ofNat 64 (readWord s p (off % 4096) * 2 ^ 32 + readWord s p (off % 4096 + 4)))

/-- A read that reaches IMG_DATA advances IMG_IDX (18). -/
def readEffect (s : State) (m : Master) (off size : Nat) : State :=
  if (off / 4096) = csPage 6 && m != .manager && off % 4096 / 8 = 0x48 / 8 && (size = 4 || size = 8) &&
     off % size = 0 && dieOn s 6 then
    let k := regKey (csPage 6) 0x040
    let v := cell s k
    setCell s k (BitVec.ofNat 64 (at_ (field v 31 1) 31 + (field v 0 16 + 1) % 65536))
  else s

end Sys2Proof.Machine
end

