-- ==== Sys2Proof/Machine/Proof.lean ====
section
/-! DEFINITION. Proof (03 R67-R69): the checks that every chapter makes of the ST registers it defines, and
the first failing one. -/

namespace Sys2Proof.Machine

/-! ### Drafts seen by a check -/

/-- Draft value of a register, by page, offset and index. -/
def dv (s : State) (p off : Nat) (ix : Nat := 0) : Word := draftVal s (regKey p off ix)

def dvField (s : State) (p off lo w : Nat) (ix : Nat := 0) : Nat := field (dv s p off ix) lo w

def dvBit (s : State) (p off i : Nat) (ix : Nat := 0) : Bool := bit (dv s p off ix) i

/-- Live value of the same register. -/
def lv (s : State) (p off : Nat) (ix : Nat := 0) : Word := liveVal s (regKey p off ix)

/-- A failing check, or none: the code of Table 3-6 where `bad`. -/
def failIf (bad : Bool) (code : Nat) : List Nat := if bad then [code] else []

def allParts : List Nat := List.range 128

def isPow2 (n : Nat) : Bool := n != 0 && 2 ^ Nat.log2 n = n

/-! ### Budgets (R40, R41) -/

/-- C of a DRAM channel by MEM_INIT.SPEED (Table 2-4). -/
def dramC (speed : Nat) : Nat := match speed with | 0 => 1840 | 1 => 2070 | _ => 2300

/-- Budgets of activities on a resource: `offs` their ACT registers, `lo` the field, scaled by the page's
CAP where it applies (R40). -/
def effBudgets (rd : Nat → Nat → Word) (die capPage lo : Nat) (offs : List Nat) : List Nat :=
  let bs := offs.map fun o => field (rd (budgetPage die) o) lo 9
  let sum := bs.sum
  let cap := rd capPage 0x024
  if bit cap 31 && decide (sum > field cap 0 9) then bs.map fun b => b * field cap 0 9 / sum else bs

/-- ACT registers that use DRAM, and those that use rings and links (Table 2-5). -/
def dramActs : List Nat := [0x040, 0x044, 0x048, 0x04C]
def ringActs : List Nat := [0x048, 0x04C, 0x050]

def channelsOf (s : State) (die : Nat) : List Nat := (populated s).filter fun c => 4 + c / 8 = die

/-- The drafted budgets on a channel, and whether CAP scales them, so that each depends on every other. -/
def chanBudgets (s : State) (c : Nat) : List Nat × Bool :=
  let die := 4 + c / 8
  let bs := dramActs.map fun o => field (dv s (budgetPage die) o) 0 9
  let cap := dv s (mcPage c) 0x024
  (effBudgets (fun p o => dv s p o) die (mcPage c) 0 dramActs, bit cap 31 && decide (bs.sum > field cap 0 9))

/-- Sweep cannot pass a channel in 24 h. -/
def sweepShort (s : State) (c : Nat) : Bool :=
  decide ((chanBudgets s c).1.getD 0 0 * dramC (dvField s mapPage 0x040 30 2) / 1024 * 8640000000 <
    qGib s * (gib / 256))

/-- The checks on a channel that involve a register: an ACT register by its offset, or the channel's own BUDGET (024h). An
ACT register bears on another activity's budget only where CAP scales them. -/
def chanChecks (s : State) (c off : Nat) : List Nat :=
  let (bs, scaled) := chanBudgets s c
  failIf (decide (bs.sum > 256)) 0x20 ++
  failIf ((off = 0x044 || off = 0x024 || scaled) && decide (bs.getD 1 0 < 2)) 0x22 ++
  failIf ((off = 0x040 || off = 0x024 || scaled) && sweepShort s c) 0x23

/-- The sums on the ring and the link directions of a die. -/
def ringChecksOf (s : State) (die : Nat) : List Nat :=
  let rd := fun p o => dv s p o
  failIf (decide (die < 4 ∧ (effBudgets rd die (budgetPage die) 9 ringActs).sum > 256)) 0x20 ++
  failIf (decide (die < 6 ∧ (effBudgets rd die (budgetPage die) 18 ringActs).sum > 256)) 0x20

/-- The budget checks that involve a register of a BUDGET or MC page (R41, R68). -/
def budgetChecks (s : State) (p off : Nat) : List Nat :=
  let die := pageDie p
  if off = 0x024 then
    if pageType p = 0x10 then (if (populated s).contains (pageInst p) then chanChecks s (pageInst p) off else [])
    else ringChecksOf s die
  else
    (if dramActs.contains off then (channelsOf s die).flatMap fun c => chanChecks s c off else []) ++
    (if ringActs.contains off then ringChecksOf s die else [])

/-! ### Partitions (R366, R370, R374) -/

/-- The number of partitions that draft bit `i` of a register. -/
def drafters (s : State) (off i : Nat) : Nat := (allParts.filter fun p => dvBit s (partPage p) off i).length

/-- A bit of a PART register is assigned twice. -/
def twice (s : State) (p off n : Nat) : Bool :=
  (List.range n).any fun i => dvBit s (partPage p) off i && decide (drafters s off i > 1)

/-- A bit leaves a partition without having been released: `kind` and its index of Table 15-3. -/
def unreleased (s : State) (p off n kind base : Nat) : Bool :=
  (List.range n).any fun i => bit (lv s (partPage p) off) i && !dvBit s (partPage p) off i &&
    !isReleased s kind (base + i)

/-- A partition's key slots by a reading of KEYS: base and count. -/
def keyRange (v : Word) : Nat × Nat := (field v 0 13, field v 16 14)

def rangesMeet (a b : Nat × Nat) : Bool :=
  decide (a.1 < b.1 + b.2 ∧ b.1 < a.1 + a.2 ∧ a.2 ≠ 0 ∧ b.2 ≠ 0)

/-- A partition's drafted scratch on a die: base and length in MiB. -/
def scrDraft (s : State) (p d : Nat) : Nat × Nat :=
  (dvField s (partPage p) (0x070 + 4 * d) 0 7, dvField s (partPage p) (0x070 + 4 * d) 8 7)

/-- Owner-array entry as drafted. -/
def ownDraft (s : State) (e : Nat) : Nat := field (dv s mapPage 0x108 (e / 8)) (8 * (7 - e % 8)) 8

/-- A partition with its EN drafted clear still holds something (R374). -/
def stillHolds (s : State) (p : Nat) : Bool :=
  let pg := partPage p
  dv s pg 0x048 != 0 || dvField s pg 0x050 0 8 != 0 || dv s pg 0x058 != 0 || dv s pg 0x060 != 0 ||
  dvField s pg 0x068 16 14 != 0 || ((List.range 4).any fun d => (scrDraft s p d).2 != 0) ||
  ((List.range 1536).any fun g =>
    ((Tab.look s.regs (regKey mapPage 0x108 g)).isSome || (Tab.look s.drafts (regKey mapPage 0x108 g)).isSome) &&
    ((List.range 8).any fun i => ownDraft s (8 * g + i) = p)) ||
  ((List.range 4).any fun port => (List.range 48).any fun n =>
    dvBit s (pciePage port) (0x700 + 4 * n) 31 && dvField s (pciePage port) (0x700 + 4 * n) 23 8 = p)

def partChecks (s : State) (p off : Nat) : List Nat :=
  let pg := partPage p
  match off with
  | 0x040 => failIf (bit (lv s pg 0x040) 31 && !dvBit s pg 0x040 31 && stillHolds s p) 0x31
  | 0x044 => failIf (decide (dvField s pg 0x044 0 18 > 131072)) 0x10
  | 0x048 => failIf (twice s p 0x048 64) 0x30 ++
      failIf ((List.range 64).any fun i => decide (i ≥ lpCount s) && dvBit s pg 0x048 i) 0x31
  | 0x050 => failIf (twice s p 0x050 8 || unreleased s p 0x050 8 1 0) 0x30
  | 0x058 => failIf (twice s p 0x058 64 || unreleased s p 0x058 64 2 0) 0x30
  | 0x060 => failIf (twice s p 0x060 64 || unreleased s p 0x060 64 2 64) 0x30
  | 0x068 =>
    let r := keyRange (dv s pg 0x068)
    let old := keyRange (lv s pg 0x068)
    failIf (decide (r.2 > 8192)) 0x10 ++
    failIf ((allParts.any fun q => q != p && rangesMeet r (keyRange (dv s (partPage q) 0x068))) ||
      (old.2 != 0 && old != r && !isReleased s 3 p)) 0x30 ++
    failIf (decide (r.1 + r.2 > 8192)) 0x32
  | 0x080 => failIf (!zoneTableIn s (dv s pg 0x080)) 0x31
  | _ =>
    if 0x070 ≤ off ∧ off < 0x080 then
      let d := (off - 0x070) / 4
      let r := scrDraft s p d
      failIf (decide (r.2 > 96)) 0x10 ++
      failIf (allParts.any fun q => q != p && rangesMeet r (scrDraft s q d)) 0x30 ++
      failIf (decide (r.2 ≠ 0 ∧ r.1 + r.2 > 12 * dvField s (burinPage d) 0x040 0 4)) 0x32
    else []

/-! ### Memory and the owner array (R369, R396, R410) -/

/-- The first granule of a channel's reserved window. -/
def windowOf (s : State) (ch : Nat) : Option Nat :=
  let r := dvField s mapPage 0x040 0 9
  let n := (populated s).length
  match (populated s).findIdx? (· = ch) with
  | some i => some (n * (qGib s - r) + i * r)
  | none => none

/-- A drafted region that does not lie in the reserved window of its channel. -/
def outsideWindow (s : State) (n : Nat) : Bool :=
  let (en, ch, b, sz) := forOf (dv s mapPage (0x060 + 8 * n))
  en && (match windowOf s ch with
    | some w => !decide (w ≤ b ∧ b + sz ≤ w + dvField s mapPage 0x040 0 9)
    | none => false)

def forChecks (s : State) (n : Nat) : List Nat :=
  let v := dv s mapPage (0x060 + 8 * n)
  let (en, ch, b, sz) := forOf v
  let (oe, _, ob, osz) := forOf (lv s mapPage (0x060 + 8 * n))
  failIf (field v 61 2 = 3 || (en && decide (sz = 0 ∨ sz > 512))) 0x10 ++
  failIf ((en && ((List.range 4).any fun m => m != n &&
      (let (e', _, b', s') := forOf (dv s mapPage (0x060 + 8 * m)); e' && rangesMeet (b, sz) (b', s')))) ||
    (en && ((List.range sz).any fun i => ownDraft s (b + i) != 0xFF)) ||
    (oe && ((List.range osz).any fun i => ownerEntry s (ob + i) != 0xFF))) 0x30 ++
  failIf (en && !(populated s).contains ch) 0x31 ++
  failIf (outsideWindow s n) 0x32

/-- The checks of one group of the owner array. -/
def ownChecks (s : State) (g : Nat) : List Nat :=
  let es := (List.range 8).map fun i => (8 * g + i, ownDraft s (8 * g + i), ownerEntry s (8 * g + i))
  let shared := fun e => e = 9215 || e = 10239 || e = 11263
  failIf (es.any fun (e : Nat × Nat × Nat) =>
    if shared e.1 then e.2.1 != 0xFE else !(decide (e.2.1 ≤ 0x80) || e.2.1 = 0xFF)) 0x10 ++
  failIf (es.any fun (e : Nat × Nat × Nat) =>
    (e.2.1 != e.2.2 && decide (e.2.2 < 128) &&
      !(if e.1 < 8192 then isReleased s 5 e.1 else isReleased s 6 (e.1 - 8192))) ||
    (e.2.1 != 0xFF && decide (e.1 < 8192) && ((List.range 4).any fun n =>
      let (en, _, b, sz) := forOf (dv s mapPage (0x060 + 8 * n)); en && decide (b ≤ e.1 ∧ e.1 < b + sz)))) 0x30 ++
  failIf (es.any fun (e : Nat × Nat × Nat) =>
    decide (e.1 < 8192 ∧ e.1 ≥ installedGib s) && e.2.1 != 0xFF) 0x31

/-- Routes to packages absent from PRESENT, or through links that training has found down. Before any link has
trained there is no result to check against (log 27). -/
def routeChecks (s : State) : List Nat :=
  let r := dv s mapPage 0x0C8
  let me := dvField s mapPage 0x0C0 24 2
  let present := dvField s mapPage 0x0C0 16 4
  let trained := s.links.toList.any (·.trained)
  let bad := fun (l : Nat) => trained && !(vget s.links Link.reset l).trained
  failIf ((List.range 4).any fun p => p != me && bit r (8 * p + 7) &&
    (!present.testBit p || bad (field r (8 * p + 5) 2) ||
      (bit r (8 * p + 4) && (bad (field r (8 * p + 2) 2) || !present.testBit (field r (8 * p) 2))))) 0x31

def mapChecks (s : State) (off ix : Nat) : List Nat :=
  match off with
  | 0x040 =>
    let v := dv s mapPage 0x040
    let rated := (populated s).filterMap fun c => (vget s.mcs Mc.reset c).spd.map (·.rated)
    let need := match field v 30 2 with | 0 => 6400 | 1 => 7200 | _ => 8000
    failIf (field v 30 2 = 3) 0x10 ++
    failIf ((rated.any fun x => decide (x < need)) ||
      (!(populated s).isEmpty && decide (field v 0 9 > qGib s)) ||
      ((List.range 4).any fun n => outsideWindow s n)) 0x32 ++
    failIf ((populated s).any fun c => sweepShort s c) 0x23
  | 0x0C0 => failIf (!(dvField s mapPage 0x0C0 16 4).testBit (dvField s mapPage 0x0C0 24 2)) 0x10 ++ routeChecks s
  | 0x0C4 => failIf (decide (dvField s mapPage 0x0C4 0 5 < 1 ∨ dvField s mapPage 0x0C4 0 5 > 16)) 0x10
  | 0x0C8 => routeChecks s
  | 0x108 => ownChecks s ix
  | _ => if 0x060 ≤ off ∧ off < 0x080 then forChecks s ((off - 0x060) / 8) else []

/-! ### Ports, subchannels (R316, R370, R371) -/

/-- Requester IDs bound on a port, with what binds them: paths then open functions. -/
def ridsOf (s : State) (port : Nat) : List Nat :=
  ((List.range 64).filterMap fun k =>
    let v := dv s (pciePage port) (0x200 + 16 * k); if bit v 63 then some (field v 32 16) else none) ++
  ((List.range 48).filterMap fun n =>
    let v := dv s (pciePage port) (0x700 + 4 * n); if bit v 31 then some (field v 0 16) else none)

def bound2 (s : State) (port rid : Nat) : Bool := decide (((ridsOf s port).filter (· = rid)).length > 1)

/-- A requester ID that the port's hierarchy, once known, does not hold (log 27). -/
def ridAbsent (s : State) (port rid : Nat) : Bool :=
  let known := s.funcs.filter fun e => e.1 / 65536 = port && e.2.up
  !known.isEmpty && !known.any fun e => e.1 % 65536 = rid

def pcieChecks (s : State) (port off : Nat) : List Nat :=
  let pg := pciePage port
  if off = 0x040 then failIf (dvField s pg 0x040 30 2 = 3 || dvField s pg 0x040 26 3 = 7) 0x10
  else if off = 0x100 then
    let a := dvField s pg 0x100 20 32 * 2 ^ 20
    failIf ((decide (pkgOff a ≥ installedGib s * gib) || !(dvField s mapPage 0x0C0 16 4).testBit (a / 2 ^ 50)) &&
      (dvBit s pg 0x100 0 || decide (a ≠ 0))) 0x31
  else if 0x200 ≤ off ∧ off < 0x600 ∧ off % 16 = 0 then
    let v := dv s pg off
    failIf (decide (field v 60 3 > 3)) 0x10 ++
    failIf (bit v 63 && bound2 s port (field v 32 16)) 0x30 ++
    failIf (bit v 63 && ridAbsent s port (field v 32 16)) 0x31
  else if 0x208 ≤ off ∧ off < 0x608 ∧ off % 16 = 8 then
    let cfg := dv s pg (off - 8)
    let f := funcAt s port (BitVec.ofNat 16 (field cfg 32 16))
    let a := field (dv s pg off) 6 58 * 64
    failIf (bit cfg 63 && f.up && !f.bars.any fun b => decide (b.1 ≤ a ∧ a + 64 ≤ b.1 + b.2)) 0x31
  else if 0x700 ≤ off ∧ off < 0x7C0 then
    let v := dv s pg off
    let o := lv s pg off
    failIf (decide (field v 23 8 > 0x80)) 0x10 ++
    failIf ((bit v 31 && bound2 s port (field v 0 16)) ||
      (bit o 31 && decide (field o 23 8 < 128) &&
        (!bit v 31 || field v 23 8 != field o 23 8 || field v 0 16 != field o 0 16) &&
        !isReleased s 4 (port * 64 + (off - 0x700) / 4))) 0x30
  else []

def schChecks (s : State) (off ix : Nat) : List Nat :=
  let pg := cssPage 0
  let pim := dvField s pg 0x118 0 8 ix
  let paths := dv s pg 0x108 ix
  let x := schAt s ix
  let busy := decide (x.func ≠ .none) || x.status.isSome
  let pathno := fun k => field paths (8 * (7 - k)) 8
  match off with
  | 0x040 => failIf (decide (dvField s pg 0x040 0 12 > 3600)) 0x10
  | 0x11C => []
  | _ =>
    (if off = 0x110 then [] else
      failIf ((List.range 8).any fun k => !maskHas pim k && pathno k != 0xFF) 0x10) ++
    failIf (busy && dv s pg off ix != lv s pg off ix) 0x30 ++
    (if off = 0x110 then [] else
      failIf ((List.range 8).any fun k => maskHas pim k &&
        (let q := pathno k
         !bit (lv s (pciePage (q / 64)) (0x200 + 16 * (q % 64))) 63 &&
         !dvBit s (pciePage (q / 64)) (0x200 + 16 * (q % 64)) 63)) 0x31)

/-! ### Rings -/

/-- A ring's base and size: the size a power of two in its range, the base aligned to it, in installed DRAM. -/
def ringChecks (s : State) (p lo hi : Nat) : List Nat :=
  let sz := (dv s p 0x050).toNat
  let base := (dv s p 0x048).toNat
  failIf (decide (base ≥ 2 ^ 52) || !(regionOf s base = .dram)) 0x31 ++
  failIf (!(isPow2 sz && decide (lo ≤ sz ∧ sz ≤ hi)) || decide (base % sz ≠ 0)) 0x32

/-! ### The registers of a page -/

/-- Checks of a dirty register against its encoding, the other registers and the facts: the codes that fail. -/
def checkReg (s : State) (k : Nat) : List Nat :=
  let p := keyPage k
  let off := keyOff k
  let ix := keyIdx k
  let d := pageDie p
  let i := pageInst p
  failIf (keyClass k = .init && s.mode.mode != .init) 0x11 ++
  (if off = 0x024 then
    failIf (decide (dvField s p 0x024 0 9 > 256)) 0x21 ++ budgetChecks s p off
  else match pageType p with
  | 0x01 => if off = 0x0C0 then failIf (decide (dvField s p 0x0C0 0 9 < 1 ∨ dvField s p 0x0C0 0 9 > 366)) 0x10 else []
  | 0x04 =>
    let v := dv s p off
    failIf (decide (field v 0 9 > 256 ∨ field v 9 9 > 256 ∨ field v 18 9 > 256)) 0x21 ++ budgetChecks s p off
  | 0x09 => failIf (decide (dvField s p 0x040 8 5 > 16 ∨ dvField s p 0x040 0 3 > 4)) 0x10
  | 0x0B =>
    let w := dvField s p 0x040 0 4
    failIf (decide (w > 8)) 0x10 ++
    failIf (allParts.any fun q => decide ((scrDraft s q d).2 ≠ 0 ∧ (scrDraft s q d).1 + (scrDraft s q d).2 > 12 * w)) 0x32
  | 0x10 => if off = 0x040 then failIf (dvField s p 0x040 30 2 = 3) 0x10 else []
  | 0x11 => mapChecks s off ix
  | 0x18 => pcieChecks s i off
  | 0x20 => if d = 4 then schChecks s off ix else failIf (decide (dvField s p 0x040 0 12 > 3600)) 0x10
  | 0x30 => partChecks s i off
  | 0x31 =>
    (if off = 0x040 then failIf (decide (dvField s p 0x040 0 3 > 4)) 0x10 else []) ++
    (if off ≠ 0x040 ∨ dvBit s p 0x040 31 then ringChecks s p 4096 16777216 else [])
  | 0x38 =>
    if off = 0x080 then
      let slot := dvField s p 0x080 0 1
      let h := fun (n : Nat) => if n = 0 then s.cs.hdr0 else s.cs.hdr1
      failIf (s.mode.mode != .init && field (h slot) 0 16 != field (h (cellField s p 0x080 0 1)) 0 16) 0x11 ++
      failIf (!(if slot = 0 then s.cs.ver0 else s.cs.ver1)) 0x31
    else failIf (dvField s p 0x084 0 16 = 0) 0x10
  | 0x3C =>
    let v := dv s p 0x048 ix
    let base := field v 12 40 * 4096
    let size := 64 * 2 ^ (field v 0 4 + 6)
    failIf (decide (field v 0 4 > 10)) 0x10 ++
    failIf (bit v 63 && ((List.range (size / gib + 1)).any fun n =>
      granuleCtx s (base + n * gib) != some ix && !(base + n * gib = base + size))) 0x31 ++
    failIf (bit v 63 && decide (base % size ≠ 0)) 0x32
  | 0x3D =>
    (if off = 0x040 then failIf (dvField s p 0x040 0 16 = 0) 0x10 else []) ++
    (if off ≠ 0x040 ∨ dvBit s p 0x040 31 then ringChecks s p 65536 1073741824 else [])
  | _ => [])

/-- Place of a code in the order of R68: INIT_ONLY, RANGE, then ascending. -/
def codeRank (c : Nat) : Nat := if c = 0x11 then 0 else if c = 0x10 then 1 else c

/-- The one code a register reports. -/
def firstCode (l : List Nat) : Option Nat :=
  l.foldl (fun b c => match b with
    | some x => if codeRank c < codeRank x then some c else some x
    | none => some c) none

/-- Place of a register in the order of R68: page, offset, then the instance its index register selects. -/
def regRank (k : Nat) : Nat := k % 2147483648 * 1048576 + keyIdx k

/-- The first failing check: the register and the code. -/
def proofFinds (s : State) : Option (Nat × Nat) :=
  s.drafts.foldl (fun b e =>
    match firstCode (checkReg s e.1), b with
    | some c, some x => if regRank e.1 < regRank x.1 then some (e.1, c) else some x
    | some c, none => some (e.1, c)
    | none, b => b) none

/-- The index register is left at the instance that failed (R369, R370, R430). -/
def leaveIndex (s : State) (k : Nat) : State :=
  let p := keyPage k
  if (p = mapPage && keyOff k = 0x108) || (p = cssPage 0 && decide (0x108 ≤ keyOff k ∧ keyOff k < 0x120)) then
    setCell s (regKey p 0x100) (BitVec.ofNat 64 (keyIdx k))
  else if p = errlogPage 4 && keyOff k = 0x048 then setCell s (regKey p 0x040) (BitVec.ofNat 64 (keyIdx k))
  else s

end Sys2Proof.Machine
end

