-- ==== Sys2Proof/Machine/Strike.lean ====
section
/-! DEFINITION. The Pen, Proof and Strike (03 R63-R75), and what a Strike changes beyond the registers
themselves. -/

namespace Sys2Proof.Machine

/-! ### Strikes -/

/-- Offset of a KEEPER register in the service space. -/
def keeperOff (off : Nat) : Nat := keeperPage * 4096 + off

/-- Event 2043h, with the outcome in STRIKE_RESULT. -/
def strikeEnds (s : State) (st : StrikeState) (reason : Nat) : State :=
  logEvent { s with strike := { s.strike with
    st := st, reason := reason, tick := BitVec.ofNat 32 s.time.transit.toNat, waitAcks := [] } }
    { page := keeperPage, code := 0x2043 }

/-- An ordered Strike that is not committed is cancelled (R72). -/
def cancelStrike (s : State) (reason : Nat) : State :=
  if s.strike.st = .armed then strikeEnds s .cancelled reason else s

/-- A Strike is ordered and has not applied. -/
def strikeOrdered (s : State) : Bool := s.strike.st = .armed || s.strike.st = .committed

/-- The class a Strike takes: that of the highest dirty register, and tick-strike in Initialisation (R61, R75). -/
def strikeClass (s : State) : StrikeClass :=
  if s.mode.mode = .init then .tick
  else if s.drafts.any fun e => keyClass e.1 = .init then .init
  else if s.drafts.any fun e => keyClass e.1 = .quiesce then .quiesce
  else .tick

/-- E for a command accepted at a cycle of the current tick (R71). -/
def earliest (s : State) (cycle : Nat) : Nat :=
  s.time.transit.toNat + (if cycle < 18000 then 1 else 2) + (if strikeClass s = .quiesce then 10 else 0)

/-- Modes in which a Strike is accepted (R72). -/
def strikeMode (s : State) : Bool := s.mode.mode = .init || running s

/-- An init-only register is dirty. -/
def initDirty (s : State) : Bool := s.drafts.any fun e => keyClass e.1 = .init

/-- Why a Strike toward a target is refused; 0 for no reason. The first that holds in the order of R72 is
recorded: DESIGN CHOICE (log 28). -/
def refusal (s : State) (cycle target : Nat) : Nat :=
  if s.proof.code ≠ 1 then 1
  else if target < earliest s cycle then 2
  else if target > s.time.transit.toNat + 100000 then 3
  else if !s.time.deviating.isEmpty then 4
  else if !strikeMode s || (initDirty s && s.mode.mode != .init) then 0x0A
  else 0

/-- Dies that hold a dirty page (R73). -/
def dirtyDies (s : State) : List Nat :=
  (List.range 7).filter fun d => s.drafts.any fun e => pageDie (keyPage e.1) = d

/-- A Strike order by a master (R71-R73). -/
def orderStrike (s : State) (m : Master) (cycle target : Nat) : State :=
  if s.pen.holder ≠ some m ∨ strikeOrdered s then discard s m (keeperOff 0x058) true
  else
    let r := refusal s cycle target
    if r ≠ 0 then strikeEnds s .refused r
    else { s with strike := { st := .armed, reason := 0, tick := BitVec.ofNat 32 target,
                              target := BitVec.ofNat 64 target, cls := strikeClass s, waitAcks := dirtyDies s, vals := [] } }

/-- OP = 11b (R71). -/
def cancelOrder (s : State) (m : Master) : State :=
  if s.pen.holder = some m ∧ s.strike.st = .armed then cancelStrike s 7
  else discard s m (keeperOff 0x058) true

/-- A command to the KEEPER page, which is discarded and counted where the page takes no write (R54). -/
def atKeeper (s : State) (m : Master) (off : Nat) (t : State) : State :=
  if writable s m keeperPage then t else discard s m (keeperOff off) true

/-! ### The Pen -/

/-- What every release does: drafts discarded, a Proof abandoned, an uncommitted Strike cancelled (R66). -/
def releasePen (s : State) (reason : Nat := 8) : State :=
  cancelStrike { s with
    drafts := [], proof := { s.proof with code := 0, busy := false, proofed := false },
    pen := { s.pen with holder := none, lease := 0 } } reason

def grantPen (s : State) (m : Master) : State :=
  { s with pen := { holder := some m, grantSeq := s.pen.grantSeq + 1, lease := 1000,
                    history := m :: s.pen.history.filter (· ≠ m) } }

/-- Event 2042h goes to both ports and to the manager whatever ERR_ROUTE says (R66). -/
def penEvent (s : State) (former : Nat) (brk : Bool) : State :=
  logEvent s { page := keeperPage, code := 0x2042, sub := former + (if brk then 256 else 0), route := 0xE }

/-- A write to PEN that is not contended (R63): the code written and BREAK. -/
def writePen (s : State) (m : Master) (code : Nat) (brk : Bool) : State :=
  match s.pen.holder with
  | none => if code = m.code then grantPen s m else discard s m (keeperOff 0x040) true
  | some h =>
    if h = m then
      if code = 0 then releasePen s
      else if code = m.code then s
      else discard s m (keeperOff 0x040) true
    else if code = m.code && brk && m != .manager then grantPen (penEvent (releasePen s) h.code true) m
    else discard s m (keeperOff 0x040) true

/-- Place of a master in the choice of R64: a master that has held the Pen later ranks later; one that never
has ranks first, Port A before Port B before the manager. -/
def contendRank (s : State) (m : Master) : Nat :=
  match s.pen.history.findIdx? (· = m) with
  | some i => 10 + (s.pen.history.length - i)
  | none => m.code

/-- The contender a free Pen goes to (R64). -/
def contendWinner (s : State) (l : List Master) : Option Master :=
  l.foldl (fun b m => match b with
    | some x => if contendRank s m < contendRank s x then some m else some x
    | none => some m) none

/-- PEN_TAKE: writes of own codes in one Keeper cycle. -/
def execPenTake (contenders : List Master) (s : State) : Host.Outcome State Fault Refusal :=
  .next <|
    if contenders.any fun m => !writable s m keeperPage then
      contenders.foldl (fun s m => discard s m (keeperOff 0x040) true) s
    else match s.pen.holder, contendWinner s contenders with
    | none, some w => grantPen s w
    | none, none => s
    | some _, _ => contenders.foldl (fun s m => writePen s m m.code false) s

def execPenRelease (m : Master) (s : State) : Host.Outcome State Fault Refusal :=
  .next (atKeeper s m 0x040 (writePen s m 0 false))

def execPenBreak (m : Master) (s : State) : Host.Outcome State Fault Refusal :=
  .next (atKeeper s m 0x040 (writePen s m m.code true))

/-- A write to PEN_RENEW (R65, R77). -/
def renewPen (s : State) (m : Master) : State :=
  if s.pen.holder = some m then { s with pen := { s.pen with lease := 1000 } }
  else discard s m (keeperOff 0x048) true

def execPenRenew (m : Master) (s : State) : Host.Outcome State Fault Refusal :=
  .next (atKeeper s m 0x048 (renewPen s m))

/-- LEASE_EXPIRY: a lease that has run out releases the Pen (R65, R66). -/
def execLeaseExpiry (s : State) : Host.Outcome State Fault Refusal :=
  .next <|
    match s.pen.holder with
    | some h => if s.pen.lease = 0 then penEvent (releasePen s) h.code false else s
    | none => s

/-! ### Proof and drafts -/

/-- A write to PROOF_CMD (R67). DESIGN CHOICE (log 97): until the result is posted PROOF_RESULT keeps the code, page and
offset it had, so a Strike ordered during a repeated Proof after a PASS is not refused for want of a PASS. -/
def writeProofCmd (s : State) (m : Master) (go : Bool) : State :=
  if s.pen.holder ≠ some m ∨ s.proof.busy then discard s m (keeperOff 0x04C) true
  else if go then { s with proof := { s.proof with busy := true } }
  else s

def execProofStart (m : Master) (s : State) : Host.Outcome State Fault Refusal :=
  .next (atKeeper s m 0x04C (writeProofCmd s m true))

/-- PROOF_COMPLETE (R68, R69). -/
def execProofComplete (s : State) : Host.Outcome State Fault Refusal :=
  .next <|
    if !s.proof.busy then s
    else
      match proofFinds s with
      | none => { s with proof := { code := 1, busy := false, page := 0, off := 0, proofed := true,
                                    inInit := s.mode.mode = .init } }
      | some (k, c) =>
        leaveIndex { s with proof := { code := c, busy := false, page := keyPage k, off := keyOff k,
                                       proofed := false, inInit := s.mode.mode = .init } } k

/-- A draft value written by the Pen holder; every change returns proofed pages to dirty, zeroes the result and
cancels an uncommitted Strike (R60, R70). -/
def putDraft (s : State) (k : Nat) (v : Word) : State :=
  if draftVal s k = v then s
  else
    let s := { s with drafts := if liveVal s k = v then Tab.del s.drafts k else Tab.put s.drafts k v,
                      proof := { s.proof with code := 0, proofed := false } }
    cancelStrike s 9

/-- Whether a draft write by a master is performed (R59, R67, R70). -/
def draftOpen (s : State) (m : Master) : Bool :=
  s.pen.holder = some m && !s.proof.busy && s.strike.st != .committed && s.mode.mode != .checkstop

/-! ### What a Strike changes beyond the registers -/

/-- Everything held of a range of addresses is discarded without writeback, and reads as zero (R228). -/
def dropRange (s : State) (a n : Nat) : State :=
  let inR := fun (k : Nat) => decide (a ≤ k ∧ k < a + n)
  let inL := fun (l : Nat) => decide (a ≤ l * 256 ∧ l * 256 < a + n)
  { s with
    mem := s.mem.filter fun e => !inR e.1,
    dirty := s.dirty.filter fun e => !inR e.1,
    poison := s.poison.filter fun l => !inL l,
    dir := s.dir.filter fun e => !inL e.1,
    l3 := s.l3.filter fun e => !inL (e.1 % 2 ^ 44),
    pairs := s.pairs.map fun p => { p with
      l1i := p.l1i.filter fun e => !inL e.1, l1d := p.l1d.filter fun e => !inL e.1, l2 := p.l2.filter fun e => !inL e.1 },
    lps := s.lps.map fun x => match x.reservation with
      | some l => if inL l then { x with reservation := none, resHold := false } else x
      | none => x }

/-- Physical address of a byte of a die's scratch. -/
def scrAddr (s : State) (d off : Nat) : Nat := pkgId s * 2 ^ 50 + 0x100000000000 + d * 0x40000000 + off

/-- WAYS of a die changes (R228): lines leave the ways taken, and scratch given back is discarded. -/
def waysStruck (s : State) (d old new : Nat) : State :=
  let s := { s with l3 := s.l3.filter fun e => !(e.1 / 2 ^ 44 = d && decide (e.2.way ≥ 16 - new)) }
  if new < old then dropRange s (scrAddr s d (new * 12582912)) ((old - new) * 12582912) else s

/-- A partition's scratch range moves: what lay outside the new one is discarded (R374). -/
def scrStruck (s : State) (d : Nat) (old new : Nat × Nat) : State :=
  (List.range old.2).foldl (fun s i =>
    let m := old.1 + i
    if new.1 ≤ m ∧ m < new.1 + new.2 then s else dropRange s (scrAddr s d (m * 2 ^ 20)) (2 ^ 20)) s

/-- Zone and translation entries of a partition go (R199), and its next meter record says so. -/
def ownershipStruck (s : State) (p : Nat) : State :=
  if p < mgrCtx then
    updPart (tlbiAll s .part 0 0 p) p fun x => { x with flags := x.flags ||| 2 }
  else s

def assignmentStruck (s : State) (p : Nat) : State :=
  if p < mgrCtx then updPart s p fun x => { x with flags := x.flags ||| 2 } else s

/-- A partition is created (R374, R416, R459): counters zero, its ring's sequence cleared, resetting. -/
def createPart (s : State) (p : Nat) : State :=
  let s := updPart s p fun _ => { PartSt.reset with exists_ := true, resetting := true, flags := 4 }
  { s with err := { s.err with seqs := Tab.del s.err.seqs p } }

/-- Granules of a fixed-order region hold permuted lines (R397). -/
def scramble (s : State) (b n : Nat) : State :=
  let e := s.freeCtr
  (List.range n).foldl (fun s i =>
    { s with scrambled := Tab.put s.scrambled (pkgId s * 2 ^ 20 + b + i) e }) (taken s)

/-- A path's definition changes: it is brought up anew, or is defined no longer (R333). -/
def pathStruck (s : State) (p : Nat) (en : Bool) : State :=
  let s := (s.chan.ops.filter fun e => e.2.path = p).foldl (fun s (e : Nat × Op) =>
    movePath s e.1 ((opAt s e.1).getD e.2)) (updPath s p fun _ => { pathDefault with st := .failed })
  updPath s p fun _ => { pathDefault with st := if en then .init else .none }

/-- The loop takes the source that TOD_CTL.SRC selects (R22). -/
def setSource (s : State) (src : BitVec 2) : State :=
  { s with time := { s.time with
      src := src, active := src, within := 0, slew := 0, freqBad := false, label := none, lostLock := false,
      loop := if src = 0 then .free else .acquiring } }

/-- Addresses of two packages exchange their numbers, where a package takes another number. -/
def swapPkg (a b k : Nat) : Nat :=
  if k / 2 ^ 50 = a then b * 2 ^ 50 + k % 2 ^ 50 else if k / 2 ^ 50 = b then a * 2 ^ 50 + k % 2 ^ 50 else k

/-- What the package's storage holds keeps its place when PKG_ID changes: physical addresses name the package. -/
def rekeyPkg (s : State) (a b : Nat) : State :=
  if a = b then s
  else
    { s with
      mem := s.mem.foldl (fun (t : Memory) e => Tab.write memDefault t (swapPkg a b e.1) e.2) [],
      poison := s.poison.map fun l => swapPkg a b (l * 256) / 256,
      scrambled := s.scrambled.foldl (fun t (e : Nat × Nat) => Tab.put t (swapPkg a b (e.1 * 2 ^ 30) / 2 ^ 30) e.2) [] }

/-- The effect of one struck register, by its old and its new value. DESIGN CHOICE (log 98): ALM_WP and a meter's write
pointer are kept when the ring's base or size is struck, even where they lie beyond the new size. -/
def struck (s : State) (k : Nat) (old new : Word) : State :=
  let p := keyPage k
  let off := keyOff k
  let i := pageInst p
  match pageType p with
  | 0x03 => if off = 0x060 && field old 30 2 != field new 30 2 then setSource s (BitVec.ofNat 2 (field new 30 2)) else s
  | 0x0B => waysStruck s (pageDie p) (field old 0 4) (field new 0 4)
  | 0x11 =>
    let s := if s.mode.mode = .init && (s.mode.held || s.mode.warm) &&
        (off = 0x040 || off = 0x048 || (0x060 ≤ off && off < 0x080))
      then { s with mode := { s.mode with clear := some 0 } } else s
    if off = 0x0C0 then rekeyPkg s (field old 24 2) (field new 24 2)
    else if off = 0x108 then
      (List.range 8).foldl (fun s j =>
        let o := field old (8 * (7 - j)) 8
        let n := field new (8 * (7 - j)) 8
        if o = n then s else ownershipStruck (ownershipStruck s o) n) s
    else if 0x060 ≤ off ∧ off < 0x080 then
      let (oe, _, ob, os) := forOf old
      let (ne, _, nb, ns) := forOf new
      let s := if oe then scramble s ob os else s
      if ne then scramble s nb ns else s
    else s
  | 0x18 =>
    if off = 0x100 then { s with ioCache := s.ioCache.filter fun e => e.port != i }
    else if off = 0x040 then
      if bit new 29 then { s with funcs := s.funcs.filter fun e => e.1 / 65536 != i } else s
    else if 0x200 ≤ off ∧ off < 0x600 ∧ off % 16 = 0 then
      if bit old 63 != bit new 63 || (bit new 63 && field old 32 16 != field new 32 16)
      then pathStruck s (i * 64 + (off - 0x200) / 16) (bit new 63) else s
    else if 0x700 ≤ off ∧ off < 0x7C0 then
      let s := { s with ioCache := s.ioCache.filter fun e =>
        !(e.port = i && (e.rid = field old 0 16 || e.rid = field new 0 16)) }
      let s := if bit old 31 then assignmentStruck s (ctxOfCode (field old 23 8)) else s
      if bit new 31 then assignmentStruck s (ctxOfCode (field new 23 8)) else s
    else s
  | 0x20 =>
    if off = 0x110 && bit new 63 && old != new then updSch s (keyIdx k) fun x => { x with started := 0, bytes := 0, lastSlot := none } else s
  | 0x30 =>
    if off = 0x040 then
      if bit new 31 && !bit old 31 then createPart s i
      else if bit old 31 && !bit new 31 then updPart s i fun _ => PartSt.reset else s
    else if 0x070 ≤ off ∧ off < 0x080 then
      ownershipStruck (scrStruck s ((off - 0x070) / 4) (field old 0 7, field old 8 7) (field new 0 7, field new 8 7)) i
    else if off = 0x058 ∨ off = 0x060 then ownershipStruck s i
    else if off = 0x044 ∨ off = 0x080 then s
    else assignmentStruck s i
  | _ => s

/-- What a released instance belongs to (Table 15-3). -/
def holderOf (s : State) (kind ix : Nat) : Nat :=
  match kind with
  | 1 => setOwner s ix
  | 2 => queueOwner s (ix / 64) (ix % 64)
  | 3 => (cell s (regKey (partPage ix) 0x068)).toNat
  | 4 => (cell s (regKey (pciePage (ix / 64)) (0x700 + 4 * (ix % 64)))).toNat
  | 5 => ownerEntry s ix
  | _ => ownerEntry s (8192 + ix)

/-- A logical processor whose LP_MASK assignment has changed takes its C16 at once; one that runs a partition's
program has a partition-changed interruption pending (R372, R373). -/
def lpStruck (s : State) (lp : Fin 48) : State :=
  let n := lpOwner s lp.val
  let o := lpPart s lp
  if n = o then s
  else
    let put := fun (a : Arch) => { a with c := a.c.set 16 (BitVec.ofNat 64 (ctxCode n)) }
    updLp s lp fun x =>
      if x.run = .waiting then
        let a := beginArch s lp 0 pswsReset
        { x with arch := a, ckpt := a }
      else
        { x with arch := put x.arch, ckpt := put x.ckpt,
                 partChanged := if privOf x.arch.psws ≠ 2 ∧ x.partChanged = none then some o else x.partChanged }

/-- What ends with an assignment: the jobs of a queue that has changed owner, with ABORTED, and the keys of slots that have
left a partition (R350, Table 14-5). -/
def ownersStruck (old s : State) : State :=
  let s := (s.eng.jobs.filter fun e => e.2.inline.isNone && jqOwner old e.2.q != jqOwner s e.2.q).foldl
    (fun s e => completeJob s e.1 e.2 (jobEnd 3 3)) s
  (s.eng.keys.filter fun e => decide (keyOwner old e.1 < mgrCtx) && keyOwner old e.1 != keyOwner s e.1).foldl
    (fun s e => eraseKey s e.1) s

/-- All the proofed values of the committed Strike are applied in one cycle, and every page is clean (R73). -/
def applyStrike (s : State) : State :=
  let old := s
  let vals := old.strike.vals
  let s := { s with drafts := [], proof := { s.proof with proofed := false },
                    strike := { s.strike with st := .applied, vals := [] } }
  let s := vals.foldl (fun s e => setCell s e.1 e.2) s
  let s := vals.foldl (fun s e => struck s e.1 (liveVal old e.1) e.2) s
  let s := if vals.any fun e => pageType (keyPage e.1) = 0x30 && keyOff e.1 = 0x048
           then (allLps s).foldl lpStruck s else s
  let s := if vals.any fun e => pageType (keyPage e.1) = 0x30 then ownersStruck old s else s
  { s with released := s.released.filter fun r =>
      holderOf old (r / 1048576) (r % 1048576) = holderOf s (r / 1048576) (r % 1048576) }

/-! ### The Strike's rows -/

/-- STRIKE_AT_TICK (R71): OP = 01b at STRIKE_TICK. -/
def execStrikeAtTick (m : Master) (cycle : Fin 25000) (s : State) : Host.Outcome State Fault Refusal :=
  .next (atKeeper s m 0x058 (orderStrike s m cycle.val (cell s (regKey keeperPage 0x060)).toNat))

/-- STRIKE_AT_E (R71): OP = 10b. -/
def execStrikeAtE (m : Master) (cycle : Fin 25000) (s : State) : Host.Outcome State Fault Refusal :=
  .next (atKeeper s m 0x058 (orderStrike s m cycle.val (earliest s cycle.val)))

def execStrikeCancel (m : Master) (s : State) : Host.Outcome State Fault Refusal :=
  .next (atKeeper s m 0x058 (cancelOrder s m))

/-- A write to STRIKE_CMD that names no cycle: its instant within the tick is a free value (log 29). -/
def writeStrikeCmd (s : State) (m : Master) (op : Nat) : State :=
  match op with
  | 0 => if s.pen.holder = some m then s else discard s m (keeperOff 0x058) true
  | 3 => cancelOrder s m
  | _ =>
    let cyc := (freeNow s).toNat % 25000
    let t := if op = 1 then (cell s (regKey keeperPage 0x060)).toNat else earliest s cyc
    orderStrike (taken s) m cyc t

/-- ARM_ACKNOWLEDGEMENT (R73). -/
def execArmAcknowledgement (die : Fin 7) (s : State) : Host.Outcome State Fault Refusal :=
  .next <|
    if s.strike.st = .armed then
      { s with strike := { s.strike with waitAcks := s.strike.waitAcks.filter (· ≠ die.val) } }
    else s

/-! ### Quiesce (R74, R465) -/

/-- A pair runs a logical processor, or would: it must report quiesced. -/
def pairRuns (x : Pair) : Bool := x.lp.isSome && (x.role = .active || x.role = .leaving || x.role = .halted)

/-- The units that report quiesced, each by the page index of its page (Table 19-8; log 30). -/
def quiesceUnits (s : State) : List Nat :=
  ((all48.filter fun p => pairRuns (pairAt s p)).map fun p => pairPage p.val) ++
  (((List.range 32).filter fun c => (cpAt s c).role = .active).map cpPage) ++
  ((List.range 8).map zipPage) ++ ((List.range 8).map cryptPage) ++
  ((List.range 4).map pciePage) ++ ((List.range 4).map burinPage)

/-- QUIESCE_ENTRY: at tick T - 10 of a quiesce-strike. Every processor closes clean at its boundary and stops
(R465). -/
def execQuiesceEntry (s : State) : Host.Outcome State Fault Refusal :=
  .next <|
    if s.strike.st = .armed ∧ s.strike.cls = .quiesce ∧ s.time.transit.toNat + 10 = s.strike.target.toNat ∧
        s.mode.quiesce = false then
      let s := { s with mode := { s.mode with quiesce := true, quiet := [] } }
      all48.foldl (fun s lp => if (lpAt s lp).run = .running && closeRoom (lpAt s lp) then closeInterval s lp else s) s
    else s

/-- Whether a unit's Quiesce condition holds (Table 19-8). -/
def unitQuiet (s : State) (u : Nat) : Bool :=
  match all48.find? fun p => pairPage p.val = u with
  | some p =>
    (pairAt s p).role = .halted || (s.sparings.any fun x => x.src = p) ||
      (match (pairAt s p).lp with
       | some lp => storesDone s lp || (lpAt s lp).run != .running
       | none => true)
  | none => true

/-- UNIT_QUIESCED (R74, R465): the unit reports once its condition holds; a Burin pauses. A processor whose gate
had no room closes now. -/
def execUnitQuiesced (unit : Nat) (s : State) : Host.Outcome State Fault Refusal :=
  .next <|
    if !s.mode.quiesce || s.mode.quiet.contains unit then s
    else
      let s := match all48.find? fun p => pairPage p.val = unit with
        | some p => match (pairAt s p).lp with
          | some lp => if !(lpAt s lp).gated.isEmpty && closeRoom (lpAt s lp) then closeInterval s lp else s
          | none => s
        | none => s
      if !unitQuiet s unit then s
      else
        let s := match (List.range 4).find? fun d => burinPage d = unit with
          | some d => { s with burin := vset s.burin d { vget s.burin Burin.reset d with paused := true } }
          | none => s
        { s with mode := { s.mode with quiet := unit :: s.mode.quiet } }

/-- Every unit has reported. -/
def allQuiet (s : State) : Bool := s.mode.quiesce && (quiesceUnits s).all fun u => s.mode.quiet.contains u

/-- STRIKE_ACK_DEADLINE (R73). -/
def execStrikeAckDeadline (s : State) : Host.Outcome State Fault Refusal :=
  .next <|
    if s.strike.st = .armed ∧ s.time.transit.toNat + 1 = s.strike.target.toNat then
      if !s.strike.waitAcks.isEmpty then cancelStrike s 5
      else if s.strike.cls = .quiesce && !allQuiet s then cancelStrike s 6
      else s
    else s

/-- STRIKE_COMMIT (R73): of a Strike whose dies have acknowledged and whose units are quiesced. From here on it applies
the values proofed, whatever becomes of the Pen. DESIGN CHOICE (log 96): a Strike still armed when the package checkstops
is never committed; it stays armed until the warm or cold reset that follows ends it. -/
def execStrikeCommit (s : State) : Host.Outcome State Fault Refusal :=
  .next <|
    if s.strike.st = .armed ∧ s.time.transit.toNat + 1 = s.strike.target.toNat ∧ s.strike.waitAcks = [] ∧
        (s.strike.cls = .quiesce → allQuiet s = true) ∧ s.mode.mode ≠ .checkstop then
      { s with strike := { s.strike with st := .committed, vals := s.drafts } }
    else s

/-- Quiesce ends: units resume what they held. -/
def endQuiesce (s : State) : State :=
  { s with mode := { s.mode with quiesce := false, quiet := [] },
           burin := s.burin.map fun b => { b with paused := false } }

/-- QUIESCE_EXIT (R74): once the Strike has applied or has been cancelled. -/
def execQuiesceExit (s : State) : Host.Outcome State Fault Refusal :=
  .next (if s.mode.quiesce && !strikeOrdered s then endQuiesce s else s)

end Sys2Proof.Machine
end

