-- ==== Sys2Proof/Machine/Pairs.lean ====
section
/-! DEFINITION. Core pairs (11, 01 R15): mismatches and retry, sparing, rotation, and debug halt. -/

namespace Sys2Proof.Machine

/-- The context an event in a PAIR page belongs to (Table 17-2). -/
def pairOwner (s : State) (p : Fin 48) : Option Nat := (pairAt s p).lp.map (lpPart s)

/-- An event in a pair's page; one on a pair that is being spared is absorbed (R422). -/
def pairEvent (s : State) (p : Fin 48) (code sub : Nat) (route : BitVec 4 := 0) : State :=
  logEvent s { page := pairPage p.val, code := code, sub := sub, owner := pairOwner s p, lp := (pairAt s p).lp,
               absorbed := s.sparings.any fun (x : Sparing) => x.src = p, route := route }

/-- Cycles lost are added to LOST_CYCLES: how many is not stated beyond a bound (log 32). -/
def loseCycles (s : State) (p : Fin 48) (most : Nat) : State :=
  taken (bump64 s (pairPage p.val) 0x7D0 ((freeNow s).toNat % (most + 1)))

/-- Every dirty line of an L2 is written to memory and every line dropped (Table 1-8); a WbM that has left is not sent again. -/
def flushL2 (s : State) (p : Fin 48) : State :=
  (pairAt s p).l2.foldl (fun s e =>
    l2Remove (if e.2.st ≠ .m then s else if e.2.leaving && !homeHere s e.1 then writeBack s e.1 else flushLine s p e.1) p e.1) s

/-- A pair's processor stands still: what it has released drains, and once nothing is left its L2 is written back (R273); the
flag says whether that is done. -/
def settleStores (s : State) (p : Fin 48) : State × Bool :=
  match (pairAt s p).lp with
  | none => (flushL2 s p, true)
  | some lp =>
    let s := drainStorage s lp
    if gateEmpty (lpAt s lp) then (flushL2 s p, true) else (s, false)

/-- Both copies go back to the checkpoint: gated entries are discarded and the reservation is lost. A Device load
that has been issued is not issued again (R264, R265). -/
def rollback (s : State) (lp : Fin 48) : State :=
  updLp s lp fun x =>
    { x with arch := x.ckpt, gated := [], icount := 0, reservation := none, resHold := false,
             wait := match x.wait with | .load l => if l.issued.isSome then .load l else .none | _ => .none }

/-- A value for a replacement register, as the Keeper's random source or a copy reset gives it: free, and not zero (R210). -/
def lfsrSeed (s : State) (i : Nat) : BitVec 16 :=
  let v := (freeNow s >>> (16 * i)).setWidth 16
  if v = 0 then 1 else v

/-- The internal structures of both copies return to one state, and their replacement registers take one value (R265,
R210). -/
def copyReset (s : State) (p : Fin 48) : State :=
  let v := lfsrSeed s 0
  taken (updPair s p fun x => { x with l1i := [], l1d := [], streams := [], lfsrI := v, lfsrD := v })

/-- The n-th entry of a pair's translation caches is invalidated. -/
def tlbDrop (t : Tlbs) (n : Nat) : Tlbs :=
  let a := t.itlb.length
  let b := a + t.dtlb.length
  let c := b + t.stlb.length
  let d := c + t.stlbBig.length
  let e := d + t.walkHi.length
  let f := e + t.walkLo.length
  if n < a then { t with itlb := t.itlb.eraseIdx n }
  else if n < b then { t with dtlb := t.dtlb.eraseIdx (n - a) }
  else if n < c then { t with stlb := t.stlb.eraseIdx (n - b) }
  else if n < d then { t with stlbBig := t.stlbBig.eraseIdx (n - c) }
  else if n < e then { t with walkHi := t.walkHi.eraseIdx (n - d) }
  else if n < f then { t with walkLo := t.walkLo.eraseIdx (n - e) }
  else { t with zones := t.zones.eraseIdx (n - f) }

/-- Entries of a pair's translation caches. -/
def tlbCount (t : Tlbs) : Nat :=
  t.itlb.length + t.dtlb.length + t.stlb.length + t.stlbBig.length + t.walkHi.length + t.walkLo.length + t.zones.length

/-- A parity error of a copy: where it was is free (log 114), and an entry of a translation cache is invalidated in both copies
(R265). -/
def parityLoss (s : State) (p : Fin 48) : State :=
  let t := (pairAt s p).tlbs
  taken (updPair s p fun x => { x with tlbs := tlbDrop t ((freeNow s).toNat % (tlbCount t + 1)) })

/-! ### Choosing a dormant pair (R269, R275) -/

/-- Preference of a candidate for a pair: same cluster, same die, any. -/
def nearness (p q : Fin 48) : Nat := if p.val / 6 = q.val / 6 then 0 else if p.val / 12 = q.val / 12 then 1 else 2

/-- Whether `q` is preferred to `r` for pair `p`: nearness, then least ACTIVE_TICKS, then lowest index. -/
def preferred (s : State) (p q r : Fin 48) : Bool :=
  let a := (nearness p q, (pairAt s q).activeTicks.toNat, q.val)
  let b := (nearness p r, (pairAt s r).activeTicks.toNat, r.val)
  decide (a.1 < b.1 ∨ (a.1 = b.1 ∧ (a.2.1 < b.2.1 ∨ (a.2.1 = b.2.1 ∧ a.2.2 < b.2.2))))

/-- The best of some pairs for pair `p`. -/
def bestFor (s : State) (p : Fin 48) (l : List (Fin 48)) : Option (Fin 48) :=
  l.foldl (fun b q => match b with
    | some r => if preferred s p q r then some q else some r
    | none => some q) none

/-- Dormant pairs that are free to be taken; one being prepared for a rotation counts (R269). -/
def spares (s : State) : List (Fin 48) :=
  all48.filter fun q => !(pairAt s q).failed &&
    ((pairAt s q).role = .dormant ||
      (match s.rotation with
       | some r => r.dst = q && (r.stage = .powering || r.stage = .cleaning || r.stage = .switchDue)
       | none => false))

/-- One hour, in ticks (R278). -/
def hour : Nat := 360000000

/-- A rotation is abandoned: 0085h in its active pair's page, tried again an hour later (R278). -/
def abandonRotation (s : State) : State :=
  match s.rotation with
  | some r => pairEvent { s with rotation := none, rotRetry := some hour, rotAgain := some (r.src, r.update) } r.src 0x0085 0
  | none => s

/-! ### Mismatches (R265-R272) -/

/-- The logical processor of a pair stops for want of a dormant pair (R271); the result of a Device load that has been issued
still reaches the slot (R264). -/
def stopPair (s : State) (p : Fin 48) : State :=
  let s := match (pairAt s p).lp with
    | some lp => updLp (drainStorage s lp) lp fun x => { x with run := .stopped }
    | none => s
  let s := updPair (flushL2 s p) p fun x => { x with role := .stopped, retrying := false }
  degrade (pairEvent s p 0x2086 0 3) .spares

/-- The threshold is reached: sparing begins (Table 1-8), onto the pair prepared for this one if a rotation has
one, in its switch too (log 113). -/
def beginSparing (s : State) (p : Fin 48) : State :=
  let own := s.rotation.filter fun r => r.src = p && !(pairAt s r.dst).failed
  match (own.map (·.dst)).orElse fun _ => bestFor s p (spares s) with
  | none => stopPair s p
  | some q =>
    let ready := match s.rotation with | some r => r.dst = q && r.stage != .powering | none => false
    let s := match s.rotation with
      | some r => if r.dst = q then abandonRotation s else s
      | none => s
    let s := updPair (updPair s p fun x => { x with role := .leaving, retrying := false }) q
      fun x => { x with role := .preparing }
    { s with sparings := s.sparings ++ [⟨p, q, false, ready, false⟩] }

/-- LAST_MISMATCH and LAST_MISMATCH_IA (R283). -/
def recordMismatch (s : State) (p : Fin 48) (slice : Nat) (dvg rep ckpt : Bool) : State :=
  let v := at_ slice 59 + flagAt dvg 58 + flagAt rep 57 + flagAt ckpt 56 + s.time.transit.toNat % 2 ^ 32
  let s := setCell s (regKey (pairPage p.val) 0x050) (BitVec.ofNat 64 v)
  match (pairAt s p).lp with
  | some lp => setCell s (regKey (pairPage p.val) 0x058) (lpAt s lp).ckpt.pswa
  | none => s

/-- A retry begins: gated entries discarded, copies reset and loaded from the checkpoint (Table 1-7). -/
def beginRetry (s : State) (p : Fin 48) : State :=
  let s := match (pairAt s p).lp with | some lp => rollback s lp | none => s
  updPair (copyReset s p) p fun x => { x with retrying := true }

/-- A counted mismatch (R266): retried, or the end of the pair's service. -/
def countedMismatch (s : State) (p : Fin 48) (slice : Nat) (dvg ckpt : Bool) : State :=
  let x := pairAt s p
  let w := s.time.transit.toNat :: inWindow s x.window
  let rep := !x.cleanSince
  let s := updPair (bump s (pairPage p.val) 0x7C0) p fun x => { x with window := w, cleanSince := false }
  let s := recordMismatch s p slice dvg rep ckpt
  if rep || decide (w.length ≥ 3) then
    let s := match x.lp with | some lp => rollback s lp | none => s
    beginSparing (copyReset s p) p
  else
    beginRetry (pairEvent s p (if dvg then 0x2082 else 0x2081) (if dvg then 0 else slice)) p

/-- What moves a pair's processor ends with it: a sparing or a rotation of the pair is dropped, and the pair prepared for it is
dormant again. -/
def dropMoves (s : State) (p : Fin 48) : State :=
  let back := fun (s : State) (q : Fin 48) => updPair s q fun x => { x with role := .dormant, powered := false }
  let s := (s.sparings.filter fun (x : Sparing) => x.src = p).foldl (fun s (x : Sparing) => back s x.dst) s
  let s := { s with sparings := s.sparings.filter fun (x : Sparing) => x.src != p }
  match s.rotation with
  | some r => if r.src = p then back { s with rotation := none } r.dst else s
  | none => s

/-- Both halves of the current slot are lost: the processor cannot be restored, and its partition ends (R272). -/
def checkpointLost (s : State) (p : Fin 48) : State :=
  let ow := pairOwner s p
  let lp := (pairAt s p).lp
  let s := match lp with | some l => stopLp s l | none => s
  let s := updPair (dropMoves s p) p fun x => { x with role := .failed, failed := true, lp := none, retrying := false }
  raise s { page := pairPage p.val, code := 0x6087, owner := ow, lp := lp }

/-- A mismatch of a pair that executes nothing, met as its slot is read: it counts, and nothing is retried (R272, R282). -/
def countOnly (s : State) (p : Fin 48) : State :=
  let x := pairAt s p
  let w := s.time.transit.toNat :: inWindow s x.window
  recordMismatch (updPair (bump s (pairPage p.val) 0x7C0) p fun x => { x with window := w, cleanSince := false }) p 0
    false (!x.cleanSince) true

/-- MISMATCH: a difference of the comparator, an internal parity error, or a checkpoint error, which can also be met in the slot of
a pair that is halted, stopped or being spared (R258-R272). -/
def execMismatch (pair : Fin 48) (kind : MismatchKind) (slice : Fin 22) (sinceEdge : Nat) (s : State) :
    Host.Outcome State Fault Refusal :=
  .next <|
    let x := pairAt s pair
    let runs := x.role = .active ∨ (x.role = .leaving ∧ !s.sparings.any fun (y : Sparing) => y.src = pair)
    if x.lp = none then s
    else if ¬runs then
      match kind with
      | .ckptBoth => checkpointLost s pair
      | .ckptHalf => countOnly s pair
      | _ => s
    else match kind with
    | .ckptBoth => checkpointLost s pair
    | .ckptHalf => countedMismatch s pair 0 false true
    | .parity => countedMismatch (parityLoss s pair) pair 31 false false
    | .outputs => countedMismatch s pair slice.val false false
    | .echo =>
      if sinceEdge > 4 then countedMismatch s pair slice.val false false
      else
        let before := inWindow s x.dwindow
        let w := s.time.transit.toNat :: before
        let many := decide (w.length > 64)
        let s := updPair (bump s (pairPage pair.val) 0x7C4) pair fun x => { x with dwindow := w, dcounted := many }
        let s := if many && decide (before.length ≤ 64) then pairEvent s pair 0x2088 0 else s
        if many then countedMismatch s pair 0 true false
        else beginRetry (pairEvent (recordMismatch s pair 0 true false false) pair 0x2082 0) pair

/-- RETRY_RESTART (R265): fetch restarts at the checkpointed address, within 2 µs of the mismatch. -/
def execRetryRestart (pair : Fin 48) (s : State) : Host.Outcome State Fault Refusal :=
  .next <|
    if (pairAt s pair).retrying then
      updPair (loseCycles (bump s (pairPage pair.val) 0x7C8) pair 10000) pair fun x => { x with retrying := false }
    else s

/-! ### Sparing (Table 1-8) -/

def updSparing (s : State) (p : Fin 48) (f : Sparing → Sparing) : State :=
  { s with sparings := s.sparings.map fun (x : Sparing) => if x.src = p then f x else x }

/-- A pair after its power-up: arrays initialised, control store loaded from the current image. -/
def powerPair (s : State) (p : Fin 48) : State :=
  updPair s p fun x =>
    { x with powered := true, image := currentImage s, l1i := [], l1d := [], l2 := [], streams := [], misses := [],
             tlbs := Tlbs.reset }

/-- DOMAIN_POWER_UP_COMPLETE (R490, R276): of a pair being prepared, or of a spare channel processor that is
loaded. -/
def execDomainPowerUpComplete (dom : Domain) (s : State) : Host.Outcome State Fault Refusal :=
  .next <|
    match dom with
    | .pair p =>
      if (pairAt s p).role = .preparing && !(pairAt s p).powered then
        let s := powerPair s p
        let s := { s with sparings := s.sparings.map fun (x : Sparing) => if x.dst = p then { x with powered := true } else x }
        match s.rotation with
        | some r => if r.dst = p && r.stage = .powering then { s with rotation := some { r with stage := .cleaning } }
                    else s
        | none => s
      else s
    | .cp i => if (cpAt s i.val).role = .spare then updCp s i.val fun x => { x with image := cpImage (currentImage s) }
               else s
    | _ => s

/-- SPARING_WRITEBACK_COMPLETE (R15): every released store has drained, a Device store to its port, and the L2 is written
back (R273). -/
def execSparingWritebackComplete (pair : Fin 48) (s : State) : Host.Outcome State Fault Refusal :=
  .next <|
    if s.sparings.any fun (x : Sparing) => x.src = pair && !x.wroteBack then
      match settleStores s pair with
      | (s, true) => updSparing s pair fun x => { x with wroteBack := true }
      | (s, false) => s
    else s

/-- CHECKPOINT_COPY_COMPLETE (R15, Table 11-3): of a sparing whose two branches have ended, or of a rotation that
has switched and whose stores have drained; the pair is the one left or the new one. -/
def execCheckpointCopyComplete (pair : Fin 48) (s : State) : Host.Outcome State Fault Refusal :=
  .next <|
    let s := { s with sparings := s.sparings.map fun (x : Sparing) =>
      if (x.src = pair || x.dst = pair) && x.wroteBack && x.powered then { x with copied := true } else x }
    match s.rotation with
    | some r =>
      if (r.src = pair || r.dst = pair) && r.stage = .switching then
        match settleStores s r.src with
        | (s, true) => { s with rotation := some { r with stage := .copied } }
        | (s, false) => s
      else s
    | none => s

/-- The new pair takes the logical processor's identity (R6), with empty caches and no reservation. -/
def takeIdentity (s : State) (src dst : Fin 48) : State :=
  let lp := (pairAt s src).lp
  let x := pairAt s src
  let s := updPair s dst fun y =>
    { y with role := if x.haltReq then .halted else .active, lp := lp, haltReq := x.haltReq, haltDone := x.haltReq,
             owner := x.owner, irqHold := x.irqHold, step := false, tlbs := Tlbs.reset, l1i := [], l1d := [], l2 := [],
             streams := [], window := [], dwindow := [], dcounted := false, cleanSince := true }
  let s := updPair s src fun y =>
    { y with lp := none, powered := false, haltReq := false, haltDone := false, step := false, retrying := false,
             l1i := [], l1d := [], l2 := [], streams := [], misses := [], tlbs := Tlbs.reset }
  match lp with
  | some l => updLp s l fun z => { z with reservation := none, resHold := false }
  | none => s

/-- SUBUNIT of 2083h: the new pair's die in bits 15:8 and instance in bits 7:0 (log 31). -/
def pairName (p : Fin 48) : Nat := p.val / 12 * 256 + p.val % 12

/-- SPARING_RESUME (R15): at cycle 32 of the window after the copy; a sparing in progress in a Quiesce resumes
once it has ended (R74). -/
def execSparingResume (pair : Fin 48) (s : State) : Host.Outcome State Fault Refusal :=
  .next <|
    match s.sparings.find? fun (x : Sparing) => (x.src = pair || x.dst = pair) && x.copied with
    | some x =>
      if s.mode.quiesce then s
      else
        let s := { s with sparings := s.sparings.filter fun (y : Sparing) => y.src != x.src }
        let s := pairEvent s x.src 0x2083 (pairName x.dst)
        let s := takeIdentity (loseCycles s x.src 2000000) x.src x.dst
        updPair s x.src fun y => { y with role := .failed, failed := true }
    | none => s

/-! ### Rotation (R275-R278) -/

/-- Pairs a rotation may move: active, neither halted nor stopped nor being spared; one that is in a retry, or whose halt is
asked for, is active (R275, R278). -/
def rotatable (s : State) (p : Fin 48) : Bool :=
  let x := pairAt s p
  x.role = .active &&
    (match x.lp with | some lp => (lpAt s lp).run != .stopped | none => false)

/-- The rotatable pair with the largest ACTIVE_TICKS, the lowest index among equals. -/
def oldest (s : State) (l : List (Fin 48)) : Option (Fin 48) :=
  l.foldl (fun b q => match b with
    | some r => if (pairAt s q).activeTicks.toNat > (pairAt s r).activeTicks.toNat then some q else some r
    | none => some q) none

/-- Wear has a budget on every resource pre-cleaning of a pair needs (R42): its die's ring and links, and every
populated channel. -/
def wearBudget (s : State) (p : Fin 48) : Bool :=
  let rd := fun pg o => cell s (regKey pg o)
  let d := p.val / 12
  (effBudgets rd d (budgetPage d) 9 ringActs).getD 1 0 != 0 && (effBudgets rd d (budgetPage d) 18 ringActs).getD 1 0 != 0 &&
    (populated s).all fun c => (effBudgets rd (4 + c / 8) (mcPage c) 0 dramActs).getD 3 0 != 0

/-- A rotation of a pair begins its preparation; with no dormant pair, or with the Wear budget at zero, it is
deferred (R276, R278). -/
def startRotation (s : State) (src : Fin 48) (update : Bool) : State :=
  let free := all48.filter fun q => (pairAt s q).role = .dormant && !(pairAt s q).failed
  let later := pairEvent { s with rotRetry := some hour, rotAgain := some (src, update) } src 0x0085 0
  match bestFor s src free with
  | some dst =>
    if wearBudget s src then
      let s := updPair s dst fun x => { x with role := .preparing }
      { s with rotation := some ⟨src, dst, .powering, 0, update, false⟩, rotRetry := none, rotAgain := none }
    else later
  | none => later

/-- A rotation begins on the pair with the largest ACTIVE_TICKS. -/
def rotateOldest (s : State) : State :=
  match oldest s (all48.filter (rotatable s)) with
  | some p => startRotation s p false
  | none => s

/-- ROTATION_PERIOD_EXPIRY (R275). -/
def execRotationPeriodExpiry (s : State) : Host.Outcome State Fault Refusal :=
  .next <|
    let c := cell s (regKey keeperPage 0x0C0)
    if bit c 31 && running s && s.rotation.isNone && s.rotRetry.isNone && decide (s.rotAge ≥ field c 0 9 * 8640000000)
    then rotateOldest s else s

/-- ROTATION_RETRY (R278): an hour after a rotation was abandoned or deferred it is tried again, on its pair, or on the one with
the largest ACTIVE_TICKS where that can no longer be rotated. -/
def execRotationRetry (s : State) : Host.Outcome State Fault Refusal :=
  .next <|
    if s.rotRetry = some 0 && s.rotation.isNone && running s then
      let t := { s with rotRetry := none, rotAgain := none }
      match s.rotAgain.filter fun a => rotatable s a.1 with
      | some (p, update) => startRotation t p update
      | none => rotateOldest t
    else s

/-- A write to COMMAND: discarded and counted while one is in progress, where the page cannot be reached, or where
the code is not accepted (R57). -/
def command (s : State) (m : Master) (p : Nat) (accept : Bool) (eff : State → State) : State :=
  if !writable s m p || Tab.read (fun _ => (0 : Word)) s.cmds p != 0 || !accept
  then discard s m (p * 4096 + 0x00C) true else eff s

/-- The pair ARG names, if bit 8 is set (R275). -/
def argPair (arg : Nat) : Option (Fin 48) :=
  let i := arg / 64 % 4 * 12 + arg % 16
  if h : i < 48 then (if arg % 16 < 12 then some ⟨i, h⟩ else none) else none

/-- KEEPER COMMAND 10h (R275). -/
def rotateCommand (s : State) (m : Master) (arg : Nat) : State :=
  let named := arg.testBit 8
  let src := if named then (argPair arg).filter (rotatable s) else oldest s (all48.filter (rotatable s))
  command s m keeperPage (running s && s.rotation.isNone && src.isSome) fun s =>
    match src with | some p => startRotation s p false | none => s

def execBeginRotation (m : Master) (arg : BitVec 24) (s : State) : Host.Outcome State Fault Refusal :=
  .next (rotateCommand s m arg.toNat)

/-- Dirty lines of an L2. -/
def dirtyLines (s : State) (p : Fin 48) : List Nat :=
  ((pairAt s p).l2.filter fun e => e.2.st = .m && !e.2.leaving).map (·.1)

/-- PRE_CLEANING_END (R276): at cycle 64, with at most 4,096 dirty lines or after 100,000 ticks. -/
def execPreCleaningEnd (s : State) : Host.Outcome State Fault Refusal :=
  .next <|
    match s.rotation with
    | some r =>
      if r.stage = .cleaning && decide ((dirtyLines s r.src).length ≤ 4096 ∨ r.ticks ≥ 100000) then
        { s with rotation := some { r with stage := .switchDue, few := decide ((dirtyLines s r.src).length ≤ 4096) } }
      else s
    | none => s

/-- A clean close at an instruction boundary is possible now: nothing is in the middle of an instruction. -/
def atBoundary (s : State) (lp : Fin 48) : Bool :=
  (lpAt s lp).wait = .none && (lpAt s lp).repN.isNone && closeRoom (lpAt s lp)

/-- ROTATION_SWITCH (R277): the active pair closes clean, drains and writes back; not inside a Quiesce. -/
def execRotationSwitch (s : State) : Host.Outcome State Fault Refusal :=
  .next <|
    match s.rotation with
    | some r =>
      match (pairAt s r.src).lp with
      | some lp =>
        if r.stage = .switchDue && !s.mode.quiesce && rotatable s r.src && !(pairAt s r.src).retrying && atBoundary s lp &&
            running s then
          let (s, _) := settleStores (closeInterval s lp) r.src
          let s := updPair s r.src fun x => { x with role := .leaving }
          { s with rotation := some { r with stage := .switching } }
        else s
      | none => s
    | none => s

/-- ROTATION_RESUME (R277): the new pair resumes and the old one becomes dormant. The interruption is at most 31 µs, which is
155,000 cycles, if few lines were dirty at the order, else 400 µs. -/
def execRotationResume (s : State) : Host.Outcome State Fault Refusal :=
  .next <|
    match s.rotation with
    | some r =>
      if r.stage = .copied && !s.mode.quiesce then
        let s := pairEvent s r.src 0x0084 0
        let s := takeIdentity (loseCycles s r.src (if r.few then 155000 else 2000000)) r.src r.dst
        let s := updPair s r.src fun x => { x with role := .dormant }
        { s with rotation := none, rotAge := 0, rotRetry := none,
                 cs := if r.update then { s.cs with gap := cellField s (csPage 6) 0x084 0 16, still := 0 } else s.cs }
      else s
    | none => s

/-! ### Debug halt (R281, R282) -/

/-- SERVICE_STOP halts every pair, once a committed Strike has applied (R467). -/
def serviceStopping (s : State) : Bool := s.mode.transition = .serviceStop && s.strike.st != .committed

/-- The pair halts at an instruction boundary, once it has one. -/
def haltNow (s : State) (p : Fin 48) : State :=
  let x := pairAt s p
  match x.lp with
  | some lp =>
    if (x.haltReq || serviceStopping s) && x.role = .active && !x.retrying && atBoundary s lp then
      updPair (closeInterval s lp) p fun y => { y with role := .halted }
    else s
  | none => s

/-- Service stop is entered when every pair that runs a processor is halted (R467). -/
def finishStop (s : State) : State :=
  if serviceStopping s && all48.all fun p =>
      let x := pairAt s p
      x.lp.isNone || (x.role = .halted && x.haltDone) || x.role = .stopped || x.role = .failed
  then enterMode s .serviceStop else s

/-- HALT_DONE (R281): released entries have drained, those of a STEP too. -/
def execHaltDone (pair : Fin 48) (s : State) : Host.Outcome State Fault Refusal :=
  .next <|
    let s := haltNow s pair
    let x := pairAt s pair
    match x.lp with
    | some lp => if x.role = .halted && !x.step && storesDone s lp
                 then finishStop (updPair s pair fun y => { y with haltDone := true }) else s
    | none => s

/-- HALT written 1: a request, by the master that OWNER then names. -/
def setHalt (s : State) (m : Master) (p : Fin 48) : State :=
  haltNow (updPair s p fun x => { x with haltReq := true, owner := BitVec.ofNat 2 m.code }) p

/-- HALT written 0: both copies are reloaded from the checkpoint and execution resumes, unless Service stop holds
the pair (R282, R467). -/
def clearHalt (s : State) (p : Fin 48) : State :=
  let x := pairAt s p
  let s := match x.lp with
    | some lp => if x.role = .halted then updLp s lp fun y => { y with arch := y.ckpt } else s
    | none => s
  updPair s p fun x =>
    { x with haltReq := false, haltDone := x.haltDone && s.mode.mode = .serviceStop, step := false,
             role := if x.role = .halted && s.mode.mode != .serviceStop then .active else x.role }

/-- STEP written 1 while halted: the pair runs the next instruction of its processor as an interval of its own
(log 33). -/
def setStep (s : State) (p : Fin 48) : State :=
  let x := pairAt s p
  if x.role = .halted then
    let s := match x.lp with | some lp => updLp s lp fun y => { y with arch := y.ckpt } | none => s
    updPair s p fun x => { x with step := true, haltDone := false }
  else s

/-- A write to DEBUG_CTL. -/
def writeDebug (s : State) (m : Master) (p : Fin 48) (v : Word) : State :=
  let s := updPair s p fun x => { x with irqHold := bit v 29 }
  if bit v 31 then
    let s := if (pairAt s p).haltReq then s else setHalt s m p
    if bit v 30 then setStep s p else s
  else clearHalt s p

/-- DEBUG_CTL of a pair is reached: its die is powered. -/
def reachPair (s : State) (m : Master) (p : Fin 48) (off : Nat) (eff : State → State) : State :=
  if writable s m (pairPage p.val) then eff s else discard s m (pairPage p.val * 4096 + off) true

def execDebugHalt (m : Master) (pair : Fin 48) (s : State) : Host.Outcome State Fault Refusal :=
  .next (reachPair s m pair 0x048 fun s => setHalt s m pair)

def execDebugStep (m : Master) (pair : Fin 48) (s : State) : Host.Outcome State Fault Refusal :=
  .next (reachPair s m pair 0x048 fun s => setStep s pair)

def execDebugResume (m : Master) (pair : Fin 48) (s : State) : Host.Outcome State Fault Refusal :=
  .next (reachPair s m pair 0x048 fun s => clearHalt s pair)

/-- FPC with a value written by the debugger: reserved bits are ignored, and a value of RM that is never held leaves RM as
it was (R3, R135, log 105). -/
def putFpc (old : BitVec 32) (v : Word) : BitVec 32 :=
  let w := v.setWidth 32 &&& maskFpc
  if field w 16 3 > 4 then (w &&& 0xFFF8FFFF) ||| (old &&& 0x00070000) else w

/-- PSWS with a value written by the debugger: PRIV = 11b is invalid and leaves PRIV as it was (R3, R80, log 105). -/
def putPsws (old v : Word) : Word :=
  let w := v &&& maskPsws
  if field w 62 2 = 3 then (w &&& 0x3FFFFFFFFFFFFFFF) ||| (old &&& 0xC000000000000000) else w

/-- A checkpoint slot with the word at a window offset replaced (R283): reserved bits are ignored (R3), and PSWA bits
[1:0] are always zero (R80). -/
def ckptPut (a : Arch) (off : Nat) (v : Word) : Arch :=
  if off = 0x380 then { a with pswa := v &&& ~~~3 }
  else if off = 0x388 then { a with psws := putPsws a.psws v }
  else if off = 0x390 then { a with fpc := putFpc a.fpc v }
  else if off < 0x490 then { a with g := vset a.g ((off - 0x398) / 8 + 1) v }
  else if off < 0x690 then
    let i := (off - 0x490) / 16
    let f := vget a.f 0 i
    { a with f := vset a.f i (if off % 16 = 0 then v ++ f.setWidth 64 else (f >>> 64).setWidth 64 ++ v) }
  else
    let i := (off - 0x690) / 8
    let c := if i < 13 then i else i + 3
    { a with c := vset a.c c (v &&& maskC (Fin.ofNat 32 c)) }

/-- A naturally aligned write of 4 or 8 bytes into a 64-bit word: big-endian halves. -/
def putHalf (old : Word) (off size : Nat) (v : Word) : Word :=
  if size = 8 then v
  else if off % 8 = 0 then BitVec.ofNat 64 (v.toNat % 2 ^ 32 * 2 ^ 32 + old.toNat % 2 ^ 32)
  else BitVec.ofNat 64 (old.toNat / 2 ^ 32 * 2 ^ 32 + v.toNat % 2 ^ 32)

/-- A write to the checkpoint window: of a halted pair it goes to both halves of the current slot, else it is
discarded and counted (R283). -/
def writeCkpt (s : State) (m : Master) (p : Fin 48) (off size : Nat) (v : Word) : State :=
  match (pairAt s p).lp with
  | some lp =>
    if (pairAt s p).role = .halted && (size = 4 || size = 8) && off % size = 0 && writable s m (pairPage p.val) &&
        decide (0x380 ≤ off ∧ off < 0x760) then
      if off ≥ 0x758 then s
      else
        let e := off / 8 * 8
        updLp s lp fun x =>
          let a := ckptPut x.ckpt e (putHalf (ckptWord x.ckpt e) off size v)
          { x with ckpt := a, arch := a }
    else discard s m (pairPage p.val * 4096 + off) true
  | none => discard s m (pairPage p.val * 4096 + off) true

def execCheckpointWindowWrite (m : Master) (pair : Fin 48) (off : BitVec 12) (size : Nat) (v : Word) (s : State) :
    Host.Outcome State Fault Refusal :=
  .next (writeCkpt s m pair off.toNat size v)

/-- PAIR COMMAND 10h (R424). -/
def takenCommand (s : State) (m : Master) (p : Fin 48) : State :=
  command s m (pairPage p.val) ((pairAt s p).role = .stopped) fun s =>
    let s := match (pairAt s p).lp with | some lp => drainStorage s lp | none => s
    updPair (flushL2 s p) p fun x => { x with role := .failed, failed := true, powered := false, lp := none, misses := [] }

def execTaken (m : Master) (pair : Fin 48) (s : State) : Host.Outcome State Fault Refusal :=
  .next (takenCommand s m pair)

end Sys2Proof.Machine
end

