-- ==== Sys2Proof/Machine/Budget.lean ====
section
/-! DEFINITION. Background budgets (02 R37-R42, R49, R514): the budgeted resources, what an activity may still use
of one in a tick, and the debit of a request. -/

namespace Sys2Proof.Machine

/-- Activities: Sweep, Calibration, Telemetry, Wear, directory maintenance. -/
inductive Activity where
  | sweep | cal | tel | wear | dir
  deriving DecidableEq, Repr

def Activity.code : Activity → Nat
  | .sweep => 0
  | .cal => 1
  | .tel => 2
  | .wear => 3
  | .dir => 4

/-- B of an activity on a resource, scaled by the owner's CAP where it applies (R40); zero where it uses none. DESIGN
CHOICE (log 94): of the two pages that own a direction of a link, that of the sending die governs it, since R39 counts a
request there. -/
def budgetOf (s : State) (act res : Nat) : Nat :=
  let rd := fun p o => cell s (regKey p o)
  if res < 16 then (effBudgets rd (4 + res / 8) (mcPage res) 0 dramActs).getD act 0
  else if act < 2 then 0
  else if res < 32 then (effBudgets rd (res - 16) (budgetPage (res - 16)) 9 ringActs).getD (act - 2) 0
  else (effBudgets rd ((res - 32) / 8) (budgetPage ((res - 32) / 8)) 18 ringActs).getD (act - 2) 0

/-- C of a resource per tick (Table 2-4). -/
def capacity (s : State) (res : Nat) : Nat :=
  if res < 16 then (if (populated s).contains res then dramC (cellField s mapPage 0x040 30 2) else 0)
  else if res < 32 then 50000 else 156250

def budgetKey (act res : Nat) : Nat := act * 256 + res

def budgetUse (s : State) (act res : Nat) : Nat := Tab.read (fun _ => 0) s.bud.use (budgetKey act res)

/-- What an activity may still use of a resource this tick (R39). -/
def budgetLeft (s : State) (act res : Nat) : Nat := budgetOf s act res * capacity s res / 1024 - budgetUse s act res

/-- A cost is counted. -/
def debit (s : State) (act res n : Nat) : State :=
  { s with bud := { s.bud with
      use := Tab.write (fun _ => 0) s.bud.use (budgetKey act res) (budgetUse s act res + n) } }

/-- An activity is held for lack of budget on a resource. -/
def markHeld (s : State) (act res : Nat) : State :=
  { s with bud := { s.bud with held := Tab.put s.bud.held (budgetKey act res) true } }

/-- What a request costs on each resource as a whole. -/
def costTotal (costs : List (Nat × Nat)) : Tab Nat :=
  costs.foldl (fun t c => Tab.write (fun _ => 0) t c.1 (Tab.read (fun _ => 0) t c.1 + c.2)) []

/-- A request's costs, resource by resource, debited together, or the request held unsplit until the next refill
(R39), marked on every resource with too little left (R49). -/
def spend (s : State) (a : Activity) (costs : List (Nat × Nat)) : State × Bool :=
  let t := costTotal costs
  let short := t.filter fun c => decide (c.2 > budgetLeft s a.code c.1)
  if short.isEmpty then (t.foldl (fun s c => debit s a.code c.1 c.2) s, true)
  else (short.foldl (fun s c => markHeld s a.code c.1) s, false)

/-- Costs of a message without data between two dies, and of one with a line (R514). -/
def msgCost (a b : Nat) : List (Nat × Nat) :=
  (if a < 4 then [(resRing a, 1)] else []) ++ (hops a b).map fun r => (r, 1)

def lineCost (a b : Nat) : List (Nat × Nat) :=
  (if a < 4 then [(resRing a, 3)] else []) ++ (hops a b).map fun r => (r, 5)

/-- The die of this package that traffic for a line goes to: the home's, or the system die whose coherence link leads
to the package of the home (R37). -/
def toward (s : State) (line : Nat) : Nat :=
  if linePkg line = pkgId s then homeDie s line % 4
  else match linkTo s (linePkg line) with
    | some l => 4 + l / 2
    | none => 4

/-- The slot of a line's channel, where its memory is DRAM of this package. -/
def dramCost (s : State) (line : Nat) : List (Nat × Nat) :=
  if regionOf s (line * 256) = .dram && linePkg line = pkgId s then [(resDram (channelOf s line), 1)] else []

end Sys2Proof.Machine
end

