-- ==== Sys2Proof/Machine/Engine.lean ====
section
/-! DEFINITION. The commands of job queues, the dispatcher, the engines' functions, the random bit
generators and the key store (14). What a compression, cipher, hash or signature standard computes is taken
from the constants of Config without a body (log 22); everything the spec says of a job is modelled. -/

namespace Sys2Proof.Machine

/-! ### Doorbells (R341, R343) -/

/-- A doorbell write: a context that does not own the queue is counted, a released queue discards (R343,
Table 15-3). -/
def doorbell (s : State) (ctx k : Nat) (f : JQueue → JQueue) : State :=
  if jqOwner s k ≠ ctx then queueSpoof s k
  else if isReleased s 2 k then s
  else updJq s k f

def writeTail (v : Word) (x : JQueue) : JQueue := { x with tail := v.toNat % 65536 % jqSlots x }

def writeBase (v : Word) (x : JQueue) : JQueue :=
  if x.en then x else { x with base := v &&& 0x000FFFFFFFFFFF80 }

/-- JQ_CTL: setting EN zeroes head and tail; SIZE is kept while EN is set, and reads back at most 12. -/
def writeJqCtl (v : Word) (x : JQueue) : JQueue :=
  let en := bit v 31
  let x := if x.en then x else { x with size := min 12 (field v 16 4) }
  let x := { x with isc := field v 28 3 }
  if en && !x.en then { x with en := true, head := 0, tail := 0 } else { x with en := en }

/-- A store to a doorbell page of the doorbell granule of a system die (R343): 8-byte registers, and JQ_CTL's
4 bytes. -/
def doorbellStore (s : State) (ctx die page off : Nat) (v : Word) : State :=
  let k := die * 64 + page
  match off with
  | 0x000 => doorbell s ctx k (writeTail v)
  | 0x010 => doorbell s ctx k (writeBase v)
  | 0x018 => doorbell s ctx k (writeJqCtl v)
  | _ => doorbell s ctx k id

/-- A load from a doorbell page: all ones to a context that does not own the queue. -/
def doorbellLoad (s : State) (ctx die page off : Nat) : Word :=
  let k := die * 64 + page
  let x := jqAt s k
  if jqOwner s k ≠ ctx then BitVec.allOnes 64
  else
    match off with
    | 0x000 => BitVec.ofNat 64 x.tail
    | 0x008 => BitVec.ofNat 64 x.head
    | 0x010 => x.base
    | 0x018 => BitVec.ofNat 64 ((if x.en then 2 ^ 31 else 0) + x.isc * 2 ^ 28 + x.size * 65536)
    | 0x020 =>
      let r := jqRunning s k
      BitVec.ofNat 64 ((if r ≠ 0 then 2 ^ 31 else 0) + (if x.notify then 2 ^ 30 else 0) + min r 8)
    | _ => 0

/-- JQ_TAIL (R341). -/
def execJqTail (ctx : Fin 129) (die : Fin 2) (q : Fin 64) (v : Word) (s : State) :
    Host.Outcome State Fault Refusal := .next (doorbell s ctx.val (die.val * 64 + q.val) (writeTail v))

/-- JQ_CTL (R343). -/
def execJqCtl (ctx : Fin 129) (die : Fin 2) (q : Fin 64) (v : Word) (s : State) :
    Host.Outcome State Fault Refusal := .next (doorbell s ctx.val (die.val * 64 + q.val) (writeJqCtl v))

/-- JQ_BASE (R343). -/
def execJqBase (ctx : Fin 129) (die : Fin 2) (q : Fin 64) (v : Word) (s : State) :
    Host.Outcome State Fault Refusal := .next (doorbell s ctx.val (die.val * 64 + q.val) (writeBase v))

/-! ### The dispatcher (R340-R342, R345) -/

/-- A descriptor is read whole, once, and its slot passed (R341). A ring slot outside the owner's storage is
passed over with no job (log 24). -/
def readSlot (s : State) (k : Nat) : State :=
  let x := jqAt s k
  let ctx := jqOwner s k
  let at_ := x.base.toNat + 128 * x.head
  let s := updJq s k fun x => { x with head := (x.head + 1) % jqSlots x }
  match ctxRange s ctx at_ 128 with
  | some [(pa, 128)] =>
    let job : Job := { q := k, at_ := pa, desc := curBytes s pa 128, ctx := ctx, zip := none, crypt := none,
                       inline := none, ended := none }
    let n := s.eng.nextJob
    let s := { s with eng := { s.eng with nextJob := n + 1 } }
    if anyPoison s pa 128 then endJob s n job (jobEnd 0x13 0)
    else if job.fld 0 1 ≠ 1 || !([1, 2, 3, 4, 0x10, 0x11, 0x12, 0x13, 0x14, 0x20, 0x21, 0x30, 0x31, 0x32, 0x33,
        0x34, 0x35, 0x36, 0x37, 0x40, 0x50, 0x51, 0x60, 0x61, 0x62, 0x63, 0x64, 0x65].contains job.func) then
      endJob s n job (jobEnd 0x10 1)
    else if job.fld 3 1 ≠ ctxCode ctx then endJob (queueSpoof s k) n job (jobEnd 0x11 0)
    else setJob s n job
  | _ => s

/-- Whether the first waiting job of a queue may start: a fenced or continuing job waits until every earlier
job of its queue has completed (R342). -/
def mayStart (s : State) (k : Nat) (j : Nat) (x : Job) : Bool :=
  if x.flag 3 || x.flag 4 || !x.flag 6 then !((jqTaken s k).any fun e => decide (e.1 < j)) else true

/-- One visit of a queue: a waiting job starts if it may, else a posted slot is read and its job starts. -/
def visit (s : State) (k : Nat) : State :=
  let start := fun (s : State) =>
    match (jqTaken s k).find? fun e => !e.2.running with
    | some (j, x) => if mayStart s k j x && decide (jqRunning s k < 8) then assignJob s j x else s
    | none => s
  let x := jqAt s k
  let waiting := (jqTaken s k).any fun e => !e.2.running
  if waiting then start s
  else if x.en && x.head != x.tail && decide (jqRunning s k < 8) then start (readSlot s k)
  else s

/-- Whether a visit of a queue could do something. -/
def visitable (s : State) (k : Nat) : Bool :=
  let x := jqAt s k
  ((jqTaken s k).any fun e => !e.2.running) || (x.en && x.head != x.tail && decide (jqRunning s k < 8))

/-- DESCRIPTOR_DISPATCH: the dispatcher visits its next queue in round-robin order that has work (R340). -/
def execDescriptorDispatch (die : Fin 2) (s : State) : Host.Outcome State Fault Refusal :=
  if s.mode.quiesce then .next s
  else
    let n := s.eng.next[die]
    match ((List.range 64).map fun i => (n + i) % 64).find? fun q => visitable s (die.val * 64 + q) with
    | some q =>
      let s := visit s (die.val * 64 + q)
      .next { s with eng := { s.eng with next := s.eng.next.set die ((q + 1) % 64) } }
    | none => .next s

/-- JOB_COMPLETE: the record of an ended job is written after its stores, once their lines are free (R346), and not in
Quiesce (R361). -/
def execJobComplete (job : Nat) (s : State) : Host.Outcome State Fault Refusal :=
  if s.mode.quiesce then .next s else
  match Tab.look s.eng.jobs job with
  | some x =>
    match x.ended with
    | some e => if x.inline.isSome || !canRecord s x e then .next s else .next (completeJob s job x e)
    | none => .next s
  | none => .next s

/-! ### Operands of a job -/

/-- What a check of a job finds: a status and detail it ends with, or nothing. -/
abbrev Checked (α : Type) := Except (Nat × Nat) α

def guardJob (ok : Bool) (status detail : Nat) : Checked Unit := if ok then .ok () else .error (status, detail)

def overlap (a n b m : Nat) : Bool := decide (n ≠ 0 ∧ m ≠ 0 ∧ a < b + m ∧ b < a + n)

/-- PARAM within the ranges of Table 14-2. -/
def zipParamOk (zstd comp : Bool) (p : Nat) : Bool :=
  let eff := p % 8
  (if comp then decide (1 ≤ eff ∧ eff ≤ 6) else decide (eff = 0 ∨ (1 ≤ eff ∧ eff ≤ 6))) &&
  (if zstd then decide (p / 16 % 16 ≤ 13) && decide (p / 1024 = 0) && !p.testBit 3
   else decide (p / 16 % 4 ≤ 2) && decide (p / 64 = 0) && !p.testBit 3)

/-- PARAM of a load: a type, its usage and, of an HMAC key alone, its length (Table 14-4). -/
def loadParamOk (p : Nat) : Bool := decide (p / 2 ^ 24 = 0) && (p % 256 = 5 || decide (p / 65536 = 0))

def paramOk (func p : Nat) : Bool :=
  match func with
  | 1 => zipParamOk false true p
  | 2 => zipParamOk false false p
  | 3 => zipParamOk true true p
  | 4 => zipParamOk true false p
  | 0x12 => decide (p ≤ 2)
  | 0x13 => decide (p ≤ 2)
  | 0x20 => [0, 1, 2, 4, 5, 6].contains p
  | 0x21 => decide (p ≤ 2)
  | 0x32 => decide (p ≤ 1)
  | 0x33 => decide (p ≤ 1)
  | 0x34 => decide (p ≤ 255)
  | 0x35 => decide (p ≤ 255)
  | 0x36 => decide (p % 256 = 0 ∧ p / 65536 = 0)
  | 0x37 => decide (p % 256 = 0 ∧ p / 65536 = 0)
  | 0x50 => zipParamOk (p.testBit 16) true (p % 65536) && decide (p / 131072 = 0)
  | 0x51 => zipParamOk (p.testBit 16) false (p % 65536) && decide (p / 131072 = 0)
  | 0x60 => loadParamOk p
  | 0x61 => loadParamOk p
  | 0x63 => loadParamOk p
  | _ => decide (p = 0)

/-- The checks every job meets first: reserved fields and flags, overlap and alignment, PARAM (R344, R345,
R347; DETAIL of Table 14-5). -/
def jobForm (x : Job) : Checked Unit := do
  guardJob (x.fld 2 1 % 4 = 0 && x.fld 60 4 = 0 && x.fld 72 8 = 0 &&
    (!([0x10, 0x11, 0x50, 0x51].contains x.func) || x.fld 92 4 = 0)) 0x10 2
  let sz := if x.stateAt = 0 then 0 else stateSize x.func x.param
  let same := x.dst = x.src && x.dstLen = x.srcLen && decide (0x10 ≤ x.func ∧ x.func ≤ 0x14)
  guardJob (x.stateAt % 4096 = 0 &&
    (same || !overlap x.src x.srcLen x.dst x.dstLen) && !overlap x.src x.srcLen x.aux x.auxLen &&
    !overlap x.dst x.dstLen x.aux x.auxLen && !overlap x.src x.srcLen x.stateAt sz &&
    !overlap x.dst x.dstLen x.stateAt sz && !overlap x.aux x.auxLen x.stateAt sz) 0x10 3
  guardJob (paramOk x.func x.param) 0x10 5
  guardJob (x.flag 6 && x.flag 5 || x.stateAt != 0) 0x10 2

/-- The bytes of a source operand: ADDRESS with the operand's DETAIL, or DATA_ERROR for poison. -/
def srcBytes (s : State) (x : Job) (a n detail : Nat) : Checked (List Byte) :=
  match ctxRange s x.ctx a n with
  | none => .error (0x12, detail)
  | some l => if poisonRuns s l then .error (0x13, 0) else .ok (readRuns s l)

/-- The runs of a destination operand. -/
def dstRuns (s : State) (x : Job) (a n detail : Nat) : Checked (List (Nat × Nat)) :=
  match ctxRange s x.ctx a n with
  | none => .error (0x12, detail)
  | some l => .ok l

/-- Bytes an engine computes: which result, from which inputs, how many. -/
def engBytes (what : Nat) (ins : List (List Byte)) (n : Nat) : List Byte :=
  (List.range n).map fun i => Config.engByte what ins i

/-- The saved stream state a continuing job starts from. -/
def savedState (s : State) (x : Job) : Checked (List Byte) :=
  if x.flag 6 then .ok [] else srcBytes s x x.stateAt (stateSize x.func x.param) 4

/-- The stores that save a stream's state, for a job that is not the last of its stream or ends PARTIAL. -/
def stateStores (s : State) (x : Job) (ins : List (List Byte)) : Checked (List (Nat × List Byte)) := do
  let n := stateSize x.func x.param
  let l ← dstRuns s x x.stateAt n 4
  .ok (splitRuns l (engBytes 1 ins n))

/-! ### Keys (R351, R352) -/

/-- The slot a handle names, if the job may use it. -/
def useKey (s : State) (x : Job) (h : Nat) : Checked (Nat × KeySlot) :=
  let slot := h % 8192
  if h / 8192 % 2 ^ 19 ≠ 0 ∨ keyOwner s slot ≠ x.ctx ∨ isReleased s 3 x.ctx ∨
      (genAt s slot).toNat ≠ h / 2 ^ 32 then .error (0x20, 1)
  else match Tab.look s.eng.keys slot with
    | some k => .ok (slot, k)
    | none => .error (0x20, 1)

/-- Types that are not available in Compatibility operating mode (R363). -/
def compatType (s : State) (ty : Nat) : Bool := s.mode.mode = .compat && (ty = 0x0B || ty = 0x0C)

/-- A key of one of the types, whose usage has one of the bits of the mask. -/
def needKey (s : State) (x : Job) (h : Nat) (types : List Nat) (usage : Nat) : Checked KeySlot := do
  let (_, k) ← useKey s x h
  guardJob (!compatType s k.ty) 0x14 0
  guardJob (types.contains k.ty) 0x22 0
  guardJob (usage = 0 || k.usage.toNat &&& usage != 0) 0x21 0
  .ok k

/-- Secret length of a type, in bytes; 0 for no type (Table 14-4). -/
def secretLen (param : Nat) : Nat :=
  match param % 256 with
  | 1 => 16
  | 2 => 32
  | 3 => 32
  | 4 => 64
  | 5 => let n := param / 65536 % 256 * 8
         if 16 ≤ n ∧ n ≤ 128 then n else 0
  | 8 => 32
  | 9 => 32
  | 0xA => 48
  | 0xB => 32
  | 0xC => 64
  | _ => 0

/-- Public key length of a type, 0 for none. -/
def publicLen (ty : Nat) : Nat :=
  match ty with
  | 8 => 32
  | 9 => 65
  | 0xA => 97
  | 0xB => 1952
  | 0xC => 1184
  | _ => 0

/-- The system die whose generator a job draws from: that of its engine (R354, log 122). -/
def Job.drbg (x : Job) : Nat := match x.crypt with | some c => c / 4 | none => x.q / 64

/-- The random bytes a job draws; a halted generator ends it with ENTROPY (R354). -/
def randomFor (s : State) (x : Job) (n : Nat) : Checked (List Byte) :=
  let d := vget s.eng.drbg Drbg.reset x.drbg
  if d.ok then .ok ((List.range n).map fun i => Config.freeByte s.freeCtr i) else .error (0x50, 0)

/-- A request of the die's generator has been counted. -/
def drawn (s : State) (x : Job) : State :=
  let d := vget s.eng.drbg Drbg.reset x.drbg
  let d := vset s.eng.drbg x.drbg { d with requests := d.requests + 1 }
  taken { s with eng := { s.eng with drbg := d } }

/-! ### How a function's row runs -/

/-- While a job runs its destination is undefined (R346): the bytes it will store are free values until the
record is written. -/
def undefine (s : State) (who : Agent) (e : JobEnd) : State :=
  e.stores.foldl (fun s w =>
    agentWrite (taken s) w.1 ((List.range w.2.length).map fun i => Config.freeByte s.freeCtr i) who) s

/-- A function's row: the job's engines run it to its end. Nothing happens unless the job holds its engines,
names this function and has not ended, and while the package is in Quiesce (R361). -/
def runFunc (s : State) (j func : Nat) (f : State → Job → Checked (State × JobEnd)) :
    Host.Outcome State Fault Refusal :=
  match Tab.look s.eng.jobs j with
  | none => .next s
  | some x =>
    if x.func ≠ func || !(x.zip.isSome || x.crypt.isSome) || x.ended.isSome || x.inline.isSome ||
        s.mode.quiesce then .next s
    else
      match jobForm x, f s x with
      | .error (st, d), _ => .next (endJob s j x (jobEnd st d))
      | _, .error (st, d) => .next (endJob s j x (jobEnd st d))
      | .ok (), .ok (s', e) => .next (endJob (countMoved (undefine s' x.agent e) x e.consumed e.produced) j x e)

/-- A job that is done, with what it stores and its result. -/
def done (consumed produced : Nat) (stores : List (Nat × List Byte)) (result : List Byte := []) : JobEnd :=
  { status := 1, detail := 0, consumed := consumed, produced := produced, result := result, stores := stores }

/-! ### Compression (R348, R355, R358) -/

/-- Bytes a compressor has put out after `k` bytes of its source, ending the stream or at a byte-aligned empty
stored block. -/
def compLen (x : Job) (st dict src : List Byte) (k : Nat) (last : Bool) : Nat :=
  Config.engNat (x.func * 4 + (if last then 1 else 0)) [beBytes 4 x.param, st, dict, src.take k]

/-- Compression, with `wrap` what the cipher makes of the stream (nothing, or AES-GCM). -/
def compress (s : State) (x : Job) (keys : List (List Byte)) : Checked (State × JobEnd) := do
  let st ← savedState s x
  let chain := decide (x.func = 0x50)
  let dict ← if chain then .ok [] else srcBytes s x x.aux x.auxLen 3
  guardJob (chain || x.func = 3 || x.auxLen = 0) 0x10 4
  guardJob (!(decide (x.func = 3)) || decide (x.auxLen ≤ 262144)) 0x10 4
  let src ← srcBytes s x x.src x.srcLen 1
  let whole := compLen x st dict src x.srcLen (x.flag 5)
  guardJob (!chain || decide ((if x.flag 6 then 0 else Config.engNat 5 [st]) + min whole x.dstLen ≤ 2 ^ 36 - 32)) 0x34 0
  let ins := [beBytes 4 x.param, st, dict, x.iv] ++ keys
  if whole ≤ x.dstLen then
    let l ← dstRuns s x x.dst whole 2
    let out := engBytes (x.func * 4 + (if x.flag 5 then 1 else 0)) (ins ++ [src]) whole
    let ss ← if x.flag 5 then .ok [] else stateStores s x (ins ++ [src])
    let crc := if x.flag 5 then engBytes 2 (ins ++ [src]) (if chain then 16 else if x.func = 1 && x.param / 16 % 4 = 2 then 4 else 0) else []
    .ok (s, done x.srcLen whole (splitRuns l out ++ ss) crc)
  else
    guardJob (x.stateAt != 0) 0x33 0
    let k := (((List.range (x.srcLen / 4096 + 1)).reverse.find? fun k =>
      decide (compLen x st dict src (k * 4096) false ≤ x.dstLen)).getD 0) * 4096
    let n := min (compLen x st dict src k false) x.dstLen
    let l ← dstRuns s x x.dst n 2
    let ss ← stateStores s x (ins ++ [src.take k])
    .ok (s, { status := 2, detail := 0, consumed := k, produced := n, result := [],
              stores := splitRuns l (engBytes (x.func * 4) (ins ++ [src.take k]) n) ++ ss })

/-- What a decompressor makes of its source: its verdict (0 for well-formed; else the status FORMAT, CHECKSUM
or WINDOW), how many bytes it puts out and consumes. -/
def verdict (x : Job) (ins : List (List Byte)) : Nat :=
  match Config.engNat (x.func * 4 + 2) ins % 4 with
  | 0 => 0
  | 1 => 0x30
  | 2 => 0x31
  | _ => 0x32

/-- Decompression of memory to memory. -/
def decompress (s : State) (x : Job) : Checked (State × JobEnd) := do
  let st ← savedState s x
  let dict ← srcBytes s x x.aux x.auxLen 3
  guardJob (x.func = 4 || x.auxLen = 0) 0x10 4
  guardJob (decide (x.auxLen ≤ 262144)) 0x10 4
  let src ← srcBytes s x x.src x.srcLen 1
  let ins := [beBytes 4 x.param, st, dict, src, [if x.flag 5 then 1 else 0]]
  let n := Config.engNat (x.func * 4 + 3) ins
  let v := verdict x ins
  if v ≠ 0 && n ≤ x.dstLen then
    let l ← dstRuns s x x.dst n 2
    .ok (s, { status := v, detail := 0, consumed := min x.srcLen (Config.engNat 3 ins), produced := n, result := [],
              stores := splitRuns l (engBytes (x.func * 4 + 2) ins n) })
  else if n ≤ x.dstLen then
    let l ← dstRuns s x x.dst n 2
    let ss ← if x.flag 5 then .ok [] else stateStores s x ins
    let crc := if x.func = 2 && x.param / 16 % 4 = 2 then engBytes 2 ins 4 else []
    .ok (s, done x.srcLen n (splitRuns l (engBytes (x.func * 4 + 2) ins n) ++ ss) crc)
  else
    guardJob (x.stateAt != 0) 0x33 0
    let l ← dstRuns s x x.dst x.dstLen 2
    let ss ← stateStores s x ins
    .ok (s, { status := 2, detail := 0, consumed := min x.srcLen (Config.engNat 4 (beBytes 4 x.dstLen :: ins)),
              produced := x.dstLen, result := [],
              stores := splitRuns l (engBytes (x.func * 4 + 2) ins x.dstLen) ++ ss })

/-- DEFLATE_COMPRESS (R348). -/
def execDeflateCompress (job : Nat) (s : State) : Host.Outcome State Fault Refusal :=
  runFunc s job 0x01 fun s x => compress s x []

/-- DEFLATE_DECOMPRESS (R348). -/
def execDeflateDecompress (job : Nat) (s : State) : Host.Outcome State Fault Refusal :=
  runFunc s job 0x02 fun s x => decompress s x

/-- ZSTANDARD_COMPRESS (R348). -/
def execZstandardCompress (job : Nat) (s : State) : Host.Outcome State Fault Refusal :=
  runFunc s job 0x03 fun s x => compress s x []

/-- ZSTANDARD_DECOMPRESS (R348). -/
def execZstandardDecompress (job : Nat) (s : State) : Host.Outcome State Fault Refusal :=
  runFunc s job 0x04 fun s x => decompress s x

/-! ### Ciphers (R349) -/

/-- Bit masks of the usage set as a slot holds it: PARAM[15:8] of its load (R352). -/
def uEnc : Nat := 0x80
def uDec : Nat := 0x40
def uSign : Nat := 0x20
def uVerify : Nat := 0x10
def uWrap : Nat := 0x08
def uUnwrap : Nat := 0x04
def uExport : Nat := 0x02
def uKem : Nat := 0x01

/-- A length-preserving cipher: DST_LEN at least SRC_LEN, checked before any byte moves. -/
def cipher (s : State) (x : Job) (types : List Nat) (usage : Nat) (aad tag : Bool) : Checked (State × JobEnd) := do
  guardJob (decide (x.srcLen ≤ x.dstLen)) 0x10 4
  let k ← needKey s x x.key types usage
  let st ← savedState s x
  let a ← if aad then srcBytes s x x.aux x.auxLen 3 else .ok []
  let src ← srcBytes s x x.src x.srcLen 1
  guardJob (!tag || decide ((if x.flag 6 then 0 else Config.engNat 5 [st]) + x.srcLen ≤ 2 ^ 36 - 32)) 0x34 0
  let l ← dstRuns s x x.dst x.srcLen 2
  let ins := [beBytes 4 x.param, k.secret, x.iv, st, a, src]
  let ss ← if x.flag 5 then .ok [] else stateStores s x ins
  .ok (s, done x.srcLen x.srcLen (splitRuns l (engBytes (x.func * 4) ins x.srcLen) ++ ss)
    (if tag && x.flag 5 then engBytes (x.func * 4 + 1) ins 16 else []))

/-- AES_GCM_ENCRYPT (R349). -/
def execAesGcmEncrypt (job : Nat) (s : State) : Host.Outcome State Fault Refusal :=
  runFunc s job 0x10 fun s x => cipher s x [1, 2] uEnc true true

/-- Zeros over a destination, before a record that reports a failed tag or a destination too small (R349). -/
def zeroed (l : List (Nat × Nat)) : List (Nat × List Byte) := l.map fun r => (r.1, List.replicate r.2 0)

/-- AES_GCM_DECRYPT (R349): one job; a tag that does not match overwrites every byte stored with zero. -/
def execAesGcmDecrypt (job : Nat) (s : State) : Host.Outcome State Fault Refusal :=
  runFunc s job 0x11 fun s x => do
    guardJob (x.flag 6 && x.flag 5) 0x10 2
    guardJob (decide (x.srcLen ≤ x.dstLen)) 0x10 4
    let k ← needKey s x x.key [1, 2] uDec
    let a ← srcBytes s x x.aux x.auxLen 3
    let src ← srcBytes s x x.src x.srcLen 1
    let l ← dstRuns s x x.dst x.srcLen 2
    let ins := [beBytes 4 x.param, k.secret, x.iv, a, src]
    if engBytes (x.func * 4 + 1) ins 16 = x.tagIn then
      .ok (s, done x.srcLen x.srcLen (splitRuns l (engBytes (x.func * 4) ins x.srcLen)) x.tagIn)
    else .ok (s, { status := 0x40, detail := 0, consumed := x.srcLen, produced := 0, result := [], stores := zeroed l })

/-- Data units of AES-XTS. -/
def xtsLen (x : Job) : Bool :=
  decide (16 ≤ x.srcLen) && (match x.param with | 0 => x.srcLen % 512 = 0 | 1 => x.srcLen % 4096 = 0 | _ => true)

/-- AES_XTS_ENCRYPT (R347). -/
def execAesXtsEncrypt (job : Nat) (s : State) : Host.Outcome State Fault Refusal :=
  runFunc s job 0x12 fun s x => do guardJob (xtsLen x) 0x10 4; cipher s x [3, 4] uEnc false false

/-- AES_XTS_DECRYPT (R347). -/
def execAesXtsDecrypt (job : Nat) (s : State) : Host.Outcome State Fault Refusal :=
  runFunc s job 0x13 fun s x => do guardJob (xtsLen x) 0x10 4; cipher s x [3, 4] uDec false false

/-- AES_CTR (R347). -/
def execAesCtr (job : Nat) (s : State) : Host.Outcome State Fault Refusal :=
  runFunc s job 0x14 fun s x => cipher s x [1, 2] (uEnc + uDec) false false

/-! ### Hashes and signatures -/

/-- Digest length of a hash. -/
def digestLen (p : Nat) : Nat :=
  match p with
  | 0 => 32
  | 1 => 48
  | 2 => 64
  | 4 => 32
  | 5 => 48
  | _ => 64

/-- A digest of a stream: stored at its last part, else its state is saved (R358). -/
def digest (s : State) (x : Job) (secret : List Byte) : Checked (State × JobEnd) := do
  let st ← savedState s x
  let src ← srcBytes s x x.src x.srcLen 1
  let ins := [beBytes 4 x.param, secret, st, src]
  if x.flag 5 then
    let n := digestLen (x.param % 16)
    guardJob (decide (n ≤ x.dstLen)) 0x10 4
    let l ← dstRuns s x x.dst n 2
    .ok (s, done x.srcLen n (splitRuns l (engBytes (x.func * 4) ins n)))
  else
    let ss ← stateStores s x ins
    .ok (s, done x.srcLen 0 ss)

/-- HASH (R347). -/
def execHash (job : Nat) (s : State) : Host.Outcome State Fault Refusal :=
  runFunc s job 0x20 fun s x => digest s x []

/-- HMAC (R347). -/
def execHmac (job : Nat) (s : State) : Host.Outcome State Fault Refusal :=
  runFunc s job 0x21 fun s x => do
    let k ← needKey s x x.key [5] (uSign + uVerify)
    digest s x k.secret

/-- Signature length by key type. -/
def sigLen (ty : Nat) : Nat :=
  match ty with
  | 8 => 64
  | 9 => 64
  | 0xA => 96
  | _ => 3309

/-- A signature stored to DST. -/
def sign (s : State) (x : Job) (types : List Nat) (rnd : Bool) (ctxAux : Bool) : Checked (State × JobEnd) := do
  guardJob (!(s.mode.mode = .compat && x.func = 0x34)) 0x14 0
  let k ← needKey s x x.key types uSign
  let r ← if rnd then randomFor s x 32 else .ok []
  let msg ← srcBytes s x x.src x.srcLen 1
  let c ← if ctxAux then srcBytes s x x.aux (x.param % 256) 3 else .ok []
  guardJob (!(decide (x.func = 0x32) && x.param.testBit 0) || x.srcLen = (if k.ty = 9 then 32 else 48)) 0x10 4
  let n := sigLen k.ty
  guardJob (decide (n ≤ x.dstLen)) 0x10 4
  let l ← dstRuns s x x.dst n 2
  .ok (if rnd then drawn s x else s,
    done x.srcLen n (splitRuns l (engBytes (x.func * 4) [beBytes 4 x.param, [BitVec.ofNat 8 k.ty], k.secret, r, c, msg] n)))

/-- A signature verified: DONE or VERIFY_FAIL, nothing stored. The public key is that of KEY, or with PUBMEM
the one at AUX, the signature then at DST (R347). `sigDst` is true where the signature lies at DST anyway. -/
def verify (s : State) (x : Job) (types : List Nat) (sigDst ctxAux : Bool) : Checked (State × JobEnd) := do
  guardJob (!(s.mode.mode = .compat && x.func = 0x35)) 0x14 0
  let pubmem := x.flag 2
  let (ty, pub) ← if pubmem then do
      let ty := match types with
        | [t] => t
        | _ => if x.auxLen = 65 then 9 else 0xA
      guardJob (ctxAux || x.auxLen = publicLen ty) 0x10 4
      let p ← srcBytes s x x.aux (publicLen ty) 3
      .ok (ty, p)
    else do
      let k ← needKey s x x.key types uVerify
      .ok (k.ty, engBytes 6 [[BitVec.ofNat 8 k.ty], k.secret] (publicLen k.ty))
  guardJob (!(decide (x.func = 0x33) && x.param.testBit 0) || x.srcLen = (if ty = 9 then 32 else 48)) 0x10 4
  let n := sigLen ty
  let sig ← if pubmem || sigDst then srcBytes s x x.dst n 2 else srcBytes s x x.aux n 3
  let c ← if ctxAux && !pubmem then srcBytes s x x.aux (x.param % 256) 3 else .ok []
  let msg ← srcBytes s x x.src x.srcLen 1
  let ok := Config.engNat (x.func * 4) [beBytes 4 x.param, [BitVec.ofNat 8 ty], pub, c, msg, sig] % 2 = 1
  .ok (s, { done x.srcLen 0 [] with status := if ok then 1 else 0x41 })

/-- ED25519_SIGN (R347). -/
def execEd25519Sign (job : Nat) (s : State) : Host.Outcome State Fault Refusal :=
  runFunc s job 0x30 fun s x => sign s x [8] false false

/-- ED25519_VERIFY (R347). -/
def execEd25519Verify (job : Nat) (s : State) : Host.Outcome State Fault Refusal :=
  runFunc s job 0x31 fun s x => verify s x [8] false false

/-- ECDSA_SIGN (R347). -/
def execEcdsaSign (job : Nat) (s : State) : Host.Outcome State Fault Refusal :=
  runFunc s job 0x32 fun s x => sign s x [9, 0xA] true false

/-- ECDSA_VERIFY (R347). -/
def execEcdsaVerify (job : Nat) (s : State) : Host.Outcome State Fault Refusal :=
  runFunc s job 0x33 fun s x => verify s x [9, 0xA] false false

/-- ML_DSA_SIGN (R347). -/
def execMlDsaSign (job : Nat) (s : State) : Host.Outcome State Fault Refusal :=
  runFunc s job 0x34 fun s x => sign s x [0xB] true true

/-- ML_DSA_VERIFY (R347). -/
def execMlDsaVerify (job : Nat) (s : State) : Host.Outcome State Fault Refusal :=
  runFunc s job 0x35 fun s x => verify s x [0xB] true true

/-! ### Loads of key slots (R353) -/

/-- The target slot a key function names in KEY2, empty and owned. -/
def targetSlot (s : State) (x : Job) : Checked Nat := do
  let slot := x.key2 % 8192
  guardJob (keyOwner s slot = x.ctx && !isReleased s 3 x.ctx) 0x20 1
  guardJob (Tab.look s.eng.keys slot).isNone 0x20 2
  .ok slot

/-- A slot is loaded; the new handle goes to RESULT (R353). -/
def loaded (s : State) (slot ty : Nat) (usage : Nat) (secret : List Byte) (consumed : Nat) : State × JobEnd :=
  let s := loadKey s slot { ty := ty, usage := BitVec.ofNat 8 usage, secret := secret }
  (s, done consumed 0 [] (handleOf s slot))

/-- The shared secret of ML-KEM: into the slot KEY2 as an AES-256 key (log 25), or to memory when KEY2 is zero. -/
def kemSecret (s : State) (x : Job) (secret : List Byte) (consumed : Nat) (stores : List (Nat × List Byte))
    (at_ : Nat) : Checked (State × JobEnd) := do
  if x.key2 = 0 then
    let l ← dstRuns s x at_ 32 2
    .ok (s, done consumed ((stores.map fun w => w.2.length).sum + 32) (stores ++ splitRuns l secret))
  else
    let slot ← targetSlot s x
    let (s, e) := loaded s slot 2 (x.param / 256 % 256) secret consumed
    .ok (s, { e with stores := stores, produced := (stores.map fun w => w.2.length).sum })

/-- ML_KEM_ENCAPSULATE (R347). -/
def execMlKemEncapsulate (job : Nat) (s : State) : Host.Outcome State Fault Refusal :=
  runFunc s job 0x36 fun s x => do
    guardJob (s.mode.mode != .compat) 0x14 0
    let pub ← if x.flag 2 then srcBytes s x x.aux 1184 3
      else do let k ← needKey s x x.key [0xC] uKem
              .ok (engBytes 6 [[0xC], k.secret] 1184)
    let r ← randomFor s x 32
    guardJob (decide (1088 + (if x.key2 = 0 then 32 else 0) ≤ x.dstLen)) 0x10 4
    let l ← dstRuns s x x.dst 1088 2
    kemSecret (drawn s x) x (engBytes (0x36 * 4 + 1) [pub, r] 32) 0 (splitRuns l (engBytes (0x36 * 4) [pub, r] 1088))
      (x.dst + 1088)

/-- ML_KEM_DECAPSULATE (R347). -/
def execMlKemDecapsulate (job : Nat) (s : State) : Host.Outcome State Fault Refusal :=
  runFunc s job 0x37 fun s x => do
    guardJob (s.mode.mode != .compat) 0x14 0
    let k ← needKey s x x.key [0xC] uKem
    guardJob (x.srcLen = 1088 && (x.key2 != 0 || decide (32 ≤ x.dstLen))) 0x10 4
    let ct ← srcBytes s x x.src 1088 1
    kemSecret s x (engBytes (0x37 * 4) [k.secret, ct] 32) 1088 [] x.dst

/-- RANDOM_BYTES (R354). -/
def execRandomBytes (job : Nat) (s : State) : Host.Outcome State Fault Refusal :=
  runFunc s job 0x40 fun s x => do
    guardJob (decide (1 ≤ x.dstLen ∧ x.dstLen ≤ 65536)) 0x10 4
    let r ← randomFor s x x.dstLen
    let l ← dstRuns s x x.dst x.dstLen 2
    .ok (drawn s x, done 0 x.dstLen (splitRuns l r))

/-- COMPRESS_THEN_ENCRYPT (R355). -/
def execCompressThenEncrypt (job : Nat) (s : State) : Host.Outcome State Fault Refusal :=
  runFunc s job 0x50 fun s x => do
    let k ← needKey s x x.key [1, 2] uEnc
    let a ← srcBytes s x x.aux x.auxLen 3
    compress s x [k.secret, a]

/-- DECRYPT_THEN_DECOMPRESS (R355, R349): the tag is checked before any failure of the decompression is
reported. -/
def execDecryptThenDecompress (job : Nat) (s : State) : Host.Outcome State Fault Refusal :=
  runFunc s job 0x51 fun s x => do
    guardJob (x.flag 6 && x.flag 5) 0x10 2
    let k ← needKey s x x.key [1, 2] uDec
    let a ← srcBytes s x x.aux x.auxLen 3
    let src ← srcBytes s x x.src x.srcLen 1
    let ins := [beBytes 4 x.param, k.secret, x.iv, a, src]
    let n := Config.engNat (0x51 * 4 + 3) ins
    let l ← dstRuns s x x.dst (min n x.dstLen) 2
    if engBytes (0x51 * 4 + 1) ins 16 ≠ x.tagIn then
      .ok (s, { status := 0x40, detail := 0, consumed := x.srcLen, produced := 0, result := [], stores := zeroed l })
    else if n > x.dstLen then
      .ok (s, { status := 0x33, detail := 0, consumed := 0, produced := 0, result := [], stores := zeroed l })
    else
      let v := verdict x ins
      .ok (s, { status := if v = 0 then 1 else v, detail := 0,
                consumed := if v = 0 then x.srcLen else min x.srcLen (Config.engNat 3 ins), produced := n,
                result := x.tagIn, stores := splitRuns l (engBytes (0x51 * 4) ins n) })

/-- The type and usage of a load are those PARAM gives (R352); an IMPORT or a GENERATE of two types is not available in
Compatibility operating mode (R363). -/
def loadParam (s : State) (x : Job) : Checked Nat := do
  guardJob (decide (secretLen x.param ≠ 0)) 0x10 5
  guardJob (x.func = 0x61 || !compatType s (x.param % 256)) 0x14 0
  .ok (secretLen x.param)

/-- IMPORT (R353). -/
def execImportKey (job : Nat) (s : State) : Host.Outcome State Fault Refusal :=
  runFunc s job 0x60 fun s x => do
    let n ← loadParam s x
    guardJob (x.srcLen = n) 0x10 4
    let slot ← targetSlot s x
    let sec ← srcBytes s x x.src n 1
    .ok (loaded s slot (x.param % 256) (x.param / 256 % 256) sec n)

/-- UNWRAP (R353): a failed integrity check loads nothing. -/
def execUnwrap (job : Nat) (s : State) : Host.Outcome State Fault Refusal :=
  runFunc s job 0x61 fun s x => do
    let n ← loadParam s x
    guardJob (x.srcLen = n + 8) 0x10 4
    let k ← needKey s x x.key [1, 2] uUnwrap
    let slot ← targetSlot s x
    let w ← srcBytes s x x.src (n + 8) 1
    guardJob (Config.engNat (0x61 * 4) [k.secret, w] % 2 = 1) 0x40 0
    .ok (loaded s slot (x.param % 256) (x.param / 256 % 256) (engBytes (0x61 * 4) [k.secret, w] n) (n + 8))

/-- WRAP (R353): the slot KEY2 names by its full handle needs EXPORT. -/
def execWrap (job : Nat) (s : State) : Host.Outcome State Fault Refusal :=
  runFunc s job 0x62 fun s x => do
    let k ← needKey s x x.key [1, 2] uWrap
    let (_, t) ← useKey s x x.key2
    guardJob (!compatType s t.ty) 0x14 0
    guardJob (t.usage.toNat &&& uExport != 0) 0x21 0
    let n := t.secret.length + 8
    guardJob (decide (n ≤ x.dstLen)) 0x10 4
    let l ← dstRuns s x x.dst n 2
    .ok (s, done 0 n (splitRuns l (engBytes (0x62 * 4) [k.secret, t.secret] n)))

/-- GENERATE (R353): a key from the generator. -/
def execGenerate (job : Nat) (s : State) : Host.Outcome State Fault Refusal :=
  runFunc s job 0x63 fun s x => do
    let n ← loadParam s x
    let slot ← targetSlot s x
    let r ← randomFor s x n
    .ok (loaded (drawn s x) slot (x.param % 256) (x.param / 256 % 256) r 0)

/-- PUBLIC (R353). -/
def execPublicKey (job : Nat) (s : State) : Host.Outcome State Fault Refusal :=
  runFunc s job 0x64 fun s x => do
    let k ← needKey s x x.key [8, 9, 0xA, 0xB, 0xC] 0
    let n := publicLen k.ty
    guardJob (decide (n ≤ x.dstLen)) 0x10 4
    let l ← dstRuns s x x.dst n 2
    .ok (s, done 0 n (splitRuns l (engBytes 6 [[BitVec.ofNat 8 k.ty], k.secret] n)))

/-- ERASE (R353): the slot KEY2 names by its full handle. -/
def execErase (job : Nat) (s : State) : Host.Outcome State Fault Refusal :=
  runFunc s job 0x65 fun s x => do
    let (slot, _) ← useKey s x x.key2
    let s := eraseKey s slot
    .ok (s, done 0 0 [] (handleOf s slot))

/-! ### Faults of engines, generators and slots (R350, R354, R360) -/

/-- An operation whose inline job can have no engine ends with INLINE (R357, Table 14-5). -/
def inlineLost (s : State) (inline : Option Nat) (j : Nat) : State :=
  match inline, (Tab.look s.eng.jobs j).bind (·.ended) with
  | some n, some e => match opAt s n with | some o => failOp s n o 12 e.status | none => s
  | _, _ => s

/-- ENGINE_ERROR: the engine stops and its job starts again on another; at the third stop in 1 s it is marked
failed (R360). -/
def execEngineError (crypt : Bool) (eng : Fin 8) (s : State) : Host.Outcome State Fault Refusal :=
  let e := eng.val
  let pg := if crypt then cryptPage e else zipPage e
  let x := if crypt then cryptAt s e else zipAt s e
  if x.failed then .next s
  else
    let now := s.time.transit.toNat
    let stops := now :: x.stops.filter fun t => decide (now < t + 100000)
    let fails := decide (stops.length ≥ 3)
    let x' : Eng := { failed := fails, restarting := !fails, stops := stops }
    let s := { s with eng := if crypt then { s.eng with crypts := s.eng.crypts.set eng x' }
                             else { s.eng with zips := s.eng.zips.set eng x' } }
    let hit := s.eng.jobs.find? fun j => (if crypt then j.2.crypt else j.2.zip) = some e
    let owner := hit.map fun j => j.2.ctx
    let s := logEvent (bump s pg 0x7D8) { page := pg, code := 0x2141, owner := owner }
    let s := if fails then logEvent s { page := pg, code := 0x2142, owner := owner } else s
    match hit with
    | some (j, y) =>
      if y.ended.isSome then .next s
      else
        let y := { y with zip := none, crypt := none }
        .next (inlineLost (assignJob (setJob s j y) j y) y.inline j)
    | none => .next s

def updDrbg (s : State) (d : Fin 2) (f : Drbg → Drbg) : State :=
  { s with eng := { s.eng with drbg := s.eng.drbg.set d (f s.eng.drbg[d]) } }

/-- DRBG_RESEED: after 1,000 ticks or 2^20 requests (R354). -/
def execDrbgReseed (die : Fin 2) (s : State) : Host.Outcome State Fault Refusal :=
  let d := s.eng.drbg[die]
  if d.ok && decide (d.ticks ≥ 1000 ∨ d.requests ≥ 1048576) then
    .next (updDrbg s die fun d => { d with requests := 0, ticks := 0 })
  else .next s

/-- ENTROPY_HEALTH_FAIL: the generator halts (R354). -/
def execEntropyHealthFail (die : Fin 2) (s : State) : Host.Outcome State Fault Refusal :=
  .next (logEvent (updDrbg s die fun d => { d with ok := false, healthFail := true })
    { page := keystorePage die.val, code := 0x2143 })

/-- DRBG_RECOVERY: seeded afresh after 1,024 passing samples (R354). -/
def execDrbgRecovery (die : Fin 2) (s : State) : Host.Outcome State Fault Refusal :=
  if s.eng.drbg[die].healthFail then
    .next (logEvent (updDrbg s die fun _ => { ok := true, healthFail := false, requests := 0, ticks := 0 })
      { page := keystorePage die.val, code := 0x0144 })
  else .next s

/-- KEY_SLOT_ERROR: an uncorrectable copy is repaired from the other die, or the slot is erased (R350). -/
def execKeySlotError (slot : Fin 8192) (badSd0 badSd1 : Bool) (s : State) : Host.Outcome State Fault Refusal :=
  let owner := some (keyOwner s slot.val)
  if badSd0 && badSd1 then
    .next (logEvent (eraseKey s slot.val) { page := keystorePage 0, code := 0x4146, owner := owner })
  else if badSd0 || badSd1 then
    let pg := keystorePage (if badSd0 then 0 else 1)
    .next (logEvent (bump s pg 0x7C0) { page := pg, code := 0x2145, owner := owner })
  else .next s

end Sys2Proof.Machine
end

