-- ==== Sys2Proof/Machine/Prefetch.lean ====
section
/-! DEFINITION. The L1 caches and the stride prefetcher (09 R206, R213, R214): what an access does to them, and the lines that
a stream requests ahead. -/

namespace Sys2Proof.Machine

/-- What a processor may use of cached translations alone: nothing is walked, no bit is set, no cause is raised
(R189). -/
def cachedAddr (s : State) (lp : Fin 48) (va : Word) (acc : Access) : Option Nat :=
  let x := (lpAt s lp).arch
  let final := fun (a : Nat) =>
    let pa := if privOf x.psws = 2 then some a
      else match (tlbsOf s lp).zones.find? fun z => z.ctx = lpPart s lp && z.zone = a / gib with
        | some z => match zoneResolve s (lpPart s lp) z.entry a true with | .ok pa => some pa | .error _ => none
        | none => none
    pa.filter fun pa => (regionOf s pa).isStorage
  if !bit x.psws 60 then (if va.toNat ≥ 2 ^ 52 then none else final va.toNat)
  else
    match findLeaf (tlbsOf s lp) acc (lpCtx s lp) (BitVec.ofNat 16 (field x.c[1] 0 16)) va with
    | some e =>
      if bit e.leaf 6 && effType .dram (some (field e.leaf 52 3)) = .normal &&
          permFault (privOf x.psws) (bit x.psws 61) acc false e.u e.w e.x = 0 then
        final (field e.leaf 12 40 * 4096 + va.toNat % 2 ^ levelShift e.level)
      else none
    | none => none

/-- A stream matches a miss in its 4 KiB region, or at the line its stride expects. -/
def Stream.matches (t : Stream) (va : Word) : Bool :=
  t.region = va.toNat / 4096 ||
    (decide (t.stride ≠ 0) && decide ((t.line : Int) + t.stride = (va.toNat / 256 : Nat)))

/-- A stream after a miss it matches: a stride that holds is counted, another begins anew. -/
def Stream.next (t : Stream) (va : Word) (store : Bool) : Stream :=
  let line := va.toNat / 256
  let d : Int := (line : Int) - t.line
  let ok := decide (d ≠ 0 ∧ -64 ≤ d ∧ d ≤ 64)
  { region := va.toNat / 4096, line := line, stride := if ok then d else 0,
    misses := if ok && decide (d = t.stride) then t.misses + 1 else if ok then 2 else 1, store := store }

/-- A line ahead is requested: into the L2, and into the L1 where it is near enough. -/
def prefetchLine (lp : Fin 48) (p : Fin 48) (store near : Bool) (s : State) (va : Word) : State :=
  match cachedAddr s lp va (if store then .store else .load) with
  | some pa =>
    match if store then ownNow s p (lineOf pa) else takeCopy s p (lineOf pa) with
    | some t => if near then l1Place t p (lineOf pa) false else t
    | none => s
  | none => s

/-- An access that misses in the L1 data cache is matched against the streams; one that matches none begins a stream, in
place of the one least recently matched (R213). -/
def trainStream (s : State) (p : Fin 48) (va : Word) (store : Bool) : State :=
  if !bit (cell s (regKey (clusterPage p.val) 0x040)) 31 then s
  else
    let l := (pairAt s p).streams
    let (t, rest) := match l.findIdx? fun t => t.matches va with
      | some i => (((l[i]?).map fun t => t.next va store).getD ⟨0, 0, 0, 0, store⟩, l.eraseIdx i)
      | none => ({ region := va.toNat / 4096, line := va.toNat / 256, stride := 0, misses := 1, store := store }, l.take 15)
    updPair s p fun x => { x with streams := t :: rest }

/-- An access to one line in Normal memory: a miss in the L1 data cache trains the streams, and a load fills the L1 where the
L2 holds the line (R206, R213). The fill of an L2 is a request of its own. -/
def touchLine (p : Fin 48) (store : Bool) (s : State) (va : Word) (line : Nat) : State :=
  if (Tab.look (pairAt s p).l1d line).isSome then s
  else
    let s := trainStream s p va store
    if !store && (l2State s p line).isSome then l1Place s p line false else s

/-- The lines of a piece of an operand are accessed in ascending order. -/
def touchPiece (lp : Fin 48) (store : Bool) (va : Word) (pa n : Nat) (s : State) : State :=
  match pairOf s lp with
  | none => s
  | some p =>
    (List.range (lineOf (pa + n - 1) - lineOf pa + 1)).foldl (fun s i =>
      touchLine p store s (if i = 0 then va else va + BitVec.ofNat 64 (256 * (lineOf pa + i) - pa)) (lineOf pa + i)) s

/-- A fetch from Normal memory fills the L1 instruction cache where the L2 holds the line (R206). -/
def touchFetch (lp : Fin 48) (pa : Nat) (s : State) : State :=
  match pairOf s lp with
  | none => s
  | some p => if (l2State s p (lineOf pa)).isSome then l1Place s p (lineOf pa) true else s

end Sys2Proof.Machine
end

