-- ==== Sys2Proof/Machine/PortOrder.lean ====
section
/-! DEFINITION. The order of what a function sends to a root port (07 R165): its writes are performed, and its messages and
frames taken, in the order they arrived. -/

namespace Sys2Proof.Machine

/-- The root port that a message arrives at. -/
def portOfMsg (c : PortMsg) : Fin 4 :=
  match c with
  | .posted port _ _ _ _ => port
  | .dma port _ _ _ _ _ _ => port
  | .msix port _ _ => port
  | .adapter port _ _ _ _ _ => port
  | .frame path _ _ _ => Fin.ofNat 4 (path.val / 64)

/-- A write of a port waits at its home, for a line that another transaction blocks (R235). -/
def portWrites (s : State) (port : Fin 4) : Bool :=
  let mine := fun (r : Req) => r.who = .port port && (r.kind = .wrL || r.kind = .wrP)
  (s.txns.any fun e => mine e.2.req) || s.slices.any fun e => e.2.waiting.any mine || e.2.reserve.any mine

/-- What arrives at a port waits behind an earlier write that is not performed. -/
def portWaits (s : State) (port : Fin 4) : Bool :=
  portWrites s port || s.portHeld.any fun c => portOfMsg c = port

/-- A message to a port has its effect, or is held in order behind what waits there (R165, log 123). -/
def inOrder (s : State) (c : PortMsg) (go : State → State) : State :=
  if portWaits s (portOfMsg c) then { s with portHeld := s.portHeld ++ [c] } else go s

end Sys2Proof.Machine
end

