-- ==== Sys2Proof/Machine/StartOp.lean ====
section
/-! DEFINITION. The start of a channel operation (12 R290-R292, 13 R321, R336), shared by IOSTART and the
initial program load, and the load itself (19 R458). -/

namespace Sys2Proof.Machine

/-- The serial after `v`: never zero (R321). -/
def nextSerial (v : BitVec 32) : BitVec 32 := if v = 0xFFFFFFFF#32 then 1 else v + 1

/-- The status an inline descriptor ends with if it breaks R356; none for a good one. -/
def inlineBad (ctx : Nat) (j : Job) : Option Nat :=
  if j.fld 0 1 ≠ 1 || !([1, 2, 3, 4, 0x10, 0x11, 0x14, 0x50, 0x51].contains j.func) then some 0x10
  else if j.src ≠ 0 || j.dst ≠ 0 || j.srcLen ≠ 0 || j.dstLen ≠ 0 || !j.flag 6 || !j.flag 5 || j.flag 0 || j.flag 1 ||
      j.fld 60 4 ≠ 0 || j.fld 72 8 ≠ 0 || j.stateAt = 0 || j.stateAt % 4096 ≠ 0 then some 0x10
  else if j.fld 3 1 ≠ ctxCode ctx then some 0x11
  else none

/-- The inline job of a Start Block joins its operation, or ends it with INLINE (R356, Table 12-8). -/
def startInline (s : State) (n : Nat) (o : Op) (handle : Nat) : State :=
  match if handle % 128 = 0 then ctxRange s o.ctx handle 128 else none with
  | some [(pa, 128)] =>
    let job : Job := { q := o.die * 64, at_ := pa, desc := curBytes s pa 128, ctx := o.ctx, zip := none,
                       crypt := none, inline := some n, ended := none }
    match if anyPoison s pa 128 then some 0x13 else inlineBad o.ctx job with
    | some st => decide_ s n { o with fetchDue := false } 12 st
    | none =>
      let k := s.eng.nextJob
      let s := assignJob { s with eng := { s.eng with nextJob := k + 1 } } k job
      match Tab.look s.eng.jobs k with
      | some x =>
        match x.ended with
        | some e => decide_ s n { o with fetchDue := false, job := some k } 12 e.status
        | none => setOp s n { o with job := some k }
      | none => setOp s n o
  | _ => decide_ s n { o with fetchDue := false } 12 0x12

/-- The slots an operation may start on, in the rotation of its subchannel (R336): the first starts from a slot
drawn at random. -/
def startSlots (s : State) (n : Nat) (pathmask : BitVec 8) : List Nat :=
  let k := match (schAt s n).lastSlot with
    | some k => k
    | none => (freeNow s).toNat % 8
  (rotation k).filter fun i => (usableSlots s n pathmask).contains i

/-- An operation that has not been accepted yet. -/
def newOp (ctx cwaddr : Nat) (parm : Word) (pathmask : BitVec 8) (inline : Option Word) (ipl : Bool) : Op :=
  { ctx := ctx, stage := .accepted, parm := parm, pathmask := pathmask, inline := inline, ipl := ipl, serial := 0,
    cwaddr := cwaddr, areas := [], idl := none, fetchDue := true, chainData := false, jumps := 0, sentFirst := false,
    granted := 0, carried := 0, seq := 1, acked := 0, journalled := 0, seqCmd := 0, wins := [], path := 0,
    pathsUsed := [], cp := 0, die := 0, index := 0, status := none, devstat := 0, halt := false, haltSeq := none,
    cancel := none, cancelSeq := none, resync := false, ending := none, waited := 0, job := none, jobState := [],
    jobStored := [], jobIn := 0, jobOut := 0 }

/-- An accepted operation (R292, R14): both journal writes are made, then it exists. -/
def acceptOp (s : State) (n slot ix : Nat) (o : Op) : State :=
  let x := schAt s n
  let start := match x.serial with
    | some v => v
    | none => (fun (v : BitVec 32) => if v = 0 then 1 else v) ((freeNow s >>> 32).setWidth 32)
  let p := slotPath s n slot
  let d := pathDie p
  let o := { o with serial := nextSerial start, path := p, pathsUsed := [p], die := d, index := ix, cp := chooseCp s d }
  let s := taken s
  let s := updSch s n fun x => { x with
    serial := some o.serial, func := .start, lastSlot := some slot, parm := o.parm, started := x.started + 1 }
  let s := jrnWrite s n o 1
  match o.inline with
  | some h => startInline s n o h.toNat
  | none => s

/-- The reason an operation is refused on an operational subchannel, first of the list of R290; 0 for none. -/
def startRefusal (s : State) (ctx n : Nat) (pathmask : BitVec 8) : Nat :=
  let x := schAt s n
  if (usableSlots s n pathmask).isEmpty then 0x41
  else if !bit (cell s (regKey (cssPage 0) 0x11C n)) 31 then 0x42
  else if x.status.isSome then 0x20
  else if x.func ≠ .none then 0x30
  else if decide (ctx < mgrCtx) && decide (opsOf s ctx ≥ cellField s (partPage ctx) 0x044 0 18) then 0x32
  else if (startSlots s n pathmask).all fun k => (jrnRoom s (pathDie (slotPath s n k))).isNone then 0x33
  else 0

/-- A subchannel is operational for a context (R286, Table 15-3). -/
def operational (s : State) (ctx n : Nat) : Bool := schOwner s n = ctx && schBound s n

/-- The start of an operation: the state and the result code of R290. -/
def startOp (s : State) (n : Nat) (o : Op) : State × Nat :=
  if !operational s o.ctx n || isReleased s 1 (n / 32768) then (s, 0x40)
  else
    match startRefusal s o.ctx n o.pathmask with
    | 0 =>
      match (startSlots s n o.pathmask).find? fun k => (jrnRoom s (pathDie (slotPath s n k))).isSome with
      | some k =>
        match jrnRoom s (pathDie (slotPath s n k)) with
        | some ix => (acceptOp s n k ix o, 0)
        | none => (s, 0x33)
      | none => (s, 0x33)
    | 0x33 =>
      ([0, 1].foldl (fun s d =>
        if (startSlots s n o.pathmask).any fun k => pathDie (slotPath s n k) = d then bump s (cssPage d) 0x7C4 else s) s,
       0x33)
    | r => (s, r)

/-! ### Initial program load (R458) -/

/-- Logical processor 0. -/
def lp0 : Fin 48 := 0

def iplSch (s : State) : Nat := cellField s keeperPage 0x148 0 18
def bootBase (s : State) : Nat := (cell s (regKey keeperPage 0x168)).toNat

/-- The load fails: logical processor 0 goes on waiting, and 2193h gives the stage. -/
def iplFails (s : State) (stage code : Nat) : State :=
  logEvent { s with mode := { s.mode with ipl := .none } }
    { page := keeperPage, code := 0x2193, sub := stage * 256 + code }

/-- The first operation starts. -/
def startIpl (s : State) : State :=
  let n := iplSch s
  let b := bootBase s
  let (s, r) := startOp s n (newOp mgrCtx b 0 0 none true)
  if r = 0 then { s with mode := { s.mode with ipl := .first n b } } else iplFails s 1 r

/-- Logical processor 0 begins at the start PSW of the boot block. DESIGN CHOICE (log 124): one that a signal has begun in
the meantime goes on. -/
def iplBegins (s : State) (n b : Nat) : State :=
  let a := curWord s (b + 8)
  let p := curWord s (b + 16)
  let s := { s with mode := { s.mode with ipl := .none } }
  let s := setCell (setCell s (regKey keeperPage 0x150) a) (regKey keeperPage 0x158) p
  if (lpAt s lp0).run ≠ .waiting then s
  else
    updLp (beginLp s lp0 a ((p &&& 0x3FFFFFFFFFFFFFFF) ||| 0x8000000000000000)) lp0 fun x =>
      let ar := { x.arch with g := (x.arch.g.set 1 (BitVec.ofNat 64 (schId s n))).set 2 (BitVec.ofNat 64 b) }
      { x with arch := ar, ckpt := ar }

/-- What the load does when its operation has ended with a final status code. -/
def iplGoesOn (s : State) (n fsc : Nat) : State :=
  match s.mode.ipl with
  | .none => s
  | .first m b =>
    if n ≠ m then s
    else if fsc ≠ 0 then iplFails s 2 fsc
    else
      let s := removeStatus s n
      let next := (curWord s (b + 24)).toNat
      if curVal s b 4 ≠ 0x4B594231 || curVal s (b + 4) 4 ≠ 1 || next % 16 ≠ 0 then iplFails s 3 0
      else if next = 0 then iplBegins s n b
      else
        let (s, r) := startOp s n (newOp mgrCtx next 0 0 none false)
        if r = 0 then { s with mode := { s.mode with ipl := .second n b } } else iplFails s 4 r
  | .second m b =>
    if n ≠ m then s
    else if fsc ≠ 0 then iplFails s 5 fsc
    else iplBegins (removeStatus s n) n b

end Sys2Proof.Machine
end

