-- ==== Sys2Proof/Machine/Channel.lean ====
section
/-! DEFINITION. The channel subsystem's commands other than the I/O instructions (12, 13). -/

namespace Sys2Proof.Machine

/-! ### Command Words (R293-R299) -/

/-- A Command Word read from storage. -/
def readCw (s : State) (pa : Nat) : Cw :=
  let f := curVal s (pa + 1) 1
  { cmd := curVal s pa 1, cc := f.testBit 7, cd := f.testBit 6, idl := f.testBit 5, prog := f.testBit 4,
    sli := f.testBit 3, skip := f.testBit 2, count := curVal s (pa + 4) 4, addr := curVal s (pa + 8) 8 }

/-- The checks of a Command Word, in the order of the DETAIL codes: 0 for none failed (R294). -/
def cwFault (s : State) (pa : Nat) (o : Op) (w : Cw) : Nat :=
  let jump := w.cmd = 0x1E
  let nop := w.cmd = 0x1F
  let cmd := if o.chainData && w.cmd = 0x10 then firstCmd o else w.cmd
  let listed := [0x11, 0x12, 0x13, 0x14, 0x1E, 0x1F].contains w.cmd
  if (if o.chainData then !(w.cmd = 0x10 || jump) else !listed) then 1
  else if curVal s (pa + 1) 1 % 4 ≠ 0 || curVal s (pa + 2) 2 ≠ 0 || (w.skip && cmd != 0x12) ||
      (nop && (w.cd || w.idl || w.prog || w.sli || w.skip)) ||
      (jump && (w.cc || w.cd || w.idl || w.prog || w.sli || w.skip)) then 2
  else if (if jump || nop then w.count != 0 else if cmd = 0x13 then decide (w.count > 4096)
      else decide (w.count = 0 ∨ w.count > 16777216)) then 3
  else if jump && w.addr % 16 ≠ 0 then 4
  else if jump && o.jumps ≥ 4 then 5
  else if w.idl && w.addr % 16 ≠ 0 then 6
  else if w.cd && cmd = 0x13 then 7
  else 0

/-- An intermediate status becomes pending, replacing one not retrieved (R306). -/
def postProgress (s : State) (n : Nat) (o : Op) : State :=
  updSch s n fun x =>
    match x.status with
    | some w => if w.final then x
        else { x with taken := false,
                      status := some { oswOf s o 0 0 with final := false, devstat := 0, progressLost := true } }
    | none => { x with taken := false, status := some { oswOf s o 0 0 with final := false, devstat := 0 } }

/-- Whether the data of a command passes the inline chain against its direction (R356). -/
def wrongWay (s : State) (o : Op) (cmd : Nat) : Bool :=
  match o.job with
  | none => false
  | some j =>
    match Tab.look s.eng.jobs j with
    | none => false
    | some job =>
      let f := (job.desc.getD 1 0).toNat
      (cmd = 0x11 && [2, 4, 0x11, 0x51].contains f) || (cmd = 0x12 && [1, 3, 0x10, 0x50].contains f)

/-- The inline job through which a command's data passes; CONTROL and SENSE data pass untransformed (R356). -/
def inlineJob (s : State) (o : Op) (cmd : Nat) : Option Job :=
  if cmd = 0x11 || cmd = 0x12 then o.job.bind fun j => Tab.look s.eng.jobs j else none

def inlineData (s : State) (o : Op) (cmd : Nat) : Bool := (inlineJob s o cmd).isSome

/-- The inline job of an operation waits for an engine, and takes one that is free. -/
def inlineAssign (s : State) (n : Nat) (o : Op) : State × Bool :=
  match o.job with
  | none => (s, false)
  | some j =>
    match Tab.look s.eng.jobs j with
    | none => (s, false)
    | some x =>
      if x.running then (s, false)
      else
        let s := assignJob s j x
        match Tab.look s.eng.jobs j with
        | none => (s, false)
        | some y => match y.ended with
          | some e => (failOp s n o 12 e.status, true)
          | none => (s, !y.running)

/-- A fetched Command Word that passed its checks takes effect (R294, R295, R306). -/
def runCw (s : State) (n : Nat) (o : Op) (ad : Nat) (w : Cw) : State :=
  if w.cmd = 0x1E then setOp s n { o with cwaddr := w.addr, jumps := o.jumps + 1 }
  else if w.cmd = 0x1F then
    let o := { o with areas := [⟨ad, w, 0⟩], granted := 0, carried := 0, seqCmd := 0, idl := none,
                      devstat := 0x80, jumps := 0 }
    if w.cc then setOp s n { o with cwaddr := ad + 16 }
    else decide_ s n { o with fetchDue := false } 0 0
  else if o.chainData then
    let o := { o with areas := o.areas ++ [⟨ad, w, o.carried⟩], idl := none, fetchDue := false,
                      chainData := false, jumps := 0, cwaddr := ad }
    let s := if w.prog then postProgress s n o else s
    grantAll s n o
  else
    let o := { o with areas := [⟨ad, w, 0⟩], granted := 0, carried := 0, seqCmd := 0, idl := none,
                      fetchDue := false, jumps := 0, cwaddr := ad }
    let s := if w.prog then postProgress s n o else s
    if wrongWay s o w.cmd then failOp s n o 12 0x10 else grantAll s n o

/-- COMMAND_WORD_FETCH: the next Command Word of an operation is fetched and checked (R293, R294, R298). -/
def execCommandWordFetch (sch : BitVec 18) (s : State) : Host.Outcome State Fault Refusal :=
  let n := sch.toNat
  match opAt s n with
  | none => .next s
  | some o =>
    if !o.fetchDue || o.ending.isSome || o.halt || o.cancel.isSome || o.stage = .ended || o.stage = .waiting ||
        o.resync || (cpAt s o.cp).role != .active then .next s
    else if (inlineAssign s n o).2 then .next (inlineAssign s n o).1
    else
      let s := (inlineAssign s n o).1
      let pa := if o.ipl && o.areas.isEmpty && o.jumps = 0 then none else opDram s o.ctx o.cwaddr 16
      match pa with
      | none =>
        if o.ipl && o.areas.isEmpty && o.jumps = 0 then
          .next (runCw s n o o.cwaddr ⟨0x12, false, false, false, false, true, false, 4096, o.cwaddr⟩)
        else
          .next (failOp s n { o with areas := o.areas ++ [⟨o.cwaddr, ⟨0, false, false, false, false, false, false, 0, 0⟩, o.carried⟩] } 5 1)
      | some pa =>
        let w := readCw s pa
        let bad := { o with areas := o.areas ++ [⟨o.cwaddr, w, o.carried⟩] }
        if anyPoison s pa 16 then .next (freshen (failOp s n bad 6 1))
        else
          match cwFault s pa o w with
          | 0 => .next (freshen (runCw s n o o.cwaddr w))
          | d => .next (freshen (failOp s n bad 4 d))

/-- FINAL_STATUS: an operation whose ending is decided ends (R302), its inline job's record written first (R357); the initial program load goes on (R458). -/
def execFinalStatus (sch : BitVec 18) (s : State) : Host.Outcome State Fault Refusal :=
  match opAt s sch.toNat with
  | some o =>
    match o.ending with
    | some w => .next <| if !inlineReady s o then s else (iplGoesOn (postFinal s sch.toNat o w) sch.toNat w.fsc)
    | none => .next s
  | none => .next s

/-- NOPATH_WAIT_EXPIRY: the wait for a usable path ends with NO_PATH (R311). -/
def execNopathWaitExpiry (sch : BitVec 18) (s : State) : Host.Outcome State Fault Refusal :=
  match opAt s sch.toNat with
  | some o =>
    if o.stage = .waiting && o.waited ≥ cellField s (cssPage 0) 0x040 0 12 * 100000 then
      .next (decide_ s sch.toNat o 9 (if o.unknown then 2 else 1))
    else .next s
  | none => .next s

/-- CANCEL_TIMEOUT: the adapter has not answered a cancel within 1 ms (R305). -/
def execCancelTimeout (sch : BitVec 18) (s : State) : Host.Outcome State Fault Refusal :=
  match opAt s sch.toNat with
  | some o =>
    match o.cancel with
    | some (fsc, d) => .next (decide_ s sch.toNat o fsc (if askedFor fsc then 2 else d))
    | none => .next s
  | none => .next s

/-! ### Inbound frames (R318, R335) -/

/-- The fields of an inbound frame. -/
structure InFrame where
  version : Nat
  ty : Nat
  path : Nat
  part : Nat
  sch : Nat
  serial : BitVec 32
  seq : Nat
  flags : Nat
  code : Nat
  len : Nat
  aux : Nat
  crcOk : Bool
  deriving DecidableEq, Repr

/-- A 64-byte frame read as Table 13-1 lays it out. -/
def readFrame (f : BitVec 512) : InFrame :=
  let bs := beBytes 64 f.toNat
  let v := fun (off n : Nat) => beVal ((bs.drop off).take n)
  { version := v 0 1, ty := v 1 1, path := v 2 1, part := v 3 1, sch := v 4 4,
    serial := BitVec.ofNat 32 (v 8 4), seq := v 12 4, flags := v 16 2, code := v 18 1, len := v 20 4,
    aux := v 32 8, crcOk := v 60 4 = (crc32c (bs.take 60)).toNat }

/-- What the checks of R335 say of a frame. -/
inductive FrameCheck where
  | bad | spoof | ok
  deriving DecidableEq, Repr

def checkFrame (s : State) (path : Nat) (rid : BitVec 16) (f : InFrame) : FrameCheck :=
  if !f.crcOk || f.version != 1 then .bad
  else if pathRid s path ≠ rid || !bit (pathCfg s path) 63 || f.path ≠ path || !f.flags.testBit 15 then .spoof
  else if f.ty = 5 then .ok
  else
    let n := f.sch % 262144
    let bound := f.sch / 262144 = pkgId s && schBound s n &&
      (List.range 8).any fun k => maskHas (schPim s n) k && slotPath s n k = path
    let live := match opAt s n with | some o => o.serial = f.serial | none => false
    if bound && f.part = ctxCode (schOwner s n) && live then .ok else .spoof

/-- Discard of an inbound frame (R324, R334, R335). -/
def discardFrame (s : State) (path : Nat) (c : FrameCheck) : State :=
  match c with
  | .bad =>
    let s := updPath s path fun x => { x with bad := x.bad + 1, resyncDue := true }
    if (pathAt s path).bad > 4 then failPath s path else s
  | .spoof =>
    onceEvent (bump s (pciePage (path / 64)) 0x7C0) (path % 64) { page := pciePage (path / 64), code := 0x2125 }
  | .ok => s

/-- A valid frame zeroes SILENCE (R334). -/
def heard (s : State) (path : Nat) : State := updPath s path fun x => { x with silence := 0 }

/-- The channel processor that serves a frame's operation is stopped (R339). -/
def cpStopped (s : State) (f : InFrame) : Bool :=
  match opAt s (f.sch % 262144) with
  | some o => f.ty != 5 && (cpAt s o.cp).role != .active
  | none => false

/-- An inbound frame on its way: checked, and discarded or handed on. A stopped channel processor's frames
are discarded (R339). -/
def inbound (s : State) (path : Nat) (rid : BitVec 16) (frame : BitVec 512) (ty : Nat)
    (act : State → InFrame → State) : State :=
  let f := readFrame frame
  match checkFrame s path rid f with
  | .ok =>
    if f.ty ≠ ty then s
    else
      let s := heard s path
      if cpStopped s f then s
      else
        let s := if f.flags.testBit 11 then bump s (pciePage (path / 64)) 0x7CC else s
        act s f
  | c => discardFrame s path c

/-- INBOUND_FRAME_DISCARD: a frame that fails a check is discarded (R335). -/
def frameDiscard (path : Fin 256) (rid : BitVec 16) (frame : BitVec 512) (s : State) : State :=
  discardFrame s path.val (checkFrame s path.val rid (readFrame frame))

/-- INBOUND_FRAME_DISCARD: in its order at the port (R165). -/
def execInboundFrameDiscard (path : Fin 256) (rid : BitVec 16) (frame : BitVec 512) (s : State) : Host.Outcome State Fault Refusal :=
  .next (inOrder s (.frame path rid frame .discard) (frameDiscard path rid frame))

/-- The inline chain writes its state at a window acknowledgement (R357): the state is free, of at most 4 KiB. An operation whose
STATE lies outside its storage ends with INLINE. -/
def inlineAck (s : State) (n : Nat) (o : Op) : State :=
  match o.job with
  | none => setOp s n o
  | some j =>
    match Tab.look s.eng.jobs j with
    | none => setOp s n o
    | some job =>
      let st := beVal ((job.desc.drop 64).take 8)
      let bs := (List.range ((freeNow s).toNat % 4097)).map fun i => Config.freeByte s.freeCtr i
      match ctxRange s o.ctx st 4096 with
      | some l => setOp ((splitRuns l bs).foldl (fun s r => agentWrite s r.1 r.2 job.agent) (taken s)) n { o with jobState := bs }
      | none => failOp s n o 12 0x12

/-- What an inline chain that has moved data finds at the end of an operation that would end normally: the status of a failure of
its stream or tag, which the standard decides (log 22), or of its length (R349, R357). -/
def inlineVerdict (s : State) (o : Op) : Option Nat :=
  match o.job.bind fun j => Tab.look s.eng.jobs j with
  | none => none
  | some x =>
    let w := (freeNow s).toNat
    if o.jobIn = 0 && o.jobOut = 0 then none
    else
      match x.func with
      | 0x02 => [none, some 0x30, some 0x31, some 0x32].getD (w % 4) none
      | 0x04 => [none, some 0x30, some 0x31, some 0x32].getD (w % 4) none
      | 0x11 => [none, some 0x40].getD (w % 2) none
      | 0x51 => [none, some 0x30, some 0x31, some 0x32, some 0x40].getD (w % 5) none
      | 0x10 => if o.jobIn > 2 ^ 36 - 32 then some 0x34 else none
      | 0x50 => if o.jobIn > 2 ^ 36 - 32 then some 0x34 else none
      | _ => none

/-- An operation ends normally, or with INLINE where its chain has failed; on a tag that does not match, every byte it stored is
overwritten with zero (R357). -/
def endNormal (s : State) (n : Nat) (o : Op) : State :=
  match inlineVerdict s o with
  | none => decide_ (if o.job.isSome then taken s else s) n o 0 0
  | some st =>
    let s := if st = 0x40 then o.jobStored.foldl (fun s r => agentWrite s r.1 (List.replicate r.2 0)) s else s
    decide_ (taken s) n o 12 st

/-- What follows an acknowledged window: the next area of the data chain, or further grants. -/
def afterAck (s : State) (n : Nat) (o : Op) : State :=
  match o.area with
  | none => setOp s n o
  | some a =>
    if a.cw.cd && o.wins.isEmpty && o.granted ≥ a.start + a.cw.count && o.carried ≥ a.start + a.cw.count &&
       !o.fetchDue && o.status.isNone then
      setOp s n { o with fetchDue := true, chainData := true, cwaddr := a.at_ + 16, jumps := 0 }
    else grantAll s n o

/-- Operations of a port that hold their next grant for want of a window grant again (R323). -/
def regrant (s : State) (port : Nat) : State :=
  (s.chan.ops.filter fun e => e.2.path / 64 = port && e.2.wins.isEmpty && !e.2.fetchDue && e.2.stage != .ended &&
    e.2.status.isNone).foldl (fun s e => grantAll s e.1 ((opAt s e.1).getD e.2)) s

/-- The window of an operation a sequence names is acknowledged with a length: its bytes are final (R303,
R325). -/
def ackWin (s : State) (n : Nat) (o : Op) (w : Win) (len : Nat) : State :=
  let full := decide (livePort s (o.path / 64) ≥ 32768)
  let wins := o.wins.filter fun w' => w'.seq != w.seq
  let acked := match wins with
    | [] => o.seq - 1
    | w' :: _ => w'.seq - 1
  let o := { o with wins := wins, acked := acked, carried := o.carried + len }
  let s := meter (updSch s n fun x => { x with bytes := x.bytes + BitVec.ofNat 64 len }) o.ctx 10 len
  if o.cancelSeq = some w.seq then
    match o.cancel with
    | some (fsc, d) => decide_ s n { o with wins := [] } fsc d
    | none => setOp s n o
  else
    let s := inlineAck s n o
    let s := afterAck s n ((opAt s n).getD o)
    let s := match opAt s n with | some o => sendAsked s n o | none => s
    if full then regrant s (o.path / 64) else s

/-- ACK_FRAME: an adapter's ACK makes its window's bytes final and frees the window (R325, R303). -/
def frameAck (path : Fin 256) (rid : BitVec 16) (frame : BitVec 512) (s : State) : State :=
  inbound s path.val rid frame 2 fun (s : State) (f : InFrame) =>
    let n := f.sch % 262144
    match opAt s n with
    | none => s
    | some o =>
      match o.wins.find? fun w => w.seq = f.seq with
      | none => s
      | some w => ackWin (if f.flags.testBit 11 then s else meter s o.ctx 9 1) n o w (min f.len w.len)

/-- ACK_FRAME: in its order at the port (R165). -/
def execAckFrame (path : Fin 256) (rid : BitVec 16) (frame : BitVec 512) (s : State) : Host.Outcome State Fault Refusal :=
  .next (inOrder s (.frame path rid frame .ack) (frameAck path rid frame))

/-- Where the data chain that begins at a Command Word ends: the address after it and its CC (R295). -/
def chainEnd (s : State) (ctx : Nat) : Nat → Nat → Nat × Bool
  | 0, a => (a, false)
  | fuel + 1, a =>
    match opDram s ctx a 16 with
    | none => (a, true)
    | some pa =>
      let w := readCw s pa
      if w.cmd = 0x1E then chainEnd s ctx fuel w.addr
      else if w.cmd = 0x10 && w.cd then chainEnd s ctx fuel (a + 16)
      else (a + 16, w.cc)

/-- How a command ends by the device's STATUS: a final status, or none where the chain goes on (R295, R296,
R301). `first` is true of the operation's first command; a halt not yet answered ends the operation only where the
chain would go on (R304). -/
def statusEnds (a : Area) (dev len : Nat) (more first haltDone : Bool) : Option (Nat × Nat) :=
  let short := a.cw.cd || decide (len < a.start + a.cw.count)
  if haltDone then some (7, 0)
  else if dev.testBit 4 && first then some (13, 0)
  else if dev.testBit 6 then some (2, 0)
  else if dev.testBit 5 then some (3, 0)
  else if more && !a.cw.sli then some (1, 1)
  else if short && !a.cw.sli then some (1, 2)
  else if a.cw.cd then none
  else if a.cw.cc then none
  else some (0, 0)

/-- STATUS_FRAME: the device ends the command (R326). With an inline chain its LENGTH counts device bytes, and the length is tested
in storage bytes (R357). -/
def frameStatus (path : Fin 256) (rid : BitVec 16) (frame : BitVec 512) (s : State) : State :=
  inbound s path.val rid frame 3 fun (s : State) (f : InFrame) =>
    let n := f.sch % 262144
    match opAt s n with
    | none => s
    | some o =>
      let s := if f.flags.testBit 11 then s else meter s o.ctx 9 1
      if o.stage = .ended then sendFrame s n o 2 f.seq 0x0400 0 0 0
      else
        match o.area, o.ending, o.status with
        | some a, none, none =>
          let haltDone := match o.haltSeq with | some q => decide (f.seq ≥ q) | none => false
          let o := { o with devstat := f.code, status := some f.seq,
                            wins := o.wins.filter fun w => w.cmd != 0x30 }
          let first := decide (o.seqCmd = 1)
          let len := if inlineData s o (firstCmd o) then o.carried else f.len
          match statusEnds a f.code len (f.flags.testBit 12) first haltDone with
          | some (fsc, d) => if fsc = 0 then endNormal s n o else decide_ s n o fsc d
          | none =>
            let (nxt, cc) := if a.cw.cd then chainEnd s o.ctx 4096 (a.at_ + 16) else (a.at_ + 16, a.cw.cc)
            if !cc then endNormal s n o
            else if o.halt then decide_ s n o 7 0
            else
              let s := sendFrame s n o 2 f.seq 0 0 0 0
              setOp s n { o with fetchDue := true, chainData := false, cwaddr := nxt, jumps := 0,
                                 wins := o.wins.filter fun w => w.cmd = 0x31 }
        | _, _, _ => s

/-- STATUS_FRAME: in its order at the port (R165). -/
def execStatusFrame (path : Fin 256) (rid : BitVec 16) (frame : BitVec 512) (s : State) : Host.Outcome State Fault Refusal :=
  .next (inOrder s (.frame path rid frame .status) (frameStatus path rid frame))

/-- Every frame of an operation above a sequence is sent again, in order, with new windows on a new path (R338). From the first
for which the port has no free window on, they are held as grants not yet made (R323). -/
def sendAgain (s : State) (n : Nat) (o : Op) (above : Nat) : State :=
  let (s, ws, held) := o.wins.foldl (fun (acc : State × List Win × Option Win) w =>
    let (s, ws, held) := acc
    let slot := if w.slot.isNone && w.len ≠ 0 && w.seq > above then freeSlot (setOp s n { o with wins := ws ++ o.wins }) o.path
      else w.slot
    if held.isSome then acc
    else if slot.isNone && w.len ≠ 0 && w.seq > above && o.cancelSeq.isNone then (s, ws, some w)
    else
      let w := { w with slot := slot }
      (taken (if w.seq > above then sendWin s n o w false else s), ws ++ [w], none)) (s, [], none)
  let o := match held with
    | some w => { o with wins := ws, seq := w.seq, granted := w.off, seqCmd := if w.cmd = 0 then o.seqCmd else 0 }
    | none => { o with wins := ws }
  grantAll (setOp s n o) n o

/-- RESYNC: the adapter's answer decides how the complex continues the operation (R338). -/
def frameResync (path : Fin 256) (rid : BitVec 16) (frame : BitVec 512) (s : State) : State :=
  inbound s path.val rid frame 6 fun (s : State) (f : InFrame) =>
    let n := f.sch % 262144
    match opAt s n with
    | none => s
    | some o =>
      if o.stage = .ended || o.stage = .waiting || o.ending.isSome then s
      else
        let o := { o with resync := false }
        if f.code = 0 then sendAgain s n o f.seq
        else if f.code = 1 then setOp s n o
        else if max o.acked o.journalled = 0 then sendAgain s n o 0
        else
          match o.cancel with
          | some (fsc, _) => decide_ s n o fsc 2
          | none => if o.halt then decide_ s n o 7 2 else decide_ s n o 9 2

/-- RESYNC: in its order at the port (R165). -/
def execResync (path : Fin 256) (rid : BitVec 16) (frame : BitVec 512) (s : State) : Host.Outcome State Fault Refusal :=
  .next (inOrder s (.frame path rid frame .resync) (frameResync path rid frame))

/-- A path is brought up, and HEARTBEATs are sent on it, only on a link at 64 GT/s or more (21 R500). -/
def pathLinked (s : State) (p : Nat) : Bool :=
  let f := funcAt s (p / 64) (pathRid s p)
  f.up && decide (cellField s (pciePage (p / 64)) 0x048 (8 * f.sub.val + 5) 3 ≥ 5)

/-- HEARTBEAT: brings a path up, zeroes SILENCE, counts toward the recovery of a failed path, or asks for
resynchronisation (R333-R335). -/
def frameHeartbeat (path : Fin 256) (rid : BitVec 16) (frame : BitVec 512) (s : State) : State :=
  inbound s path.val rid frame 5 fun s f =>
    let p := path.val
    let x := pathAt s p
    let quick := decide (x.sinceBeat ≤ 20)
    let s := updPath s p fun x => { x with sinceBeat := 0, beats := if quick then x.beats + 1 else 1 }
    let s := if f.flags.testBit 7 then updPath s p fun x => { x with resyncDue := true } else s
    match x.st with
    | .init =>
      if f.flags.testBit 8 && pathLinked s p then
        resumeWaiting (updPath s p fun x => { x with
          st := .up, segMax := min 3 (f.aux / 2 ^ 60), serves := f.aux % 2 ^ 32 }) p
      else s
    | .failed =>
      if (pathAt s p).beats ≥ 10 && pathLinked s p then
        let s := updPath s p fun x => { x with st := .up }
        resumeWaiting (logEvent s { page := pciePage (p / 64), code := 0x0124 }) p
      else s
    | _ => s

/-- HEARTBEAT: in its order at the port (R165). -/
def execHeartbeat (path : Fin 256) (rid : BitVec 16) (frame : BitVec 512) (s : State) : Host.Outcome State Fault Refusal :=
  .next (inOrder s (.frame path rid frame .heartbeat) (frameHeartbeat path rid frame))

/-! ### Adapter DMA (R323, R324) -/

/-- The live window of a path that holds a byte range of bus addresses: subchannel, operation, window. The stream of an inline
chain, which is not as long as the storage it stands for, may take the whole of its slot (log 117). -/
def findWin (s : State) (path slot off len : Nat) : Option (Nat × Op × Win) :=
  s.chan.ops.findSome? fun e =>
    if e.2.path = path && e.2.stage != .ended then
      (e.2.wins.find? fun w => w.slot = some slot &&
        decide (off + len ≤ (if inlineData s e.2 (firstCmd e.2) then 4096 else w.len))).map fun w => (e.1, e.2, w)
    else none

/-- The path of a port whose adapter a requester ID names. -/
def pathOfRid (s : State) (port : Nat) (rid : BitVec 16) : Nat :=
  port * 64 + (((List.range 64).find? fun k => bit (pathCfg s (port * 64 + k)) 63 && pathRid s (port * 64 + k) = rid).getD 0)

/-- A blocked adapter request: BXP_LATE for a window revoked within 10 ticks, else BXP_SPOOF and 2125h. -/
def blockDma (s : State) (port : Nat) (rid : BitVec 16) (path slot : Nat) (write inWin : Bool) : State :=
  let late := inWin && s.chan.revoked.any fun r => r.1 = path && r.2.1 = slot && decide (s.time.transit.toNat ≤ r.2.2 + 10)
  let s := if late then bump s (pciePage port) 0x7C4
    else onceEvent (bump s (pciePage port) 0x7C0) (path % 64) { page := pciePage port, code := 0x2125 }
  if write then s else emit (.dmaAbort port rid.toNat) s

/-- Bytes of storage that stand for `len` bytes of an inline stream: the ciphers preserve length, else how many is free (log 117). -/
def inlineLen (s : State) (x : Job) (w : Win) (len : Nat) : Nat :=
  if [0x10, 0x11, 0x14].contains x.func then min len w.len else (freeNow s >>> 32).toNat % (w.len + 1)

/-- A DMA write of an inline chain: what the engine stores in the window is free (R356, log 22). -/
def inlineStore (s : State) (n : Nat) (o : Op) (w : Win) (x : Job) (port : Fin 4) (len : Nat) : State :=
  let k := inlineLen s x w len
  let s := countMoved s x len k
  let s := agentWrite (taken s) w.phys ((List.range w.len).map fun i => Config.freeByte s.freeCtr i) (.port port)
  setOp s n { o with jobStored := o.jobStored ++ [(w.phys, w.len)], jobOut := o.jobOut + k }

/-- A DMA read of an inline chain: what the engine makes of the window's storage is free. -/
def inlineFetch (s : State) (n : Nat) (o : Op) (w : Win) (x : Job) (port : Fin 4) (rid : BitVec 16) (len : Nat) : State :=
  let k := inlineLen s x w len
  let s := emit (.dmaData port.val rid.toNat ((List.range len).map fun i => Config.freeByte s.freeCtr i))
    (countMoved (taken s) x k len)
  setOp s n { o with jobIn := o.jobIn + k }

/-- ADAPTER_DMA: accepted only within a live window of the path, in its direction (R324). -/
def adapterDma (port : Fin 4) (rid : BitVec 16) (addr : Word) (write : Bool) (len : Nat) (data : List Byte)
    (s : State) : State :=
  let a := addr.toNat
  let path := (a - 0x8000000000000000) / 0x100000000
  let slot := a % 0x100000000 / 0x1000
  let off := a % 0x1000
  let inWin := decide (0x8000000000000000 ≤ a ∧ path < 256 ∧ path / 64 = port.val) &&
    bit (pathCfg s path) 63 && pathRid s path = rid
  match if inWin then findWin s path slot off len else none with
  | none => blockDma s port.val rid (if inWin then path else pathOfRid s port.val rid) slot write inWin
  | some (n, o, w) =>
    if w.toStorage ≠ write then blockDma s port.val rid path slot write true
    else if write then
      if w.skip then s
      else
        match inlineJob s o (firstCmd o) with
        | some x => inlineStore s n o w x port len
        | none => agentWrite s (w.phys + off) (data.take len) (.port port)
    else if (if inlineData s o (firstCmd o) then anyPoison s w.phys w.len else anyPoison s (w.phys + off) len) then
      emit (.dmaAbort port.val rid.toNat) (sendCancel s n o 6 1)
    else
      match inlineJob s o (firstCmd o) with
      | some x => inlineFetch s n o w x port rid len
      | none => freshen (emit (.dmaData port.val rid.toNat (curBytes s (w.phys + off) len)) s)

/-- ADAPTER_DMA: in its order at the port (R165). -/
def execAdapterDma (port : Fin 4) (rid : BitVec 16) (addr : Word) (write : Bool) (len : Nat) (data : List Byte)
    (s : State) : Host.Outcome State Fault Refusal :=
  .next (inOrder s (.adapter port rid addr write len data) (adapterDma port rid addr write len data))

/-! ### Failures (R332, R334, R339) -/

/-- PATH_FAILED (R334, R337). -/
def execPathFailed (path : Fin 256) (cause : PathCause) (s : State) : Host.Outcome State Fault Refusal :=
  match cause with
  | .silence => .next (if (pathAt s path.val).silence ≥ 60 then failPath s path.val else s)
  | .linkDown => .next (failPath s path.val)
  | .containment => .next (failPath s path.val)
  | .crcBurst => .next (if (pathAt s path.val).bad > 4 then failPath s path.val else s)

/-- CP_STOP: restarted in place, or from the third stop in 1 s failed and taken over (R339). -/
def execCpStop (cp : Fin 32) (s : State) : Host.Outcome State Fault Refusal :=
  let c := cp.val
  let x := cpAt s c
  if x.role ≠ .active then .next s
  else
    let now := s.time.transit.toNat
    let stops := now :: x.stops.filter fun t => decide (now < t + 100000)
    let s := logEvent (bump s (cpPage c) 0x7C0) { page := cpPage c, code := 0x2121 }
    if stops.length < 3 then
      .next (updCp s c fun x => { x with role := .restarting, stops := stops, heir := some c })
    else
      let s := updCp s c fun x => { x with role := .failed, stops := stops }
      let die := c / 16
      match (List.range 16).find? fun i => (cpAt s (die * 16 + i)).role = .spare with
      | some i =>
        let h := die * 16 + i
        .next (updCp (updCp s h fun x => { x with role := .active }) c fun x => { x with heir := some h })
      | none => .next (logEvent s { page := cssPage die, code := 0x2122 })

/-- An operation passes to a channel processor, which its journal entry then names, and goes on (Table 13-8). -/
def takeOver (s : State) (n : Nat) (o : Op) (cp : Nat) : State :=
  goOn (if o.stage = .ended then setOp s n { o with cp := cp } else jrnWrite s n { o with cp := cp } o.stage.code) n

/-- CP_TAKEOVER_COMPLETE: the replacement has read the journal and resynchronises every operation it took over; with no spare
left the operations are spread over the die's active processors (R338, R339). Until then their frames are discarded. -/
def execCpTakeoverComplete (cp : Fin 32) (s : State) : Host.Outcome State Fault Refusal :=
  let c := cp.val
  let x := cpAt s c
  let s := updCp s c fun x => { x with role := if x.role = .restarting then .active else x.role, heir := none }
  let mine := s.chan.ops.filter fun e => e.2.cp = c
  match x.role with
  | .restarting => .next (mine.foldl (fun s e => goOn s e.1) s)
  | .failed => .next (mine.foldl (fun s e => takeOver s e.1 e.2 (x.heir.getD (chooseCp s (c / 16)))) s)
  | _ => .next s

/-- JOURNAL_ENTRY_ERROR: repaired from the other copy, or the partition ends (R332). -/
def execJournalEntryError (die : Fin 2) (index : Nat) (badPrimary badMirror : Bool) (s : State) :
    Host.Outcome State Fault Refusal :=
  let k := jrnKey die.val index
  match Tab.look s.chan.jrn k with
  | none => .next s
  | some e =>
    let ev : Event := { page := journalPage die.val 0, code := 0x2126, sub := index, detail := e.serial.toNat,
                        owner := some e.ctx }
    if badPrimary && badMirror then .next (raise s { ev with code := 0x6127 })
    else if badPrimary then .next (logEvent (bump s ev.page 0x7C0) ev)
    else if badMirror then
      let pg := journalPage (1 - die.val) 1
      .next (logEvent (bump s pg 0x7C0) { ev with page := pg })
    else .next s

end Sys2Proof.Machine
end

