-- ==== Sys2Proof/Machine/Feeds.lean ====
section
/-! DEFINITION. The power feeds (20 R478-R485): votes, switchover, repair, chatter and SWAP. -/

namespace Sys2Proof.Machine

/-- Feed A or Feed B. -/
def feedOf (s : State) (b : Bool) : FeedIn := if b then s.feed.b else s.feed.a

def setFeed (s : State) (b : Bool) (x : FeedIn) : State :=
  { s with feed := if b then { s.feed with b := x } else { s.feed with a := x } }

def updFeed (s : State) (b : Bool) (f : FeedIn → FeedIn) : State := setFeed s b (f (feedOf s b))

/-- The system dies cast votes: they are powered and not stopped (R480). -/
def sdVotes (s : State) : Bool :=
  match s.mode.mode with
  | .off => false
  | .standby => false
  | .checkstop => false
  | .init => s.mode.phase ≥ 2
  | _ => true

/-- The Keeper's own monitor holds a feed failed. -/
def keeperBad (x : FeedIn) : Bool := vget x.bad true 2

/-- Votes that hold a feed failed: SD0, SD1, and the Keeper's, which its status input also decides unless it is
chattering (R479). -/
def failVotes (s : State) (x : FeedIn) : Nat :=
  (if sdVotes s && vget x.bad true 0 then 1 else 0) + (if sdVotes s && vget x.bad true 1 then 1 else 0) +
    (if keeperBad x || (x.pgBad && !x.chat) then 1 else 0)

/-- A feed is in range at every monitor, with its status input asserted or chattering (R481). -/
def inRange (s : State) (x : FeedIn) : Bool :=
  !keeperBad x && (x.pg || x.chat) && (!sdVotes s || (!vget x.bad true 0 && !vget x.bad true 1))

/-- Code of a feed as FEED_STATE.ACTIVE shows it. -/
def feedCode (b : Bool) : Nat := if b then 2 else 1

/-- Events of the FEED page. -/
def feedEvent (s : State) (code sub : Nat) : State := logEvent s { page := feedPage, code := code, sub := sub }

/-- The decision on the active feed after a verdict has changed (R480). -/
def judgeActive (s : State) (single : Bool) : State :=
  match s.feed.active with
  | none => s
  | some b =>
    let x := feedOf s b
    let v := failVotes s x
    if v ≥ 2 then
      if keeperBad (feedOf s !b) then s
      else
        let s := updFeed (updFeed s b fun x => { x with st := .failed, repair := 0 }) (!b)
          fun x => { x with st := .active, repair := 0 }
        let s := bump { s with feed := { s.feed with active := some !b } } feedPage 0x7C0
        degrade (feedEvent s 0x21A1 (feedCode !b)) .feed
    else if v = 1 && single then bump (feedEvent s 0x01A4 0) feedPage 0x7C4
    else s

/-- The state of a feed that is not active, after a verdict on it has changed (R481, Table 20-5). DESIGN CHOICE (log 125): with
no feed active the Keeper's own verdict is the one recorded, and a feed that has not been seen before is standby as soon
as it is in range. -/
def judgeOther (s : State) (b : Bool) : State :=
  let x := feedOf s b
  if s.feed.active = some b then s
  else if s.feed.active.isNone && x.st = .absent then
    (if inRange s x then updFeed s b fun x => { x with st := .standby } else s)
  else if s.feed.active.isNone && x.st = .standby && keeperBad x then
    updFeed s b fun x => { x with st := .failed, repair := 0 }
  else if x.st = .standby && decide (failVotes s x ≥ 2) then
    degrade (feedEvent (updFeed s b fun x => { x with st := .failed, repair := 0 }) 0x21A2 0) .feed
  else if x.st = .repairing && !inRange s x then updFeed s b fun x => { x with st := .failed, repair := 0 }
  else if (x.st = .failed || x.st = .absent) && inRange s x then
    updFeed s b fun x => { x with st := .repairing, repair := 0 }
  else s

/-- A verdict on a feed has changed: a single new vote against the active feed is an event. The arbiter is the Keeper's: without
it nothing is judged (log 126). -/
def judge (s : State) (b against : Bool) : State :=
  if keeperRuns s then judgeActive (judgeOther s b) (against && s.feed.active = some b) else s

/-- FEED_OUT_OF_RANGE (R479): monitors 0 and 1 are those of SD0 and SD1, 2 the Keeper's. -/
def execFeedOutOfRange (feedB : Bool) (monitor : Fin 3) (s : State) : Host.Outcome State Fault Refusal :=
  .next (judge (updFeed s feedB fun x => { x with bad := x.bad.set monitor true }) feedB true)

/-- FEED_IN_RANGE (R481). -/
def execFeedInRange (feedB : Bool) (monitor : Fin 3) (s : State) : Host.Outcome State Fault Refusal :=
  .next (judge (updFeed s feedB fun x => { x with bad := x.bad.set monitor false }) feedB false)

/-- FEED_STATUS_CHANGE (R479, R483): a deglitched change, and how long the new level has held. -/
def execFeedStatusChange (feedB : Bool) (level : Bool) (heldNs : Nat) (s : State) : Host.Outcome State Fault Refusal :=
  .next <|
    let x := feedOf s feedB
    if x.pg = level then
      judge (setFeed s feedB { x with pgBad := !level && (x.pgBad || decide (heldNs ≥ 1000)) }) feedB true
    else
      let many := decide (x.changes + 1 > 8)
      let s := setFeed s feedB { x with
        pg := level, pgBad := !level && decide (heldNs ≥ 1000), changes := x.changes + 1, quiet := 0,
        chat := x.chat || many }
      let s := if many && !x.chat then bump (feedEvent s 0x21A5 0) feedPage 0x7C8 else s
      judge s feedB true

/-- FEED_REPAIRED (R481). -/
def execFeedRepaired (feedB : Bool) (s : State) : Host.Outcome State Fault Refusal :=
  .next <|
    let x := feedOf s feedB
    if x.st = .repairing && decide (x.repair ≥ 100000) && inRange s x && keeperRuns s then
      feedRestored (feedEvent (setFeed s feedB { x with st := .standby, repair := 0 }) 0x01A3 0)
    else s

/-- CHATTER_END (R483). -/
def execChatterEnd (feedB : Bool) (s : State) : Host.Outcome State Fault Refusal :=
  .next <|
    let x := feedOf s feedB
    if x.chat && decide (x.quiet ≥ 1000) then judge (setFeed s feedB { x with chat := false, pgBad := !x.pg }) feedB true
    else s

/-- FEED COMMAND 10h (R482). -/
def swapCommand (s : State) (m : Master) : State :=
  let ok := match s.feed.active with | some b => (feedOf s !b).st = .standby && !s.feed.trip | none => false
  command s m feedPage ok fun s =>
    match s.feed.active with
    | some b =>
      let s := updFeed (updFeed s b fun x => { x with st := .standby, repair := 0 }) (!b)
        fun x => { x with st := .active, repair := 0 }
      bump { s with feed := { s.feed with active := some !b } } feedPage 0x7C0
    | none => s

def execSwap (m : Master) (s : State) : Host.Outcome State Fault Refusal := .next (swapCommand s m)

/-- FEED COMMAND 11h (R492). -/
def clearTripCommand (s : State) (m : Master) : State :=
  command s m feedPage true fun s => { s with feed := { s.feed with trip := false } }

def execClearTrip (m : Master) (s : State) : Host.Outcome State Fault Refusal := .next (clearTripCommand s m)

/-- AGING_CHECK (R495): a slack below the rated margin uses one guardband step, of eight. -/
def execAgingCheck (die : Fin 4) (short : Bool) (s : State) : Host.Outcome State Fault Refusal :=
  .next <|
    let v := vget s.feed.vgb 0 die.val
    if !short || !keeperRuns s then s
    else if v ≥ 8 then feedEvent s 0x21AA 0
    else
      let s := { s with feed := { s.feed with vgb := vset s.feed.vgb die.val (v + 1) } }
      if v + 1 = 6 then feedEvent s 0x01A9 0 else s

end Sys2Proof.Machine
end

