-- ==== Sys2Proof/Machine/ControlStore.lean ====
section
/-! DEFINITION. Image slots, their verification, the fuses, control-store errors and the concurrent update
(18). -/

namespace Sys2Proof.Machine

/-! ### Images (R436) -/

/-- Byte `i` of an image slot. -/
def imgByte (s : State) (slot i : Nat) : Byte :=
  BitVec.ofNat 8 (field (Tab.read (fun _ => (0 : Word)) s.cs.words (slot * 65536 + i / 8 % 65536)) (8 * (7 - i % 8)) 8)

def imgBytes (s : State) (slot off n : Nat) : List Byte := (List.range n).map fun i => imgByte s slot (off + i)

/-- Big-endian field of an image. -/
def imgVal (s : State) (slot off n : Nat) : Nat := beVal (imgBytes s slot off n)

/-- One entry of the section table. -/
structure Section where
  ty : Nat
  off : Nat
  len : Nat
  digest : List Byte
  deriving DecidableEq, Repr

def imgSection (s : State) (slot i : Nat) : Section :=
  let e := 256 + 64 * i
  { ty := imgVal s slot e 1, off := imgVal s slot (e + 4) 4, len := imgVal s slot (e + 8) 4,
    digest := imgBytes s slot (e + 16) 48 }

def imgSections (s : State) (slot : Nat) : List Section :=
  (List.range (imgVal s slot 6 2)).map (imgSection s slot)

/-- Bytes of a signature block. -/
def sigBlock : Nat := 5357

/-- Match entry `i` of a compatibility patch: it follows 1,024 microwords and 256 nanowords (R446). -/
def patchEntry (s : State) (slot : Nat) (x : Section) (i : Nat) : Nat := imgVal s slot (x.off + 8192 + 8 * i) 8

/-- A compatibility patch has its whole length, and its match entries name only patch addresses (R446). -/
def patchOk (s : State) (slot : Nat) (x : Section) : Bool :=
  decide (x.len = 8448) && (List.range 32).all fun i =>
    let v := patchEntry s slot x i
    let a := v % 32768
    !v.testBit 63 || decide (0x4000 ≤ a ∧ a ≤ 0x43FF)

/-- Sections lie between the table and the signature block and do not overlap. -/
def placed (sig : Nat) : List Section → Bool
  | [] => true
  | x :: l => decide (1280 ≤ x.off ∧ x.off + x.len ≤ sig) &&
      (l.all fun y => decide (x.off + x.len ≤ y.off ∨ y.off + y.len ≤ x.off)) && placed sig l

/-- The form of an image: MAGIC, FORMAT, lengths, offsets, overlap and section set (Table 18-6). -/
def imgForm (s : State) (slot : Nat) : Bool :=
  let n := imgVal s slot 6 2
  let sig := imgVal s slot 20 4
  let len := imgVal s slot 16 4
  let l := imgSections s slot
  let has := fun (t : Nat) => (l.filter fun x => x.ty = t).length
  decide (imgVal s slot 0 4 = 0x43525453 ∧ imgVal s slot 4 2 = 1 ∧ 1 ≤ n ∧ n ≤ 16 ∧ len ≤ 524288 ∧
    sig % 256 = 0 ∧ sig + sigBlock ≤ len ∧ imgVal s slot 12 2 ≤ 128) &&
  (imgBytes s slot 24 232).all (· = 0) &&
  (List.range 16).all (fun i =>
    let e := 256 + 64 * i
    if i < n then decide (imgVal s slot (e + 1) 3 = 0 ∧ imgVal s slot (e + 12) 4 = 0)
    else (imgBytes s slot e 64).all (· = 0)) &&
  l.all (fun x => decide (1 ≤ x.ty ∧ x.ty ≤ 5)) &&
  decide (has 1 = 1 ∧ has 2 = 1 ∧ has 3 = 1 ∧ has 4 = 1 ∧ has 5 ≤ 1) && placed sig l &&
  l.all (fun x => x.ty != 5 || patchOk s slot x)

/-- SHA-384, as the standard computes it (log 22). -/
def sha384 (l : List Byte) : List Byte := (List.range 48).map fun i => Config.engByte 0x384 [l] i

/-- The fused key pair an image is signed with: both its public keys belong to it, and it is not revoked. -/
def imgKey (s : State) (slot : Nat) : Option Nat :=
  let sig := imgVal s slot 20 4
  (List.range 4).find? fun k =>
    !s.fuses.revoked.getLsbD k &&
    sha384 (imgBytes s slot sig 32) = Config.keyHash k 0 && sha384 (imgBytes s slot (sig + 32) 1952) = Config.keyHash k 1

/-- Verdict of a signature scheme on the signed message: 0 Ed25519, 1 ML-DSA-65 (log 22). -/
def sigOk (s : State) (slot scheme : Nat) : Bool :=
  let sig := imgVal s slot 20 4
  let msg := imgBytes s slot 0 sig
  if scheme = 0 then Config.engNat 0xED [imgBytes s slot sig 32, msg, imgBytes s slot (sig + 1984) 64] = 1
  else Config.engNat 0xD5A [imgBytes s slot (sig + 32) 1952, msg, imgBytes s slot (sig + 2048) 3309] = 1

/-- The first check of Table 18-6 that fails; 01h PASS. -/
def imageVerdict (s : State) (slot : Nat) : Nat :=
  if !imgForm s slot then 0x10
  else if (imgKey s slot).isNone then 0x11
  else if !sigOk s slot 0 then 0x12
  else if !sigOk s slot 1 then 0x13
  else if (imgSections s slot).any fun x => sha384 (imgBytes s slot x.off x.len) != x.digest then 0x14
  else if imgVal s slot 12 2 < s.fuses.svn then 0x15
  else if imgVal s slot 14 2 ≠ 1 then 0x16
  else 1

/-! ### Slots -/

def currentSlot (s : State) : Nat := cellField s (csPage 6) 0x080 0 1
def slotVerified (s : State) (slot : Nat) : Bool := if slot = 0 then s.cs.ver0 else s.cs.ver1
def slotHdr (s : State) (slot : Nat) : Word := if slot = 0 then s.cs.hdr0 else s.cs.hdr1

def setSlot (s : State) (slot : Nat) (ver : Bool) (res : Nat) : State :=
  { s with cs := if slot = 0 then { s.cs with ver0 := ver, res0 := res } else { s.cs with ver1 := ver, res1 := res } }

/-- Images that pairs and channel processors run. -/
def runImages (s : State) : List Word :=
  ((all48.filter fun p => (pairAt s p).powered && (pairAt s p).image != 0).map fun p => (pairAt s p).image) ++
  (((List.range 32).filter fun c => (cpAt s c).role != .spare && (cpAt s c).image != 0).map fun c => (cpAt s c).image)

/-- A slot is in use: it is current, or an image loaded from it runs; none is before the first load, nor
while Load waits for a good image (R437, R450, R455). -/
def slotInUse (s : State) (slot : Nat) : Bool :=
  !s.mode.slotsUnused && !(s.mode.mode = .load && (!slotVerified s slot || s.mode.result != 0)) && (currentSlot s = slot || (runImages s).any fun w => field w 15 1 = slot)

/-- IMG_IDX advances (R437). -/
def advanceIdx (s : State) : State :=
  let k := regKey (csPage 6) 0x040
  let v := cell s k
  setCell s k (BitVec.ofNat 64 (at_ (field v 31 1) 31 + (field v 0 16 + 1) % 65536))

/-- A write to IMG_DATA of 4 or 8 bytes at its offset (R437). -/
def writeImg (s : State) (m : Master) (off size : Nat) (v : Word) : State :=
  let i := cell s (regKey (csPage 6) 0x040)
  let slot := field i 31 1
  if !writable s m (csPage 6) || slotInUse s slot || s.cs.busy.map Fin.val = some slot then
    discard s m (csPage 6 * 4096 + off) true
  else
    let k := slot * 65536 + field i 0 16
    let old := Tab.read (fun _ => (0 : Word)) s.cs.words k
    let s := setSlot s slot false 0
    let s := if s.mode.mode = .load && slot = currentSlot s then { s with mode := { s.mode with phase := 0x10 } } else s
    advanceIdx { s with cs := { s.cs with words := Tab.write (fun _ => (0 : Word)) s.cs.words k (putHalf old off size v) } }

/-- A read of the service space by a master: the reply leaves; a refused one is counted, a Completer Abort at a port
and all ones in-band (R54). -/
def readBy (s : State) (m : Master) (off size : Nat) : State :=
  if portLost s m then s else
  match readService s m off size with
  | .value v => emit (.reply m v) (readEffect s m off size)
  | .refused =>
    emit (if m = .manager then .reply m (BitVec.ofNat 64 (2 ^ (8 * size) - 1)) else .abort m) (discard s m off false)

/-- IMG_DATA (R437): an access to the register. -/
def execImgData (m : Master) (write : Bool) (v : Word) (s : State) : Host.Outcome State Fault Refusal :=
  .next (if write then writeImg s m 0x048 8 v else readBy s m (csPage 6 * 4096 + 0x048) 8)

/-- CS COMMAND 10h (R438): COMMAND reads as written until verification ends. -/
def verifyCommand (s : State) (m : Master) (arg : Nat) : State :=
  command s m (csPage 6) s.cs.busy.isNone fun s =>
    { s with cs := { s.cs with busy := some (if arg % 2 = 0 then 0 else 1) },
             cmds := Tab.put s.cmds (csPage 6) (BitVec.ofNat 64 (arg % 2 ^ 24 * 256 + 0x10)) }

def execStartVerification (m : Master) (slot : Fin 2) (s : State) : Host.Outcome State Fault Refusal :=
  .next (verifyCommand s m slot.val)

/-- What Load needs of the current slot: a section 05h with COMPAT (R445, R453). -/
def sectionsOk (s : State) : Bool :=
  !cellBit s keeperPage 0x0C4 31 || (imgSections s (currentSlot s)).any fun x => x.ty = 5

/-- Load goes on once the current slot is VERIFIED and carries what it needs: PHASE 11h, with RESULT 00h (R455). -/
def loadGoesOn (s : State) (slot : Nat) : State :=
  if s.mode.mode = .load && slot = currentSlot s && sectionsOk s then
    { s with mode := { s.mode with phase := 0x11, result := 0 } }
  else s

/-- VERIFICATION_COMPLETE (R438). SUBUNIT of 2183h holds the slot in bits 15:8 and the code in bits 7:0
(log 31). -/
def execVerificationComplete (s : State) : Host.Outcome State Fault Refusal :=
  .next <|
    match if keeperRuns s then s.cs.busy else none with
    | none => s
    | some f =>
      let slot := f.val
      let r := imageVerdict s slot
      let s := { s with cs := { s.cs with busy := none }, cmds := Tab.del s.cmds (csPage 6) }
      let s := setSlot s slot (r = 1) r
      if r = 1 then
        let h := BitVec.ofNat 64 (imgVal s slot 8 4 * 2 ^ 32 + imgVal s slot 12 2 * 65536 + imgVal s slot 14 2)
        let k := (imgKey s slot).getD 0
        loadGoesOn { s with cs :=
          if slot = 0 then { s.cs with hdr0 := h, key0 := k } else { s.cs with hdr1 := h, key1 := k } } slot
      else logEvent s { page := csPage 6, code := 0x2183, sub := slot * 256 + r }

/-- CS COMMAND 11h (R439). -/
def advanceCommand (s : State) (m : Master) : State :=
  let cur := currentSlot s
  let svn := field (slotHdr s cur) 16 16
  command s m (csPage 6) (slotVerified s cur && (runImages s).all fun w => decide (field w 16 16 ≥ svn)) fun s =>
    let s := { s with fuses := { s.fuses with svn := max s.fuses.svn svn } }
    { s with cs := { s.cs with ver0 := s.cs.ver0 && decide (field s.cs.hdr0 16 16 ≥ s.fuses.svn),
                               ver1 := s.cs.ver1 && decide (field s.cs.hdr1 16 16 ≥ s.fuses.svn) } }

def execAdvance (m : Master) (s : State) : Host.Outcome State Fault Refusal := .next (advanceCommand s m)

/-- CS COMMAND 12h (R439). -/
def revokeCommand (s : State) (m : Master) (arg : Nat) : State :=
  let cur := currentSlot s
  let k := arg % 4
  let own := if cur = 0 then s.cs.key0 else s.cs.key1
  command s m (csPage 6) (!(slotVerified s cur && own = k)) fun s =>
    { s with fuses := { s.fuses with revoked := s.fuses.revoked ||| BitVec.ofNat 4 (2 ^ k) } }

def execRevokeKeyPair (m : Master) (k : Fin 4) (s : State) : Host.Outcome State Fault Refusal :=
  .next (revokeCommand s m k.val)

/-- IMAGE_SLOT_ERROR (R437, as R332): one copy is repaired from the other die's; with both lost the word is a
free value. -/
def execImageSlotError (slot : Fin 2) (word : BitVec 16) (badSd0 badSd1 : Bool) (s : State) :
    Host.Outcome State Fault Refusal :=
  .next <|
    if badSd0 && badSd1 then
      let k := slot.val * 65536 + word.toNat
      let v := freeNow s
      let s := taken s
      { s with cs := { s.cs with words := Tab.write (fun _ => (0 : Word)) s.cs.words k v } }
    else s

/-! ### Errors of the store (R435) -/

/-- Die of a domain that holds a control store. -/
def domDie : Domain → Option Nat
  | .pair p => some (p.val / 12)
  | .cp i => some (4 + i.val / 16)
  | _ => none

/-- CONTROL_STORE_ERROR (R435): corrected in the fetch, or a retry of the pair, or a stop of the channel
processor; the word is rewritten from the image. -/
def execControlStoreError (dom : Domain) (correctable : Bool) (s : State) : Host.Outcome State Fault Refusal :=
  match domDie dom with
  | none => .next s
  | some d =>
    if correctable then .next (logEvent (bump s (csPage d) 0x7C0) { page := csPage d, code := 0x0181 })
    else
      match dom with
      | .pair p => execMismatch p .parity 0 0 s
      | .cp i => execCpStop i s
      | _ => .next s

/-! ### Concurrent update (R442-R444) -/

def updEnabled (s : State) : Bool := cellBit s (csPage 6) 0x084 31
def updGap (s : State) : Nat := cellField s (csPage 6) 0x084 0 16

/-- An update that has brought every pair and channel processor onto the current image ends: 0184h (R444). -/
def endUpdate (s : State) : State :=
  if s.cs.updating && (oldPairs s).isEmpty && (oldCps s).isEmpty then
    logEvent { s with cs := { s.cs with updating := false, still := 0 } } { page := csPage 6, code := 0x0184 }
  else s

/-- UPDATE_ROTATION (R442): on the pair with the largest ACTIVE_TICKS among those still old; deferred, it is
retried after GAP ticks (R444). -/
def execUpdateRotation (s : State) : Host.Outcome State Fault Refusal :=
  .next <|
    if updEnabled s && running s && keeperRuns s && s.rotation.isNone && s.cs.gap = 0 && !s.mode.quiesce then
      match oldest s ((oldPairs s).filter (rotatable s)) with
      | some p =>
        let s' := startRotation s p true
        if s'.rotation.isSome then { s' with cs := { s'.cs with updating := true } }
        else { s' with rotRetry := s.rotRetry, cs := { s'.cs with updating := true, gap := updGap s } }
      | none => s
    else s

/-- CP_UPDATE_HANDOVER (R443): after the pairs, an old channel processor of a die hands its operations to a
spare loaded from the current slot; the old one becomes a spare and is reloaded. -/
def execCpUpdateHandover (die : Fin 2) (s : State) : Host.Outcome State Fault Refusal :=
  .next <|
    let of := fun (l : List Nat) => l.find? fun c => c / 16 = die.val
    if updEnabled s && running s && (oldPairs s).isEmpty then
      match of (oldCps s), of ((List.range 32).filter fun c => (cpAt s c).role = .spare) with
      | some c, some h =>
        let img := cpImage (currentImage s)
        let s := { s with cs := { s.cs with updating := true, still := 0 } }
        let s := updCp (updCp s h fun x => { x with role := .active, image := img }) c
          fun x => { x with role := .spare, image := img }
        let s := { s with chan := { s.chan with ops := s.chan.ops.map fun (e : Nat × Op) =>
          if e.2.cp = c then (e.1, { e.2 with cp := h }) else e } }
        endUpdate ((s.chan.ops.filter fun e => e.2.cp = h).foldl (fun s (e : Nat × Op) => sendResync s e.1) s)
      | _, _ => s
    else s

/-- UPDATE_NO_PROGRESS (R444). -/
def execUpdateNoProgress (s : State) : Host.Outcome State Fault Refusal :=
  .next <|
    if s.cs.updating && decide (s.cs.still ≥ 1000000) then
      logEvent { s with cs := { s.cs with still := 0 } } { page := csPage 6, code := 0x2185 }
    else s

end Sys2Proof.Machine
end

