-- ==== Sys2Proof/Machine/Modes.lean ====
section
/-! DEFINITION. The modes of the package (19): starts, resets, Service stop, Memory hold, and the ways power is
lost (20 R484, R487, R492). -/

namespace Sys2Proof.Machine

/-! ### What a power-down of the six dies leaves -/

/-- A key of a Strike register. -/
def isStKey (k : Nat) : Bool :=
  match regAt (keyPage k) (keyOff k) with
  | some (r, _) => r.ty.isSt
  | none => false

def onKeeper (k : Nat) : Bool := pageDie (keyPage k) = 6

/-- Sparings and rotations in progress are ended by a reset of the dies: a pair being spared gives its processor
up, a rotation leaves it where it was. -/
def settlePairs (s : State) : State :=
  let s := s.sparings.foldl (fun s (x : Sparing) =>
    updPair (takeIdentity s x.src x.dst) x.src fun y => { y with role := .failed, failed := true }) s
  let s := match s.rotation with
    | some r => updPair (updPair s r.dst fun y => { y with role := .dormant, powered := false }) r.src
        fun y => { y with role := .active }
    | none => s
  { s with sparings := [], rotation := none, rotRetry := none, rotAgain := none }

/-- A pair with everything of its copies and L2 reset, and what the Keeper knows of it kept. -/
def resetPair (x : Pair) (p : Nat) : Pair :=
  { Pair.reset .tk4008 p with
    role := match x.role with | .failed => .failed | .stopped => .stopped | .dormant => .dormant
                              | .preparing => .dormant | _ => .active,
    failed := x.failed, lp := x.lp, activeTicks := x.activeTicks }

/-- Memory without this package's scratch, and without its DRAM unless it is retained. -/
def keepMemory (s : State) (dram : Bool) : Memory :=
  s.mem.filter fun e => !localPkg s e.1 || (dram && decide (pkgOff e.1 < 8192 * gib))

/-- The six dies lose power: every die's state goes, and the Keeper's stays, of its registers those that `keep`
names (R460). A new HASH_SALT is drawn. DESIGN CHOICE (log 99): the lanes that were remapped for failing ones are
forgotten with the power of the dies, at a cold reset, a power-down and Memory hold, and kept over a warm reset. -/
def dark (s : State) (keep : Nat → Bool) (dram : Bool) : State :=
  let s := settlePairs s
  let n := s.freeCtr
  let r := State.reset
  { r with
    pending := s.pending, freeCtr := n + 1, out := s.out, fuses := s.fuses, time := s.time,
    regs := Tab.write regReset (s.regs.filter fun e => keep e.1 && onKeeper e.1) (regKey mapPage 0x048)
              (Config.freeWord n &&& 0xFFFFFFFF),
    pen := s.pen, proof := s.proof, strike := s.strike, sideA := s.sideA, sideB := s.sideB,
    err := { s.err with ringWait := [], checks := [], seqs := [] },
    pairs := Vector.ofFn fun p : Fin 48 => resetPair (pairAt s p) p.val,
    rotAge := s.rotAge, mem := keepMemory s dram,
    poison := s.poison.filter fun l => !localPkg s (l * 256) || (dram && decide (pkgOff (l * 256) < 8192 * gib)),
    scrambled := if dram then s.scrambled else s.scrambled.filter fun e => !localPkg s (e.1 * gib),
    mode := { Mode.reset with pkgResetLow := s.mode.pkgResetLow, warmResetLow := s.mode.warmResetLow,
                              warm := s.mode.warm, held := s.mode.held },
    chan := { Channel.reset with bootId := s.chan.bootId },
    eng := { Engines.reset with genEpoch := n },
    mcs := if dram then s.mcs.map fun m =>
        if m.st = .running || m.st = .selfRefresh then { m with st := .selfRefresh, banks := [], postponed := [] } else m
      else r.mcs,
    feed := s.feed, tap := s.tap }

/-- Both feed paths are open: the feed that was active is failed or standby, as its votes are. -/
def feedsOpen (s : State) : State :=
  match s.feed.active with
  | none => s
  | some b =>
    let bad := decide (failVotes s (feedOf s b) ≥ 2) || keeperBad (feedOf s b)
    updFeed { s with feed := { s.feed with active := none } } b
      fun x => { x with st := if bad then .failed else .standby, repair := 0 }

/-- A feed of which the Keeper has forgotten all but what it measures. -/
def unseen (x : FeedIn) : FeedIn := { x with st := .absent, repair := 0, changes := 0, quiet := 0, chat := false }

/-- The Keeper has neither VSB nor an active feed: Off (R487). The fuses stay, and so do the verdicts on the feeds. -/
def goOff (s : State) : State :=
  let n := s.freeCtr
  let r := State.reset
  { r with
    pending := s.pending, freeCtr := n + 2, out := s.out, fuses := s.fuses,
    regs := Tab.write regReset [] (regKey mapPage 0x048) (Config.freeWord n &&& 0xFFFFFFFF),
    pairs := Vector.ofFn fun p : Fin 48 => Pair.reset s.fuses.part p.val,
    mem := keepMemory s false,
    chan := { r.chan with bootId := Config.freeWord (n + 1) },
    eng := { r.eng with genEpoch := n },
    feed := { Feeds.reset with vsbOk := false, trip := s.feed.trip, a := unseen s.feed.a, b := unseen s.feed.b },
    err := { r.err with portUpA := s.err.portUpA, portUpB := s.err.portUpB },
    mode := { Mode.reset with mode := .off, pkgResetLow := s.mode.pkgResetLow,
                              warmResetLow := s.mode.warmResetLow } }

/-- Standby, with both paths open; without VSB the Keeper goes too (R487). -/
def toStandby (s : State) : State := if s.feed.vsbOk then enterMode s .standby else goOff s

/-- Loss of power of the six dies: Standby, with 21A6h (R484, R492). -/
def powerDown (s : State) (cause : Nat) : State :=
  let s := feedsOpen (releasePen s)
  toStandby (feedEvent (dark s (fun _ => true) false) 0x21A6 cause)

/-- A cold reset (R464): every die stops without writeback, and the Keeper's registers take their reset values
but the TOD value, ACTIVE_TICKS and the fuses. A boot identifier is drawn (R321). -/
def coldReset (s : State) : State :=
  let s := dark (feedsOpen s) (fun _ => false) false
  let n := s.freeCtr
  let r := State.reset
  let t := s.time
  let s := { s with
    freeCtr := n + 1, pen := r.pen, proof := r.proof, strike := r.strike, sideA := r.sideA, sideB := r.sideB,
    err := { Errors.reset with portUpA := s.err.portUpA, portUpB := s.err.portUpB, degFeed := s.err.degFeed },
    time := { Time.reset with seconds := t.seconds, steps := t.steps, transit := t.transit, oscLost := t.oscLost },
    pairs := Vector.ofFn fun p : Fin 48 => { Pair.reset s.fuses.part p.val with activeTicks := (pairAt s p).activeTicks },
    rotAge := 0, mode := { Mode.reset with pkgResetLow := s.mode.pkgResetLow, warmResetLow := s.mode.warmResetLow },
    chan := { s.chan with bootId := Config.freeWord n }, tap := { s.tap with used := false } }
  toStandby s

/-! ### Stopping and draining -/

/-- Every dirty line of the package is written back to its home (R463). -/
def flushAll (s : State) : State :=
  let s := all48.foldl flushL2 s
  s.dirty.foldl (fun s e => memPut s e.1 e.2) { s with dirty := [] }

/-- Caches, directory, gates and transactions are empty. -/
def emptyArrays (s : State) : State :=
  { s with
    dirty := [], l3 := [], txns := [], slices := [], dir := [], lfsr3 := [], ioCache := [], portHeld := [],
    pairs := s.pairs.map fun x => { x with
      l1i := [], l1d := [], l2 := [], streams := [], misses := [], tlbs := Tlbs.reset, retrying := false },
    lps := s.lps.map fun x => { x with
      gated := [], released := [], owning := [], toPort := [], toFar := [], repN := none, lines := [], reservation := none,
      resHold := false },
    burin := Vector.replicate 4 Burin.reset }

/-- Every replacement register is seeded from the Keeper's random source (R210). -/
def seedAll (s : State) : State :=
  let seed := fun (n i : Nat) => lfsrSeed { s with freeCtr := s.freeCtr + n } i
  { s with
    freeCtr := s.freeCtr + 144,
    pairs := Vector.ofFn fun p : Fin 48 =>
      { pairAt s p with lfsrI := seed p.val 0, lfsrD := seed p.val 1, lfsr2 := seed p.val 2 },
    lfsr3 := (List.range 96).map fun k => (k, seed (48 + k) 0) }

/-- Names of other packages of PRESENT. -/
def others (s : State) : List Nat :=
  (List.range 4).filter fun p => cellBit s mapPage 0x0C0 (16 + p) && p != pkgId s

/-- The first steps of a warm reset (Table 19-7): processors stop, released entries reach memory, operations end
with PACKAGE_RESET and jobs with ABORTED. In broadcast mode the reset is carried to every coupled package (R463). -/
def warmDrain (s : State) : State :=
  let stopped := s.mode.mode = .checkstop
  let s := if stopped && s.strike.st = .committed then { s with strike := { s.strike with st := .idle, vals := [] } } else s
  let s := releasePen s
  let s := (allLps s).foldl (fun s l => if stopped then stopLp s l else drainStorage (stopLp s l) l) s
  let s := { s with mode := { s.mode with ipl := .none, quiesce := false, quiet := [] } }
  let s := abortJobs (endOps s none 11) none 2
  let s := { s with mode := { s.mode with warmDrained := true } }
  if others s = [] || stopped || dirMode s then s else emit (.announce "warm reset" (pkgId s)) s

/-- A warm reset begins: after a committed Strike has applied (R66, R462), which in Checkstop none will (log 96). -/
def warmBegin (s : State) : State :=
  let s := { s with mode := { s.mode with transition := .warm, warmDrained := false } }
  if s.strike.st = .committed && s.mode.mode != .checkstop then s else warmDrain s

/-- Where a warm reset is accepted (Table 19-2). -/
def warmAccepted (s : State) : Bool :=
  s.mode.transition = .none &&
    (match s.mode.mode with
     | .off => false
     | .standby => false
     | .hold => false
     | _ => true)

/-- Every processor that has reached an instruction boundary stops there at a clean close, and what it has released drains
(R468). -/
def holdStop (s : State) : State :=
  (allLps s).foldl (fun s l =>
    let s := drainStorage s l
    if (lpAt s l).run ≠ .running then stopLp s l
    else if atBoundary s l then stopLp (drainStorage (closeInterval s l) l) l
    else s) s

/-- Every processor has stopped, and nothing it has released is left (R273). -/
def allDrained (s : State) : Bool := (allLps s).all fun l => (lpAt s l).run = .stopped && gateEmpty (lpAt s l)

/-- The steps of entry into Memory hold up to self-refresh, once every processor has stopped (R468). -/
def holdFlush (s : State) : State :=
  let s := s.chan.ops.foldl (fun s (e : Nat × Op) =>
    if e.2.stage != .ended && e.2.stage != .waiting && e.2.sentFirst && e.2.cancelSeq = none
    then sendFrame s e.1 e.2 1 e.2.seq 0 0x31 0 0 else s) s
  let d := (freeNow s).toNat % 256
  let s := flushAll (abortJobs (taken s) none d)
  { s with mode := { s.mode with announced := true } }

/-- The memory map a hold saves (R469). -/
def mapKeys : List Nat :=
  [regKey mapPage 0x040, regKey mapPage 0x048] ++ (List.range 4).map fun n => regKey mapPage (0x060 + 8 * n)

/-- DRAM enters self-refresh with the segments of a mask, and the dies are switched off. -/
def enterHold (s : State) (mask : BitVec 8) : State :=
  let saved := mapKeys.foldl (fun (t : Tab Word) k => Tab.put t k (cell s k)) []
  let src := cellField s todPage 0x060 30 2
  let s := rekeyPkg (dark s (fun k => !isStKey k) true) (pkgId s) 0
  let s := { s with mode := { s.mode with saved := saved, clear := some mask } }
  enterMode (if src = 0 then s else setSource s 0) .hold

def holdMask (s : State) : BitVec 8 := BitVec.ofNat 8 (cellField s keeperPage 0x160 0 8)

/-- Self-refresh once every package of PRESENT has announced its flush (R468). -/
def holdIfFlushed (s : State) : State :=
  if s.mode.transition = .hold && s.mode.announced && (others s).all fun p => s.mode.flushed.contains p
  then enterHold s (holdMask s) else s

/-- HOLD goes on once no committed Strike is left: the Pen is released and the processors stop, and when all have, the caches are
flushed. -/
def holdGoesOn (s : State) : State :=
  let alone := decide (others s = [])
  let s := holdStop (releasePen s)
  if !allDrained s then s
  else
    let s := holdFlush s
    if alone then enterHold s (holdMask s) else holdIfFlushed (emit (.announce "flush" (pkgId s)) s)

/-- Every pair stops for Service stop. -/
def stopPairs (s : State) : State := finishStop (all48.foldl haltNow s)

/-- A transition that waited for a committed Strike goes on (R66, R467, R468). -/
def afterStrike (s : State) : State :=
  match s.mode.transition with
  | .warm => if s.mode.warmDrained then s else warmDrain s
  | .hold => if s.mode.announced then s else holdGoesOn s
  | .serviceStop => stopPairs s
  | _ => s

/-! ### Mode commands (Table 19-2) -/

/-- A mode command: discarded and counted where the table does not admit it, and during a transition. -/
def modeCommand (s : State) (m : Master) (ok : Bool) (eff : State → State) : State :=
  command s m keeperPage (ok && s.mode.transition = .none) eff

def isPort (m : Master) : Bool := m != .manager

/-- A feed reads in range at the Keeper's own monitor. -/
def feedGood (s : State) : Bool := !keeperBad s.feed.a || !keeperBad s.feed.b

/-- The feed arbiter takes a feed in range, Feed A if both (Table 19-3). -/
def takeFeed (s : State) : State :=
  if s.feed.active.isSome then s
  else
    let b := keeperBad s.feed.a
    updFeed { s with feed := { s.feed with active := some b } } b fun x => { x with st := .active, repair := 0 }

/-- POWER_ON (R449, R469). -/
def powerOnCommand (s : State) (m : Master) : State :=
  let ok := (s.mode.mode = .standby || s.mode.mode = .hold) && isPort m && feedGood s && s.feed.vsbOk &&
    !s.feed.trip && !s.mode.pkgResetLow
  modeCommand s m ok fun s =>
    let held := decide (s.mode.mode = .hold)
    let s := takeFeed s
    let s := if held then s.mode.saved.foldl (fun s (e : Nat × Word) => setCell s e.1 e.2) s
             else { s with mode := { s.mode with clear := some 0 } }
    let s := enterMode s .init 1
    { s with mode := { s.mode with
        transition := .powerOn, held := held, warm := false, saved := [], result := 0, stoppedAt := false,
        heard := [], coupled := [], flushed := [], announced := false, slotsUnused := true } }

def execPowerOn (m : Master) (s : State) : Host.Outcome State Fault Refusal := .next (powerOnCommand s m)

/-- PROCEED (R450, R453, R511). -/
def proceedCommand (s : State) (m : Master) : State :=
  let ok := s.mode.mode = .init && (s.mode.phase = 2 || s.mode.stoppedAt) && s.pen.holder = some m &&
    !strikeOrdered s && !s.tap.used
  modeCommand s m ok fun s =>
    { s with mode := { s.mode with phase := 3, result := 0, stoppedAt := false, heard := [] } }

def execProceed (m : Master) (s : State) : Host.Outcome State Fault Refusal := .next (proceedCommand s m)

/-- SERVICE_STOP (R467). -/
def serviceStopCommand (s : State) (m : Master) : State :=
  modeCommand s m (running s && isPort m) fun s =>
    stopPairs { s with mode := { s.mode with transition := .serviceStop, back := s.mode.mode } }

def execServiceStop (m : Master) (s : State) : Host.Outcome State Fault Refusal := .next (serviceStopCommand s m)

/-- RESUME (R467): every pair that DEBUG_CTL.HALT does not hold restarts. -/
def resumeCommand (s : State) (m : Master) : State :=
  modeCommand s m (s.mode.mode = .serviceStop && isPort m) fun s =>
    let s := all48.foldl (fun s p =>
      let x := pairAt s p
      if x.role = .halted && !x.haltReq then
        let s := match x.lp with | some lp => updLp s lp fun y => { y with arch := y.ckpt } | none => s
        updPair s p fun y => { y with role := .active, haltDone := false }
      else s) s
    enterMode s s.mode.back

def execResume (m : Master) (s : State) : Host.Outcome State Fault Refusal := .next (resumeCommand s m)

/-- HOLD (R468). On a coupled package it is accepted only while every package of PRESENT is in Service stop or
Memory hold; of another package that has not announced its flush, whether it is so is not known here (a free
value, log 35). -/
def holdCommand (s : State) (m : Master) : State :=
  let apart := decide (others s = [])
  let knows := (others s).all fun p => s.mode.flushed.contains p
  let ok := (running s || s.mode.mode = .serviceStop) && isPort m &&
    (apart || (s.mode.mode = .serviceStop && (knows || (freeNow s).getLsbD 0)))
  let s := if apart || knows then s else taken s
  modeCommand s m ok fun s =>
    let s := { s with mode := { s.mode with transition := .hold, announced := false } }
    if s.strike.st = .committed then s else holdGoesOn s

def execHold (m : Master) (s : State) : Host.Outcome State Fault Refusal := .next (holdCommand s m)

/-- WARM_RESET (R462). -/
def warmResetCommand (s : State) (m : Master) : State := modeCommand s m (warmAccepted s) warmBegin

def execWarmReset (m : Master) (s : State) : Host.Outcome State Fault Refusal := .next (warmResetCommand s m)

/-- COLD_RESET (R464): at once, during a transition too. -/
def coldResetCommand (s : State) (m : Master) : State :=
  command s m keeperPage (s.mode.mode != .off && s.mode.mode != .standby && isPort m) coldReset

def execColdReset (m : Master) (s : State) : Host.Outcome State Fault Refusal := .next (coldResetCommand s m)

/-- COMMAND 28h (R458): a pending status is removed, then the load runs again. -/
def iplCommand (s : State) (m : Master) : State :=
  modeCommand s m (running s && (lpAt s lp0).run = .waiting) fun s => startIpl (removeStatus s (iplSch s))

def execIpl (m : Master) (s : State) : Host.Outcome State Fault Refusal := .next (iplCommand s m)

/-! ### Pins (R448, R508) -/

/-- Whether a low of a pin acts: from 10.02 µs it does, below 9.98 µs it does not, between them either. -/
def lowActs (lowNs : Nat) (acts : Bool) : Bool :=
  if lowNs < 9980 then false else if lowNs ≥ 10020 then true else acts

def execPkgResetN (lowNs : Nat) (acts : Bool) (s : State) : Host.Outcome State Fault Refusal :=
  .next <|
    if !lowActs lowNs acts then s
    else
      let s' := { s with mode := { s.mode with pkgResetLow := true } }
      if keeperRuns s then coldReset s' else s'

def execPkgResetNRelease (s : State) : Host.Outcome State Fault Refusal :=
  .next { s with mode := { s.mode with pkgResetLow := false } }

def execWarmResetN (lowNs : Nat) (acts : Bool) (s : State) : Host.Outcome State Fault Refusal :=
  .next <|
    if !lowActs lowNs acts then s
    else
      let s' := { s with mode := { s.mode with warmResetLow := true } }
      if warmAccepted s && keeperRuns s then warmBegin s' else s'

def execWarmResetNRelease (s : State) : Host.Outcome State Fault Refusal :=
  .next { s with mode := { s.mode with warmResetLow := false } }

/-! ### The warm reset's end, and Memory hold's -/

/-- Phase CONFIG is entered, or with AUTO a warm start proceeds at once (R462). -/
def enterConfig (s : State) : State :=
  let auto := s.mode.warm && cellBit s keeperPage 0x148 29
  { s with mode := { s.mode with phase := if auto then 3 else 2, transition := .none } }

/-- The dies are reset and the retained items of Table 19-6 kept, once dirty lines are at their homes and, in directory mode, the
departure is announced (R463). -/
def warmDies (s : State) : State :=
  let wb := s.mode.mode != .checkstop
  let s := if !wb then s
    else if others s = [] || !dirMode s then flushAll s
    else emit (.announce "departure" (pkgId s)) (flushAll s)
  let s := emptyArrays (settlePairs s)
  let scr := fun (a : Nat) => localPkg s a && decide (0x100000000000 ≤ pkgOff a ∧ pkgOff a < 0x100100000000)
  let s := { s with mem := s.mem.filter fun e => !scr e.1, poison := s.poison.filter fun l => !scr (l * 256) }
  let s := (allLps s).foldl waitLp s
  let s := (List.range 129).foldl dropPending s
  { s with
    pairs := s.pairs.map fun x => { x with
      role := if x.role = .halted && !x.haltReq then .active else x.role, step := false, window := [],
      dwindow := [], dcounted := false, cleanSince := true },
    parts := s.parts.map fun x => if x.exists_ then { x with resetting := true } else x,
    links := Vector.replicate 4 Link.reset, fenced := [], funcs := [], msixQ := [], offers := [],
    chan := { s.chan with
      revoked := [],
      paths := s.chan.paths.map fun e => (e.1, { e.2 with st := if e.2.st = .none then .none else .init, silence := 0,
                                                          beats := 0, sinceBeat := 0, bad := 0, resyncDue := false }),
      cps := s.chan.cps.map fun c => { c with role := if c.role = .restarting then .active else c.role, heir := none } },
    eng := { s.eng with
      jqs := s.eng.jqs.map fun e => (e.1, { e.2 with en := false, notify := false }),
      zips := s.eng.zips.map fun x => { x with restarting := false },
      crypts := s.eng.crypts.map fun x => { x with restarting := false } },
    mcs := s.mcs.map fun m => if m.st = .unpopulated then m else { m with st := .selfRefresh, banks := [], postponed := [] } }

/-- WARM_RESET_WRITEBACK_COMPLETE (R462, Table 19-7), once what the processors had released is drained (R273): Initialisation
follows, waiting at its start while WARM_RESET_N is low. -/
def execWarmResetWritebackComplete (s : State) : Host.Outcome State Fault Refusal :=
  .next <|
    if s.mode.transition = .warm && s.mode.warmDrained && (s.mode.mode = .checkstop || allDrained s) then
      let s := enterMode (warmDies (endOpsAtBound s 11)) .init 1
      let s := { s with mode := { s.mode with
        warm := true, held := false, result := 0, stoppedAt := false, clear := none, heard := [], coupled := [],
        flushed := [], announced := false, warmDrained := false } }
      if s.mode.warmResetLow then s else enterConfig s
    else s

/-- HOLD_FLUSH_ANNOUNCEMENT (R468). -/
def execHoldFlushAnnouncement (pkg : Fin 4) (s : State) : Host.Outcome State Fault Refusal :=
  .next (if (others s).contains pkg.val then
    holdIfFlushed { s with mode := { s.mode with flushed := pkg.val :: s.mode.flushed.filter (· ≠ pkg.val) } } else s)

/-- HOLD_ANNOUNCEMENT_TIMEOUT (R468): self-refresh with HOLD_MASK taken as 00h. -/
def execHoldAnnouncementTimeout (s : State) : Host.Outcome State Fault Refusal :=
  .next (if s.mode.transition = .hold && s.mode.announced then enterHold s 0 else s)

/-! ### Initialisation (R449-R453) -/

/-- The sequence stops at its phase on a failure: 2191h (R453). -/
def initFails (s : State) (result ch : Nat) : State :=
  logEvent { s with mode := { s.mode with result := result, stoppedAt := true } }
    { page := keeperPage, code := 0x2191, sub := ch * 4096 + result }

/-- Phase 01h ends: the dies are powered, active pairs are numbered after a cold start (R284). -/
def powerDies (s : State) : State :=
  let act := all48.filter fun p => (pairAt s p).role = .active
  let s := act.foldl (fun s p => updPair s p fun x => { x with powered := true }) s
  if s.mode.held || s.mode.warm then s
  else
    (act.zipIdx).foldl (fun s (e : Fin 48 × Nat) =>
      updPair s e.1 fun x => { x with lp := if h : e.2 < 48 then some ⟨e.2, h⟩ else none }) s

/-- Supported sets of populated channels (Table 16-1). -/
def channelSets : List (List Nat) := [List.range 16, [0, 2, 4, 6, 8, 10, 12, 14], [0, 4, 8, 12]]

/-- The lowest channel at which a set of populated channels leaves every supported set that agrees with it below
(log 36). -/
def setFault (pop : List Nat) : Option Nat :=
  if channelSets.contains pop then none
  else (List.range 16).find? fun c =>
    channelSets.all fun l => (List.range (c + 1)).any fun i => l.contains i != pop.contains i

/-- Transfer rate of MEM_INIT.SPEED in MT/s (16 R391). -/
def speedRate (s : State) : Nat :=
  match cellField s mapPage 0x040 30 2 with | 0 => 6400 | 1 => 7200 | _ => 8000

/-- One channel's DIMMs are supported by themselves (Table 16-1). -/
def dimmsOk (s : State) (d : Spd) : Bool :=
  let r := d.dimms * d.ranksPerDimm
  (d.dimms = 1 || d.dimms = 2) && (d.ranksPerDimm = 1 || d.ranksPerDimm = 2 || d.ranksPerDimm = 4) &&
    (r = 2 || r = 4 || r = 8) && d.gibPerDimm = d.ranksPerDimm * (if d.dense32 then 64 else 32) &&
    decide (d.rated ≥ speedRate s)

/-- The first channel that breaks Table 16-1 or R390. -/
def populationFault (s : State) (l : List Spd) : Option Nat :=
  let full := l.filter fun d => d.dimms != 0
  let pop := (List.range 16).filter fun c => full.any fun d => d.channel.val = c
  let first := (List.range 16).findSome? fun c => full.find? fun d => d.channel.val = c
  let bad := fun (c : Nat) => full.any fun d => d.channel.val = c &&
    (!dimmsOk s d || first.any fun f => f.dimms != d.dimms || f.ranksPerDimm != d.ranksPerDimm ||
      f.dense32 != d.dense32 || f.gibPerDimm != d.gibPerDimm)
  (List.range 16).find? fun c => bad c || setFault pop = some c

/-- Phase 03h: every SPD is read, and the population checked (R390, R515). -/
def readSpds (s : State) (l : List Spd) : State :=
  let asleep := s.mode.held || s.mode.warm
  let s := { s with mcs := Vector.ofFn fun c : Fin 16 =>
    let m := vget s.mcs Mc.reset c.val
    let d := l.find? fun d => d.channel = c
    let full := d.any fun d => d.dimms != 0
    { m with spd := d, st := if !full then .unpopulated else if asleep && m.st = .selfRefresh then .selfRefresh
                              else .training } }
  if l.any fun d => !d.readable then initFails s 0x11 0
  else
    match populationFault s l with
    | some c => initFails s 0x10 c
    | none => { s with mode := { s.mode with phase := 4 } }

/-- Phase 05h begins: the configuration leaves for every other package of PRESENT (R452). -/
def sendConfigs (s : State) : State :=
  (others s).foldl (fun s p => emit (.coupling p (pkgId s) (cellField s mapPage 0x0C0 16 4) (dirMode s) (salt s)
    (cellBit s todPage 0x064 31)) s) s

/-- Phase 04h: training (R406, R499), and the arrays initialised (Table 19-3). -/
def trainAll (s : State) (inp : PhaseIn) : State :=
  let s := { s with
    mcs := Vector.ofFn fun c : Fin 16 =>
      let m := vget s.mcs Mc.reset c.val
      if m.st = .unpopulated then m else { m with st := if inp.badLanes.contains c.val then .failed else .running },
    links := Vector.ofFn fun l : Fin 4 => { Link.reset with
      trained := inp.clTrained.contains l.val, up := inp.clTrained.contains l.val,
      asym := inp.clAsym.getD l.val 0 } }
  if inp.badLanes.any fun c => (populated s).contains c then initFails s 0x12 0
  else if !inp.badLinks.isEmpty then initFails s 0x13 0
  else
    let s := seedAll (emptyArrays s)
    let s := if s.mode.warm then s
      else clearKeys { s with chan := { s.chan with jrn := [], mirror := [] } }
    sendConfigs { s with mode := { s.mode with phase := 5 } }

/-- A slave's MASTER_LINK joins it directly to a package (R29). -/
def ownLinkReaches (s : State) (p : Nat) : Bool :=
  let l := cellField s todPage 0x064 28 2
  let r := cellField s mapPage 0x0C8 (8 * p) 8
  r.testBit 7 && r / 32 % 4 = l && (vget s.links Link.reset l).trained

def isSlave (s : State) : Bool := cellBit s todPage 0x064 31

/-- What a received configuration finds: a result of Table 19-4, or none (R452). -/
def couplingFault (s : State) (c : Coupling) : Option Nat :=
  if c.pkg.val = pkgId s || c.present.toNat ≠ cellField s mapPage 0x0C0 16 4 || c.directory ≠ dirMode s ||
      c.salt.toNat ≠ salt s || s.mode.heard.any (fun h => h.pkg = c.pkg) ||
      (!c.slave && (!isSlave s || s.mode.heard.any fun h => !h.slave)) then some 0x21
  else if (c.slave && !c.reaches) || (!c.slave && isSlave s && !ownLinkReaches s c.pkg.val) then some 0x20
  else none

/-- COUPLING_EXCHANGE (R452). -/
def execCouplingExchange (c : Coupling) (s : State) : Host.Outcome State Fault Refusal :=
  .next <|
    if s.mode.mode ≠ .init ∨ s.mode.phase ≠ 5 ∨ s.mode.stoppedAt ∨ others s = [] then s
    else
      match couplingFault s c with
      | some r => initFails s r 0
      | none => { s with mode := { s.mode with heard := c :: s.mode.heard } }

/-- Every package of PRESENT has been heard. -/
def allHeard (s : State) : Bool := (others s).all fun p => s.mode.heard.any fun c => c.pkg.val = p

/-- COUPLING_TIMEOUT (R452). -/
def execCouplingTimeout (s : State) : Host.Outcome State Fault Refusal :=
  .next (if s.mode.mode = .init ∧ s.mode.phase = 5 ∧ s.mode.stoppedAt = false ∧ allHeard s = false
         then initFails s 0x22 0 else s)

/-- A slave copies SECONDS and FRACTION from the master: the edge of its latest tick is the master's, so that the
Transit numbers are equal (R20, R30). -/
def copyTime (s : State) (sec : Word) (steps : Nat) : State :=
  let k := steps / 160000
  { s with time := { s.time with
      seconds := sec, steps := k * 160000, transit := BitVec.ofNat 64 (sec.toNat * 100000 + k), read := 0 } }

/-- Phase 05h ends: the package is coupled, and a slave has copied the master's time (R30). -/
def coupleAll (s : State) (tod : Option (BitVec 64 × Nat)) : State :=
  if !allHeard s then s
  else if isSlave s && !(others s).isEmpty && s.mode.heard.all fun c => c.slave then initFails s 0x20 0
  else
    let s := match tod with
      | some (sec, steps) => if isSlave s && !(others s).isEmpty
          then copyTime { s with time := { s.time with route :=
                            (if h : cellField s todPage 0x064 28 2 < 4 then some ⟨_, h⟩ else none) } } sec
                          (steps % 16000000000) else s
      | none => s
    { s with mode := { s.mode with phase := 6, coupled := others s } }

/-- INITIALISATION_PHASE_COMPLETE (R449). -/
def execInitialisationPhaseComplete (inp : PhaseIn) (s : State) : Host.Outcome State Fault Refusal :=
  .next <|
    if s.mode.mode ≠ .init ∨ s.mode.stoppedAt ∨ s.err.degKeeper then s
    else match s.mode.phase with
      | 1 => if s.mode.warmResetLow then s else enterConfig (powerDies s)
      | 3 => readSpds s inp.spds
      | 4 => trainAll s inp
      | 5 => coupleAll s inp.slaveTod
      | 6 =>
        let s := match s.mode.clear with
          | some keep => clearDram s keep
          | none => s
        enterMode { s with mode := { s.mode with clear := none } } .load
          (if slotVerified s (currentSlot s) then 0x11 else 0x10)
      | _ => s

/-! ### Load (R454-R458) -/

def compat (s : State) : Bool := cellBit s keeperPage 0x0C4 31

/-- A stop of Load: 2192h (R453). -/
def loadFails (s : State) (result : Nat) : State :=
  logEvent { s with mode := { s.mode with result := result } } { page := keeperPage, code := 0x2192, sub := result }

/-- Logical processors begin as BOOT_CTL says (R456). -/
def beginPackage (s : State) : State :=
  let s := (allLps s).foldl waitLp s
  if !cellBit s keeperPage 0x148 31 then s
  else if cellBit s keeperPage 0x148 30 then startIpl s
  else beginLp s lp0 (cell s (regKey keeperPage 0x150))
    ((cell s (regKey keeperPage 0x158) &&& 0x3FFFFFFFFFFFFFFF) ||| 0x8000000000000000)

/-- LOAD_COMPLETE (R454, R455): of a VERIFIED slot that carries what the mode needs; after a store has failed its check Load goes
on when the slot has been verified again. -/
def execLoadComplete (eccOk : Bool) (s : State) : Host.Outcome State Fault Refusal :=
  .next <|
    let slot := currentSlot s
    if s.mode.mode ≠ .load ∨ slotVerified s slot = false ∨ s.mode.result = 0x31 ∨ s.err.degKeeper then s
    else if !sectionsOk s then
      if s.mode.result = 0x30 then s else loadFails s 0x30
    else if !eccOk then loadFails { s with mode := { s.mode with phase := 0x11 } } 0x31
    else
      let img := currentImage s
      let s := { s with
        pairs := s.pairs.map fun x => if x.role = .active || x.role = .halted then { x with image := img } else x,
        chan := { s.chan with cps := s.chan.cps.map fun c =>
          if c.role = .active || c.role = .spare then { c with image := cpImage img } else c },
        mode := { s.mode with result := 0, slotsUnused := false } }
      beginPackage (enterMode s (if compat s then .compat else .operating))

/-! ### Power and losses -/

/-- VSB_APPLIED (R487). -/
def execVsbApplied (s : State) : Host.Outcome State Fault Refusal :=
  .next <|
    let s := { s with feed := { s.feed with vsbOk := true } }
    if s.mode.mode = .off then
      let s := enterMode s .standby
      judgeOther (judgeOther s false) true
    else s

/-- VSB_LOST (R487): with no active feed the Keeper goes too. The fuses stay, and so does the TOD's absence. -/
def execVsbLost (s : State) : Host.Outcome State Fault Refusal :=
  .next <|
    if s.feed.active.isSome then { s with feed := { s.feed with vsbOk := false } } else goOff s

/-- BOTH_FEEDS_LOST (R484): the active feed is failed and no other can be taken. -/
def execBothFeedsLost (s : State) : Host.Outcome State Fault Refusal :=
  .next <|
    match s.feed.active with
    | some b => if decide (failVotes s (feedOf s b) ≥ 2) && keeperBad (feedOf s !b) then powerDown s 1 else s
    | none => s

/-- THERMAL_TRIP (R492): a die at or above 110 °C for ten ticks. -/
def execThermalTrip (s : State) : Host.Outcome State Fault Refusal :=
  .next <|
    if keeperRuns s && s.feed.active.isSome && s.feed.hot.toList.any fun n => decide (n ≥ 10) then
      powerDown { s with feed := { s.feed with trip := true } } 2
    else s

/-- KEEPER_DIE_LOSS (R34, R428): the dies go on at their last rate, in Degraded operating, with no Strike. -/
def execKeeperDieLoss (s : State) : Host.Outcome State Fault Refusal :=
  .next <|
    if s.mode.mode = .off ∨ s.err.degKeeper then s
    else
      degrade { s with
        time := { s.time with dieHoldover := true, slew := 0 },
        strike := if s.strike.st = .armed then { s.strike with st := .idle, waitAcks := [] } else s.strike,
        mode := if s.strike.st = .armed then { s.mode with quiesce := false, quiet := [] } else s.mode,
        burin := if s.strike.st = .armed then s.burin.map fun b => { b with paused := false } else s.burin } .keeper

/-- KEEPER_COPY_OUTVOTED (R8). -/
def execKeeperCopyOutvoted (copy : Fin 3) (s : State) : Host.Outcome State Fault Refusal :=
  .next (logEvent s { page := keeperPage, code := 0x0171, sub := copy.val })

/-- DIE_LOSS (R426, R12): the die, or the whole link to it. -/
def execDieLoss (die : Fin 6) (s : State) : Host.Outcome State Fault Refusal :=
  .next (if dieOn s die.val then raise s { page := errlogPage die.val, code := 0x8177 } else s)

end Sys2Proof.Machine
end

