-- ==== Sys2Proof/Machine/Parts.lean ====
section
/-! DEFINITION. The commands of a partition's page (15 R375, R376; 19 R459, R461). -/

namespace Sys2Proof.Machine

/-- Indices a kind of Table 15-3 has; none for a kind that does not exist. -/
def kindRange (kind : Nat) : Nat :=
  match kind with
  | 1 => 8
  | 2 => 128
  | 3 => 1
  | 4 => 256
  | 5 => 8192
  | 6 => 4096
  | _ => 0

/-- Whether a kind and an index name an instance: of an open function, its entry is below 48. -/
def kindOk (kind ix : Nat) : Bool := decide (ix < kindRange kind) && (kind != 4 || decide (ix % 64 < 48))

/-- The partition holds the instance. -/
def holds (s : State) (p kind ix : Nat) : Bool :=
  match kind with
  | 1 => setOwner s ix = p
  | 2 => queueOwner s (ix / 64) (ix % 64) = p
  | 3 => (keyRange (cell s (regKey (partPage p) 0x068))).2 != 0
  | 4 => cellBit s (pciePage (ix / 64)) (0x700 + 4 * (ix % 64)) 31 && bindCtx s (ix / 64) (ix % 64) = p
  | 5 => ownerEntry s ix = p
  | _ => ownerEntry s (8192 + ix) = p

/-- A byte range touches one GiB granule of the package. -/
def touches (s : State) (runs : Option (List (Nat × Nat))) (g : Nat) : Bool :=
  match runs with
  | some l => l.any fun r => r.2 != 0 && homeHere s (lineOf r.1) &&
      decide (pkgOff r.1 / gib ≤ g ∧ g ≤ pkgOff (r.1 + r.2 - 1) / gib)
  | none => false

/-- A Device load that has been issued, or a Device store that waits, at an address of an MMIO granule. -/
def mmioHeld (s : State) (g : Nat) : Bool :=
  let inG := fun (a : Nat) => homeHere s (lineOf a) && decide (pkgOff a / gib = 0x200000000000 / gib + g)
  (all48.any fun l =>
    (match (lpAt s l).wait with | .load l => l.issued.isSome && inG l.addr | _ => false) ||
    (lpAt s l).toPort.any fun e => inG (e.blk * 64)) ||
  s.funcs.any fun e => e.2.held.any fun h => inG h.addr

/-- A running job uses a slot of a range. -/
def usesKeys (s : State) (r : Nat × Nat) : Bool :=
  let has := fun (h : Nat) => decide (r.1 ≤ h % 8192 ∧ h % 8192 < r.1 + r.2)
  s.eng.jobs.any fun e => e.2.running && ((e.2.key != 0 && has e.2.key) ||
    (([0x60, 0x61, 0x63].contains e.2.func || e.2.key2 != 0) && has e.2.key2))

/-- BUSY of Table 15-3. -/
def busy (s : State) (p kind ix : Nat) : Bool :=
  match kind with
  | 1 => s.chan.sch.any fun e => e.1 / 32768 = ix && (e.2.func != .none || e.2.status.isSome)
  | 2 => jqRunning s ix != 0 || ((jqAt s ix).en && (jqAt s ix).head != (jqAt s ix).tail)
  | 3 => usesKeys s (keyRange (cell s (regKey (partPage p) 0x068)))
  | 4 =>
    let rid := cellField s (pciePage (ix / 64)) (0x700 + 4 * (ix % 64)) 0 16
    (s.msixQ.any fun m => m.port = ix / 64 && m.rid = rid) ||
      all48.any fun l => match (lpAt s l).wait with
        | .load l => decide (l.issued = some (BitVec.ofNat 16 rid)) && homeHere s (lineOf l.addr) &&
            decide ((pkgOff l.addr - 0x200000000000) / 0x10000000000 = ix / 64)
        | _ => false
  | 5 =>
    (s.chan.ops.any fun e => e.2.stage != .ended && e.2.wins.any fun w => w.slot.isSome &&
      homeHere s (lineOf w.phys) && pkgOff w.phys / gib = ix) ||
    (s.eng.jobs.any fun e => e.2.running &&
      (touches s (ctxRange s e.2.ctx e.2.src e.2.srcLen) ix || touches s (ctxRange s e.2.ctx e.2.dst e.2.dstLen) ix ||
       touches s (ctxRange s e.2.ctx e.2.aux e.2.auxLen) ix ||
       (e.2.stateAt != 0 && touches s (ctxRange s e.2.ctx e.2.stateAt (if e.2.inline.isSome then 4096
          else stateSize e.2.func e.2.param)) ix))) ||
    (s.eng.jqs.any fun e => e.2.en && touches s (ctxRange s (jqOwner s e.1) e.2.base.toNat (128 * jqSlots e.2)) ix)
  | _ => mmioHeld s ix

/-- Key of a released instance: key slots go by partition. -/
def relKey (p kind ix : Nat) : Nat := kind * 1048576 + (if kind = 3 then p else ix)

def relResult (s : State) (p r ix : Nat) : State :=
  setCell s (regKey (partPage p) 0x0A0) (BitVec.ofNat 64 (r * 2 ^ 24 + ix))

/-- PART COMMAND 10h (R375). -/
def releaseCommand (s : State) (m : Master) (p arg : Nat) : State :=
  let kind := arg / 2 ^ 20 % 16
  let ix := arg % 2 ^ 20
  command s m (partPage p) (kindOk kind ix) fun s =>
    if !holds s p kind ix then relResult s p 2 ix
    else if busy s p kind ix then relResult s p 1 ix
    else
      let k := relKey p kind ix
      relResult { s with released := if s.released.contains k then s.released else k :: s.released } p 0 ix

def execRelease (m : Master) (part : Fin 128) (arg : BitVec 24) (s : State) : Host.Outcome State Fault Refusal :=
  .next (releaseCommand s m part.val arg.toNat)

/-- PART COMMAND 11h (R375). -/
def reclaimCommand (s : State) (m : Master) (p arg : Nat) : State :=
  let kind := arg / 2 ^ 20 % 16
  let ix := arg % 2 ^ 20
  command s m (partPage p) (kindOk kind ix) fun s =>
    if holds s p kind ix then { s with released := s.released.filter fun k => k != relKey p kind ix } else s

def execReclaim (m : Master) (part : Fin 128) (arg : BitVec 24) (s : State) : Host.Outcome State Fault Refusal :=
  .next (reclaimCommand s m part.val arg.toNat)

/-- PART COMMAND 12h (R376, R461). -/
def partResetCommand (s : State) (m : Master) (p : Nat) : State :=
  command s m (partPage p) ((partAt s p).exists_ && !resetRuns s p) fun s => resetPartition s p

def execPartitionReset (m : Master) (part : Fin 128) (s : State) : Host.Outcome State Fault Refusal :=
  .next (partResetCommand s m part.val)

/-- A logical processor begins at its partition's start PSW (R459). -/
def beginAtStart (s : State) (p : Nat) (lp : Fin 48) : State :=
  beginLp s lp (cell s (regKey (partPage p) 0x0B0)) (cell s (regKey (partPage p) 0x0B8))

/-- PART COMMAND 13h (R459). -/
def startCommand (s : State) (m : Master) (p : Nat) : State :=
  let x := partAt s p
  let ok := x.exists_ && x.resetting && !resetRuns s p && decide (cellField s (partPage p) 0x0B8 62 2 ≤ 1) &&
    s.mode.mode != .init && s.mode.mode != .load
  command s m (partPage p) ok fun s =>
    let s := updPart s p fun x => { x with resetting := false }
    match lpsOf s p with
    | [] => s
    | l :: ls => ls.foldl (fun s i => if (lpAt s i).signal then beginAtStart s p i else s) (beginAtStart s p l)

def execStart (m : Master) (part : Fin 128) (s : State) : Host.Outcome State Fault Refusal :=
  .next (startCommand s m part.val)

end Sys2Proof.Machine
end

