-- ==== Sys2Proof/Machine/Service.lean ====
section
/-! DEFINITION. Writes of the service space by register type (03 R50-R62), the sideband (21 R505), the event
queue's ports (17 R418), and stores to the signal granule (15 R381). -/

namespace Sys2Proof.Machine

/-! ### COMMAND (R57) -/

/-- COMMAND 01h: ERR_FIRST and ERR_NEXT clear together. -/
def errClear (s : State) (p : Nat) : State := setCell (setCell s (regKey p 0x010) 0) (regKey p 0x018) 0

/-- A code that a page's block does not define, or a reserved one. -/
def badCode (s : State) (m : Master) (p : Nat) : State := command s m p false id

/-- A write to COMMAND of a page: the code and its argument. DESIGN CHOICE (log 102): code 00h, "none", has no effect and
is not counted while COMMAND reads zero. -/
def writeCommand (s : State) (m : Master) (p code arg : Nat) : State :=
  if code = 0 then (if Tab.read (fun _ => (0 : Word)) s.cmds p = 0 then s else badCode s m p)
  else if code = 1 then command s m p true fun s => errClear s p
  else match pageType p with
    | 0x01 => match code with
      | 0x10 => rotateCommand s m arg
      | 0x20 => powerOnCommand s m
      | 0x21 => proceedCommand s m
      | 0x22 => serviceStopCommand s m
      | 0x23 => resumeCommand s m
      | 0x24 => holdCommand s m
      | 0x25 => warmResetCommand s m
      | 0x26 => coldResetCommand s m
      | 0x28 => iplCommand s m
      | _ => badCode s m p
    | 0x02 => match code with
      | 0x10 => swapCommand s m
      | 0x11 => clearTripCommand s m
      | _ => badCode s m p
    | 0x08 => if h : pageDie p * 12 + pageInst p < 48 then
        (if code = 0x10 then takenCommand s m ⟨_, h⟩ else badCode s m p) else s
    | 0x30 => match code with
      | 0x10 => releaseCommand s m (pageInst p) arg
      | 0x11 => reclaimCommand s m (pageInst p) arg
      | 0x12 => partResetCommand s m (pageInst p)
      | 0x13 => startCommand s m (pageInst p)
      | _ => badCode s m p
    | 0x38 => if pageDie p ≠ 6 then badCode s m p else match code with
      | 0x10 => verifyCommand s m arg
      | 0x11 => advanceCommand s m
      | 0x12 => revokeCommand s m arg
      | _ => badCode s m p
    | _ => badCode s m p

/-! ### Writes by type (R59) -/

/-- A naturally aligned write put into a register of 4 or 8 bytes, reserved bits apart. -/
def mergeReg (r : RegDef) (old : Word) (off size : Nat) (v : Word) : Word :=
  (if r.bytes = 8 then putHalf old off size v else v) &&& BitVec.ofNat 64 r.mask

/-- A write by the Pen holder to an ST register, at either of its offsets (R59, R60). -/
def writeSt (s : State) (m : Master) (p e : Nat) (r : RegDef) (off size : Nat) (v : Word) (full : Nat) : State :=
  if draftOpen s m then
    let k := regKey p e (regIx s p e)
    putDraft s k (mergeReg r (draftVal s k) off size v)
  else discard s m full true

/-- EVQ_RP_A and EVQ_RP_B (R418): by their own port, within the queue. -/
def writeRp (s : State) (m : Master) (portB : Bool) (v : BitVec 32) (full : Nat) : State :=
  if m = (if portB then Master.portB else .portA) ∧ (s.err.wp - v).toNat ≤ 256 then
    { s with err := if portB then { s.err with rpB := v } else { s.err with rpA := v } }
  else discard s m full true

/-- An LV register takes the value written. -/
def writeLv (s : State) (m : Master) (p e : Nat) (r : RegDef) (off size : Nat) (v : Word) (full : Nat) : State :=
  let k := regKey p e
  let plain := setCell s k (mergeReg r (cell s k) off size v)
  match pageType p with
  | 0x01 => match e with
    | 0x040 => writePen s m (field v 0 2) (bit v 31)
    | 0x048 => renewPen s m
    | 0x060 => if s.pen.holder = some m then plain else discard s m full true
    | 0x104 => writeRp s m false (v.setWidth 32) full
    | 0x108 => writeRp s m true (v.setWidth 32) full
    | _ => plain
  | 0x08 => if h : pageDie p * 12 + pageInst p < 48 then
      (if e = 0x048 then writeDebug s m ⟨_, h⟩ v
       else if e ≥ 0x380 then writeCkpt s m ⟨_, h⟩ off size v else plain) else s
  | 0x11 => if e = 0x100 ∧ v.toNat % 2048 > 1535 then discard s m full true else plain
  | 0x38 => if e = 0x048 then writeImg s m off size v else plain
  | 0x3C => if e = 0x040 ∧ v.toNat % 256 > 128 then discard s m full true else plain
  | _ => plain

/-- A write of 4 or 8 bytes within one register, or to no register. -/
def writeOne (s : State) (m : Master) (p off size : Nat) (v : Word) : State :=
  let full := p * 4096 + off
  let v := if size = 4 then v &&& 0xFFFFFFFF else v
  let draft := decide (off ≥ 0x800)
  let lo := if draft then off - 0x800 else off
  match regAt p lo with
  | none => if draft then discard s m full true else s
  | some (r, e) =>
    match r.ty with
    | .st _ => writeSt s m p e r lo size v full
    | t =>
      if draft then discard s m full true
      else match t with
        | .lv => writeLv s m p e r lo size v full
        | .w1c =>
          let k := regKey p e (regIx s p e)
          let w := if r.bytes = 8 then putHalf 0 lo size v else v
          setCell s k (cell s k &&& ~~~w)
        | .sc =>
          if e = 0x00C then writeCommand s m p (field v 0 8) (field v 8 24)
          else if e = 0x04C then writeProofCmd s m (bit v 0)
          else writeStrikeCmd s m (field v 0 2)
        | _ => s

/-- A half of a write that is discarded whatever its value: where two 4-byte registers share an aligned 8 bytes, those
that both can be (R54, R59, R77). -/
def halfDiscarded (s : State) (m : Master) (p off : Nat) : Bool :=
  let draft := decide (off ≥ 0x800)
  match regAt p (if draft then off - 0x800 else off) with
  | none => draft
  | some (r, e) =>
    if r.ty.isSt then !draftOpen s m
    else draft || (p = keeperPage && (e = 0x048 || e = 0x04C) && s.pen.holder != some m)

/-- A write of 8 bytes over two registers of 4: discarded in both it is one discarded write (R54). -/
def writeTwo (s : State) (m : Master) (p off : Nat) (v : Word) : State :=
  let t := writeOne s m p off 4 (v >>> 32)
  if halfDiscarded s m p off && halfDiscarded t m p (off + 4) then t else writeOne t m p (off + 4) 4 v

/-- Whether one register covers a whole access of 8 bytes. -/
def wholeReg (p off : Nat) : Bool :=
  match regAt p (if off ≥ 0x800 then off - 0x800 else off) with
  | some (r, _) => r.bytes = 8
  | none => false

/-- A write by a master to the service space (Table 3-3). -/
def writeService (s : State) (m : Master) (off size : Nat) (v : Word) : State :=
  let p := off / 4096
  if ¬(size = 4 ∨ size = 8) ∨ off % size ≠ 0 ∨ writable s m p = false then discard s m off true
  else if size = 4 then writeOne s m p (off % 4096) 4 v
  else if wholeReg p (off % 4096) then writeOne s m p (off % 4096) 8 v
  else writeTwo s m p (off % 4096) v

def execRegisterWrite (m : Master) (off : BitVec 31) (size : Nat) (v : Word) (s : State) :
    Host.Outcome State Fault Refusal := .next (writeService s m off.toNat size v)

/-- DRAFT_WRITE (R60, R70): the same write, to an ST register. -/
def execDraftWrite (m : Master) (off : BitVec 31) (size : Nat) (v : Word) (s : State) :
    Host.Outcome State Fault Refusal := .next (writeService s m off.toNat size v)

def execErrClear (m : Master) (page : BitVec 19) (s : State) : Host.Outcome State Fault Refusal :=
  .next (writeService s m (page.toNat * 4096 + 0x00C) 4 1)

/-- SERVICE_PORT_READ (R54, R62): a Service Port's read; the manager's own go by its loads. -/
def execServicePortRead (m : Master) (off : BitVec 31) (size : Nat) (s : State) : Host.Outcome State Fault Refusal :=
  .next (readBy s m off.toNat size)

/-! ### The ports (R418) -/

def execEvqReadPointerWrite (m : Master) (portB : Bool) (v : BitVec 32) (s : State) :
    Host.Outcome State Fault Refusal :=
  .next (writeService s m (keeperPage * 4096 + (if portB then 0x108 else 0x104)) 4 (v.setWidth 64))

def execServicePortLinkUp (portB : Bool) (s : State) : Host.Outcome State Fault Refusal :=
  .next { s with err := if portB then { s.err with portUpB := true, rpB := s.err.wp }
                        else { s.err with portUpA := true, rpA := s.err.wp } }

def execServicePortLinkDown (portB : Bool) (s : State) : Host.Outcome State Fault Refusal :=
  .next { s with err := if portB then { s.err with portUpB := false } else { s.err with portUpA := false } }

/-! ### The sideband (R505) -/

def sideOf (s : State) (b : Bool) : Sideband := if b then s.sideB else s.sideA

def setSide (s : State) (b : Bool) (x : Sideband) : State := if b then { s with sideB := x } else { s with sideA := x }

/-- SIDEBAND_POINTER_WRITE: three bytes that name a page and an aligned offset; anything else leaves no pointer. -/
def execSidebandPointerWrite (portB : Bool) (bytes : List Byte) (s : State) : Host.Outcome State Fault Refusal :=
  .next <|
    let ptr := match bytes with
      | [p, h, l] =>
        let o := h.toNat * 256 + l.toNat
        if 1 ≤ p.toNat ∧ p.toNat ≤ 3 ∧ o % 4 = 0 ∧ o < 4096 then some (p.toNat * 4096 + o) else none
      | _ => none
    if s.mode.mode = .off ∨ s.err.degKeeper = true then s else setSide s portB { sideOf s portB with ptr := ptr }

/-- SIDEBAND_READ: 4 bytes, or 8 at a multiple of 8, big-endian; refused beyond the sixteenth of a tick. -/
def execSidebandRead (portB : Bool) (s : State) : Host.Outcome State Fault Refusal :=
  .next <|
    let x := sideOf s portB
    let m := if portB then Master.portB else .portA
    if s.mode.mode = .off ∨ s.err.degKeeper = true ∨ x.reads ≥ 16 then s
    else
      let s := setSide s portB { x with reads := x.reads + 1 }
      match x.ptr with
      | none => emit (.sideband portB (List.replicate 8 0xFF)) s
      | some a =>
        let size := if a % 8 = 0 then 8 else 4
        let off := pageIx 6 (a / 4096) 0 * 4096 + a % 4096
        match readService s m off size with
        | .value v => emit (.sideband portB (beBytes size v.toNat)) s
        | .refused => s

/-! ### Signals (R381) -/

/-- A signal is made pending on a logical processor: a waiting one begins, once its partition has been started,
and the signal is consumed (R456, R459). -/
def makeSignal (s : State) (lp : Fin 48) : State :=
  let o := lpOwner s lp.val
  if (lpAt s lp).run = .waiting then
    if o < mgrCtx then
      if (partAt s o).resetting then updLp s lp fun x => { x with signal := true } else beginAtStart s o lp
    else beginLp s lp (cell s (regKey keeperPage 0x150))
      ((cell s (regKey keeperPage 0x158) &&& 0x3FFFFFFFFFFFFFFF) ||| 0x8000000000000000)
  else updLp s lp fun x => { x with signal := true }

/-- A store to the signal granule by a context: the page and offset it names (R381). A target of another package
of the complex is signalled there. -/
def signalStore (s : State) (ctx page off size : Nat) (v : Word) : State :=
  let n := field v 0 6
  let k := field v 14 2
  let shape := page = ctx && off = 0 && size = 8 && v &&& 0xFFFFFFFFFFFF3FC0 = 0
  let bad := if ctx < mgrCtx then bump s (partPage ctx) 0x7C0 else bump s mapPage 0x7C0
  if !shape then bad
  else if k ≠ pkgId s then
    if s.mode.coupled.contains k then toPkg "signal" k k n s else bad
  else
    if h : n < 48 then
      if n < lpCount s ∧ lpOwner s n = ctx then makeSignal s ⟨n, h⟩ else bad
    else bad

def execSignalStore (lp : Fin 48) (page : Nat) (off : BitVec 12) (size : Nat) (v : Word) (s : State) :
    Host.Outcome State Fault Refusal := .next (signalStore s (lpCtx s lp) page off.toNat size v)

end Sys2Proof.Machine
end

