-- ==== Sys2Proof/Machine/Execute.lean ====
section
/-! DEFINITION. How a logical processor runs an instruction: when it may (11, 19), its fetch, the entry of
exceptions (04 R90-R92, 17 R421), and the closes of its interval (11 R260). -/

namespace Sys2Proof.Machine

/-! ### Readiness -/

/-- A pair runs instructions: active and not stopped for a retry or a halt, or halted with STEP written. -/
def pairReady (s : State) (p : Fin 48) : Bool :=
  let x := pairAt s p
  match x.role with
  | .active => running s && !x.retrying && !x.haltReq && !serviceStopping s
  | .halted => x.step && (running s || s.mode.mode = .serviceStop)
  | _ => false

/-- A logical processor can run its next instruction. -/
def lpReady (s : State) (lp : Fin 48) : Bool :=
  let x := lpAt s lp
  x.run = .running && x.wait = .none && x.partChanged.isNone && !s.mode.quiesce &&
    match pairOf s lp with
    | some p => pairReady s p
    | none => false

/-- The instruction is a step of a halted pair: an interval of its own (R282). -/
def stepping (s : State) (lp : Fin 48) : Bool :=
  match pairOf s lp with
  | some p => (pairAt s p).role = .halted
  | none => false

/-! ### Registers -/

/-- A general register as it reads: G0 is zero (R78). -/
def Arch.getG (a : Arch) (i : Fin 32) : Word := if i = 0 then 0 else a.g[i]

/-- A general register written: writes to G0 are discarded (R78). -/
def Arch.setG (a : Arch) (i : Fin 32) (v : Word) : Arch := if i = 0 then a else { a with g := a.g.set i v }

def Arch.getF (a : Arch) (i : Fin 32) : Quad := a.f[i]

def Arch.setF (a : Arch) (i : Fin 32) (v : Quad) : Arch := { a with f := a.f.set i v }

/-- The register after `i`, of a pair or quadruple. -/
def nextReg (i : Fin 32) (k : Nat := 1) : Fin 32 := i + Fin.ofNat 32 k

def getArch (lp : Fin 48) : Run Arch := do pure (lpAt (← get) lp).arch

def modArch (lp : Fin 48) (f : Arch → Arch) : Run Unit :=
  modify fun s => updLp s lp fun x => { x with arch := f x.arch }

def readG (lp : Fin 48) (i : Fin 32) : Run Word := do pure ((← getArch lp).getG i)

def writeG (lp : Fin 48) (i : Fin 32) (v : Word) : Run Unit := modArch lp fun a => a.setG i v

/-! ### Exception entry -/

/-- PSWS on entry: PRIV is the target state, IOE and EXE are clear, and MCE too for a machine check (R92, R420). -/
def entryPsws (w : Word) (mgr mce : Bool) : Word :=
  (w &&& (if mce then 0x31FFFFFFFFFFFFFF else 0x33FFFFFFFFFFFFFF)) |||
    (if mgr then 0x8000000000000000 else 0x4000000000000000)

/-- The exception-code register (Table 4-1). -/
def codeWord (reason ilc code : Nat) : Word :=
  BitVec.ofNat 64 (reason % 256 * 2 ^ 24 + ilc % 4 * 65536 + code % 65536)

/-- Registers after the entry of an exception or interruption (R92): the PSW, the code and the address are saved
for the target state, and execution goes on at its vector base plus `vec`. -/
def entryArch (a : Arch) (mgr mce : Bool) (vec : Nat) (cw addr : Word) : Arch :=
  let k : Word := if mgr then a.c[18] else a.c[2]
  let c := if mgr then (((a.c.set 19 a.pswa).set 20 a.psws).set 21 cw).set 22 addr
           else (((a.c.set 3 a.pswa).set 4 a.psws).set 5 cw).set 6 addr
  { a with c := c, psws := entryPsws a.psws mgr mce, pswa := (k + BitVec.ofNat 64 vec) &&& 0xFFFFFFFFFFFFFFFC }

/-- The entry: any exception or interrupt loses the reservation (Table 7-8), and the interval closes (R260). -/
def enter (s : State) (lp : Fin 48) (mgr mce : Bool) (vec : Nat) (cw addr : Word) : State :=
  closeInterval (updLp s lp fun x =>
    { x with arch := entryArch x.arch mgr mce vec cw addr, reservation := none, resHold := false,
             handler := x.handler || mce }) lp

/-- Whether a program exception is delivered to Manager state (R92, R186, R384). -/
def toManager (a : Arch) (e : Exc) : Bool :=
  privOf a.psws = 2 || e.code = 0xC || e.toMgr || (decide (1 ≤ e.code ∧ e.code ≤ 12) && bit a.c[23] e.code)

/-- ILC of an exception: that of the instruction; of one whose first word could not be fetched the spec gives none, and it
is a free one of the three codes (log 37). -/
def ilcNow (s : State) (first : Bool) (ilc : Nat) : Nat := if first then (freeNow s).toNat % 3 else ilc

/-- The free value of an ILC has been taken. -/
def ilcTaken (s : State) (first : Bool) : State := if first then taken s else s

/-- The entry of a program exception. -/
def enterExc (s : State) (lp : Fin 48) (ilc : Nat) (e : Exc) : State :=
  enter (ilcTaken s e.first) lp (toManager (lpAt s lp).arch e) false 0
    (codeWord e.reason (ilcNow s e.first (if e.long then 2 else ilc)) e.code) e.addr

/-- Kind of the address an instruction forms. -/
def formedKind (a : Arch) : AddrKind :=
  if bit a.psws 60 then .virt else if privOf a.psws = 2 then .phys else .abs

/-- A synchronous machine check (R421, Table 17-4): the entry, or the end of the context where its handler is
active. Where the event is masked, or its record of the tick is formed already, there is no SEQ for the address register,
which then holds a free value (log 119). -/
def syncCheck (s : State) (lp : Fin 48) (ilc : Nat) (va : Word) : State :=
  let x := lpAt s lp
  let ctx := lpCtx s lp
  let page := match pairOf s lp with | some p => pairPage p.val | none => 0
  if x.handler then
    if ctx < mgrCtx then raise s { page := partPage ctx, code := 0x6176, sub := 1, owner := some ctx, lp := some lp }
    else raise s { page := page, code := 0x8178, owner := some mgrCtx, lp := some lp }
  else
    let old := Tab.read (fun _ => (0 : BitVec 32)) s.err.seqs ctx
    let s := logEvent s { page := page, code := 0x4175, owner := some ctx, lp := some lp, sync := true,
                          kind := formedKind x.arch, addr := va }
    let new := Tab.read (fun _ => (0 : BitVec 32)) s.err.seqs ctx
    if new = old then enter (taken s) lp (decide (ctx = mgrCtx)) true 0x400 (codeWord 2 ilc 0x400) (freeNow s)
    else enter s lp (decide (ctx = mgrCtx)) true 0x400 (codeWord 2 ilc 0x400) (new.setWidth 64)

/-! ### Running an instruction -/

/-- Where an instruction stands to a repeat prefix: not repeated, an iteration of a REP.I with its count register,
or an iteration of a REP.N. -/
inductive Rep where
  | no
  | iter (n : Fin 32)
  | whole (n : Fin 32)
  deriving DecidableEq, Repr

/-- The count register of the prefix. -/
def Rep.count : Rep → Option (Fin 32)
  | .no => none
  | .iter n => some n
  | .whole n => some n

/-- An iteration of a REP.N. -/
def Rep.isWhole : Rep → Bool
  | .whole _ => true
  | _ => false

/-- How an instruction is run: its length in bytes, and whether its interval closes before and after it. -/
structure Form where
  len : Nat := 4
  /-- A repeat prefix and its instruction, each of 4 bytes. -/
  rep : Bool := false
  before : Bool := false
  after : Bool := false
  /-- Its stores are performed as its interval closes (R172). -/
  perform : Bool := false
  deriving DecidableEq, Repr

/-- Serialising, with the length of a CTL, MAINT, IO or SVC instruction. -/
def Form.serial : Form := { before := true, after := true }

/-- ILC of an instruction: a prefix with its instruction is of 4 bytes. DESIGN CHOICE (log 106): so is a prefix before an
assigned opcode of 8 bytes, which raises its specification exception with ILC 01b, the second word not being fetched. -/
def Form.ilc (f : Form) : Nat := if f.len = 8 && !f.rep then 2 else 1

/-- A read of a line whose home is lost has ended (R252). -/
def lostRead (s : State) (lp : Fin 48) (line : Nat) : State :=
  match pairOf s lp with
  | some p => lostEvent s (.pair p) line (some (lpPart s lp))
  | none => s

/-- The word at an address is fetched: translated, checked for poison, and its line brought into the L1. -/
def fetchWord (lp : Fin 48) (va : Word) : Run Unit := do
  let (pa, ty) ← translate lp va .fetch
  let s ← get
  if anyPoison s pa 4 then
    if !visible s (lineOf pa) && lostHome s (lineOf pa) then set (lostRead s lp (lineOf pa))
    throw (.sync va)
  if ty = .normal then set (touchFetch lp pa s)

/-- The words of an instruction, in order (R91). -/
def fetchInstr (lp : Fin 48) (len : Nat) : Run Unit := do
  let a ← getArch lp
  tryCatch (fetchWord lp a.pswa) fun
    | .exc e => throw (.exc { e with first := true })
    | .sync va _ => throw (.sync va true)
    | x => throw x
  if len = 8 then fetchWord lp (a.pswa + 4)

/-- The instruction address moves past an instruction. -/
def advance (lp : Fin 48) (len : Nat) : Run Unit := modArch lp fun a => { a with pswa := a.pswa + BitVec.ofNat 64 len }

/-- An instruction from its fetch to its end. -/
def whole (lp : Fin 48) (f : Form) (body : Run Unit) : Run Unit := do
  fetchInstr lp f.len
  advance lp f.len
  body

/-- The interval closes if the released part has room, else the close stays due. -/
def closeDue (s : State) (lp : Fin 48) : State :=
  if closeRoom (lpAt s lp) then closeInterval s lp else updLp s lp fun x => { x with icount := 256 }

/-- STEP is over, and the pair halts again: HALT_DONE with its released entries drained (R282, R283). -/
def endStep (s : State) (lp : Fin 48) : State :=
  match pairOf s lp with
  | some p => updPair s p fun x => { x with step := false }
  | none => s

/-- The end of an instruction that has completed. -/
def finish (s : State) (lp : Fin 48) (f : Form) : State :=
  let s := updLp s lp fun x => { x with icount := x.icount + 1 }
  let s := if f.after || stepping s lp || decide ((lpAt s lp).icount ≥ 256) then closeDue s lp else s
  endStep (freshen (if f.perform then drainStores 64 s lp else s)) lp

/-- Registers and gate of a processor as they were before its instruction. Stores released before stay where they have got
to. -/
def undone (old new : State) (lp : Fin 48) : State :=
  let n := lpAt new lp
  setLp new lp { lpAt old lp with released := n.released, owning := n.owning, toPort := n.toPort, toFar := n.toFar }

/-- What a nullifying exception leaves (R90, Table 11-2): the instruction undone, a REP.N as before its prefix (R108). -/
def nullified (f : Form) (old new : State) (lp : Fin 48) : State :=
  updLp (undone old new lp) lp fun x => if f.rep then { x with arch := x.repN.getD x.arch, repN := none } else x

/-- The state an instruction leaves; none where it waits: for room at a close, or for a line. -/
def settle (lp : Fin 48) (f : Form) (s : State) : EStateM.Result Stop State Unit → Option State
  | .ok _ t => some (finish t lp f)
  | .error (.exc e) t =>
    if closeRoom (lpAt s lp) then some (endStep (enterExc (nullified f s t lp) lp f.ilc e) lp) else none
  | .error (.done e) t =>
    if closeRoom (lpAt t lp) then some (endStep (enterExc t lp f.ilc e) lp) else none
  | .error (.sync va first) t =>
    if closeRoom (lpAt s lp) then
      some (endStep (syncCheck (ilcTaken (nullified f s t lp) first) lp (ilcNow t first f.ilc) va) lp)
    else none
  | .error .wait _ => none
  | .error .again t => some (undone s t lp)
  | .error .close _ => none

/-- The interval is closed before an instruction, where it must be. -/
def prepare (s : State) (lp : Fin 48) (before : Bool) : Option State :=
  if before || stepping s lp || decide ((lpAt s lp).icount ≥ 256) then
    if closeRoom (lpAt s lp) then some (closeInterval s lp) else none
  else some s

/-- An instruction run by a logical processor; the command has no effect while the processor cannot run it. The
instruction is the one at PSWA: the command names what its fetch and decoding give (log 38). -/
def runInstr (lp : Fin 48) (f : Form) (body : Run Unit) (s : State) : Host.Outcome State Fault Refusal :=
  if !lpReady s lp then .next s
  else
    match prepare s lp f.before with
    | none => .next s
    | some t =>
      match whole lp f body t with
      | .error .close _ =>
        if closeRoom (lpAt t lp) then
          let u := closeInterval t lp
          .next ((settle lp f u (whole lp f body u)).getD u)
        else .next t
      | r => .next ((settle lp f t r).getD t)

/-! ### What bodies use -/

/-- A register field that is not used must be zero (R85). -/
def unused (l : List (Fin 32)) : Run Unit := specIf (l.any fun i => decide (i ≠ 0))

/-- An instruction of a state not below `p` (R81). -/
def needPriv (lp : Fin 48) (p : Nat) : Run Unit := do
  if privOf (← getArch lp).psws < p then privilegedExc

/-- The instruction holds its processor, which waits with its registers as before and PSWA at the instruction, or
at the prefix that repeats it. -/
def holdLp (lp : Fin 48) (r : Rep) (w : LpWait) : Run Unit := do
  modArch lp fun a => { a with pswa := a.pswa - (if r = .no then 4 else 8) }
  modify fun s => updLp s lp fun x => { x with wait := w }

/-- The instruction forms an interval of its own, which its memory type decides; within a REP.N the interval is
that of the whole (R108, R155). -/
def ownInterval (lp : Fin 48) (r : Rep) : Run Unit := do
  if !r.isWhole then
    let x := lpAt (← get) lp
    if x.icount ≠ 0 || !x.gated.isEmpty then throw .close
    modify fun s => updLp s lp fun x => { x with icount := 256 }

/-! ### Operands in storage -/

/-- A piece of an operand within one page: physical address, length, effective memory type. -/
structure Piece where
  pa : Nat
  len : Nat
  ty : MemType
  deriving DecidableEq, Repr

/-- A range of up to 4,096 bytes cut at a page of 4 KiB. -/
def pagePieces (va : Word) (n : Nat) : List (Word × Nat) :=
  let k := 4096 - va.toNat % 4096
  if n ≤ k then [(va, n)] else [(va, k), (va + BitVec.ofNat 64 k, n - k)]

/-- Every page of an operand is translated and checked (R95), and its lines in Normal memory are accessed (R206, R213). -/
def pieces (lp : Fin 48) (acc : Access) (asUser : Bool) : List (Word × Nat) → Run (List Piece)
  | [] => pure []
  | (va, n) :: l => do
    let (pa, ty) ← translate lp va acc asUser
    if ty = .normal then modify (touchPiece lp (acc = .store) va pa n)
    let r ← pieces lp acc asUser l
    pure (⟨pa, n, ty⟩ :: r)

def operand (lp : Fin 48) (acc : Access) (va : Word) (n : Nat) (asUser : Bool := false) : Run (List Piece) :=
  pieces lp acc asUser (pagePieces va n)

/-- Every piece lies in Normal memory. -/
def allNormal (l : List Piece) : Bool := l.all fun p => p.ty = .normal

/-- A byte range read by a processor meets poison where its own stores do not give the byte (R421). -/
def loadPoison (s : State) (x : Lp) (a : Nat) : Nat → Bool
  | 0 => false
  | n + 1 => (linePoison s (lineOf a) && (gateByte x.gated a).isNone && (gateByte x.released a).isNone &&
      (gateByte x.owning a).isNone) || loadPoison s x (a + 1) n

/-- Bytes of an operand, from storage. -/
def readPieces (lp : Fin 48) (va : Word) (l : List Piece) : Run (List Byte) := do
  let s ← get
  let x := lpAt s lp
  if (!s.poison.isEmpty || !s.mode.coupled.isEmpty || s.mcs.any fun m => m.st = .failed) &&
      l.any fun p => loadPoison s x p.pa p.len then
    match l.find? fun p => !visible s (lineOf p.pa) && lostHome s (lineOf p.pa) with
    | some p => set (lostRead s lp (lineOf p.pa))
    | none => pure ()
    throw (.sync va)
  pure (l.flatMap fun p => lpBytes s x p.pa p.len)

/-- Pieces of a store put in the gate in order. -/
def gatePieces : List Piece → List Byte → Nat → List GateEntry → List GateEntry
  | [], _, _, g => g
  | p :: l, bs, ctx, g =>
    gatePieces l (bs.drop p.len) ctx (gateStore (p.len + 1) g p.ty p.pa (bs.take p.len) ctx)

/-- Whether a store touches a line. -/
def touchesLine (l : List Piece) (line : Nat) : Bool :=
  l.any fun p => decide (0 < p.len ∧ lineOf p.pa ≤ line ∧ line ≤ lineOf (p.pa + p.len - 1))

/-- A store enters the gate, whose gated part has no more than 64 entries (R262); it loses the processor's own
reservation on its granule (Table 7-8). -/
def storePieces (lp : Fin 48) (l : List Piece) (bs : List Byte) : Run Unit := do
  let s ← get
  let x := lpAt s lp
  let g := gatePieces l bs (lpCtx s lp) x.gated
  let lost := match x.reservation with | some r => touchesLine l r | none => false
  if g.length > 64 then throw .close
  set (updLp s lp fun x =>
    { x with gated := g, reservation := if lost then none else x.reservation, resHold := x.resHold && !lost })

end Sys2Proof.Machine
end

