-- ==== Sys2Proof/Machine/Integer.lean ====
section
/-! DEFINITION. Integer and logical instructions, carry chains, multiplication and division (04 R93-R102). -/

namespace Sys2Proof.Machine

/-! ### Shifts and counts -/

/-- A shift or rotation takes its amount from bits 5:0 (Table 4-6). -/
def sll (a b : Word) : Word := a <<< (b.toNat % 64)
def srl (a b : Word) : Word := a >>> (b.toNat % 64)
def sra (a b : Word) : Word := a.sshiftRight (b.toNat % 64)
def rol (a b : Word) : Word := a.rotateLeft (b.toNat % 64)

/-- Zero bits below the lowest one bit of the first `n`. -/
def trailing (a : Word) : Nat → Nat → Nat
  | 0, k => k
  | n + 1, k => if bit a k then k else trailing a n (k + 1)

/-- Zero bits above the highest one bit of bits n − 1 to 0. -/
def leading (a : Word) : Nat → Nat → Nat
  | 0, k => k
  | n + 1, k => if bit a n then k else leading a n (k + 1)

def clz (a : Word) : Word := BitVec.ofNat 64 (leading a 64 0)
def ctz (a : Word) : Word := BitVec.ofNat 64 (trailing a 64 0)

/-- One bits among bits n − 1 to 0. -/
def ones (a : Word) : Nat → Nat
  | 0 => 0
  | n + 1 => (if bit a n then 1 else 0) + ones a n

def popc (a : Word) : Word := BitVec.ofNat 64 (ones a 64)

/-! ### Shapes -/

/-- GD := f of GA and GB; C is not used. -/
def binary (f : Word → Word → Word) (lp : Fin 48) (d a b c : Fin 32) : Run Unit := do
  unused [c]
  writeG lp d (f (← readG lp a) (← readG lp b))

/-- GD := f of GA; B and C are not used. -/
def unary (f : Word → Word) (lp : Fin 48) (d a b c : Fin 32) : Run Unit := do
  unused [b, c]
  writeG lp d (f (← readG lp a))

/-- GD := f of GA and IMM. -/
def immediate (f : Word → BitVec 16 → Word) (lp : Fin 48) (d a : Fin 32) (i : BitVec 16) : Run Unit := do
  writeG lp d (f (← readG lp a) i)

/-! ### Format A -/

/-- ADD (Table 4-6). -/
def addBody (lp : Fin 48) (d a b c : Fin 32) : Run Unit := binary (fun a b => a + b) lp d a b c

def execAdd (lp : Fin 48) (d a b c : Fin 32) (s : State) :
    Host.Outcome State Fault Refusal := runInstr lp {} (addBody lp d a b c) s

/-- SUB (Table 4-6). -/
def subBody (lp : Fin 48) (d a b c : Fin 32) : Run Unit := binary (fun a b => a - b) lp d a b c

def execSub (lp : Fin 48) (d a b c : Fin 32) (s : State) :
    Host.Outcome State Fault Refusal := runInstr lp {} (subBody lp d a b c) s

/-- AND (Table 4-6). -/
def andBody (lp : Fin 48) (d a b c : Fin 32) : Run Unit := binary (fun a b => a &&& b) lp d a b c

def execAnd (lp : Fin 48) (d a b c : Fin 32) (s : State) :
    Host.Outcome State Fault Refusal := runInstr lp {} (andBody lp d a b c) s

/-- OR (Table 4-6). -/
def orBody (lp : Fin 48) (d a b c : Fin 32) : Run Unit := binary (fun a b => a ||| b) lp d a b c

def execOr (lp : Fin 48) (d a b c : Fin 32) (s : State) :
    Host.Outcome State Fault Refusal := runInstr lp {} (orBody lp d a b c) s

/-- XOR (Table 4-6). -/
def xorBody (lp : Fin 48) (d a b c : Fin 32) : Run Unit := binary (fun a b => a ^^^ b) lp d a b c

def execXor (lp : Fin 48) (d a b c : Fin 32) (s : State) :
    Host.Outcome State Fault Refusal := runInstr lp {} (xorBody lp d a b c) s

/-- ANDN (Table 4-6). -/
def andnBody (lp : Fin 48) (d a b c : Fin 32) : Run Unit := binary (fun a b => a &&& ~~~b) lp d a b c

def execAndn (lp : Fin 48) (d a b c : Fin 32) (s : State) :
    Host.Outcome State Fault Refusal := runInstr lp {} (andnBody lp d a b c) s

/-- ORN (Table 4-6). -/
def ornBody (lp : Fin 48) (d a b c : Fin 32) : Run Unit := binary (fun a b => a ||| ~~~b) lp d a b c

def execOrn (lp : Fin 48) (d a b c : Fin 32) (s : State) :
    Host.Outcome State Fault Refusal := runInstr lp {} (ornBody lp d a b c) s

/-- XNOR (Table 4-6). -/
def xnorBody (lp : Fin 48) (d a b c : Fin 32) : Run Unit := binary (fun a b => ~~~(a ^^^ b)) lp d a b c

def execXnor (lp : Fin 48) (d a b c : Fin 32) (s : State) :
    Host.Outcome State Fault Refusal := runInstr lp {} (xnorBody lp d a b c) s

/-- SLL (Table 4-6). -/
def sllBody (lp : Fin 48) (d a b c : Fin 32) : Run Unit := binary (sll) lp d a b c

def execSll (lp : Fin 48) (d a b c : Fin 32) (s : State) :
    Host.Outcome State Fault Refusal := runInstr lp {} (sllBody lp d a b c) s

/-- SRL (Table 4-6). -/
def srlBody (lp : Fin 48) (d a b c : Fin 32) : Run Unit := binary (srl) lp d a b c

def execSrl (lp : Fin 48) (d a b c : Fin 32) (s : State) :
    Host.Outcome State Fault Refusal := runInstr lp {} (srlBody lp d a b c) s

/-- SRA (Table 4-6). -/
def sraBody (lp : Fin 48) (d a b c : Fin 32) : Run Unit := binary (sra) lp d a b c

def execSra (lp : Fin 48) (d a b c : Fin 32) (s : State) :
    Host.Outcome State Fault Refusal := runInstr lp {} (sraBody lp d a b c) s

/-- ROL (Table 4-6). -/
def rolBody (lp : Fin 48) (d a b c : Fin 32) : Run Unit := binary (rol) lp d a b c

def execRol (lp : Fin 48) (d a b c : Fin 32) (s : State) :
    Host.Outcome State Fault Refusal := runInstr lp {} (rolBody lp d a b c) s

/-- CMPEQ (Table 4-6). -/
def cmpeqBody (lp : Fin 48) (d a b c : Fin 32) : Run Unit := binary (fun a b => boolWord (a = b)) lp d a b c

def execCmpeq (lp : Fin 48) (d a b c : Fin 32) (s : State) :
    Host.Outcome State Fault Refusal := runInstr lp {} (cmpeqBody lp d a b c) s

/-- CMPNE (Table 4-6). -/
def cmpneBody (lp : Fin 48) (d a b c : Fin 32) : Run Unit := binary (fun a b => boolWord (a ≠ b)) lp d a b c

def execCmpne (lp : Fin 48) (d a b c : Fin 32) (s : State) :
    Host.Outcome State Fault Refusal := runInstr lp {} (cmpneBody lp d a b c) s

/-- CMPLT (Table 4-6). -/
def cmpltBody (lp : Fin 48) (d a b c : Fin 32) : Run Unit := binary (fun a b => boolWord (a.slt b)) lp d a b c

def execCmplt (lp : Fin 48) (d a b c : Fin 32) (s : State) :
    Host.Outcome State Fault Refusal := runInstr lp {} (cmpltBody lp d a b c) s

/-- CMPLTU (Table 4-6). -/
def cmpltuBody (lp : Fin 48) (d a b c : Fin 32) : Run Unit := binary (fun a b => boolWord (a.ult b)) lp d a b c

def execCmpltu (lp : Fin 48) (d a b c : Fin 32) (s : State) :
    Host.Outcome State Fault Refusal := runInstr lp {} (cmpltuBody lp d a b c) s

/-- CMPLE (Table 4-6). -/
def cmpleBody (lp : Fin 48) (d a b c : Fin 32) : Run Unit := binary (fun a b => boolWord (a.sle b)) lp d a b c

def execCmple (lp : Fin 48) (d a b c : Fin 32) (s : State) :
    Host.Outcome State Fault Refusal := runInstr lp {} (cmpleBody lp d a b c) s

/-- CMPLEU (Table 4-6). -/
def cmpleuBody (lp : Fin 48) (d a b c : Fin 32) : Run Unit := binary (fun a b => boolWord (a.ule b)) lp d a b c

def execCmpleu (lp : Fin 48) (d a b c : Fin 32) (s : State) :
    Host.Outcome State Fault Refusal := runInstr lp {} (cmpleuBody lp d a b c) s

/-- CLZ (Table 4-6). -/
def clzBody (lp : Fin 48) (d a b c : Fin 32) : Run Unit := unary (clz) lp d a b c

def execClz (lp : Fin 48) (d a b c : Fin 32) (s : State) :
    Host.Outcome State Fault Refusal := runInstr lp {} (clzBody lp d a b c) s

/-- CTZ (Table 4-6). -/
def ctzBody (lp : Fin 48) (d a b c : Fin 32) : Run Unit := unary (ctz) lp d a b c

def execCtz (lp : Fin 48) (d a b c : Fin 32) (s : State) :
    Host.Outcome State Fault Refusal := runInstr lp {} (ctzBody lp d a b c) s

/-- POPC (Table 4-6). -/
def popcBody (lp : Fin 48) (d a b c : Fin 32) : Run Unit := unary (popc) lp d a b c

def execPopc (lp : Fin 48) (d a b c : Fin 32) (s : State) :
    Host.Outcome State Fault Refusal := runInstr lp {} (popcBody lp d a b c) s

/-- EXTB (Table 4-6). -/
def extbBody (lp : Fin 48) (d a b c : Fin 32) : Run Unit := unary (fun a => (a.setWidth 8).signExtend 64) lp d a b c

def execExtb (lp : Fin 48) (d a b c : Fin 32) (s : State) :
    Host.Outcome State Fault Refusal := runInstr lp {} (extbBody lp d a b c) s

/-- EXTH (Table 4-6). -/
def exthBody (lp : Fin 48) (d a b c : Fin 32) : Run Unit := unary (fun a => (a.setWidth 16).signExtend 64) lp d a b c

def execExth (lp : Fin 48) (d a b c : Fin 32) (s : State) :
    Host.Outcome State Fault Refusal := runInstr lp {} (exthBody lp d a b c) s

/-- EXTW (Table 4-6). -/
def extwBody (lp : Fin 48) (d a b c : Fin 32) : Run Unit := unary (fun a => (a.setWidth 32).signExtend 64) lp d a b c

def execExtw (lp : Fin 48) (d a b c : Fin 32) (s : State) :
    Host.Outcome State Fault Refusal := runInstr lp {} (extwBody lp d a b c) s

/-- SEL (Table 4-6). -/
def selBody (lp : Fin 48) (d a b c : Fin 32) : Run Unit := do
  let x ← readG lp a
  let y ← readG lp b
  writeG lp d (if (← readG lp c) ≠ 0 then x else y)

def execSel (lp : Fin 48) (d a b c : Fin 32) (s : State) :
    Host.Outcome State Fault Refusal := runInstr lp {} (selBody lp d a b c) s

/-! ### Carry chains (R98) -/

/-- Two results, D and C, of three operands; D and C are not the same register other than G0. -/
def twoResults (f : Word → Word → Word → Word × Word) (lp : Fin 48) (d a b c : Fin 32) : Run Unit := do
  specIf (d = c && decide (d ≠ 0))
  let (x, y) := f (← readG lp a) (← readG lp b) (← readG lp c)
  writeG lp d x
  writeG lp c y

/-- a + b + c[0] and its carry. -/
def addCarry (a b c : Word) : Word × Word :=
  let t := a.toNat + b.toNat + c.toNat % 2
  (BitVec.ofNat 64 t, boolWord (decide (t ≥ 2 ^ 64)))

/-- a − b − c[0] and its borrow. -/
def subBorrow (a b c : Word) : Word × Word :=
  (a - b - BitVec.ofNat 64 (c.toNat % 2), boolWord (decide (a.toNat < b.toNat + c.toNat % 2)))

/-- ADDC (R98). -/
def addcBody (lp : Fin 48) (d a b c : Fin 32) : Run Unit := twoResults addCarry lp d a b c

def execAddc (lp : Fin 48) (d a b c : Fin 32) (s : State) :
    Host.Outcome State Fault Refusal := runInstr lp {} (addcBody lp d a b c) s

/-- SUBC (R98). -/
def subcBody (lp : Fin 48) (d a b c : Fin 32) : Run Unit := twoResults subBorrow lp d a b c

def execSubc (lp : Fin 48) (d a b c : Fin 32) (s : State) :
    Host.Outcome State Fault Refusal := runInstr lp {} (subcBody lp d a b c) s

/-! ### Multiplication (R99, R100) -/

/-- MUL. -/
def mulBody (lp : Fin 48) (d a b c : Fin 32) : Run Unit := binary (fun a b => a * b) lp d a b c

def execMul (lp : Fin 48) (d a b c : Fin 32) (s : State) :
    Host.Outcome State Fault Refusal := runInstr lp {} (mulBody lp d a b c) s

/-- A 128-bit product to GD and GD+1, high half first; D is even. -/
def wideProduct (f : Word → Word → Quad) (lp : Fin 48) (d a b c : Fin 32) : Run Unit := do
  unused [c]
  specIf (d.val % 2 = 1)
  let p := f (← readG lp a) (← readG lp b)
  writeG lp d ((p >>> 64).setWidth 64)
  writeG lp (nextReg d) (p.setWidth 64)

/-- MULWU. -/
def mulwuBody (lp : Fin 48) (d a b c : Fin 32) : Run Unit :=
  wideProduct (fun a b => a.setWidth 128 * b.setWidth 128) lp d a b c

def execMulwu (lp : Fin 48) (d a b c : Fin 32) (s : State) :
    Host.Outcome State Fault Refusal := runInstr lp {} (mulwuBody lp d a b c) s

/-- MULWS. -/
def mulwsBody (lp : Fin 48) (d a b c : Fin 32) : Run Unit :=
  wideProduct (fun a b => a.signExtend 128 * b.signExtend 128) lp d a b c

def execMulws (lp : Fin 48) (d a b c : Fin 32) (s : State) :
    Host.Outcome State Fault Refusal := runInstr lp {} (mulwsBody lp d a b c) s

/-- MULQ: the 256-bit product of two register pairs to four registers, none of them a source. -/
def mulqBody (lp : Fin 48) (d a b c : Fin 32) : Run Unit := do
  unused [c]
  specIf (a.val % 2 = 1 || b.val % 2 = 1 || d.val % 4 ≠ 0)
  let srcs := [a, nextReg a, b, nextReg b]
  let dsts := [d, nextReg d, nextReg d 2, nextReg d 3]
  specIf (dsts.any fun i => srcs.contains i)
  let x := (← readG lp a).toNat * 2 ^ 64 + (← readG lp (nextReg a)).toNat
  let y := (← readG lp b).toNat * 2 ^ 64 + (← readG lp (nextReg b)).toNat
  let p := x * y
  writeG lp d (BitVec.ofNat 64 (p / 2 ^ 192))
  writeG lp (nextReg d) (BitVec.ofNat 64 (p / 2 ^ 128))
  writeG lp (nextReg d 2) (BitVec.ofNat 64 (p / 2 ^ 64))
  writeG lp (nextReg d 3) (BitVec.ofNat 64 p)

def execMulq (lp : Fin 48) (d a b c : Fin 32) (s : State) :
    Host.Outcome State Fault Refusal := runInstr lp {} (mulqBody lp d a b c) s

/-! ### Division (R101, R102) -/

/-- Unsigned quotient and remainder; a zero divisor gives all ones and the dividend. -/
def divideU (a b _c : Word) : Word × Word := if b = 0 then (BitVec.allOnes 64, a) else (a / b, a % b)

/-- Signed quotient truncated toward zero, and remainder with the sign of the dividend; a zero divisor gives all
ones and the dividend, and the one quotient that overflows wraps. -/
def divideS (a b _c : Word) : Word × Word :=
  if b = 0 then (BitVec.allOnes 64, a) else (BitVec.ofInt 64 (a.toInt.tdiv b.toInt), BitVec.ofInt 64 (a.toInt.tmod b.toInt))

/-- DIVS. -/
def divsBody (lp : Fin 48) (d a b c : Fin 32) : Run Unit := twoResults divideS lp d a b c

def execDivs (lp : Fin 48) (d a b c : Fin 32) (s : State) :
    Host.Outcome State Fault Refusal := runInstr lp {} (divsBody lp d a b c) s

/-- DIVU. -/
def divuBody (lp : Fin 48) (d a b c : Fin 32) : Run Unit := twoResults divideU lp d a b c

def execDivu (lp : Fin 48) (d a b c : Fin 32) (s : State) :
    Host.Outcome State Fault Refusal := runInstr lp {} (divuBody lp d a b c) s

/-! ### Format I (R94) -/

/-- ADDI (Table 4-7). -/
def addiBody (lp : Fin 48) (d a : Fin 32) (i : BitVec 16) : Run Unit := immediate (fun a i => a + i.signExtend 64) lp d a i

def execAddi (lp : Fin 48) (d a : Fin 32) (i : BitVec 16) (s : State) :
    Host.Outcome State Fault Refusal := runInstr lp {} (addiBody lp d a i) s

/-- ADDIS (Table 4-7). -/
def addisBody (lp : Fin 48) (d a : Fin 32) (i : BitVec 16) : Run Unit := immediate (fun a i => a + i.signExtend 64 <<< 16) lp d a i

def execAddis (lp : Fin 48) (d a : Fin 32) (i : BitVec 16) (s : State) :
    Host.Outcome State Fault Refusal := runInstr lp {} (addisBody lp d a i) s

/-- ANDI (Table 4-7). -/
def andiBody (lp : Fin 48) (d a : Fin 32) (i : BitVec 16) : Run Unit := immediate (fun a i => a &&& i.setWidth 64) lp d a i

def execAndi (lp : Fin 48) (d a : Fin 32) (i : BitVec 16) (s : State) :
    Host.Outcome State Fault Refusal := runInstr lp {} (andiBody lp d a i) s

/-- ORI (Table 4-7). -/
def oriBody (lp : Fin 48) (d a : Fin 32) (i : BitVec 16) : Run Unit := immediate (fun a i => a ||| i.setWidth 64) lp d a i

def execOri (lp : Fin 48) (d a : Fin 32) (i : BitVec 16) (s : State) :
    Host.Outcome State Fault Refusal := runInstr lp {} (oriBody lp d a i) s

/-- XORI (Table 4-7). -/
def xoriBody (lp : Fin 48) (d a : Fin 32) (i : BitVec 16) : Run Unit := immediate (fun a i => a ^^^ i.setWidth 64) lp d a i

def execXori (lp : Fin 48) (d a : Fin 32) (i : BitVec 16) (s : State) :
    Host.Outcome State Fault Refusal := runInstr lp {} (xoriBody lp d a i) s

/-- CMPEQI (Table 4-7). -/
def cmpeqiBody (lp : Fin 48) (d a : Fin 32) (i : BitVec 16) : Run Unit := immediate (fun a i => boolWord (a = i.signExtend 64)) lp d a i

def execCmpeqi (lp : Fin 48) (d a : Fin 32) (i : BitVec 16) (s : State) :
    Host.Outcome State Fault Refusal := runInstr lp {} (cmpeqiBody lp d a i) s

/-- CMPLTI (Table 4-7). -/
def cmpltiBody (lp : Fin 48) (d a : Fin 32) (i : BitVec 16) : Run Unit := immediate (fun a i => boolWord (a.slt (i.signExtend 64))) lp d a i

def execCmplti (lp : Fin 48) (d a : Fin 32) (i : BitVec 16) (s : State) :
    Host.Outcome State Fault Refusal := runInstr lp {} (cmpltiBody lp d a i) s

/-- CMPLTUI (Table 4-7). -/
def cmpltuiBody (lp : Fin 48) (d a : Fin 32) (i : BitVec 16) : Run Unit := immediate (fun a i => boolWord (a.ult (i.setWidth 64))) lp d a i

def execCmpltui (lp : Fin 48) (d a : Fin 32) (i : BitVec 16) (s : State) :
    Host.Outcome State Fault Refusal := runInstr lp {} (cmpltuiBody lp d a i) s

/-- The shifts of SHI, by bits 7:6 and 5:0 of IMM. -/
def shiftImm (a : Word) (i : BitVec 16) : Word :=
  let n := BitVec.ofNat 64 (field i 0 6)
  match field i 6 2 with
  | 0 => sll a n
  | 1 => srl a n
  | 2 => sra a n
  | _ => rol a n

/-- SHI (Table 4-7). -/
def shiBody (lp : Fin 48) (d a : Fin 32) (i : BitVec 16) : Run Unit := do
  specIf (field i 8 8 ≠ 0)
  immediate shiftImm lp d a i

def execShi (lp : Fin 48) (d a : Fin 32) (i : BitVec 16) (s : State) :
    Host.Outcome State Fault Refusal := runInstr lp {} (shiBody lp d a i) s

/-! ### Branches (R96) -/

/-- Target of a format B branch, with the instruction address already past it. -/
def branchTarget (next : Word) (disp : BitVec 21) : Word := next - 4 + disp.signExtend 64 <<< 2

def branchTo (lp : Fin 48) (a : Word) : Run Unit := modArch lp fun x => { x with pswa := a }

/-- A branch on a register, taken where the test holds. -/
def branchIf (test : Word → Bool) (lp : Fin 48) (t : Fin 32) (disp : BitVec 21) : Run Unit := do
  let a ← getArch lp
  if test (a.getG t) then branchTo lp (branchTarget a.pswa disp)

def execBz (lp : Fin 48) (t : Fin 32) (disp : BitVec 21) (s : State) : Host.Outcome State Fault Refusal :=
  runInstr lp {} (branchIf (fun v => decide (v = 0)) lp t disp) s

def execBnz (lp : Fin 48) (t : Fin 32) (disp : BitVec 21) (s : State) : Host.Outcome State Fault Refusal :=
  runInstr lp {} (branchIf (fun v => decide (v ≠ 0)) lp t disp) s

/-- BAL: the address of the next instruction to GT, then the branch. -/
def balBody (lp : Fin 48) (t : Fin 32) (disp : BitVec 21) : Run Unit := do
  let a ← getArch lp
  writeG lp t a.pswa
  branchTo lp (branchTarget a.pswa disp)

def execBal (lp : Fin 48) (t : Fin 32) (disp : BitVec 21) (s : State) : Host.Outcome State Fault Refusal :=
  runInstr lp {} (balBody lp t disp) s

/-- JR: the target is read before GD is written. -/
def jrBody (lp : Fin 48) (d a b c : Fin 32) : Run Unit := do
  unused [b, c]
  let x ← getArch lp
  let target := x.getG a
  specIf (target.toNat % 4 ≠ 0)
  writeG lp d x.pswa
  branchTo lp target

def execJr (lp : Fin 48) (d a b c : Fin 32) (s : State) :
    Host.Outcome State Fault Refusal := runInstr lp {} (jrBody lp d a b c) s

end Sys2Proof.Machine
end

