-- ==== Sys2Proof/Machine/LoadStore.lean ====
section
/-! DEFINITION. Loads and stores of format M (04 R95, 06 R134, 08 R183), what a Device load finds (07 R155), the
storage-to-storage instructions (04 R103), and the atomic instructions (07 R169-R173). -/

namespace Sys2Proof.Machine

/-- Effective address of format M (R85). -/
def effAddr (lp : Fin 48) (b : Fin 32) (disp : BitVec 16) : Run Word := do
  pure ((← readG lp b) + disp.signExtend 64)

/-- An instruction that Compatibility operating does not have (R109, R152). -/
def notCompat : Run Unit := do if (← get).mode.mode = .compat then operationExc

/-- An access to Uncached or Device memory is naturally aligned (R95). -/
def checkAligned (va : Word) (n : Nat) (l : List Piece) : Run Unit :=
  specAt va (va.toNat % n ≠ 0 && !allNormal l)

/-! ### Loads -/

/-- A register with what a load brings. -/
def putLoad (a : Arch) (dst : LoadDst) (bs : List Byte) : Arch :=
  match dst with
  | .g d signed =>
    let n := 8 * bs.length
    let v := BitVec.ofNat n (beVal bs)
    a.setG d (if signed then v.signExtend 64 else v.setWidth 64)
  | .f d => a.setF d (BitVec.ofNat 128 (beVal bs * 2 ^ (128 - 8 * bs.length)))

/-- A byte of a doorbell page as a context loads it; JQ_CTL and JQ_STATUS have 32 bits (R343). -/
def doorbellByte (s : State) (ctx sd page o : Nat) : Byte :=
  if page ≥ 64 then 0
  else
    let r := o / 8 * 8
    let v := doorbellLoad s ctx sd page r
    let v := if (r = 0x18 || r = 0x20) && v ≠ BitVec.allOnes 64 then v <<< 32 else v
    BitVec.ofNat 8 (v.toNat / 256 ^ (7 - o % 8))

/-- Free bytes (log 2). -/
def freeBytes (s : State) (n : Nat) : List Byte := (List.range n).map fun i => Config.freeByte s.freeCtr i

/-- What a Device load finds where it completes at once: in the service space, a doorbell page or the signal
granule of this package; nothing in a window of its root ports, or in another package. -/
def loadNow (s : State) (lp : Fin 48) (pa n : Nat) : Option (State × List Byte) :=
  let o := pkgOff pa
  if !localPkg s pa then none
  else
    match regionOf s pa with
    | .service =>
      let off := o - 0x300000000000
      match readService s .manager off n with
      | .value v => some (readEffect s .manager off n, beBytes n v.toNat)
      | .refused => some (discard s .manager off false, List.replicate n 0xFF)
    | .doorbell sd => some (s, (List.range n).map fun i => doorbellByte s (lpCtx s lp) sd (o % gib / 4096) (o % 4096 + i))
    | .signal => some (s, List.replicate n 0)
    | _ => none

/-- A Device store of a processor has been released and has not reached its target. -/
def deviceBehind (x : Lp) : Bool :=
  !x.toPort.isEmpty || (x.released.any fun e => e.ty = .device) || x.toFar.any fun e => e.ty = .device

/-- Registers as a completed load leaves them. -/
def loadDone (lp : Fin 48) (dst : LoadDst) (bs : List Byte) (upd : Option (Fin 32 × Word)) : Run Unit :=
  modArch lp fun a =>
    let a := putLoad a dst bs
    match upd with
    | some (b, ea) => a.setG b ea
    | none => a

/-- A Device load: after every earlier Device store, in an interval of its own; in a root port's window or another package it is
issued by DEVICE_LOAD and completed by its completion (R155, R157). A prefix that repeats it waits there, a REP.N with its
later iterations to come (log 40). -/
def loadDevice (r : Rep) (lp : Fin 48) (dst : LoadDst) (pa n : Nat) (va : Word) (upd : Option (Fin 32 × Word)) :
    Run Unit := do
  ownInterval lp r
  let s ← get
  if deviceBehind (lpAt s lp) then throw .wait
  match loadNow s lp pa n with
  | some (t, bs) =>
    set t
    loadDone lp dst bs upd
  | none =>
    holdLp lp r (.load { dst := dst, size := n, addr := pa, va := va, got := [], upd := upd, rep := r.count,
                         whole := r.isWhole, issued := none })

/-- A load of `n` bytes; `up` for the update form, `asUser` for LDUA. -/
def load (r : Rep) (lp : Fin 48) (dst : LoadDst) (n : Nat) (b : Fin 32) (disp : BitVec 16) (up : Bool := false)
    (asUser : Bool := false) : Run Unit := do
  let va ← effAddr lp b disp
  let l ← operand lp .load va n asUser
  checkAligned va n l
  let upd := if up then some (b, va) else none
  match l with
  | [⟨pa, _, .device⟩] => loadDevice r lp dst pa n va upd
  | _ => loadDone lp dst (← readPieces lp va l) upd

/-! ### Stores -/

/-- A store of the low `n` bytes of a register's value; one that is not naturally aligned is refused within a REP.N
(R108). -/
def store (r : Rep) (lp : Fin 48) (v : Arch → Nat) (n : Nat) (b : Fin 32) (disp : BitVec 16) (up : Bool := false)
    (asUser : Bool := false) : Run Unit := do
  let va ← effAddr lp b disp
  specAt va (r.isWhole && decide (va.toNat % n ≠ 0))
  let l ← operand lp .store va n asUser
  checkAligned va n l
  storePieces lp l (beBytes n (v (← getArch lp)))
  if up then writeG lp b va

/-! ### Format M -/

/-- LBU (R95). -/
def lbuBody (r : Rep) (lp : Fin 48) (t b : Fin 32) (disp : BitVec 16) : Run Unit := load r lp (.g t false) 1 b disp

/-- LBS (R95). -/
def lbsBody (r : Rep) (lp : Fin 48) (t b : Fin 32) (disp : BitVec 16) : Run Unit := load r lp (.g t true) 1 b disp

/-- LHU (R95). -/
def lhuBody (r : Rep) (lp : Fin 48) (t b : Fin 32) (disp : BitVec 16) : Run Unit := load r lp (.g t false) 2 b disp

/-- LHS (R95). -/
def lhsBody (r : Rep) (lp : Fin 48) (t b : Fin 32) (disp : BitVec 16) : Run Unit := load r lp (.g t true) 2 b disp

/-- LWU (R95). -/
def lwuBody (r : Rep) (lp : Fin 48) (t b : Fin 32) (disp : BitVec 16) : Run Unit := load r lp (.g t false) 4 b disp

/-- LWS (R95). -/
def lwsBody (r : Rep) (lp : Fin 48) (t b : Fin 32) (disp : BitVec 16) : Run Unit := load r lp (.g t true) 4 b disp

/-- LD (R95). -/
def ldBody (r : Rep) (lp : Fin 48) (t b : Fin 32) (disp : BitVec 16) : Run Unit := load r lp (.g t false) 8 b disp

/-- LDUP (R95): the base takes the effective address after the load. -/
def ldupBody (r : Rep) (lp : Fin 48) (t b : Fin 32) (disp : BitVec 16) : Run Unit := do
  specIf (b = t || b = 0)
  load r lp (.g t false) 8 b disp true

/-- STB (R95). -/
def stbBody (r : Rep) (lp : Fin 48) (t b : Fin 32) (disp : BitVec 16) : Run Unit := store r lp (fun a => (a.getG t).toNat) 1 b disp

/-- STH (R95). -/
def sthBody (r : Rep) (lp : Fin 48) (t b : Fin 32) (disp : BitVec 16) : Run Unit := store r lp (fun a => (a.getG t).toNat) 2 b disp

/-- STW (R95). -/
def stwBody (r : Rep) (lp : Fin 48) (t b : Fin 32) (disp : BitVec 16) : Run Unit := store r lp (fun a => (a.getG t).toNat) 4 b disp

/-- STD (R95). -/
def stdBody (r : Rep) (lp : Fin 48) (t b : Fin 32) (disp : BitVec 16) : Run Unit := store r lp (fun a => (a.getG t).toNat) 8 b disp

/-- STDUP (R95). -/
def stdupBody (r : Rep) (lp : Fin 48) (t b : Fin 32) (disp : BitVec 16) : Run Unit := do
  specIf (b = t || b = 0)
  store r lp (fun a => (a.getG t).toNat) 8 b disp true

/-- LFS (R134). -/
def lfsBody (r : Rep) (lp : Fin 48) (t b : Fin 32) (disp : BitVec 16) : Run Unit := load r lp (.f t) 4 b disp

/-- LFD (R134). -/
def lfdBody (r : Rep) (lp : Fin 48) (t b : Fin 32) (disp : BitVec 16) : Run Unit := load r lp (.f t) 8 b disp

/-- LFQ (R134, R152). -/
def lfqBody (r : Rep) (lp : Fin 48) (t b : Fin 32) (disp : BitVec 16) : Run Unit := do
  notCompat
  load r lp (.f t) 16 b disp

/-- STFS (R134). -/
def stfsBody (r : Rep) (lp : Fin 48) (t b : Fin 32) (disp : BitVec 16) : Run Unit :=
  store r lp (fun a => (a.getF t).toNat / 2 ^ 96) 4 b disp

/-- STFD (R134). -/
def stfdBody (r : Rep) (lp : Fin 48) (t b : Fin 32) (disp : BitVec 16) : Run Unit :=
  store r lp (fun a => (a.getF t).toNat / 2 ^ 64) 8 b disp

/-- STFQ (R134, R152). -/
def stfqBody (r : Rep) (lp : Fin 48) (t b : Fin 32) (disp : BitVec 16) : Run Unit := do
  notCompat
  store r lp (fun a => (a.getF t).toNat) 16 b disp

/-- LDUA and STUA: from Supervisor state, with translation (R183). -/
def userForm (lp : Fin 48) : Run Unit := do
  needPriv lp 1
  specIf (!bit (← getArch lp).psws 60)

/-- LDUA (R183). -/
def lduaBody (r : Rep) (lp : Fin 48) (t b : Fin 32) (disp : BitVec 16) : Run Unit := do
  userForm lp
  load r lp (.g t false) 8 b disp false true

/-- STUA (R183). -/
def stuaBody (r : Rep) (lp : Fin 48) (t b : Fin 32) (disp : BitVec 16) : Run Unit := do
  userForm lp
  store r lp (fun a => (a.getG t).toNat) 8 b disp false true

def execLbu (lp : Fin 48) (t b : Fin 32) (disp : BitVec 16) (s : State) :
    Host.Outcome State Fault Refusal := runInstr lp {} (lbuBody .no lp t b disp) s

def execLbs (lp : Fin 48) (t b : Fin 32) (disp : BitVec 16) (s : State) :
    Host.Outcome State Fault Refusal := runInstr lp {} (lbsBody .no lp t b disp) s

def execLhu (lp : Fin 48) (t b : Fin 32) (disp : BitVec 16) (s : State) :
    Host.Outcome State Fault Refusal := runInstr lp {} (lhuBody .no lp t b disp) s

def execLhs (lp : Fin 48) (t b : Fin 32) (disp : BitVec 16) (s : State) :
    Host.Outcome State Fault Refusal := runInstr lp {} (lhsBody .no lp t b disp) s

def execLwu (lp : Fin 48) (t b : Fin 32) (disp : BitVec 16) (s : State) :
    Host.Outcome State Fault Refusal := runInstr lp {} (lwuBody .no lp t b disp) s

def execLws (lp : Fin 48) (t b : Fin 32) (disp : BitVec 16) (s : State) :
    Host.Outcome State Fault Refusal := runInstr lp {} (lwsBody .no lp t b disp) s

def execLd (lp : Fin 48) (t b : Fin 32) (disp : BitVec 16) (s : State) :
    Host.Outcome State Fault Refusal := runInstr lp {} (ldBody .no lp t b disp) s

def execLdup (lp : Fin 48) (t b : Fin 32) (disp : BitVec 16) (s : State) :
    Host.Outcome State Fault Refusal := runInstr lp {} (ldupBody .no lp t b disp) s

def execStb (lp : Fin 48) (t b : Fin 32) (disp : BitVec 16) (s : State) :
    Host.Outcome State Fault Refusal := runInstr lp {} (stbBody .no lp t b disp) s

def execSth (lp : Fin 48) (t b : Fin 32) (disp : BitVec 16) (s : State) :
    Host.Outcome State Fault Refusal := runInstr lp {} (sthBody .no lp t b disp) s

def execStw (lp : Fin 48) (t b : Fin 32) (disp : BitVec 16) (s : State) :
    Host.Outcome State Fault Refusal := runInstr lp {} (stwBody .no lp t b disp) s

def execStd (lp : Fin 48) (t b : Fin 32) (disp : BitVec 16) (s : State) :
    Host.Outcome State Fault Refusal := runInstr lp {} (stdBody .no lp t b disp) s

def execStdup (lp : Fin 48) (t b : Fin 32) (disp : BitVec 16) (s : State) :
    Host.Outcome State Fault Refusal := runInstr lp {} (stdupBody .no lp t b disp) s

def execLfs (lp : Fin 48) (t b : Fin 32) (disp : BitVec 16) (s : State) :
    Host.Outcome State Fault Refusal := runInstr lp {} (lfsBody .no lp t b disp) s

def execLfd (lp : Fin 48) (t b : Fin 32) (disp : BitVec 16) (s : State) :
    Host.Outcome State Fault Refusal := runInstr lp {} (lfdBody .no lp t b disp) s

def execLfq (lp : Fin 48) (t b : Fin 32) (disp : BitVec 16) (s : State) :
    Host.Outcome State Fault Refusal := runInstr lp {} (lfqBody .no lp t b disp) s

def execStfs (lp : Fin 48) (t b : Fin 32) (disp : BitVec 16) (s : State) :
    Host.Outcome State Fault Refusal := runInstr lp {} (stfsBody .no lp t b disp) s

def execStfd (lp : Fin 48) (t b : Fin 32) (disp : BitVec 16) (s : State) :
    Host.Outcome State Fault Refusal := runInstr lp {} (stfdBody .no lp t b disp) s

def execStfq (lp : Fin 48) (t b : Fin 32) (disp : BitVec 16) (s : State) :
    Host.Outcome State Fault Refusal := runInstr lp {} (stfqBody .no lp t b disp) s

def execLdua (lp : Fin 48) (t b : Fin 32) (disp : BitVec 16) (s : State) :
    Host.Outcome State Fault Refusal := runInstr lp {} (lduaBody .no lp t b disp) s

def execStua (lp : Fin 48) (t b : Fin 32) (disp : BitVec 16) (s : State) :
    Host.Outcome State Fault Refusal := runInstr lp {} (stuaBody .no lp t b disp) s

/-! ### Storage-to-storage (R103) -/

/-- Address of an operand of format X (R85). -/
def xAddr (lp : Fin 48) (b : Fin 32) (d : BitVec 11) : Run Word := do pure ((← readG lp b) + d.setWidth 64)

/-- An operand of format X in storage. -/
structure XOp where
  va : Word
  len : Nat
  acc : Access
  deriving DecidableEq, Repr

/-- An operand is translated on every page and lies in Normal memory (R103). -/
def pretest (lp : Fin 48) (o : XOp) : Run (List Piece) := do
  let l ← operand lp o.acc o.va o.len
  specAt o.va (!allNormal l)
  pure l

/-- The pre-test of two operands, in ascending order of address (R91). -/
def pretest2 (lp : Fin 48) (x y : XOp) : Run (List Piece × List Piece) := do
  if x.va.toNat ≤ y.va.toNat then
    let l ← pretest lp x
    let m ← pretest lp y
    pure (l, m)
  else
    let m ← pretest lp y
    let l ← pretest lp x
    pure (l, m)

/-- Physical addresses of the bytes of an operand. -/
def pieceAddrs (l : List Piece) : List Nat := l.flatMap fun p => (List.range p.len).map fun i => p.pa + i

/-- Bytes stored one at a time in ascending order, each from the two operands as they then stand; `held` is the
bytes stored so far. -/
def byteWise (f : Byte → Byte → Byte) (get : Nat → Byte) : List (Nat × Nat) → Tab Byte → List Byte
  | [], _ => []
  | (a, b) :: l, held =>
    let v := f ((Tab.look held a).getD (get a)) ((Tab.look held b).getD (get b))
    v :: byteWise f get l (Tab.put held a v)

/-- SMOV and SXOR. -/
def stringStore (f : Byte → Byte → Byte) (reads1 : Bool) (lp : Fin 48) (rg : Fin 32) (l1 l2 : BitVec 8)
    (b1 : Fin 32) (d1 : BitVec 11) (b2 : Fin 32) (d2 : BitVec 11) : Run Unit := do
  specIf (rg ≠ 0 || l2 ≠ 0)
  let a1 ← xAddr lp b1 d1
  let a2 ← xAddr lp b2 d2
  let n := l1.toNat + 1
  let (x, y) ← pretest2 lp ⟨a1, n, .store⟩ ⟨a2, n, .load⟩
  if reads1 then discardBytes (← readPieces lp a1 x)
  discardBytes (← readPieces lp a2 y)
  let s ← get
  let p := lpAt s lp
  storePieces lp x (byteWise f (lpByte s p) ((pieceAddrs x).zip (pieceAddrs y)) [])
where
  discardBytes (_ : List Byte) : Run Unit := pure ()

/-- −1, 0 or +1 for two byte strings compared as unsigned. -/
def compareBytes : List Byte → List Byte → Word
  | a :: l, b :: m => if a.ult b then BitVec.allOnes 64 else if b.ult a then 1 else compareBytes l m
  | _, _ => 0

def xForm : Form := { len := 8 }

def execSmov (lp : Fin 48) (rg : Fin 32) (l1 l2 : BitVec 8) (b1 : Fin 32) (d1 : BitVec 11) (b2 : Fin 32)
    (d2 : BitVec 11) (s : State) : Host.Outcome State Fault Refusal :=
  runInstr lp xForm (stringStore (fun _ b => b) false lp rg l1 l2 b1 d1 b2 d2) s

def execSxor (lp : Fin 48) (rg : Fin 32) (l1 l2 : BitVec 8) (b1 : Fin 32) (d1 : BitVec 11) (b2 : Fin 32)
    (d2 : BitVec 11) (s : State) : Host.Outcome State Fault Refusal :=
  runInstr lp xForm (stringStore (fun a b => a ^^^ b) true lp rg l1 l2 b1 d1 b2 d2) s

/-- SCMP. -/
def scmpBody (lp : Fin 48) (rg : Fin 32) (l1 l2 : BitVec 8) (b1 : Fin 32) (d1 : BitVec 11) (b2 : Fin 32)
    (d2 : BitVec 11) : Run Unit := do
  specIf (l2 ≠ 0)
  let a1 ← xAddr lp b1 d1
  let a2 ← xAddr lp b2 d2
  let n := l1.toNat + 1
  let (x, y) ← pretest2 lp ⟨a1, n, .load⟩ ⟨a2, n, .load⟩
  writeG lp rg (compareBytes (← readPieces lp a1 x) (← readPieces lp a2 y))

def execScmp (lp : Fin 48) (rg : Fin 32) (l1 l2 : BitVec 8) (b1 : Fin 32) (d1 : BitVec 11) (b2 : Fin 32)
    (d2 : BitVec 11) (s : State) : Host.Outcome State Fault Refusal :=
  runInstr lp xForm (scmpBody lp rg l1 l2 b1 d1 b2 d2) s

/-! ### Atomic instructions (R169-R173) -/

/-- The operand of an atomic: naturally aligned, in Normal memory; its physical address (R169). -/
def atomOperand (lp : Fin 48) (acc : Access) (a : Fin 32) (n : Nat) : Run (Word × Nat) := do
  let va ← readG lp a
  specAt va (va.toNat % n ≠ 0) 1
  let (pa, ty) ← translate lp va acc
  specAt va (ty ≠ .normal) 2
  pure (va, pa)

/-- Whether a reservation on scratch of another package has been lost there is not known here: a free value (log 91). -/
def farLoss (s : State) (lp : Fin 48) (line : Nat) : State :=
  updLp (taken s) lp fun x =>
    if x.reservation = some line && (freeNow s).getLsbD 0 then { x with reservation := none, resHold := false } else x

/-- The processor's earlier stores have left its gate, in their order, and its L2 holds the line in M, with those to the line
merged; the instruction waits otherwise (R172). Stores to other lines may still wait in the L2 (R173). Scratch of another
package is never held: its value is read there and the store goes there (R243, log 91). -/
def ownLine (lp : Fin 48) (line : Nat) : Run Unit := do
  let s ← get
  match pairOf s lp with
  | none => throw .wait
  | some p =>
    if !(lpAt s lp).released.isEmpty then throw .wait
    match ownNow s p line with
    | none => if farScratch s line then set (farLoss s lp line) else throw .wait
    | some t => set t

/-- Bytes of an atomic's operand. -/
def atomRead (lp : Fin 48) (va : Word) (pa n : Nat) : Run Nat := do
  pure (beVal (← readPieces lp va [⟨pa, n, .normal⟩]))

def atomStore (lp : Fin 48) (pa n : Nat) (v : Word) : Run Unit := storePieces lp [⟨pa, n, .normal⟩] (beBytes n v.toNat)

/-- A copy of the line for an LDRSV; scratch of another package is read there and held nowhere (R227, R243). -/
def readCopy (s : State) (p : Fin 48) (line : Nat) : Option State :=
  (takeCopy s p line).orElse fun _ => if farScratch s line then some s else none

/-- LDRSV: the value, and the reservation of its granule, which the L2 holds (R169, R173). -/
def ldrsvBody (lp : Fin 48) (d a b c : Fin 32) : Run Unit := do
  unused [b]
  specIf (c.val > 1)
  let n := if c = 1 then 4 else 8
  let (va, pa) ← atomOperand lp .load a n
  let s ← get
  match (pairOf s lp).bind fun p => readCopy s p (lineOf pa) with
  | none => throw .wait
  | some t =>
    set t
    let v ← atomRead lp va pa n
    writeG lp d (BitVec.ofNat 64 v)
    modify fun s => updLp s lp fun x => { x with reservation := some (lineOf pa), resHold := true }

def execLdrsv (lp : Fin 48) (d a b c : Fin 32) (s : State) : Host.Outcome State Fault Refusal :=
  runInstr lp {} (ldrsvBody lp d a b c) s

/-- STCND: the store if the granule is reserved; the reservation is cleared in either case (R169, R170). -/
def stcndBody (lp : Fin 48) (d a b c : Fin 32) : Run Unit := do
  specIf (c.val > 1)
  let n := if c = 1 then 4 else 8
  let (_, pa) ← atomOperand lp .store a n
  if (lpAt (← get) lp).reservation = some (lineOf pa) then ownLine lp (lineOf pa)
  let ok := decide ((lpAt (← get) lp).reservation = some (lineOf pa))
  let v ← readG lp b
  if ok then atomStore lp pa n v
  modify fun s => updLp s lp fun x => { x with reservation := none, resHold := false }
  writeG lp d (boolWord ok)

/-- An atomic that stores closes before and after, and its store is performed as it closes (R172). -/
def Form.atom : Form := { before := true, after := true, perform := true }

def execStcnd (lp : Fin 48) (d a b c : Fin 32) (s : State) : Host.Outcome State Fault Refusal :=
  runInstr lp .atom (stcndBody lp d a b c) s

/-- The reservation on a granule is lost by an atomic of the same processor (Table 7-8). -/
def dropReservation (lp : Fin 48) (line : Nat) : Run Unit :=
  modify fun s => updLp s lp fun x =>
    if x.reservation = some line then { x with reservation := none, resHold := false } else x

/-- CSWP: GB is stored where the value equals GC (R169). -/
def cswpBody (lp : Fin 48) (d a b c : Fin 32) : Run Unit := do
  let (va, pa) ← atomOperand lp .store a 8
  ownLine lp (lineOf pa)
  let old := BitVec.ofNat 64 (← atomRead lp va pa 8)
  let new ← readG lp b
  if old = (← readG lp c) then atomStore lp pa 8 new
  dropReservation lp (lineOf pa)
  writeG lp d old

def execCswp (lp : Fin 48) (d a b c : Fin 32) (s : State) : Host.Outcome State Fault Refusal :=
  runInstr lp .atom (cswpBody lp d a b c) s

/-- FADD: the sum with GB is stored (R169). -/
def faddBody (lp : Fin 48) (d a b c : Fin 32) : Run Unit := do
  unused [c]
  let (va, pa) ← atomOperand lp .store a 8
  ownLine lp (lineOf pa)
  let old := BitVec.ofNat 64 (← atomRead lp va pa 8)
  atomStore lp pa 8 (old + (← readG lp b))
  dropReservation lp (lineOf pa)
  writeG lp d old

def execFadd (lp : Fin 48) (d a b c : Fin 32) (s : State) : Host.Outcome State Fault Refusal :=
  runInstr lp .atom (faddBody lp d a b c) s

end Sys2Proof.Machine
end

