-- ==== Sys2Proof/Machine/Decimal.lean ====
section
/-! DEFINITION. Packed-decimal arithmetic (05): packed and zoned fields, DADJ, and the storage-to-storage decimal
instructions. -/

namespace Sys2Proof.Machine

/-! ### Fields (R110-R113) -/

/-- What a decimal operand may hold. -/
inductive DecForm where
  | packed | zoned
  deriving DecidableEq, Repr

/-- A nibble as it stands in a field: of which byte, and what it must be. -/
inductive NibKind where
  | digit | sign
  deriving DecidableEq, Repr

/-- The nibbles of a packed field, in order: byte, value, kind. -/
def packedNibbles (l : List Byte) : List (Nat × Nat × NibKind) :=
  (l.zipIdx).flatMap fun (b, i) =>
    [(i, b.toNat / 16, .digit), (i, b.toNat % 16, if i + 1 = l.length then .sign else .digit)]

/-- The nibbles of a zoned field: zones are ignored, the last high nibble is the sign. -/
def zonedNibbles (l : List Byte) : List (Nat × Nat × NibKind) :=
  (l.zipIdx).flatMap fun (b, i) =>
    (if i + 1 = l.length then [(i, b.toNat / 16, .sign)] else []) ++ [(i, b.toNat % 16, .digit)]

/-- Whether a nibble is inadmissible (Table 5-1). -/
def badNibble (v : Nat) : NibKind → Bool
  | .digit => decide (v > 9)
  | .sign => decide (v ≤ 9)

/-- The value of nibbles: digits, and the sign. -/
def nibbleValue (l : List (Nat × Nat × NibKind)) : Int :=
  let mag : Nat := l.foldl (fun n x => match x.2.2 with | .digit => n * 10 + x.2.1 | .sign => n) 0
  if l.any fun x => x.2.2 = .sign && (x.2.1 = 11 || x.2.1 = 13) then -(mag : Int) else mag

/-- The first inadmissible nibble of a field, as byte and kind, or its value (R112, R128). -/
def parseDec (f : DecForm) (l : List Byte) : Except (Nat × NibKind) Int :=
  let ns := match f with | .packed => packedNibbles l | .zoned => zonedNibbles l
  match ns.find? fun x => badNibble x.2.1 x.2.2 with
  | some x => .error (x.1, x.2.2)
  | none => .ok (nibbleValue ns)

/-- Digits a field has room for. -/
def decDigits : DecForm → Nat → Nat
  | .packed, n => 2 * n - 1
  | .zoned, n => n

/-- The `k`-th decimal digit of a number, from the right. -/
def digitOf (mag k : Nat) : Nat := mag / 10 ^ k % 10

/-- A packed field of `n` bytes. -/
def packDec (neg : Bool) (mag n : Nat) : List Byte :=
  (List.range n).map fun i =>
    let hi := digitOf mag (2 * n - 2 - 2 * i)
    let lo := if i + 1 = n then (if neg then 13 else 12) else digitOf mag (2 * n - 3 - 2 * i)
    BitVec.ofNat 8 (hi * 16 + lo)

/-- A zoned field of `n` bytes. -/
def zoneDec (neg : Bool) (mag n : Nat) : List Byte :=
  (List.range n).map fun i =>
    let hi := if i + 1 = n then (if neg then 13 else 12) else 3
    BitVec.ofNat 8 (hi * 16 + digitOf mag (n - 1 - i))

/-- The true result does not fit (R117). -/
def decOverflows (f : DecForm) (v : Int) (n : Nat) : Bool := decide (v.natAbs ≥ 10 ^ decDigits f n)

/-- A result in its field: the low-order digits, with the true result's sign; zero is positive (R113, R117). -/
def storeDec (f : DecForm) (v : Int) (n : Nat) : List Byte :=
  match f with
  | .packed => packDec (decide (v < 0)) v.natAbs n
  | .zoned => zoneDec (decide (v < 0)) v.natAbs n

/-! ### DADJ (R114) -/

/-- A register's sixteen digits as a number, none where a nibble is above 9. -/
def regDigits (v : Word) : Option Nat :=
  let ns := (List.range 16).map fun i => field v (60 - 4 * i) 4
  if ns.any fun d => decide (d > 9) then none else some (ns.foldl (fun n d => n * 10 + d) 0)

/-- Sixteen digits in a register. -/
def digitsReg (n : Nat) : Word :=
  BitVec.ofNat 64 ((List.range 16).foldl (fun w i => w * 16 + digitOf n (15 - i)) 0)

def dadjBody (lp : Fin 48) (d a b c : Fin 32) : Run Unit := do
  specIf (d = c && decide (d ≠ 0))
  match regDigits (← readG lp a), regDigits (← readG lp b) with
  | some x, some y =>
    let t := x + y + (← readG lp c).toNat % 2
    writeG lp d (digitsReg t)
    writeG lp c (boolWord (decide (t ≥ 10 ^ 16)))
  | _, _ => raiseExc 7 0x31 0

def execDadj (lp : Fin 48) (d a b c : Fin 32) (s : State) : Host.Outcome State Fault Refusal :=
  runInstr lp {} (dadjBody lp d a b c) s

/-! ### Shapes of the storage-to-storage forms -/

/-- The fields of format X. -/
structure XFields where
  rg : Fin 32
  l1 : BitVec 8
  l2 : BitVec 8
  b1 : Fin 32
  d1 : BitVec 11
  b2 : Fin 32
  d2 : BitVec 11
  deriving DecidableEq, Repr

def XFields.n1 (x : XFields) : Nat := x.l1.toNat + 1
def XFields.n2 (x : XFields) : Nat := x.l2.toNat + 1

/-- A packed or zoned operand of more than 16 bytes is refused in Compatibility operating (R131). -/
def decLen (n : Nat) : Run Unit := do specIf ((← get).mode.mode = .compat && decide (n > 16))

/-- A binary operand has 8, 16, 32 or 64 bytes, in Compatibility operating 8 (R115, R131). -/
def binLen (n : Nat) : Run Unit := do
  specIf (!([8, 16, 32, 64].contains n) || ((← get).mode.mode = .compat && decide (n ≠ 8)))

/-- An operand's value, checked; `which` is 1 for the first operand, 2 for the second (Table 5-5). -/
def checkedDec (f : DecForm) (which : Nat) (va : Word) (bs : List Byte) : Run Int :=
  match parseDec f bs with
  | .ok v => pure v
  | .error (i, k) => raiseExc 7 (which * 16 + match k with | .digit => 1 | .sign => 2) (va + BitVec.ofNat 64 i)

/-- What follows a result: the exception of an overflow with RG = G0, or GRG as the overflow status (R117). -/
def overflowStatus (lp : Fin 48) (rg : Fin 32) (ovf : Bool) (reason : Nat) : Run Unit := do
  if rg = 0 then (if ovf then throw (.done { code := 8, reason := reason, addr := 0 }) else pure ())
  else writeG lp rg (boolWord ovf)

/-- A decimal result stored in an operand. -/
def decResult (lp : Fin 48) (rg : Fin 32) (f : DecForm) (l : List Piece) (n : Nat) (v : Int) : Run Unit := do
  storePieces lp l (storeDec f v n)
  overflowStatus lp rg (decOverflows f v n) 1

/-- DADD, DSUB, DMUL: the first operand takes a function of the two. -/
def decArith (f : Int → Int → Int) (lp : Fin 48) (x : XFields) : Run Unit := do
  decLen x.n1
  decLen x.n2
  let a1 ← xAddr lp x.b1 x.d1
  let a2 ← xAddr lp x.b2 x.d2
  let (p, q) ← pretest2 lp ⟨a1, x.n1, .store⟩ ⟨a2, x.n2, .load⟩
  let bs1 ← readPieces lp a1 p
  let bs2 ← readPieces lp a2 q
  let u ← checkedDec .packed 1 a1 bs1
  let v ← checkedDec .packed 2 a2 bs2
  decResult lp x.rg .packed p x.n1 (f u v)

/-- DCOPY, DZTP, DPTZ: the first operand takes the second in its own form. -/
def decCopy (tgt from_ : DecForm) (lp : Fin 48) (x : XFields) : Run Unit := do
  decLen x.n1
  decLen x.n2
  let a1 ← xAddr lp x.b1 x.d1
  let a2 ← xAddr lp x.b2 x.d2
  let (p, q) ← pretest2 lp ⟨a1, x.n1, .store⟩ ⟨a2, x.n2, .load⟩
  let v ← checkedDec from_ 2 a2 (← readPieces lp a2 q)
  decResult lp x.rg tgt p x.n1 v

/-- DDIV (R121). -/
def ddivBody (lp : Fin 48) (x : XFields) : Run Unit := do
  unused [x.rg]
  decLen x.n1
  decLen x.n2
  let a1 ← xAddr lp x.b1 x.d1
  let a2 ← xAddr lp x.b2 x.d2
  let (p, q) ← pretest2 lp ⟨a1, x.n1, .store⟩ ⟨a2, x.n2, .store⟩
  let bs1 ← readPieces lp a1 p
  let bs2 ← readPieces lp a2 q
  let u ← checkedDec .packed 1 a1 bs1
  let v ← checkedDec .packed 2 a2 bs2
  if v = 0 then raiseExc 9 1 0
  else do
    storePieces lp p (storeDec .packed (u.tdiv v) x.n1)
    storePieces lp q (storeDec .packed (u.tmod v) x.n2)

/-- DCMP (R119). -/
def dcmpBody (lp : Fin 48) (x : XFields) : Run Unit := do
  decLen x.n1
  decLen x.n2
  let a1 ← xAddr lp x.b1 x.d1
  let a2 ← xAddr lp x.b2 x.d2
  let (p, q) ← pretest2 lp ⟨a1, x.n1, .load⟩ ⟨a2, x.n2, .load⟩
  let bs1 ← readPieces lp a1 p
  let bs2 ← readPieces lp a2 q
  let u ← checkedDec .packed 1 a1 bs1
  let v ← checkedDec .packed 2 a2 bs2
  writeG lp x.rg (if u < v then BitVec.allOnes 64 else if u = v then 0 else 1)

/-- A magnitude divided by a power of ten and rounded (Table 5-3). -/
def roundDec (mode mag k : Nat) : Nat :=
  let t := 10 ^ k
  let q := mag / t
  let r := mag % t
  let up := match mode with
    | 0 => false
    | 1 => decide (2 * r ≥ t)
    | 2 => decide (2 * r > t) || (decide (2 * r = t) && decide (q % 2 = 1))
    | _ => decide (r ≠ 0)
  if up then q + 1 else q

/-- A value times a power of ten, rounded by a mode. -/
def shiftDec (mode : Nat) (v s : Int) : Int :=
  if s ≥ 0 then v * 10 ^ s.natAbs
  else
    let m : Int := roundDec mode v.natAbs s.natAbs
    if v < 0 then -m else m

/-- DSHR (R122). -/
def dshrBody (lp : Fin 48) (x : XFields) : Run Unit := do
  specIf (decide (field x.l2 4 4 > 3) || decide (field x.l2 0 4 ≠ 0) || decide (x.d2 ≠ 0))
  let s := ((← readG lp x.b2).setWidth 10).toInt
  decLen x.n1
  specIf ((← get).mode.mode = .compat && decide (s < -31 ∨ 31 < s))
  let a1 ← xAddr lp x.b1 x.d1
  let p ← pretest lp ⟨a1, x.n1, .store⟩
  let v ← checkedDec .packed 1 a1 (← readPieces lp a1 p)
  decResult lp x.rg .packed p x.n1 (shiftDec (field x.l2 4 4) v s)

/-- DTOB (R125). -/
def dtobBody (lp : Fin 48) (x : XFields) : Run Unit := do
  binLen x.n1
  decLen x.n2
  let a1 ← xAddr lp x.b1 x.d1
  let a2 ← xAddr lp x.b2 x.d2
  let (p, q) ← pretest2 lp ⟨a1, x.n1, .store⟩ ⟨a2, x.n2, .load⟩
  let v ← checkedDec .packed 2 a2 (← readPieces lp a2 q)
  let w := 8 * x.n1
  storePieces lp p (beBytes x.n1 (BitVec.ofInt w v).toNat)
  overflowStatus lp x.rg (decide ((BitVec.ofInt w v).toInt ≠ v)) 2

/-- DFRB (R126). -/
def dfrbBody (lp : Fin 48) (x : XFields) : Run Unit := do
  binLen x.n2
  decLen x.n1
  let a1 ← xAddr lp x.b1 x.d1
  let a2 ← xAddr lp x.b2 x.d2
  let (p, q) ← pretest2 lp ⟨a1, x.n1, .store⟩ ⟨a2, x.n2, .load⟩
  let bs ← readPieces lp a2 q
  decResult lp x.rg .packed p x.n1 (BitVec.ofNat (8 * x.n2) (beVal bs)).toInt

/-! ### The instructions -/

def execDadd (lp : Fin 48) (rg : Fin 32) (l1 l2 : BitVec 8) (b1 : Fin 32) (d1 : BitVec 11) (b2 : Fin 32)
    (d2 : BitVec 11) (s : State) : Host.Outcome State Fault Refusal :=
  runInstr lp xForm (decArith (fun u v => u + v) lp ⟨rg, l1, l2, b1, d1, b2, d2⟩) s

def execDsub (lp : Fin 48) (rg : Fin 32) (l1 l2 : BitVec 8) (b1 : Fin 32) (d1 : BitVec 11) (b2 : Fin 32)
    (d2 : BitVec 11) (s : State) : Host.Outcome State Fault Refusal :=
  runInstr lp xForm (decArith (fun u v => u - v) lp ⟨rg, l1, l2, b1, d1, b2, d2⟩) s

def execDmul (lp : Fin 48) (rg : Fin 32) (l1 l2 : BitVec 8) (b1 : Fin 32) (d1 : BitVec 11) (b2 : Fin 32)
    (d2 : BitVec 11) (s : State) : Host.Outcome State Fault Refusal :=
  runInstr lp xForm (decArith (fun u v => u * v) lp ⟨rg, l1, l2, b1, d1, b2, d2⟩) s

def execDdiv (lp : Fin 48) (rg : Fin 32) (l1 l2 : BitVec 8) (b1 : Fin 32) (d1 : BitVec 11) (b2 : Fin 32)
    (d2 : BitVec 11) (s : State) : Host.Outcome State Fault Refusal :=
  runInstr lp xForm (ddivBody lp ⟨rg, l1, l2, b1, d1, b2, d2⟩) s

def execDcmp (lp : Fin 48) (rg : Fin 32) (l1 l2 : BitVec 8) (b1 : Fin 32) (d1 : BitVec 11) (b2 : Fin 32)
    (d2 : BitVec 11) (s : State) : Host.Outcome State Fault Refusal :=
  runInstr lp xForm (dcmpBody lp ⟨rg, l1, l2, b1, d1, b2, d2⟩) s

def execDshr (lp : Fin 48) (rg : Fin 32) (l1 l2 : BitVec 8) (b1 : Fin 32) (d1 : BitVec 11) (b2 : Fin 32)
    (d2 : BitVec 11) (s : State) : Host.Outcome State Fault Refusal :=
  runInstr lp xForm (dshrBody lp ⟨rg, l1, l2, b1, d1, b2, d2⟩) s

def execDcopy (lp : Fin 48) (rg : Fin 32) (l1 l2 : BitVec 8) (b1 : Fin 32) (d1 : BitVec 11) (b2 : Fin 32)
    (d2 : BitVec 11) (s : State) : Host.Outcome State Fault Refusal :=
  runInstr lp xForm (decCopy .packed .packed lp ⟨rg, l1, l2, b1, d1, b2, d2⟩) s

def execDztp (lp : Fin 48) (rg : Fin 32) (l1 l2 : BitVec 8) (b1 : Fin 32) (d1 : BitVec 11) (b2 : Fin 32)
    (d2 : BitVec 11) (s : State) : Host.Outcome State Fault Refusal :=
  runInstr lp xForm (decCopy .packed .zoned lp ⟨rg, l1, l2, b1, d1, b2, d2⟩) s

def execDptz (lp : Fin 48) (rg : Fin 32) (l1 l2 : BitVec 8) (b1 : Fin 32) (d1 : BitVec 11) (b2 : Fin 32)
    (d2 : BitVec 11) (s : State) : Host.Outcome State Fault Refusal :=
  runInstr lp xForm (decCopy .zoned .packed lp ⟨rg, l1, l2, b1, d1, b2, d2⟩) s

def execDtob (lp : Fin 48) (rg : Fin 32) (l1 l2 : BitVec 8) (b1 : Fin 32) (d1 : BitVec 11) (b2 : Fin 32)
    (d2 : BitVec 11) (s : State) : Host.Outcome State Fault Refusal :=
  runInstr lp xForm (dtobBody lp ⟨rg, l1, l2, b1, d1, b2, d2⟩) s

def execDfrb (lp : Fin 48) (rg : Fin 32) (l1 l2 : BitVec 8) (b1 : Fin 32) (d1 : BitVec 11) (b2 : Fin 32)
    (d2 : BitVec 11) (s : State) : Host.Outcome State Fault Refusal :=
  runInstr lp xForm (dfrbBody lp ⟨rg, l1, l2, b1, d1, b2, d2⟩) s

end Sys2Proof.Machine
end

