-- ==== Sys2Proof/Machine/Float.lean ====
section
/-! DEFINITION. Binary floating point (06): exact values, one rounding, flags and traps. -/

namespace Sys2Proof.Machine

/-! ### Formats and values (Table 6-1, R143) -/

/-- A format: significand bits with the hidden bit, and emax, which is also the bias. -/
structure Fmt where
  p : Nat
  emax : Nat
  deriving DecidableEq, Repr

def fmtS : Fmt := ⟨24, 127⟩
def fmtD : Fmt := ⟨53, 1023⟩
def fmtQ : Fmt := ⟨113, 16383⟩

/-- Bits of a format, and of its exponent field. -/
def Fmt.width (f : Fmt) : Nat := f.p + Nat.log2 (f.emax + 1) + 1
def Fmt.ebits (f : Fmt) : Nat := f.width - f.p

/-- The exponent of the smallest subnormal's unit. -/
def Fmt.qmin (f : Fmt) : Int := 2 - (f.emax : Int) - f.p

/-- A value: a NaN with its fraction field, an infinity, or (−1)^neg × m × 2^e. -/
inductive FpVal where
  | nan (neg : Bool) (frac : Nat)
  | inf (neg : Bool)
  | fin (neg : Bool) (m : Nat) (e : Int)
  deriving DecidableEq, Repr

def fpDecode (f : Fmt) (b : Nat) : FpVal :=
  let frac := b % 2 ^ (f.p - 1)
  let ex := b / 2 ^ (f.p - 1) % 2 ^ f.ebits
  let neg := decide (b / 2 ^ (f.width - 1) % 2 = 1)
  if ex = 2 ^ f.ebits - 1 then (if frac = 0 then .inf neg else .nan neg frac)
  else if ex = 0 then .fin neg frac f.qmin
  else .fin neg (frac + 2 ^ (f.p - 1)) (f.qmin + ex - 1)

def signBit (f : Fmt) (neg : Bool) : Nat := if neg then 2 ^ (f.width - 1) else 0

/-- The bits of an infinity. -/
def fpInf (f : Fmt) (neg : Bool) : Nat := signBit f neg + (2 ^ f.ebits - 1) * 2 ^ (f.p - 1)

/-- The largest finite value (Table 6-2). -/
def fpMax (f : Fmt) (neg : Bool) : Nat := fpInf f neg - 1

/-- The default NaN (Table 6-2). -/
def fpNaN (f : Fmt) : Nat := fpInf f false + 2 ^ (f.p - 2)

/-- Whether a fraction field is that of a signalling NaN (R143). -/
def Fmt.signalling (f : Fmt) (frac : Nat) : Bool := decide (frac / 2 ^ (f.p - 2) % 2 = 0)

/-- A NaN operand made quiet, with its sign and payload. -/
def fpQuiet (f : Fmt) (neg : Bool) (frac : Nat) : Nat :=
  fpInf f neg + (if f.signalling frac then frac + 2 ^ (f.p - 2) else frac)

/-! ### Conditions -/

/-- The conditions an operation raises, in the bit order of FPC.FL: V 16, Z 8, O 4, U 2, X 1. -/
abbrev Conds := Nat

def condV : Conds := 16
def condZ : Conds := 8
def condO : Conds := 4
def condU : Conds := 2
def condX : Conds := 1

/-! ### Rounding (R139, R140) -/

/-- Whether a magnitude between q and q + 1 is rounded up: r / d is the part beyond q. -/
def roundsUp (mode : Nat) (neg : Bool) (q r d : Nat) : Bool :=
  match mode with
  | 0 => decide (2 * r > d) || (decide (2 * r = d) && decide (q % 2 = 1))
  | 1 => false
  | 2 => !neg && decide (r ≠ 0)
  | 3 => neg && decide (r ≠ 0)
  | _ => decide (2 * r ≥ d)

/-- num / den × 2^e rounded to a multiple of 2^q: the multiple, and whether it differs. -/
def roundAt (mode : Nat) (neg : Bool) (num den : Nat) (e q : Int) : Nat × Bool :=
  let n := num * 2 ^ (e - q).toNat
  let d := den * 2 ^ (q - e).toNat
  let k := n / d
  let r := n % d
  (if roundsUp mode neg k r d then k + 1 else k, decide (r ≠ 0))

/-- The exponent of a magnitude: the largest E with 2^E at most num / den × 2^e. -/
def exponentOf (num den : Nat) (e : Int) : Int :=
  let l : Int := (Nat.log2 num : Int) - Nat.log2 den
  let low := if l ≥ 0 then decide (num < den * 2 ^ l.toNat) else decide (num * 2 ^ (-l).toNat < den)
  (if low then l - 1 else l) + e

/-- A non-zero exact magnitude rounded once to a format: bits and conditions. `uTrap` is the trap enable of U. -/
def fpRound (f : Fmt) (mode : Nat) (uTrap : Bool) (neg : Bool) (num den : Nat) (e : Int) : Nat × Conds :=
  let ex := exponentOf num den e
  let qu := ex - (f.p - 1 : Nat)
  let (ku, _) := roundAt mode neg num den e qu
  let tiny := decide ((if ku = 2 ^ f.p then ex + 1 else ex) < 1 - (f.emax : Int))
  let q := max qu f.qmin
  let (k, inexact) := roundAt mode neg num den e q
  let (k, q) := if k = 2 ^ f.p then (2 ^ (f.p - 1), q + 1) else (k, q)
  if decide (k ≥ 2 ^ (f.p - 1)) && decide (q + (f.p - 1 : Nat) > (f.emax : Int)) then
    let big := match mode with
      | 1 => false
      | 2 => !neg
      | 3 => neg
      | _ => true
    (if big then fpInf f neg else fpMax f neg, condO + condX)
  else
    let bits := if k < 2 ^ (f.p - 1) then k else (q - f.qmin + 1).toNat * 2 ^ (f.p - 1) + (k - 2 ^ (f.p - 1))
    (signBit f neg + bits, (if tiny && (inexact || uTrap) then condU else 0) + (if inexact then condX else 0))

/-- The bits of a zero. -/
def fpZero (f : Fmt) (neg : Bool) : Nat := signBit f neg

/-- An exact result, or a zero of the sign given. -/
def fpExact (f : Fmt) (mode : Nat) (uTrap : Bool) (neg : Bool) (m : Nat) (e : Int) : Nat × Conds :=
  if m = 0 then (fpZero f neg, 0) else fpRound f mode uTrap neg m 1 e

/-! ### Operations (R139-R143) -/

/-- An operand's NaN: its sign and fraction. -/
def FpVal.nan? : FpVal → Option (Bool × Nat)
  | .nan n fr => some (n, fr)
  | _ => none

/-- The result of NaN operands: the first of them made quiet, V if any is signalling; nothing without one. -/
def nanResult (f : Fmt) (l : List FpVal) (invalid : Bool := false) : Option (Nat × Conds) :=
  match l.findSome? FpVal.nan? with
  | some (n, fr) =>
    let sig := l.any fun v => match v with | .nan _ fr => f.signalling fr | _ => false
    some (fpQuiet f n fr, if sig || invalid then condV else 0)
  | none => if invalid then some (fpNaN f, condV) else none

def FpVal.neg : FpVal → Bool
  | .nan n _ => n
  | .inf n => n
  | .fin n _ _ => n

/-- The sign inverted, except of a NaN (R138). -/
def FpVal.negate : FpVal → FpVal
  | .nan n fr => .nan n fr
  | .inf n => .inf !n
  | .fin n m e => .fin (!n) m e

def FpVal.isInf : FpVal → Bool
  | .inf _ => true
  | _ => false

def FpVal.isZero : FpVal → Bool
  | .fin _ m _ => decide (m = 0)
  | _ => false

/-- A signed magnitude at an exponent not above its own. -/
def scaled (neg : Bool) (m : Nat) (e e0 : Int) : Int :=
  let v : Int := (m * 2 ^ (e - e0).toNat : Nat)
  if neg then -v else v

/-- The sum of two exact values, rounded once (R141). -/
def fpSum (f : Fmt) (mode : Nat) (uTrap : Bool) (n1 : Bool) (m1 : Nat) (e1 : Int) (n2 : Bool) (m2 : Nat) (e2 : Int) :
    Nat × Conds :=
  if m1 = 0 ∧ m2 = 0 then (fpZero f (if n1 = n2 then n1 else decide (mode = 3)), 0)
  else if m1 = 0 then fpExact f mode uTrap n2 m2 e2
  else if m2 = 0 then fpExact f mode uTrap n1 m1 e1
  else
    let e0 := min e1 e2
    let t := scaled n1 m1 e1 e0 + scaled n2 m2 e2 e0
    if t = 0 then (fpZero f (decide (mode = 3)), 0) else fpRound f mode uTrap (decide (t < 0)) t.natAbs 1 e0

def fpAdd (f : Fmt) (mode : Nat) (uTrap : Bool) (a b : FpVal) : Nat × Conds :=
  match nanResult f [a, b] (a.isInf && b.isInf && a.neg != b.neg) with
  | some r => r
  | none =>
    match a, b with
    | .fin n1 m1 e1, .fin n2 m2 e2 => fpSum f mode uTrap n1 m1 e1 n2 m2 e2
    | .inf n, _ => (fpInf f n, 0)
    | _, y => (fpInf f y.neg, 0)

def fpMul (f : Fmt) (mode : Nat) (uTrap : Bool) (a b : FpVal) : Nat × Conds :=
  let neg := a.neg != b.neg
  match nanResult f [a, b] ((a.isInf && b.isZero) || (a.isZero && b.isInf)) with
  | some r => r
  | none =>
    match a, b with
    | .fin _ m1 e1, .fin _ m2 e2 => fpExact f mode uTrap neg (m1 * m2) (e1 + e2)
    | _, _ => (fpInf f neg, 0)

def fpDiv (f : Fmt) (mode : Nat) (uTrap : Bool) (a b : FpVal) : Nat × Conds :=
  let neg := a.neg != b.neg
  match nanResult f [a, b] ((a.isInf && b.isInf) || (a.isZero && b.isZero)) with
  | some r => r
  | none =>
    match a, b with
    | .fin _ m1 e1, .fin _ m2 e2 =>
      if m2 = 0 then (fpInf f neg, condZ)
      else if m1 = 0 then (fpZero f neg, 0)
      else fpRound f mode uTrap neg m1 m2 (e1 - e2)
    | .inf _, _ => (fpInf f neg, 0)
    | _, _ => (fpZero f neg, 0)

/-- The largest number whose square is at most `n`, built bit by bit. -/
def isqrtFrom (n : Nat) : Nat → Nat → Nat
  | 0, r => r
  | i + 1, r => isqrtFrom n i (if (r + 2 ^ i) * (r + 2 ^ i) ≤ n then r + 2 ^ i else r)

def fpSqrt (f : Fmt) (mode : Nat) (uTrap : Bool) (a : FpVal) : Nat × Conds :=
  match nanResult f [a] (a.neg && !a.isZero && (match a with | .nan _ _ => false | _ => true)) with
  | some r => r
  | none =>
    match a with
    | .fin n m e =>
      if m = 0 then (fpZero f n, 0)
      else
        let k := 2 * (f.p + 2) + (e % 2).toNat
        let w := m * 2 ^ k
        let r := isqrtFrom w (f.p * 2 + 4) 0
        fpRound f mode uTrap false (2 * r + if r * r = w then 0 else 1) 1 ((e - k) / 2 - 1)
    | _ => (fpInf f false, 0)

/-- A × B + C, rounded once (R141, R143). -/
def fpFma (f : Fmt) (mode : Nat) (uTrap : Bool) (a b c : FpVal) : Nat × Conds :=
  let neg := a.neg != b.neg
  let zeroInf := (a.isInf && b.isZero) || (a.isZero && b.isInf)
  let infs := (a.isInf || b.isInf) && c.isInf && neg != c.neg
  match nanResult f [a, b, c] (zeroInf || ((a.nan?).isNone && (b.nan?).isNone && infs)) with
  | some r => r
  | none =>
    match a, b, c with
    | .fin _ m1 e1, .fin _ m2 e2, .fin n3 m3 e3 => fpSum f mode uTrap neg (m1 * m2) (e1 + e2) n3 m3 e3
    | .fin _ _ _, .fin _ _ _, y => (fpInf f y.neg, 0)
    | _, _, _ => (fpInf f neg, 0)

/-! ### Compares, minimum and maximum (R144) -/

/-- Order of two values that are not NaNs; −0 and +0 are equal. -/
def fpCompare (a b : FpVal) : Ordering :=
  match a, b with
  | .inf n1, .inf n2 => if n1 = n2 then .eq else if n1 then .lt else .gt
  | .inf n, _ => if n then .lt else .gt
  | _, .inf n => if n then .gt else .lt
  | .fin n1 m1 e1, .fin n2 m2 e2 =>
    let e0 := min e1 e2
    compare (scaled n1 m1 e1 e0) (scaled n2 m2 e2 e0)
  | _, _ => .eq

def anyNaN (a b : FpVal) : Bool := (a.nan?).isSome || (b.nan?).isSome

def anySignalling (f : Fmt) (a b : FpVal) : Bool :=
  [a, b].any fun v => match v with | .nan _ fr => f.signalling fr | _ => false

/-- The lesser or the greater operand, −0 below +0; one NaN gives the other operand (R144). -/
def fpMinMax (f : Fmt) (greater : Bool) (x y : Nat) : Nat × Conds :=
  let a := fpDecode f x
  let b := fpDecode f y
  match a.nan?, b.nan? with
  | some _, some _ => (nanResult f [a, b]).getD (0, 0)
  | some (_, fr), none => (y, if f.signalling fr then condV else 0)
  | none, some (_, fr) => (x, if f.signalling fr then condV else 0)
  | none, none =>
    let less := match fpCompare a b with
      | .lt => true
      | .gt => false
      | .eq => a.neg
    (if less != greater then x else y, 0)

/-! ### Conversions (R145-R147) -/

/-- A NaN's payload in the most significant fraction bits of another format. -/
def movePayload (src dst : Fmt) (frac : Nat) : Nat := frac * 2 ^ dst.p / 2 ^ src.p

def fpConvert (src dst : Fmt) (mode : Nat) (uTrap : Bool) (x : Nat) : Nat × Conds :=
  match fpDecode src x with
  | .nan n fr =>
    let q := if src.signalling fr then fr + 2 ^ (src.p - 2) else fr
    (fpInf dst n + movePayload src dst q, if src.signalling fr then condV else 0)
  | .inf n => (fpInf dst n, 0)
  | .fin n m e => fpExact dst mode uTrap n m e

/-- A finite value rounded to an integer, and whether it differs. -/
def fpInteger (mode : Nat) (neg : Bool) (num den : Nat) (e : Int) : Int × Bool :=
  let (k, x) := roundAt mode neg num den e 0
  (if neg then -(k : Int) else k, x)

/-- A conversion to an integer between bounds: the result, and V or X (R146). -/
def fpToInt (f : Fmt) (mode : Nat) (lo hi : Int) (x : Nat) : Int × Conds :=
  match fpDecode f x with
  | .nan _ _ => (0, condV)
  | .inf n => (if n then lo else hi, condV)
  | .fin n m e =>
    let (v, inexact) := fpInteger mode n m 1 e
    if v < lo then (lo, condV) else if v > hi then (hi, condV) else (v, if inexact then condX else 0)

/-- A signed integer converted to a format. -/
def fpFromInt (f : Fmt) (mode : Nat) (uTrap : Bool) (v : Int) : Nat × Conds :=
  fpExact f mode uTrap (decide (v < 0)) v.natAbs 0

/-- 31 packed digits and a sign in two registers (R147). -/
def packPair (neg : Bool) (mag : Nat) : Word × Word :=
  let d := (List.range 31).foldl (fun w i => w * 16 + digitOf mag (30 - i)) 0
  (BitVec.ofNat 64 (d / 2 ^ 60), BitVec.ofNat 64 (d % 2 ^ 60 * 16 + if neg then 13 else 12))

/-- FTOPD: the value × 10^k rounded to an integer of at most 31 digits (R147). -/
def fpToPacked (f : Fmt) (mode k : Nat) (x : Nat) : (Word × Word) × Conds :=
  match fpDecode f x with
  | .nan _ _ => (packPair false 0, condV)
  | .inf n => (packPair n (10 ^ 31 - 1), condV)
  | .fin n m e =>
    let (v, inexact) := fpInteger mode n (m * 10 ^ k) 1 e
    if v.natAbs ≥ 10 ^ 31 then (packPair n (10 ^ 31 - 1), condV)
    else (packPair (decide (v < 0)) v.natAbs, if inexact then condX else 0)

/-- The sign and the magnitude of 31 packed digits in two registers, none where a nibble is not admitted. -/
def unpackPair (h l : Word) : Option (Bool × Nat) :=
  let ds := ((List.range 16).map fun i => field h (60 - 4 * i) 4) ++ ((List.range 15).map fun i => field l (60 - 4 * i) 4)
  let sg := field l 0 4
  if (ds.any fun d => decide (d > 9)) || decide (sg ≤ 9) then none
  else some (decide (sg = 11 ∨ sg = 13), ds.foldl (fun n d => n * 10 + d) 0)

/-! ### Registers, flags and traps (R133, R135, R142) -/

/-- The operand of a format in a floating register. -/
def fpOperand (f : Fmt) (v : Quad) : Nat := v.toNat / 2 ^ (128 - f.width)

/-- A result in its position, zero below it. -/
def fpPlace (f : Fmt) (b : Nat) : Quad := BitVec.ofNat 128 (b * 2 ^ (128 - f.width))

def fpMode (a : Arch) : Nat := field a.fpc 16 3
def fpUTrap (a : Arch) : Bool := bit a.fpc 9

/-- The end of a floating-point operation: nullified where a raised condition is trap-enabled, else the result and
the sticky flags (R142). -/
def fpEnd (lp : Fin 48) (c : Conds) (write : Arch → Arch) : Run Unit := do
  let a ← getArch lp
  if c &&& field a.fpc 8 5 ≠ 0 then raiseExc 0xA c 0
  else modArch lp fun a => let b := write a; { b with fpc := b.fpc ||| BitVec.ofNat 32 c }

/-- The format a .D or .Q instruction works on; Compatibility operating has no binary128 (R152). -/
def fpFormat (q : Bool) : Run Fmt := do
  if q then notCompat
  pure (if q then fmtQ else fmtD)

/-- FD := an operation on operands of one format. -/
def fpOp (q : Bool) (lp : Fin 48) (d : Fin 32) (zero : List (Fin 32)) (op : Fmt → Nat → Bool → Arch → Nat × Conds) :
    Run Unit := do
  let f ← fpFormat q
  unused zero
  let a ← getArch lp
  let (r, c) := op f (fpMode a) (fpUTrap a) a
  fpEnd lp c fun a => a.setF d (fpPlace f r)

def fpVal (f : Fmt) (a : Arch) (i : Fin 32) : FpVal := fpDecode f (fpOperand f (a.getF i))

/-! ### Arithmetic -/

def fpAddBody (q : Bool) (lp : Fin 48) (d a b c : Fin 32) : Run Unit :=
  fpOp q lp d [c] fun f m u x => fpAdd f m u (fpVal f x a) (fpVal f x b)

def fpSubBody (q : Bool) (lp : Fin 48) (d a b c : Fin 32) : Run Unit :=
  fpOp q lp d [c] fun f m u x => fpAdd f m u (fpVal f x a) (fpVal f x b).negate

def fpMulBody (q : Bool) (lp : Fin 48) (d a b c : Fin 32) : Run Unit :=
  fpOp q lp d [c] fun f m u x => fpMul f m u (fpVal f x a) (fpVal f x b)

def fpDivBody (q : Bool) (lp : Fin 48) (d a b c : Fin 32) : Run Unit :=
  fpOp q lp d [c] fun f m u x => fpDiv f m u (fpVal f x a) (fpVal f x b)

/-- The operand of FSQRT is FB: A is not used (R137, R138). -/
def fpSqrtBody (q : Bool) (lp : Fin 48) (d a b c : Fin 32) : Run Unit :=
  fpOp q lp d [a, c] fun f m u x => fpSqrt f m u (fpVal f x b)

def fpFmaBody (q : Bool) (lp : Fin 48) (d a b c : Fin 32) : Run Unit :=
  fpOp q lp d [] fun f m u x => fpFma f m u (fpVal f x a) (fpVal f x b) (fpVal f x c)

def fpFmsBody (q : Bool) (lp : Fin 48) (d a b c : Fin 32) : Run Unit :=
  fpOp q lp d [] fun f m u x => fpFma f m u (fpVal f x a) (fpVal f x b) (fpVal f x c).negate

/-! ### Compares -/

/-- GD := a relation of two operands; V for a signalling NaN, or for any NaN where `quietToo` (R144). -/
def fpCmp (rel : FpVal → FpVal → Bool) (quietToo q : Bool) (lp : Fin 48) (d a b c : Fin 32) : Run Unit := do
  let f ← fpFormat q
  unused [c]
  let x ← getArch lp
  let u := fpVal f x a
  let v := fpVal f x b
  let cond := if anySignalling f u v || (quietToo && anyNaN u v) then condV else 0
  fpEnd lp cond fun x => x.setG d (boolWord (rel u v))

def fcmpeqBody := fpCmp (fun u v => !anyNaN u v && decide (fpCompare u v = .eq)) false
def fcmpltBody := fpCmp (fun u v => !anyNaN u v && decide (fpCompare u v = .lt)) true
def fcmpleBody := fpCmp (fun u v => !anyNaN u v && decide (fpCompare u v ≠ .gt)) true
def fcmpunBody := fpCmp anyNaN false

def fpPick (greater q : Bool) (lp : Fin 48) (d a b c : Fin 32) : Run Unit :=
  fpOp q lp d [c] fun f _ _ x => fpMinMax f greater (fpOperand f (x.getF a)) (fpOperand f (x.getF b))

def fminBody := fpPick false
def fmaxBody := fpPick true

/-! ### Moves and signs: bits are copied (R138) -/

def fmvfBody (lp : Fin 48) (d a b c : Fin 32) : Run Unit := do
  unused [c]
  modArch lp fun x => x.setF d (x.getG a ++ x.getG b)

def fmvghBody (lp : Fin 48) (d a b c : Fin 32) : Run Unit := do
  unused [b, c]
  modArch lp fun x => x.setG d ((x.getF a >>> 64).setWidth 64)

def fmvglBody (lp : Fin 48) (d a b c : Fin 32) : Run Unit := do
  unused [b, c]
  modArch lp fun x => x.setG d ((x.getF a).setWidth 64)

def topBit : Quad := 0x80000000000000000000000000000000

def fnegBody (lp : Fin 48) (d a b c : Fin 32) : Run Unit := do
  unused [b, c]
  modArch lp fun x => x.setF d (x.getF a ^^^ topBit)

def fabsBody (lp : Fin 48) (d a b c : Fin 32) : Run Unit := do
  unused [b, c]
  modArch lp fun x => x.setF d (x.getF a &&& ~~~topBit)

def fcpysgnBody (lp : Fin 48) (d a b c : Fin 32) : Run Unit := do
  unused [c]
  modArch lp fun x => x.setF d ((x.getF a &&& ~~~topBit) ||| (x.getF b &&& topBit))

def fmovBody (lp : Fin 48) (d a b c : Fin 32) : Run Unit := do
  unused [b, c]
  modArch lp fun x => x.setF d (x.getF a)

/-! ### Conversions -/

/-- Source and destination of FCVT, in the order of Table 6-3. -/
def fcvtFormats : Fin 6 → Fmt × Fmt
  | 0 => (fmtQ, fmtD)
  | 1 => (fmtD, fmtQ)
  | 2 => (fmtD, fmtS)
  | 3 => (fmtS, fmtD)
  | 4 => (fmtQ, fmtS)
  | 5 => (fmtS, fmtQ)

def fcvtBody (lp : Fin 48) (k : Fin 6) (d a b c : Fin 32) : Run Unit := do
  let (src, dst) := fcvtFormats k
  if src = fmtQ ∨ dst = fmtQ then notCompat
  unused [b, c]
  let x ← getArch lp
  let (r, cond) := fpConvert src dst (fpMode x) (fpUTrap x) (fpOperand src (x.getF a))
  fpEnd lp cond fun x => x.setF d (fpPlace dst r)

/-- FCVTI and FCVTU: C selects the rounding (R138). -/
def fpToReg (lo hi : Int) (q : Bool) (lp : Fin 48) (d a b c : Fin 32) : Run Unit := do
  let f ← fpFormat q
  unused [b]
  specIf (decide (c.val > 5))
  let x ← getArch lp
  let mode := if c = 0 then fpMode x else c.val - 1
  let (v, cond) := fpToInt f mode lo hi (fpOperand f (x.getF a))
  fpEnd lp cond fun x => x.setG d (BitVec.ofInt 64 v)

def fcvtiBody := fpToReg (-9223372036854775808) 9223372036854775807
def fcvtuBody := fpToReg 0 18446744073709551615

def fpFromReg (val : Word → Int) (q : Bool) (lp : Fin 48) (d a b c : Fin 32) : Run Unit :=
  fpOp q lp d [b, c] fun f m u x => fpFromInt f m u (val (x.getG a))

def fcvtfBody := fpFromReg BitVec.toInt
def fcvtfuBody := fpFromReg fun v => (v.toNat : Int)

/-- FTOPD (R147). -/
def ftopdBody (q : Bool) (lp : Fin 48) (d a b c : Fin 32) : Run Unit := do
  let f ← fpFormat q
  unused [b]
  specIf (d.val % 2 = 1)
  let x ← getArch lp
  let ((h, l), cond) := fpToPacked f (fpMode x) c.val (fpOperand f (x.getF a))
  fpEnd lp cond fun x => (x.setG d h).setG (nextReg d) l

/-- FFRPD (R147): the sign of a zero from a packed −0 is a free value (log 41). -/
def ffrpdBody (q : Bool) (lp : Fin 48) (d a b c : Fin 32) : Run Unit := do
  let f ← fpFormat q
  unused [b]
  specIf (a.val % 2 = 1)
  let x ← getArch lp
  match unpackPair (x.getG a) (x.getG (nextReg a)) with
  | none => raiseExc 7 0x31 0
  | some (neg, mag) =>
    if mag = 0 then
      let s ← get
      let sg := neg && bit (freeNow s) 0
      if neg then set (taken s)
      fpEnd lp 0 fun x => x.setF d (fpPlace f (fpZero f sg))
    else
      let (r, cond) := fpRound f (fpMode x) (fpUTrap x) neg mag (10 ^ c.val) 0
      fpEnd lp cond fun x => x.setF d (fpPlace f r)

/-! ### FPC (R136) -/

def mffpcBody (lp : Fin 48) (d a b c : Fin 32) : Run Unit := do
  unused [a, b, c]
  modArch lp fun x => x.setG d (x.fpc.setWidth 64)

def mtfpcBody (lp : Fin 48) (d a b c : Fin 32) : Run Unit := do
  unused [d, b, c]
  let v ← readG lp a
  specIf (decide (v &&& ~~~0x71F1F ≠ 0) || decide (field v 16 3 > 4))
  modArch lp fun x => { x with fpc := v.setWidth 32 }

/-! ### The instructions -/

def execFaddD (lp : Fin 48) (d a b c : Fin 32) (s : State) : Host.Outcome State Fault Refusal :=
  runInstr lp {} (fpAddBody false lp d a b c) s

def execFaddQ (lp : Fin 48) (d a b c : Fin 32) (s : State) : Host.Outcome State Fault Refusal :=
  runInstr lp {} (fpAddBody true lp d a b c) s

def execFsubD (lp : Fin 48) (d a b c : Fin 32) (s : State) : Host.Outcome State Fault Refusal :=
  runInstr lp {} (fpSubBody false lp d a b c) s

def execFsubQ (lp : Fin 48) (d a b c : Fin 32) (s : State) : Host.Outcome State Fault Refusal :=
  runInstr lp {} (fpSubBody true lp d a b c) s

def execFmulD (lp : Fin 48) (d a b c : Fin 32) (s : State) : Host.Outcome State Fault Refusal :=
  runInstr lp {} (fpMulBody false lp d a b c) s

def execFmulQ (lp : Fin 48) (d a b c : Fin 32) (s : State) : Host.Outcome State Fault Refusal :=
  runInstr lp {} (fpMulBody true lp d a b c) s

def execFdivD (lp : Fin 48) (d a b c : Fin 32) (s : State) : Host.Outcome State Fault Refusal :=
  runInstr lp {} (fpDivBody false lp d a b c) s

def execFdivQ (lp : Fin 48) (d a b c : Fin 32) (s : State) : Host.Outcome State Fault Refusal :=
  runInstr lp {} (fpDivBody true lp d a b c) s

def execFsqrtD (lp : Fin 48) (d a b c : Fin 32) (s : State) : Host.Outcome State Fault Refusal :=
  runInstr lp {} (fpSqrtBody false lp d a b c) s

def execFsqrtQ (lp : Fin 48) (d a b c : Fin 32) (s : State) : Host.Outcome State Fault Refusal :=
  runInstr lp {} (fpSqrtBody true lp d a b c) s

def execFmaD (lp : Fin 48) (d a b c : Fin 32) (s : State) : Host.Outcome State Fault Refusal :=
  runInstr lp {} (fpFmaBody false lp d a b c) s

def execFmaQ (lp : Fin 48) (d a b c : Fin 32) (s : State) : Host.Outcome State Fault Refusal :=
  runInstr lp {} (fpFmaBody true lp d a b c) s

def execFmsD (lp : Fin 48) (d a b c : Fin 32) (s : State) : Host.Outcome State Fault Refusal :=
  runInstr lp {} (fpFmsBody false lp d a b c) s

def execFmsQ (lp : Fin 48) (d a b c : Fin 32) (s : State) : Host.Outcome State Fault Refusal :=
  runInstr lp {} (fpFmsBody true lp d a b c) s

def execFcmpeq (lp : Fin 48) (q : Bool) (d a b c : Fin 32) (s : State) : Host.Outcome State Fault Refusal :=
  runInstr lp {} (fcmpeqBody q lp d a b c) s

def execFcmplt (lp : Fin 48) (q : Bool) (d a b c : Fin 32) (s : State) : Host.Outcome State Fault Refusal :=
  runInstr lp {} (fcmpltBody q lp d a b c) s

def execFcmple (lp : Fin 48) (q : Bool) (d a b c : Fin 32) (s : State) : Host.Outcome State Fault Refusal :=
  runInstr lp {} (fcmpleBody q lp d a b c) s

def execFcmpun (lp : Fin 48) (q : Bool) (d a b c : Fin 32) (s : State) : Host.Outcome State Fault Refusal :=
  runInstr lp {} (fcmpunBody q lp d a b c) s

def execFmin (lp : Fin 48) (q : Bool) (d a b c : Fin 32) (s : State) : Host.Outcome State Fault Refusal :=
  runInstr lp {} (fminBody q lp d a b c) s

def execFmax (lp : Fin 48) (q : Bool) (d a b c : Fin 32) (s : State) : Host.Outcome State Fault Refusal :=
  runInstr lp {} (fmaxBody q lp d a b c) s

def execFmvf (lp : Fin 48) (d a b c : Fin 32) (s : State) : Host.Outcome State Fault Refusal :=
  runInstr lp {} (fmvfBody lp d a b c) s

def execFmvgh (lp : Fin 48) (d a b c : Fin 32) (s : State) : Host.Outcome State Fault Refusal :=
  runInstr lp {} (fmvghBody lp d a b c) s

def execFmvgl (lp : Fin 48) (d a b c : Fin 32) (s : State) : Host.Outcome State Fault Refusal :=
  runInstr lp {} (fmvglBody lp d a b c) s

def execFneg (lp : Fin 48) (d a b c : Fin 32) (s : State) : Host.Outcome State Fault Refusal :=
  runInstr lp {} (fnegBody lp d a b c) s

def execFabs (lp : Fin 48) (d a b c : Fin 32) (s : State) : Host.Outcome State Fault Refusal :=
  runInstr lp {} (fabsBody lp d a b c) s

def execFcpysgn (lp : Fin 48) (d a b c : Fin 32) (s : State) : Host.Outcome State Fault Refusal :=
  runInstr lp {} (fcpysgnBody lp d a b c) s

def execFmov (lp : Fin 48) (d a b c : Fin 32) (s : State) : Host.Outcome State Fault Refusal :=
  runInstr lp {} (fmovBody lp d a b c) s

def execFcvt (lp : Fin 48) (k : Fin 6) (d a b c : Fin 32) (s : State) : Host.Outcome State Fault Refusal :=
  runInstr lp {} (fcvtBody lp k d a b c) s

def execFcvti (lp : Fin 48) (q : Bool) (d a b c : Fin 32) (s : State) : Host.Outcome State Fault Refusal :=
  runInstr lp {} (fcvtiBody q lp d a b c) s

def execFcvtu (lp : Fin 48) (q : Bool) (d a b c : Fin 32) (s : State) : Host.Outcome State Fault Refusal :=
  runInstr lp {} (fcvtuBody q lp d a b c) s

def execFcvtf (lp : Fin 48) (q : Bool) (d a b c : Fin 32) (s : State) : Host.Outcome State Fault Refusal :=
  runInstr lp {} (fcvtfBody q lp d a b c) s

def execFcvtfu (lp : Fin 48) (q : Bool) (d a b c : Fin 32) (s : State) : Host.Outcome State Fault Refusal :=
  runInstr lp {} (fcvtfuBody q lp d a b c) s

def execFtopd (lp : Fin 48) (q : Bool) (d a b c : Fin 32) (s : State) : Host.Outcome State Fault Refusal :=
  runInstr lp {} (ftopdBody q lp d a b c) s

def execFfrpd (lp : Fin 48) (q : Bool) (d a b c : Fin 32) (s : State) : Host.Outcome State Fault Refusal :=
  runInstr lp {} (ffrpdBody q lp d a b c) s

def execMffpc (lp : Fin 48) (d a b c : Fin 32) (s : State) : Host.Outcome State Fault Refusal :=
  runInstr lp {} (mffpcBody lp d a b c) s

def execMtfpc (lp : Fin 48) (d a b c : Fin 32) (s : State) : Host.Outcome State Fault Refusal :=
  runInstr lp {} (mtfpcBody lp d a b c) s

end Sys2Proof.Machine
end

