-- ==== Sys2Proof/Machine/Control.lean ====
section
/-! DEFINITION. Instructions of CTL and SVC (04 R81-R82, R92, R104, 07 R161-R162), TLB maintenance (08 R193), and
words that are no instruction (04 R86-R88). -/

namespace Sys2Proof.Machine

/-! ### Barriers (R161, R162) -/

/-- A processor has accesses of a context that began before its close numbered `n + 1` and are not performed: stores in its
gate or its L2, on their way or held at a port, or a Device load (R193). -/
def usedBefore (s : State) (ctx : Nat) (lp : Fin 48) (n : Nat) : Bool :=
  let x := lpAt s lp
  let old := fun (e : GateEntry) => e.ctx = ctx && decide (e.grp ≤ n + 1)
  (x.closes = n && x.gated.any fun e => e.ctx = ctx) ||
    (x.released.any old || x.owning.any old || x.toPort.any old || x.toFar.any old) ||
    (s.funcs.any fun f => f.2.held.any fun h => h.lp = some lp && h.ctx = ctx && decide (h.grp ≤ n + 1)) ||
    match x.wait with
    | .load l => l.issued.isSome && lpCtx s lp = ctx && decide (x.closes ≤ n)
    | _ => false

/-- Closes of every processor so far. -/
def closesNow (s : State) : List Nat := all48.map fun l => (lpAt s l).closes

/-- Some access that may have used a removed translation is not performed. -/
def stillUsed (s : State) (ctx : Nat) (closes : List Nat) : Bool :=
  all48.any fun l => usedBefore s ctx l (closes.getD l.val 0)

/-- The wait of a processor is over: the instruction completes, and its interval closes. -/
def endWait (s : State) (lp : Fin 48) : State :=
  closeDue (updLp s lp fun x => { x with wait := .none, arch := { x.arch with pswa := x.arch.pswa + 4 } }) lp

/-- TLB maintenance removes its entries, and completes once nothing uses them any more. -/
def tlbiRemove (s : State) (lp : Fin 48) (k : TlbiKind) (va : Word) (asid : BitVec 16) (ctx : Nat) : State :=
  let s := tlbiAll s k va asid ctx
  if stillUsed s ctx (closesNow s) then updLp s lp fun x => { x with wait := .tlbiEnd ctx (closesNow s) }
  else endWait s lp

/-- The barrier or TLB maintenance a processor waits in goes on once every earlier store is performed. -/
def waitCheck (s : State) (lp : Fin 48) : State :=
  match (lpAt s lp).wait with
  | .fence _ => if storesDone s lp then endWait s lp else s
  | .tlbi k va asid ctx => if storesDone s lp then tlbiRemove s lp k va asid ctx else s
  | .tlbiEnd ctx closes => if stillUsed s ctx closes then s else endWait s lp
  | _ => s

/-- Waits of every processor that may be over. -/
def barrierAll (s : State) : State := all48.foldl waitCheck s

/-- A store of a processor has got further: its own wait may be over, and so may the TLB maintenance of another. -/
def barrierCheck (s : State) (lp : Fin 48) : State :=
  all48.foldl (fun s l => match (lpAt s l).wait with
    | .tlbiEnd _ _ => waitCheck s l
    | _ => s) (waitCheck s lp)

/-- A barrier: loads are performed when they execute, so FENCE.L completes at once; the others wait for every
earlier store. -/
def fenceBody (k : FenceKind) (lp : Fin 48) (d a b c : Fin 32) : Run Unit := do
  unused [d, a, b, c]
  if k ≠ .l && !storesDone (← get) lp then holdLp lp .no (.fence k)

def execFenceL (lp : Fin 48) (d a b c : Fin 32) (s : State) : Host.Outcome State Fault Refusal :=
  runInstr lp .serial (fenceBody .l lp d a b c) s

def execFenceS (lp : Fin 48) (d a b c : Fin 32) (s : State) : Host.Outcome State Fault Refusal :=
  runInstr lp .serial (fenceBody .s lp d a b c) s

def execFenceA (lp : Fin 48) (d a b c : Fin 32) (s : State) : Host.Outcome State Fault Refusal :=
  runInstr lp .serial (fenceBody .a lp d a b c) s

/-! ### Time (R104) -/

/-- The local copy of the TOD on a processor's die, `off` steps after the Keeper's tick edge, in steps after that edge: it
lags by what the die deviates (R32), and no read goes back before an earlier one (R21). -/
def localOff (s : State) (lp : Fin 48) (off : Nat) : Int :=
  let lag := match pairOf s lp with
    | some p => vget s.time.dieOff 0 (p.val / 12)
    | none => 0
  max ((off : Int) - lag) s.time.read

/-- RDTOD: an instant of the current tick. -/
def rdtodBody (lp : Fin 48) (d a b c : Fin 32) (off : Fin 160000) : Run Unit := do
  unused [a, b, c]
  specIf (d.val % 2 = 1)
  let s ← get
  let o := localOff s lp off.val
  let t := ((instant s 0 : Int) + o).toNat
  set { s with time := { s.time with read := o } }
  writeG lp d (BitVec.ofNat 64 (t / secSteps))
  writeG lp (nextReg d) (BitVec.ofNat 64 (todFrac (t % secSteps)))

def execRdtod (lp : Fin 48) (d a b c : Fin 32) (off : Fin 160000) (s : State) : Host.Outcome State Fault Refusal :=
  runInstr lp {} (rdtodBody lp d a b c off) s

/-- RDTICK. -/
def rdtickBody (lp : Fin 48) (d a b c : Fin 32) : Run Unit := do
  unused [a, b, c]
  writeG lp d (← get).time.transit

def execRdtick (lp : Fin 48) (d a b c : Fin 32) (s : State) : Host.Outcome State Fault Refusal :=
  runInstr lp {} (rdtickBody lp d a b c) s

/-! ### Control registers (R82, Table 4-1) -/

/-- Reserved control registers. -/
def reservedC (c : Fin 32) : Bool := c = 14 || c = 15 || decide (c.val ≥ 28)

/-- Lowest state that reaches a control register. -/
def privC (c : Fin 32) : Nat := if c.val ≥ 16 then 2 else 1

/-- MFC. -/
def mfcBody (lp : Fin 48) (d a b c : Fin 32) : Run Unit := do
  needPriv lp (privC c)
  unused [a, b]
  specIf (reservedC c)
  let s ← get
  writeG lp d (if c = 13 then lpid s lp else (lpAt s lp).arch.c[c])

def execMfc (lp : Fin 48) (d a b c : Fin 32) (s : State) : Host.Outcome State Fault Refusal :=
  runInstr lp .serial (mfcBody lp d a b c) s

/-- What a control register refuses of a value: a specification exception with a reason (R82, R178, R197, R372). -/
def refusesC (s : State) (lp : Fin 48) (c : Fin 32) (v : Word) : Option Nat :=
  match c.val with
  | 0 => if v &&& ~~~(maskC 0) ≠ 0 then some 0 else none
  | 1 => if v &&& ~~~(maskC 1) ≠ 0 then some 0 else none
  | 2 => if field v 0 12 ≠ 0 then some 0 else none
  | 16 => if v.toNat ≠ ctxCode (lpOwner s lp.val) then some 1 else none
  | 17 => if !zoneTableIn s v then some 0 else none
  | 18 => if field v 0 12 ≠ 0 then some 0 else none
  | _ => none

/-- MTC. -/
def mtcBody (lp : Fin 48) (d a b c : Fin 32) : Run Unit := do
  needPriv lp (privC c)
  unused [d, b]
  specIf (reservedC c || c = 13)
  let v ← readG lp a
  match refusesC (← get) lp c v with
  | some r => specExc r
  | none => modArch lp fun x => { x with c := x.c.set c (v &&& maskC c) }

def execMtc (lp : Fin 48) (d a b c : Fin 32) (s : State) : Host.Outcome State Fault Refusal :=
  runInstr lp .serial (mtcBody lp d a b c) s

/-! ### Changes of state (R92) -/

/-- RFE: the saved PSW of the current state is restored, and the handler-active latch clears (R92, R372, R420). -/
def rfeBody (lp : Fin 48) (d a b c : Fin 32) : Run Unit := do
  needPriv lp 1
  unused [d, a, b, c]
  let s ← get
  let x := (lpAt s lp).arch
  let cur := privOf x.psws
  let (pswa, psws) := if cur = 2 then (x.c[19], x.c[20]) else (x.c[3], x.c[4])
  specIf (decide (privOf psws = 3) || decide (privOf psws > cur))
  specIf (decide (cur = 2) && decide (privOf psws < 2) && decide (lpPart s lp = mgrCtx)) 2
  modArch lp fun x => { x with pswa := pswa &&& 0xFFFFFFFFFFFFFFFC, psws := psws &&& 0xFE00000000000000 }
  modify fun s => updLp s lp fun x => { x with handler := false }

def execRfe (lp : Fin 48) (d a b c : Fin 32) (s : State) : Host.Outcome State Fault Refusal :=
  runInstr lp .serial (rfeBody lp d a b c) s

/-- The exception of a call: the low byte of its code as REASON, the whole in the address register (R92). -/
def callExc (exc : Nat) (code : Nat) : Exc := { code := exc, reason := code % 256, addr := BitVec.ofNat 64 (code % 65536) }

/-- MCALL. -/
def mcallBody (lp : Fin 48) (d a b c : Fin 32) : Run Unit := do
  needPriv lp 1
  unused [d, b, c]
  throw (.done (callExc 0xC (← readG lp a).toNat))

def execMcall (lp : Fin 48) (d a b c : Fin 32) (s : State) : Host.Outcome State Fault Refusal :=
  runInstr lp .serial (mcallBody lp d a b c) s

/-- SVC. -/
def svcBody (d a : Fin 32) (i : BitVec 16) : Run Unit := do
  unused [d, a]
  throw (.done (callExc 0xB i.toNat))

def execSvc (lp : Fin 48) (d a : Fin 32) (i : BitVec 16) (s : State) : Host.Outcome State Fault Refusal :=
  runInstr lp .serial (svcBody d a i) s

/-! ### TLB maintenance (R193) -/

/-- Removal once every earlier store is performed, and the waits for that and for what has used the entries. -/
def tlbiWhenDone (lp : Fin 48) (k : TlbiKind) (va : Word) (asid : BitVec 16) (ctx : Nat) : Run Unit := do
  let s ← get
  if storesDone s lp then
    let t := tlbiAll s k va asid ctx
    set t
    if stillUsed t ctx (closesNow t) then holdLp lp .no (.tlbiEnd ctx (closesNow t))
  else holdLp lp .no (.tlbi k va asid ctx)

def tlbiVaBody (lp : Fin 48) (d a b c : Fin 32) : Run Unit := do
  needPriv lp 1
  unused [d]
  specIf (decide (c.val > 1))
  let va ← readG lp a
  let asid ← readG lp b
  tlbiWhenDone lp (.va (c = 1)) va (asid.setWidth 16) (lpCtx (← get) lp)

def execTlbiVa (lp : Fin 48) (d a b c : Fin 32) (s : State) : Host.Outcome State Fault Refusal :=
  runInstr lp .serial (tlbiVaBody lp d a b c) s

def tlbiAsidBody (lp : Fin 48) (d a b c : Fin 32) : Run Unit := do
  needPriv lp 1
  unused [d, b, c]
  tlbiWhenDone lp .asid 0 ((← readG lp a).setWidth 16) (lpCtx (← get) lp)

def execTlbiAsid (lp : Fin 48) (d a b c : Fin 32) (s : State) : Host.Outcome State Fault Refusal :=
  runInstr lp .serial (tlbiAsidBody lp d a b c) s

/-- TLBI.PART: of the running partition from Supervisor state, of the context GA names from Manager state. -/
def tlbiPartBody (lp : Fin 48) (d a b c : Fin 32) : Run Unit := do
  needPriv lp 1
  unused [d, b, c]
  let s ← get
  if privOf (lpAt s lp).arch.psws = 2 then
    let n := (← readG lp a).toNat % 256
    specIf (decide (n > 128))
    tlbiWhenDone lp .part 0 0 n
  else
    unused [a]
    tlbiWhenDone lp .part 0 0 (lpPart s lp)

def execTlbiPart (lp : Fin 48) (d a b c : Fin 32) (s : State) : Host.Outcome State Fault Refusal :=
  runInstr lp .serial (tlbiPartBody lp d a b c) s

/-! ### Words that are no instruction (R86-R88) -/

/-- The function codes of a grouped opcode (Table 4-4, Table 6-3); none where the opcode alone decides. -/
def functionCodes : Nat → Option (List Nat)
  | 0x01 => some (List.range 0x1C)
  | 0x02 => some [0, 1, 2, 3, 8, 9]
  | 0x03 => some [0]
  | 0x1C => some (List.range 7 ++ (List.range 7).map (· + 8) ++ (List.range 15).map (· + 0x10) ++
      (List.range 4).map (· + 0x20) ++ (List.range 6).map (· + 0x28) ++ (List.range 12).map (· + 0x30) ++ [0x3E, 0x3F])
  | 0x1D => some [0, 1, 2, 3]
  | 0x2C => some [0, 1, 2, 8, 9, 0x10, 0x11, 0x12, 0x13]
  | 0x2D => some [0, 1, 2, 8, 9, 0x10, 0x11, 0x12]
  | 0x2E => some [0, 1, 2, 3, 4, 5]
  | 0x38 => some (List.range 11)
  | 0x39 => some [0, 1, 2]
  | _ => none

/-- The primary opcodes of Table 4-3. -/
def assignedOps : List Nat :=
  [1, 2, 3] ++ (List.range 19).map (· + 8) ++ (List.range 4).map (· + 0x1C) ++ (List.range 17).map (· + 0x20) ++ [0x38, 0x39]

/-- Whether a first word begins an instruction. -/
def assignedWord (w : BitVec 32) : Bool :=
  let op := field w 26 6
  assignedOps.contains op &&
    match functionCodes op with
    | some l => l.contains (if op ≥ 0x38 then field w 21 5 else field w 0 6)
    | none => true

/-- UNASSIGNED_OPCODE: an operation exception (R86, R87, R88); of a word that begins an instruction there is no such
command, and nothing happens. -/
def execUnassignedOpcode (lp : Fin 48) (word : BitVec 32) (s : State) : Host.Outcome State Fault Refusal :=
  if assignedWord word then .next s
  else runInstr lp { len := if field word 26 6 ≥ 0x38 then 8 else 4 } operationExc s

end Sys2Proof.Machine
end

