-- ==== Sys2Proof/Machine/Maint.lean ====
section
/-! DEFINITION. Caches (09): maintenance instructions, the Burin engines, the prefetcher, evictions, and the part of
Sweep that reads the arrays. -/

namespace Sys2Proof.Machine

/-! ### Maintenance by address and by set and way (R216-R218) -/

inductive MaintOp where
  | clean | inval | cleanInval
  deriving DecidableEq, Repr

/-- The lowest state of a maintenance instruction (Table 9-2). -/
def maintPriv (k : MaintOp) (c : Fin 32) : Nat :=
  match k with
  | .inval => 2
  | _ => if c.val % 2 = 1 then 1 else 0

/-- Every copy of a line in the complex is cleaned, removed, or both; other packages hear of it. -/
def maintLine (s : State) (k : MaintOp) (line : Nat) : State :=
  let s := s.mode.coupled.foldl (fun s k => toPkg "maintenance" k k line s) s
  match k with
  | .clean => cleanCopies s line .e
  | .inval => dirFree (removeCopies (discardDirty s line) line) line
  | .cleanInval => dirFree (removeCopies (writeBack s line) line) line

/-- One line of a pair's own L2 is handled. -/
def maintL2 (s : State) (p : Fin 48) (k : MaintOp) (line : Nat) : State :=
  match k with
  | .clean => if l2State s p line = some .m then cleanLine s p line else s
  | .inval => l2Remove (if l2State s p line = some .m then discardDirty s line else s) p line
  | .cleanInval => l2Remove (if l2State s p line = some .m then flushLine s p line else s) p line

/-- A line is removed from an L1 of a pair; a clean of an L1 has no effect. -/
def maintL1 (s : State) (p : Fin 48) (k : MaintOp) (instr : Bool) (line : Nat) : State :=
  if k = .clean then s
  else updPair s p fun x => if instr then { x with l1i := Tab.del x.l1i line } else { x with l1d := Tab.del x.l1d line }

/-- A fill of a line is in flight somewhere in the package, or the line is leaving: maintenance by address that names it waits
(R215, R218). -/
def maintWaits (s : State) (line : Nat) : Bool :=
  (Tab.look s.txns line).isSome || leavingAnywhere s line ||
    s.pairs.toList.any fun x => (Tab.look x.misses line).isSome

/-- A maintenance instruction. -/
def maintBody (k : MaintOp) (lp : Fin 48) (d a b c : Fin 32) : Run Unit := do
  needPriv lp (maintPriv k c)
  unused [d, b]
  let cache := c.val / 2 % 4
  specIf (decide (cache = 3) || decide (c.val / 8 ≠ 0))
  let ga ← readG lp a
  let way := field ga 0 4
  let set_ := field ga 4 11
  specIf (decide (c.val % 2 = 1) &&
    (decide (field ga 15 49 ≠ 0) || (decide (cache ≠ 2) && decide (way > 7 ∨ set_ > 63))))
  let s ← get
  match pairOf s lp with
  | none => throw .wait
  | some p =>
    if c.val % 2 = 1 then
      if !storesDone s lp then throw .wait
      if cache = 2 then
        match (pairAt s p).l2.find? fun e => decide (e.1 % 2048 = set_) && decide (e.2.way = way) with
        | some e => if e.2.leaving then throw .wait else set (maintL2 s p k e.1)
        | none => pure ()
      else
        let t := if cache = 1 then (pairAt s p).l1i else (pairAt s p).l1d
        match t.find? fun e => decide (e.1 % 64 = set_) && decide (e.2 = way) with
        | some e => set (maintL1 s p k (cache = 1) e.1)
        | none => pure ()
    else
      let (pa, ty) ← translate lp ga .load false (k = .inval)
      let s ← get
      if !storesDone s lp then throw .wait
      if ty ≠ .normal then pure ()
      else if maintWaits s (lineOf pa) then throw .wait
      else if cache = 2 then set (maintLine s k (lineOf pa))
      else set (maintL1 s p k (cache = 1) (lineOf pa))

def execCcln (lp : Fin 48) (d a b c : Fin 32) (s : State) : Host.Outcome State Fault Refusal :=
  runInstr lp .serial (maintBody .clean lp d a b c) s

def execCinv (lp : Fin 48) (d a b c : Fin 32) (s : State) : Host.Outcome State Fault Refusal :=
  runInstr lp .serial (maintBody .inval lp d a b c) s

def execCcli (lp : Fin 48) (d a b c : Fin 32) (s : State) : Host.Outcome State Fault Refusal :=
  runInstr lp .serial (maintBody .cleanInval lp d a b c) s

/-! ### Burin (R219-R224) -/

def burinAt (s : State) (d : Nat) : Burin := vget s.burin Burin.reset d

def updBurin (s : State) (d : Nat) (f : Burin → Burin) : State := { s with burin := vset s.burin d (f (burinAt s d)) }

/-- The die C[4:2] names, or the requester's own. -/
def burinDie (s : State) (lp : Fin 48) (c : Fin 32) : Nat :=
  if c.val / 4 = 4 then (match pairOf s lp with | some p => p.val / 12 | none => 0) else c.val / 4

/-- Both ends of a range lie in DRAM of one package, or in the configured scratch of one die. -/
def oneRegion (s : State) (pa n : Nat) : Bool :=
  let r := regionOf s pa
  r.isStorage && r = regionOf s (pa + n - 1) && decide (pa / 2 ^ 50 = (pa + n - 1) / 2 ^ 50)

/-- The physical range of a CRANGE, or the addressing exception (R219). In Supervisor state a range of more than one
zone or of more than 1 GiB has a cause the spec does not name (log 42). -/
def rangeCheck (lp : Fin 48) (ga : Word) (n : Nat) : Run Nat := do
  let s ← get
  if privOf (lpAt s lp).arch.psws = 2 then
    if n ≤ 2 ^ 40 ∧ ga.toNat < 2 ^ 52 ∧ oneRegion s ga.toNat n then pure ga.toNat else addressingExc 4 0 ga
  else if ga.toNat ≥ 2 ^ 52 then addressingExc 4 0 ga
  else
    let (pa, mmio) ← zoneLookup lp ga.toNat 0 ga
    if n > gib ∨ ga.toNat / gib ≠ (ga.toNat + n - 1) / gib then
      let s ← get
      set (taken s)
      addressingExc (1 + (freeNow s).toNat % 4) 0 ga
    else do
      let (_, _) ← zoneLookup lp (ga.toNat + n - 1) 0 ga
      let s ← get
      if mmio then addressingExc 3 0 ga
      else if oneRegion s pa n then pure pa else addressingExc 4 0 ga

/-- CRANGE. -/
def crangeBody (lp : Fin 48) (d a b c : Fin 32) : Run Unit := do
  needPriv lp (if c.val % 4 = 2 then 2 else 1)
  let start ← readG lp a
  let n := (← readG lp b).toNat
  specIf (decide (c.val % 4 = 0) || decide (c.val / 4 > 4) || decide (n = 0) || decide (n % 256 ≠ 0) ||
    decide (start.toNat % 256 ≠ 0))
  let pa ← rangeCheck lp start n
  let s ← get
  if !storesDone s lp then throw .wait
  let die := burinDie s lp c
  if (burinAt s die).busy then writeG lp d 0
  else do
    set (updBurin s die fun _ =>
      { Burin.reset with busy := true, op := c.val % 4, start := pa, len := n, owner := some lp, ownerCtx := lpCtx s lp,
                         paused := s.mode.quiesce })
    writeG lp d 1

def execCrange (lp : Fin 48) (d a b c : Fin 32) (s : State) : Host.Outcome State Fault Refusal :=
  runInstr lp .serial (crangeBody lp d a b c) s

/-- The status of an engine (Table 9-3). -/
def burinStatus (b : Burin) (lp : Fin 48) : Word :=
  BitVec.ofNat 64 ((if b.busy then 2 ^ 63 else 0) + (if b.owner = some lp then 2 ^ 62 else 0) +
    (if b.poison then 2 ^ 61 else 0) + (if b.cancelled then 2 ^ 60 else 0) +
    (if b.busy then b.cursor % 2048 else 0) * 2 ^ 32 + b.written % 2 ^ 32)

/-- CRSTAT. -/
def crstatBody (lp : Fin 48) (d a b c : Fin 32) : Run Unit := do
  needPriv lp 1
  unused [a, b]
  specIf (decide (c.val % 4 ≠ 0) || decide (c.val / 4 > 4))
  let s ← get
  writeG lp d (burinStatus (burinAt s (burinDie s lp c)) lp)

def execCrstat (lp : Fin 48) (d a b c : Fin 32) (s : State) : Host.Outcome State Fault Refusal :=
  runInstr lp .serial (crstatBody lp d a b c) s

/-- A line lies in the range of an engine's operation. -/
def Burin.covers (b : Burin) (line : Nat) : Bool := decide (b.start ≤ line * 256 ∧ line * 256 < b.start + b.len)

/-- Operation codes of C[1:0]. -/
def burinOp : Nat → MaintOp
  | 1 => .clean
  | 2 => .inval
  | _ => .cleanInval

/-- An event of a class whose block code the spec does not give: the code is a free value (log 43). -/
def codelessEvent (s : State) (page cls : Nat) (owner : Option Nat) (addr : Nat) : State :=
  logEvent (taken s) { page := page, code := cls * 8192 + 1 + (freeNow s).toNat % 8191, owner := owner, kind := .phys,
                       addr := BitVec.ofNat 64 addr }

/-- An engine notes a poisoned line that it handles, and the event is logged (R223). -/
def burinPoison (s : State) (die line : Nat) : State :=
  if s.poison.contains line then
    codelessEvent (updBurin s die fun b => { b with poison := true }) (burinPage die) 2 (granuleCtx s (line * 256)) (line * 256)
  else s

/-- One line of an L2 of the die is handled; writebacks are counted, saturating. A dirty line that goes leaves by WbM, and the
operation waits for its acknowledgement (R222). -/
def burinLine (die : Nat) (s : State) (p : Fin 48) (line : Nat) : State :=
  let k := burinOp (burinAt s die).op
  let dirty := l2State s p line = some .m
  let s := burinPoison s die line
  let s := updBurin s die fun b => { b with written := if dirty && k ≠ .inval then min (b.written + 1) (2 ^ 32 - 1) else b.written }
  if dirty && k = .cleanInval then
    updBurin (l2Evict s p line) die fun b => { b with waits := (p, line) :: b.waits }
  else maintL2 s p k line

/-- Every valid line of one set of the die's caches that lies in the range (R220). -/
def burinOneSet (s : State) (die : Nat) : State :=
  let b := burinAt s die
  let mine := fun (line : Nat) => line % 2048 = b.cursor && b.covers line
  let s := (pairsOfDie die).foldl (fun s p =>
    ((pairAt s p).l2.filter fun e => mine e.1).foldl (fun s e =>
      if e.2.leaving then updBurin s die fun b => { b with waits := (p, e.1) :: b.waits } else burinLine die s p e.1) s) s
  let s := if burinOp b.op = .clean then s
    else (s.l3.filter fun e => decide (e.1 / 2 ^ 44 = die) && mine (e.1 % 2 ^ 44)).foldl (fun s e =>
      l3Remove (burinPoison s die (e.1 % 2 ^ 44)) die (e.1 % 2 ^ 44)) s
  updBurin s die fun b => { b with cursor := b.cursor + 1 }

/-- An L2 of the die has too many lines leaving for another set's evictions (R215). -/
def burinFull (s : State) (die : Nat) : Bool := (pairsOfDie die).any fun p => decide (leavingCount s p + 16 > 32)

/-- BURIN_SET (R220, R224): the next set is handled; a Quiesce pauses the engine, and a cancelled operation stops at
the end of the set in progress. -/
def execBurinSet (die : Fin 4) (s : State) : Host.Outcome State Fault Refusal :=
  .next <|
    let b := burinAt s die.val
    if !b.busy || b.paused || s.mode.quiesce then s
    else if b.cancelled then updBurin s die.val fun b => { b with busy := false, cursor := 0, waits := [] }
    else if decide (b.cursor ≥ 2048) || (burinOp b.op = .cleanInval && burinFull s die.val) then s
    else burinOneSet s die.val

/-- A line that an engine's operation evicted, or found leaving when it passed its set, awaits its acknowledgement. -/
def burinLeaving (s : State) (die : Nat) : Bool :=
  (burinAt s die).waits.any fun w => match l2Find s w.1 w.2 with | some l => l.leaving | none => false

/-- BURIN_COMPLETE (R222): the cursor has passed the last set and nothing the operation waits for is left. -/
def execBurinComplete (die : Fin 4) (s : State) : Host.Outcome State Fault Refusal :=
  .next <|
    let b := burinAt s die.val
    if b.busy && decide (b.cursor ≥ 2048) && !burinLeaving s die.val then
      updBurin s die.val fun b => { b with busy := false, cursor := 0, waits := [] }
    else s

/-! ### The prefetcher (R213, R214) -/

/-- PREFETCH: the stream of the access that has just matched at an address requests lines ahead, if it is confirmed. The
accesses themselves train it. -/
def execPrefetch (lp : Fin 48) (va : Word) (store : Bool) (s : State) : Host.Outcome State Fault Refusal :=
  .next <|
    match pairOf s lp with
    | none => s
    | some p =>
      let ctl := cell s (regKey (clusterPage p.val) 0x040)
      if !bit ctl 31 || !lpReady s lp then s
      else
        match (pairAt s p).streams.find? fun t => t.line = va.toNat / 256 && t.store = store && decide (t.misses ≥ 3) with
        | none => s
        | some t =>
          (List.range (max (field ctl 8 5) (field ctl 0 3))).foldl (fun s i =>
            prefetchLine lp p store (decide (i < field ctl 0 3)) s
              (va + BitVec.ofInt 64 (256 * t.stride * ((i : Int) + 1)))) s

/-! ### Evictions and array errors (R215, R208) -/

/-- L2_EVICTION: a held line begins to leave, while no more than 32 do. -/
def execL2Eviction (pair : Fin 48) (line : Nat) (s : State) : Host.Outcome State Fault Refusal :=
  .next (if (l2State s pair line).isSome && decide (leavingCount s pair < 32) && (Tab.look s.txns line).isNone &&
    (Tab.look (pairAt s pair).misses line).isNone
    then l2Evict s pair line else s)

/-- A line of scratch that an L3 slice holds (R226). -/
def scratchIn (s : State) (unit line : Nat) : Bool :=
  homeHere s line && decide (homeSlice s line = unit) &&
    match regionOf s (line * 256) with | .scratch _ => true | _ => false

/-- ARRAY_SWEEP_READ: a single-bit error is corrected in place; an uncorrectable clean line is invalidated, an
uncorrectable dirty one is poisoned and written back (R208); one of scratch, which has no other copy, is poisoned where it
lies (log 43). -/
def execArraySweepRead (l3 : Bool) (unit : Nat) (line : Nat) (errors : Nat) (s : State) :
    Host.Outcome State Fault Refusal :=
  .next <|
    if errors = 0 then s
    else if l3 then
      let die := unit / 24
      if unit < 96 ∧ (l3Find s die line).isSome then
        let t := codelessEvent s (slicePage unit) (if errors = 1 then 0 else 1) (granuleCtx s (line * 256)) (line * 256)
        if errors = 1 then t else l3Remove t die line
      else if unit < 96 && scratchIn s unit line then
        let t := codelessEvent s (slicePage unit) (if errors = 1 then 0 else 2) (granuleCtx s (line * 256)) (line * 256)
        if errors = 1 then t else setPoison t line true
      else s
    else
      if h : unit < 48 then
        let p : Fin 48 := ⟨unit, h⟩
        match l2State s p line with
        | none => s
        | some st =>
          let ev := fun (cls : Nat) => codelessEvent s (pairPage unit) cls (pairOwner s p) (line * 256)
          if errors = 1 then ev 0
          else if st = .m then l2Remove (flushLine (setPoison (ev 2) line true) p line) p line
          else l2Remove (ev 1) p line
      else s

end Sys2Proof.Machine
end

