-- ==== Sys2Proof/Machine/IoInstr.lean ====
section
/-! DEFINITION. The I/O instructions (12 R288-R292, R304-R309): the checks of the identifier and the block, the
result codes of Table 12-3, and the halt and the clear of an operation. -/

namespace Sys2Proof.Machine

/-! ### Checks (R288, R289) -/

/-- The state, the fields that must be zero, and the subchannel identifier. -/
def ioIdent (lp : Fin 48) (a : Fin 32) (zero : List (Fin 32)) : Run Nat := do
  needPriv lp 1
  unused zero
  let ga ← readG lp a
  specIf (field ga 20 44 ≠ 0) 1
  pure (field ga 0 20)

/-- The block at GB: its address and its physical address. -/
def ioBlock (lp : Fin 48) (b : Fin 32) (acc : Access) (n : Nat) : Run (Word × Nat) := do
  let va ← readG lp b
  specAt va (va.toNat % n ≠ 0) 2
  let (pa, ty) ← translate lp va acc
  specAt va (ty ≠ .normal) 3
  pure (va, pa)

/-- Every earlier store to memory is performed, so that the operation observes it (R164). -/
def ioPerform (lp : Fin 48) : Run Unit := do
  match performAll (← get) lp with
  | none => throw .wait
  | some t => set t

/-- A block stored by WrP before the instruction completes (R289). -/
def ioStoreBlock (pa : Nat) (bs : List Byte) : Run Unit := do
  let s ← get
  if !canWrite s (lineOf pa) then throw .wait
  set (agentWrite s pa bs)

/-- One of an instruction's result codes, as a subchannel of another package gives it: a free value (log 39). -/
def ioElsewhere (id : Nat) (codes : List Nat) : Run Nat := do
  let s ← get
  let pkg := id / 262144
  if s.mode.coupled.contains pkg then
    set (taken (toPkg "subchannel" pkg pkg id s))
    pure (codes.getD ((freeNow s).toNat % codes.length) 0x40)
  else pure 0x40

/-- The subchannel is of this package. -/
def ioLocal (s : State) (id : Nat) : Bool := id / 262144 = pkgId s

/-- The result code in GD. -/
def ioResult (lp : Fin 48) (d : Fin 32) (code : Nat) : Run Unit := writeG lp d (BitVec.ofNat 64 code)

/-! ### Starting (R290-R292) -/

/-- A reserved field of a Start Block is set, or its Command Word address is not aligned (Table 12-4). -/
def startBlockBad (bs : List Byte) : Bool :=
  let v := fun (off n : Nat) => beVal ((bs.drop off).take n)
  v 8 8 % 16 ≠ 0 || v 16 1 % 128 ≠ 0 || v 18 6 ≠ 0 || (v 16 1 = 0 && v 24 8 ≠ 0)

/-- The operation a Start Block asks for. -/
def opOfBlock (ctx : Nat) (bs : List Byte) : Op :=
  let v := fun (off n : Nat) => beVal ((bs.drop off).take n)
  newOp ctx (v 8 8) (BitVec.ofNat 64 (v 0 8)) (BitVec.ofNat 8 (v 17 1))
    (if v 16 1 ≥ 128 then some (BitVec.ofNat 64 (v 24 8)) else none) false

def iostartBody (lp : Fin 48) (d a b c : Fin 32) : Run Unit := do
  let id ← ioIdent lp a [c]
  let (va, pa) ← ioBlock lp b .load 32
  let bs ← readPieces lp va [⟨pa, 32, .normal⟩]
  specIf (startBlockBad bs) 4
  ioPerform lp
  if ioLocal (← get) id then
    let s ← get
    let (t, r) := startOp s (id % 262144) (opOfBlock (lpCtx s lp) bs)
    set t
    ioResult lp d r
  else
    let mgr := decide (lpCtx (← get) lp = mgrCtx)
    ioResult lp d (← ioElsewhere id ((if mgr then [] else [0x32]) ++ [0, 0x20, 0x30, 0x33, 0x40, 0x41, 0x42]))

/-- IOSTART: a channel operation starts, or is refused (R290-R292); in Manager state never with 32h. -/
def execIostart (lp : Fin 48) (d a b c : Fin 32) (s : State) : Host.Outcome State Fault Refusal :=
  runInstr lp .serial (iostartBody lp d a b c) s

/-! ### Ending early (R304, R305) -/

/-- A halt is asked for: the operation ends at once where no frame has been sent, between commands, or while it
waits for a path; otherwise HALT goes to the adapter. -/
def haltOp (s : State) (n : Nat) : State :=
  let s := updSch s n fun x => { x with func := .halt }
  match opAt s n with
  | none => s
  | some o =>
    if o.ending.isSome || o.cancel.isSome then s
    else if o.stage = .waiting then decide_ s n o 7 2
    else if !o.sentFirst || (o.wins.isEmpty && o.status.isSome) then decide_ s n o 7 0
    else sendAsked s n { o with halt := true }

/-- A clear is asked for: the operation ends at once where the adapter holds nothing of it or no path leads there;
otherwise it is cancelled at the adapter. -/
def clearOp (s : State) (n : Nat) : State :=
  match opAt s n with
  | none => s
  | some o =>
    if (schAt s n).func = .none then s
    else
      let s := updSch s n fun x => { x with func := .clear }
      if o.ending.isSome || o.cancel.isSome then s
      else if o.stage = .waiting then decide_ s n o 8 (if o.unknown then 2 else 0)
      else if !o.sentFirst then decide_ s n o 8 0
      else sendCancel s n o 8 0

/-- The result of IOHALT (Table 12-3). -/
def haltResult (s : State) (ctx n : Nat) : Nat :=
  let x := schAt s n
  if !operational s ctx n then 0x40
  else if x.func = .halt || x.func = .clear then 0x31
  else if (match x.status with | some w => w.final | none => false) then 0x20
  else if x.func = .none then 0x22
  else 0

def iohaltBody (lp : Fin 48) (d a b c : Fin 32) : Run Unit := do
  let id ← ioIdent lp a [b, c]
  ioPerform lp
  let s ← get
  let n := id % 262144
  if ioLocal s id then
    let r := haltResult s (lpCtx s lp) n
    set (if r = 0 then haltOp s n else s)
    ioResult lp d r
  else ioResult lp d (← ioElsewhere id [0, 0x20, 0x22, 0x31, 0x40])

/-- IOHALT: an operation is asked to end at a window boundary (R304). -/
def execIohalt (lp : Fin 48) (d a b c : Fin 32) (s : State) : Host.Outcome State Fault Refusal :=
  runInstr lp .serial (iohaltBody lp d a b c) s

/-- A pending status stored at GB and removed (R305, R307): the result is `code` where there is one. -/
def takeStatus (n pa code none_ : Nat) : Run Nat := do
  let s ← get
  match (schAt s n).status with
  | none => pure none_
  | some w =>
    ioStoreBlock pa (oswBytes w)
    modify fun s => removeStatus s n
    pure code

/-- What another package's subchannel gives for an instruction that stores a block with the codes of `stores`. -/
def ioElsewhereStore (id pa n : Nat) (codes stores : List Nat) : Run Nat := do
  let r ← ioElsewhere id codes
  if stores.contains r then
    ioStoreBlock pa (freeBytes (← get) n)
    modify taken
  pure r

def ioclearBody (lp : Fin 48) (d a b c : Fin 32) : Run Unit := do
  let id ← ioIdent lp a [c]
  let (_, pa) ← ioBlock lp b .store 32
  ioPerform lp
  let s ← get
  let n := id % 262144
  if ioLocal s id then
    if operational s (lpCtx s lp) n then
      let r ← takeStatus n pa 1 0
      modify fun s => clearOp s n
      ioResult lp d r
    else ioResult lp d 0x40
  else ioResult lp d (← ioElsewhereStore id pa 32 [0, 1, 0x40] [1])

/-- IOCLEAR: a pending status is stored and removed, and an operation ended by force (R305). -/
def execIoclear (lp : Fin 48) (d a b c : Fin 32) (s : State) : Host.Outcome State Fault Refusal :=
  runInstr lp .serial (ioclearBody lp d a b c) s

/-! ### Status and record (R307, R308) -/

def iotestBody (lp : Fin 48) (d a b c : Fin 32) : Run Unit := do
  let id ← ioIdent lp a [c]
  let (_, pa) ← ioBlock lp b .store 32
  ioPerform lp
  let s ← get
  let n := id % 262144
  if ioLocal s id then
    if operational s (lpCtx s lp) n then
      let r ← takeStatus n pa 0 0x21
      ioResult lp d r
    else ioResult lp d 0x40
  else ioResult lp d (← ioElsewhereStore id pa 32 [0, 0x21, 0x40] [0])

/-- IOTEST: a pending status is stored and removed (R307). -/
def execIotest (lp : Fin 48) (d a b c : Fin 32) (s : State) : Host.Outcome State Fault Refusal :=
  runInstr lp .serial (iotestBody lp d a b c) s

/-- A path mask with a bit for each slot of a list, bit 7 for slot 0 (R370). -/
def slotMask (l : List Nat) : Nat := (l.map fun k => 2 ^ (7 - k)).sum

def SchFunc.code : SchFunc → Nat
  | .none => 0
  | .start => 1
  | .halt => 2
  | .clear => 3

/-- The Subchannel Record (Table 12-9). -/
def schRecord (s : State) (n : Nat) : List Byte :=
  let x := schAt s n
  let flag := fun (b : Bool) (v : Nat) => if b then v else 0
  let waiting := match opAt s n with | some o => decide (o.stage = .waiting) | none => false
  let pend := match x.status with | some w => if w.final then 2 else 1 | none => 0
  beBytes 4 (schId s n) ++ beBytes 2 (cellField s (cssPage 0) 0x110 0 16 n) ++
  beBytes 1 (flag x.enabled 128 + flag (schBound s n) 64 + x.func.code * 16 + pend * 4 + flag waiting 2 +
    flag (bit (cell s (regKey (cssPage 0) 0x11C n)) 31) 1) ++
  beBytes 1 x.isc ++ beBytes 1 (schPim s n) ++ beBytes 1 (slotMask (goodSlots s n)) ++ beBytes 1 x.lpm.toNat ++
  beBytes 1 0 ++
  ((List.range 8).flatMap fun k => beBytes 1 (if maskHas (schPim s n) k then slotPath s n k else 255)) ++
  beBytes 4 (match x.serial with | some v => v.toNat | none => 0) ++ beBytes 8 x.parm.toNat ++
  beBytes 8 x.started.toNat ++ beBytes 8 x.bytes.toNat ++ List.replicate 16 0

def iostoreBody (lp : Fin 48) (d a b c : Fin 32) : Run Unit := do
  let id ← ioIdent lp a [c]
  let (_, pa) ← ioBlock lp b .store 64
  ioPerform lp
  let s ← get
  let n := id % 262144
  if ioLocal s id then
    if operational s (lpCtx s lp) n then
      ioStoreBlock pa (schRecord s n)
      ioResult lp d 0
    else ioResult lp d 0x40
  else ioResult lp d (← ioElsewhereStore id pa 64 [0, 0x40] [0])

/-- IOSTORE: the Subchannel Record is stored (R308). -/
def execIostore (lp : Fin 48) (d a b c : Fin 32) (s : State) : Host.Outcome State Fault Refusal :=
  runInstr lp .serial (iostoreBody lp d a b c) s

/-! ### Modify (R309) -/

def modifyBlockBad (bs : List Byte) : Bool :=
  let v := fun (off n : Nat) => beVal ((bs.drop off).take n)
  v 0 1 % 128 ≠ 0 || decide (v 1 1 > 7) || v 3 13 ≠ 0

def iomodifyBody (lp : Fin 48) (d a b c : Fin 32) : Run Unit := do
  let id ← ioIdent lp a [c]
  let (va, pa) ← ioBlock lp b .load 16
  let bs ← readPieces lp va [⟨pa, 16, .normal⟩]
  specIf (modifyBlockBad bs) 4
  ioPerform lp
  let s ← get
  let n := id % 262144
  let x := schAt s n
  let v := fun (off : Nat) => (bs.getD off 0).toNat
  if !ioLocal s id then ioResult lp d (← ioElsewhere id [0, 0x20, 0x30, 0x40])
  else if !operational s (lpCtx s lp) n then ioResult lp d 0x40
  else if x.status.isSome then ioResult lp d 0x20
  else if x.func ≠ .none then ioResult lp d 0x30
  else
    set (updSch s n fun x =>
      { x with enabled := decide (v 0 ≥ 128), isc := v 1, lpm := BitVec.ofNat 8 (v 2) })
    ioResult lp d 0

/-- IOMODIFY: ENABLED, ISC and LPM are replaced (R309). -/
def execIomodify (lp : Fin 48) (d a b c : Fin 32) (s : State) : Host.Outcome State Fault Refusal :=
  runInstr lp .serial (iomodifyBody lp d a b c) s

end Sys2Proof.Machine
end

