-- ==== Sys2Proof/Machine/Repeat.lean ====
section
/-! DEFINITION. The repeat prefix (04 R105-R109): what the repeated instruction is to a prefix, one iteration of
REP.I, and REP.N as one instruction. -/

namespace Sys2Proof.Machine

/-- A repeated instruction as its prefix sees it. -/
structure RepBody where
  run : Rep → Run Unit := fun _ => pure ()
  /-- General registers it writes. -/
  writes : List (Fin 32) := []
  /-- It may not be repeated: a branch, a prefix, a serialising instruction, an instruction of 8 bytes (R106). -/
  barred : Bool := false
  /-- Its opcode or function code is unassigned, and begins with one of 38h-3Fh (R86). -/
  undefined : Bool := false
  long : Bool := false
  /-- Compatibility operating does not have it (R109, R152). -/
  full : Bool := false
  /-- Its lowest state (Table 4-4). -/
  priv : Nat := 0
  /-- An atomic that stores (R172). -/
  atomic : Bool := false

/-- The repeated instruction, run by the prefix's own logical processor. What is no instruction of a logical
processor is barred. -/
def repBody (lp : Fin 48) : Instr → RepBody
  | .and _ d a b c => { run := fun _ => andBody lp d a b c, writes := [d] }
  | .or _ d a b c => { run := fun _ => orBody lp d a b c, writes := [d] }
  | .xor _ d a b c => { run := fun _ => xorBody lp d a b c, writes := [d] }
  | .andn _ d a b c => { run := fun _ => andnBody lp d a b c, writes := [d] }
  | .orn _ d a b c => { run := fun _ => ornBody lp d a b c, writes := [d] }
  | .xnor _ d a b c => { run := fun _ => xnorBody lp d a b c, writes := [d] }
  | .sll _ d a b c => { run := fun _ => sllBody lp d a b c, writes := [d] }
  | .srl _ d a b c => { run := fun _ => srlBody lp d a b c, writes := [d] }
  | .sra _ d a b c => { run := fun _ => sraBody lp d a b c, writes := [d] }
  | .rol _ d a b c => { run := fun _ => rolBody lp d a b c, writes := [d] }
  | .clz _ d a b c => { run := fun _ => clzBody lp d a b c, writes := [d] }
  | .ctz _ d a b c => { run := fun _ => ctzBody lp d a b c, writes := [d] }
  | .popc _ d a b c => { run := fun _ => popcBody lp d a b c, writes := [d] }
  | .extb _ d a b c => { run := fun _ => extbBody lp d a b c, writes := [d] }
  | .exth _ d a b c => { run := fun _ => exthBody lp d a b c, writes := [d] }
  | .extw _ d a b c => { run := fun _ => extwBody lp d a b c, writes := [d] }
  | .cmpeq _ d a b c => { run := fun _ => cmpeqBody lp d a b c, writes := [d] }
  | .cmpne _ d a b c => { run := fun _ => cmpneBody lp d a b c, writes := [d] }
  | .cmplt _ d a b c => { run := fun _ => cmpltBody lp d a b c, writes := [d] }
  | .cmpltu _ d a b c => { run := fun _ => cmpltuBody lp d a b c, writes := [d] }
  | .cmple _ d a b c => { run := fun _ => cmpleBody lp d a b c, writes := [d] }
  | .cmpleu _ d a b c => { run := fun _ => cmpleuBody lp d a b c, writes := [d] }
  | .sel _ d a b c => { run := fun _ => selBody lp d a b c, writes := [d] }
  | .add _ d a b c => { run := fun _ => addBody lp d a b c, writes := [d] }
  | .sub _ d a b c => { run := fun _ => subBody lp d a b c, writes := [d] }
  | .mul _ d a b c => { run := fun _ => mulBody lp d a b c, writes := [d] }
  | .addc _ d a b c => { run := fun _ => addcBody lp d a b c, writes := [d, c] }
  | .subc _ d a b c => { run := fun _ => subcBody lp d a b c, writes := [d, c] }
  | .divs _ d a b c => { run := fun _ => divsBody lp d a b c, writes := [d, c] }
  | .divu _ d a b c => { run := fun _ => divuBody lp d a b c, writes := [d, c] }
  | .dadj _ d a b c => { run := fun _ => dadjBody lp d a b c, writes := [d, c] }
  | .mulwu _ d a b c => { run := fun _ => mulwuBody lp d a b c, writes := [d, nextReg d] }
  | .mulws _ d a b c => { run := fun _ => mulwsBody lp d a b c, writes := [d, nextReg d] }
  | .mulq _ d a b c =>
    { run := fun _ => mulqBody lp d a b c, writes := [d, nextReg d, nextReg d 2, nextReg d 3] }
  | .lbu _ t b i => { run := fun r => lbuBody r lp t b i, writes := [t] }
  | .lbs _ t b i => { run := fun r => lbsBody r lp t b i, writes := [t] }
  | .lhu _ t b i => { run := fun r => lhuBody r lp t b i, writes := [t] }
  | .lhs _ t b i => { run := fun r => lhsBody r lp t b i, writes := [t] }
  | .lwu _ t b i => { run := fun r => lwuBody r lp t b i, writes := [t] }
  | .lws _ t b i => { run := fun r => lwsBody r lp t b i, writes := [t] }
  | .ld _ t b i => { run := fun r => ldBody r lp t b i, writes := [t] }
  | .ldup _ t b i => { run := fun r => ldupBody r lp t b i, writes := [t, b] }
  | .stb _ t b i => { run := fun r => stbBody r lp t b i }
  | .sth _ t b i => { run := fun r => sthBody r lp t b i }
  | .stw _ t b i => { run := fun r => stwBody r lp t b i }
  | .std _ t b i => { run := fun r => stdBody r lp t b i }
  | .stdup _ t b i => { run := fun r => stdupBody r lp t b i, writes := [b] }
  | .lfs _ t b i => { run := fun r => lfsBody r lp t b i }
  | .lfd _ t b i => { run := fun r => lfdBody r lp t b i }
  | .stfs _ t b i => { run := fun r => stfsBody r lp t b i }
  | .stfd _ t b i => { run := fun r => stfdBody r lp t b i }
  | .lfq _ t b i => { run := fun r => lfqBody r lp t b i, full := true }
  | .stfq _ t b i => { run := fun r => stfqBody r lp t b i, full := true }
  | .ldua _ t b i => { run := fun r => lduaBody r lp t b i, writes := [t], priv := 1 }
  | .stua _ t b i => { run := fun r => stuaBody r lp t b i, priv := 1 }
  | .addi _ d a i => { run := fun _ => addiBody lp d a i, writes := [d] }
  | .addis _ d a i => { run := fun _ => addisBody lp d a i, writes := [d] }
  | .andi _ d a i => { run := fun _ => andiBody lp d a i, writes := [d] }
  | .ori _ d a i => { run := fun _ => oriBody lp d a i, writes := [d] }
  | .xori _ d a i => { run := fun _ => xoriBody lp d a i, writes := [d] }
  | .cmpeqi _ d a i => { run := fun _ => cmpeqiBody lp d a i, writes := [d] }
  | .cmplti _ d a i => { run := fun _ => cmpltiBody lp d a i, writes := [d] }
  | .cmpltui _ d a i => { run := fun _ => cmpltuiBody lp d a i, writes := [d] }
  | .shi _ d a i => { run := fun _ => shiBody lp d a i, writes := [d] }
  | .rdtod _ d a b c o => { run := fun _ => rdtodBody lp d a b c o, writes := [d, nextReg d] }
  | .rdtick _ d a b c => { run := fun _ => rdtickBody lp d a b c, writes := [d] }
  | .faddD _ d a b c => { run := fun _ => fpAddBody false lp d a b c }
  | .faddQ _ d a b c => { run := fun _ => fpAddBody true lp d a b c, full := true }
  | .fsubD _ d a b c => { run := fun _ => fpSubBody false lp d a b c }
  | .fsubQ _ d a b c => { run := fun _ => fpSubBody true lp d a b c, full := true }
  | .fmulD _ d a b c => { run := fun _ => fpMulBody false lp d a b c }
  | .fmulQ _ d a b c => { run := fun _ => fpMulBody true lp d a b c, full := true }
  | .fdivD _ d a b c => { run := fun _ => fpDivBody false lp d a b c }
  | .fdivQ _ d a b c => { run := fun _ => fpDivBody true lp d a b c, full := true }
  | .fsqrtD _ d a b c => { run := fun _ => fpSqrtBody false lp d a b c }
  | .fsqrtQ _ d a b c => { run := fun _ => fpSqrtBody true lp d a b c, full := true }
  | .fmaD _ d a b c => { run := fun _ => fpFmaBody false lp d a b c }
  | .fmaQ _ d a b c => { run := fun _ => fpFmaBody true lp d a b c, full := true }
  | .fmsD _ d a b c => { run := fun _ => fpFmsBody false lp d a b c }
  | .fmsQ _ d a b c => { run := fun _ => fpFmsBody true lp d a b c, full := true }
  | .fcmpeq _ q d a b c => { run := fun _ => fcmpeqBody q lp d a b c, writes := [d], full := q }
  | .fcmplt _ q d a b c => { run := fun _ => fcmpltBody q lp d a b c, writes := [d], full := q }
  | .fcmple _ q d a b c => { run := fun _ => fcmpleBody q lp d a b c, writes := [d], full := q }
  | .fcmpun _ q d a b c => { run := fun _ => fcmpunBody q lp d a b c, writes := [d], full := q }
  | .fcvti _ q d a b c => { run := fun _ => fcvtiBody q lp d a b c, writes := [d], full := q }
  | .fcvtu _ q d a b c => { run := fun _ => fcvtuBody q lp d a b c, writes := [d], full := q }
  | .fmin _ q d a b c => { run := fun _ => fminBody q lp d a b c, full := q }
  | .fmax _ q d a b c => { run := fun _ => fmaxBody q lp d a b c, full := q }
  | .fcvtf _ q d a b c => { run := fun _ => fcvtfBody q lp d a b c, full := q }
  | .fcvtfu _ q d a b c => { run := fun _ => fcvtfuBody q lp d a b c, full := q }
  | .ffrpd _ q d a b c => { run := fun _ => ffrpdBody q lp d a b c, full := q }
  | .ftopd _ q d a b c => { run := fun _ => ftopdBody q lp d a b c, writes := [d, nextReg d], full := q }
  | .fmvgh _ d a b c => { run := fun _ => fmvghBody lp d a b c, writes := [d] }
  | .fmvgl _ d a b c => { run := fun _ => fmvglBody lp d a b c, writes := [d] }
  | .mffpc _ d a b c => { run := fun _ => mffpcBody lp d a b c, writes := [d] }
  | .fmvf _ d a b c => { run := fun _ => fmvfBody lp d a b c }
  | .fneg _ d a b c => { run := fun _ => fnegBody lp d a b c }
  | .fabs _ d a b c => { run := fun _ => fabsBody lp d a b c }
  | .fcpysgn _ d a b c => { run := fun _ => fcpysgnBody lp d a b c }
  | .fmov _ d a b c => { run := fun _ => fmovBody lp d a b c }
  | .mtfpc _ d a b c => { run := fun _ => mtfpcBody lp d a b c }
  | .fcvt _ k d a b c =>
    { run := fun _ => fcvtBody lp k d a b c, full := (fcvtFormats k).1 = fmtQ || (fcvtFormats k).2 = fmtQ }
  | .ldrsv _ d a b c => { run := fun _ => ldrsvBody lp d a b c, writes := [d] }
  | .stcnd _ d a b c => { run := fun _ => stcndBody lp d a b c, writes := [d], atomic := true }
  | .cswp _ d a b c => { run := fun _ => cswpBody lp d a b c, writes := [d], atomic := true }
  | .fadd _ d a b c => { run := fun _ => faddBody lp d a b c, writes := [d], atomic := true }
  | .mfc _ _ _ _ c => { barred := true, priv := privC c }
  | .mtc _ _ _ _ c => { barred := true, priv := privC c }
  | .rfe _ _ _ _ _ => { barred := true, priv := 1 }
  | .mcall _ _ _ _ _ => { barred := true, priv := 1 }
  | .tlbiVa _ _ _ _ _ => { barred := true, priv := 1 }
  | .tlbiAsid _ _ _ _ _ => { barred := true, priv := 1 }
  | .tlbiPart _ _ _ _ _ => { barred := true, priv := 1 }
  | .iostart _ _ _ _ _ => { barred := true, priv := 1 }
  | .iohalt _ _ _ _ _ => { barred := true, priv := 1 }
  | .ioclear _ _ _ _ _ => { barred := true, priv := 1 }
  | .iotest _ _ _ _ _ => { barred := true, priv := 1 }
  | .iostore _ _ _ _ _ => { barred := true, priv := 1 }
  | .iomodify _ _ _ _ _ => { barred := true, priv := 1 }
  | .crstat _ _ _ _ _ => { barred := true, priv := 1 }
  | .ccln _ _ _ _ c => { barred := true, priv := maintPriv .clean c }
  | .cinv _ _ _ _ c => { barred := true, priv := maintPriv .inval c }
  | .ccli _ _ _ _ c => { barred := true, priv := maintPriv .cleanInval c }
  | .crange _ _ _ _ c => { barred := true, priv := if c.val % 4 = 2 then 2 else 1 }
  | .repI _ _ _ _ => { barred := true, full := true }
  | .unassignedOpcode _ w => { barred := true, undefined := !assignedWord w, long := decide (field w 26 6 ≥ 0x38) }
  | _ => { barred := true }

/-- The exceptions raised before any iteration, in the order of R91 (R106). -/
def repChecks (lp : Fin 48) (n : Fin 32) (low : BitVec 20) (b : RepBody) : Run Unit := do
  if b.undefined then throw (.exc { code := 1, reason := 0, addr := 0, long := b.long })
  if b.full then notCompat
  needPriv lp b.priv
  specIf (decide (n = 0) || b.barred || b.writes.contains n || decide (low ≠ 0))

/-- One iteration is counted. -/
def repCount (lp : Fin 48) (n : Fin 32) : Run Unit := do writeG lp n ((← readG lp n) - 1)

/-- REP.I: one iteration, with PSWA at the prefix until none is left (R105, R107). A completing exception counts its
iteration; a Device load counts it when it completes. -/
def repIBody (lp : Fin 48) (n : Fin 32) (low : BitVec 20) (b : RepBody) : Run Unit := do
  notCompat
  repChecks lp n low b
  if (← readG lp n) ≠ 0 then
    let e ← tryCatch (do b.run (.iter n); pure none) fun
      | .done e => pure (some e)
      | x => throw x
    if (lpAt (← get) lp).wait = .none then
      repCount lp n
      if (← readG lp n) ≠ 0 then modArch lp fun a => { a with pswa := a.pswa - 8 }
      match e with
      | some e => throw (.done e)
      | none => pure ()

/-- REP_I: an iteration is an instruction of its own; the command performs one, and the prefix is met again. -/
def execRepI (lp : Fin 48) (n : Fin 32) (low : BitVec 20) (body : Instr) (s : State) :
    Host.Outcome State Fault Refusal :=
  let b := repBody lp body
  runInstr lp { len := 8, rep := true, before := b.atomic, after := b.atomic, perform := b.atomic }
    (repIBody lp n low b) s

/-- Iterations of a REP.N, up to one that holds the processor for a Device load. -/
def repLoop (lp : Fin 48) (n : Fin 32) (b : RepBody) : Nat → Run Unit
  | 0 => pure ()
  | k + 1 => do
    b.run (.whole n)
    if (lpAt (← get) lp).wait = .none then
      repCount lp n
      repLoop lp n b k

/-- Registers a REP.N began with are kept while Device loads of it are performed, and dropped once it is over. -/
def repKeep (lp : Fin 48) (a0 : Arch) : Run Unit :=
  modify fun s => updLp s lp fun x =>
    { x with repN := if x.wait = .none then none else some (x.repN.getD { a0 with pswa := a0.pswa - 8 }) }

/-- REP.N: any exception nullifies the whole (R108). -/
def repNBody (lp : Fin 48) (n : Fin 32) (low : BitVec 20) (b : RepBody) : Run Unit := do
  let a0 ← getArch lp
  repChecks lp n low b
  let k ← readG lp n
  specIf (decide (k.toNat > 64))
  tryCatch (repLoop lp n b k.toNat) fun
    | .done e => throw (.exc e)
    | x => throw x
  repKeep lp a0

/-- REP_N: all iterations as one instruction and one interval (R108). -/
def execRepN (lp : Fin 48) (n : Fin 32) (low : BitVec 20) (body : Instr) (s : State) :
    Host.Outcome State Fault Refusal :=
  let b := repBody lp body
  runInstr lp { len := 8, rep := true, before := true, after := true, perform := b.atomic } (repNBody lp n low b) s

end Sys2Proof.Machine
end

