-- ==== Sys2Proof/Machine/Device.lean ====
section
/-! DEFINITION. Released stores on their way (07 R153, 11 R262), Device accesses at a root port (07 R155-R168, 21
R500), the traffic of open functions (08 R200-R204, 15 R382, R383), and the events of an interval (11 R260, R261)
and of a translation (08 R190). -/

namespace Sys2Proof.Machine

/-! ### Released stores -/

/-- A 4- or 8-byte Device store to a doorbell page; a 4-byte store to a register of 8 bytes replaces its half, and
JQ_CTL has 4 bytes at 018h (R343). Other sizes have no effect. -/
def doorbellDrain (s : State) (ctx sd page off size : Nat) (v : Word) : State :=
  let k := sd * 64 + page
  let r := off / 8 * 8
  if page ≥ 64 then s
  else if size = 8 then doorbellStore s ctx sd page off (if off = 0x018 then v >>> 32 else v)
  else if size = 4 then
    if off = 0x018 then doorbellStore s ctx sd page off v
    else
      let x := jqAt s k
      let old : Word := if r = 0 then BitVec.ofNat 64 x.tail else x.base
      if r = 0x018 then s else doorbellStore s ctx sd page r (putHalf old off 4 v)
  else s

/-- A released Device store reaches its target: a page of the service space, a doorbell page or the signal granule
performs it; one for a root port waits for the port (R153); one for a unit of another package is sent there. -/
def drainDevice (s : State) (lp : Fin 48) (e : GateEntry) : State :=
  match e.bytes with
  | [] => s
  | (a, _) :: _ =>
    let n := e.bytes.length
    let v : Word := BitVec.ofNat 64 (beVal (e.bytes.map (·.2)))
    let o := pkgOff a
    if !localPkg s a then sendFar s lp "store" e
    else
      match regionOf s a with
      | .service => writeService s .manager (o - 0x300000000000) n v
      | .doorbell sd => doorbellDrain s e.ctx sd (o % gib / 4096) (o % 4096) n v
      | .signal => signalStore s e.ctx (o % gib / 4096) (o % 4096) n v
      | .mmio _ => updLp s lp fun x => { x with toPort := x.toPort ++ [e] }
      | _ => s

/-- The oldest released entry of a processor leaves, if it can, with what leaves with it. -/
def drainOne (s : State) (lp : Fin 48) : State :=
  match drainStore s lp, (lpAt s lp).released with
  | some t, _ => t
  | none, e :: l => if e.ty = .device then drainDevice (updLp s lp fun x => { x with released := l }) lp e else s
  | none, [] => s

/-- RELEASED_ENTRY_DRAIN (R153, R262): a barrier that waited for it completes. -/
def execReleasedEntryDrain (lp : Fin 48) (s : State) : Host.Outcome State Fault Refusal :=
  .next (barrierCheck (drainOne s lp) lp)

/-! ### Functions -/

/-- The context a function is bound to; the manager's where nothing binds it. -/
def funcCtx (s : State) (port : Nat) (rid : BitVec 16) : Nat :=
  match bindOf s port rid with
  | some n => bindCtx s port n
  | none => mgrCtx

/-- An I/O function error event of 2101h or 2102h, which have no SUBUNIT (R166, R167, R512). -/
def funcEvent (s : State) (port : Nat) (rid : BitVec 16) (code : Nat) : State :=
  logEvent s { page := pciePage port, code := code, owner := some (funcCtx s port rid) }

/-- The port that decodes an address of its window. -/
def portOf (a : Nat) : Nat := (pkgOff a - 0x200000000000) / 0x10000000000 % 4

/-- A store for a function reaches the head of its port: accepted and forwarded with credit, held without, and
discarded on a down link or a contained function (R153, R166, R167). -/
def portStore (s : State) (port : Nat) (rid : BitVec 16) (w : Posted) : State :=
  let f := funcAt s port rid
  if !f.up || f.contained then funcEvent s port rid 0x2101
  else if f.credit > 0 && f.held.isEmpty && !f.containing then
    emit (.posted port rid.toNat w.addr w.data) (updFunc s port rid fun f => { f with credit := f.credit - 1 })
  else updFunc s port rid fun f => { f with held := f.held ++ [w] }

/-- DEVICE_STORE: the oldest Device store of a processor on its way reaches the root port, for the function whose
BAR decodes it. -/
def execDeviceStore (lp : Fin 48) (rid : BitVec 16) (s : State) : Host.Outcome State Fault Refusal :=
  match (lpAt s lp).toPort with
  | [] => .next s
  | e :: l =>
    let s := updLp s lp fun x => { x with toPort := l }
    let a := match e.bytes with | (a, _) :: _ => a | [] => e.blk * 64
    .next (barrierCheck (portStore s (portOf a) rid ⟨a, e.bytes.map (·.2), some lp, e.ctx, e.grp⟩) lp)

/-- Held writes are forwarded while there is credit. -/
def forwardHeld (port rid : Nat) : List Posted → Nat → State → State × List Posted × Nat
  | [], c, s => (s, [], c)
  | w :: l, 0, s => (s, w :: l, 0)
  | w :: l, c + 1, s => forwardHeld port rid l c (emit (.posted port rid w.addr w.data) s)

/-- POSTED_CREDIT_RETURN: held writes proceed (R167). -/
def execPostedCreditReturn (port : Fin 4) (rid : BitVec 16) (n : Nat) (s : State) :
    Host.Outcome State Fault Refusal :=
  let f := funcAt s port.val rid
  if !f.up || f.contained || f.containing then .next s
  else
    let (s, held, c) := forwardHeld port.val rid.toNat f.held (f.credit + n) s
    .next (barrierAll (updFunc s port.val rid fun f => { f with held := held, credit := c }))

/-- CREDIT_TIMEOUT: a store held for 1 ms triggers containment of its function (R167). -/
def execCreditTimeout (port : Fin 4) (rid : BitVec 16) (s : State) : Host.Outcome State Fault Refusal :=
  let f := funcAt s port.val rid
  if f.up && !f.contained && !f.held.isEmpty then
    .next (updFunc s port.val rid fun f => { f with containing := true })
  else .next s

/-- CONTAINMENT_COMPLETE: the function is isolated, and its held writes are discarded, each logged, and count as
performed (R167, Table 7-5). -/
def execContainmentComplete (port : Fin 4) (rid : BitVec 16) (s : State) : Host.Outcome State Fault Refusal :=
  let f := funcAt s port.val rid
  if !f.containing then .next s
  else
    let s := f.held.foldl (fun s _ => funcEvent s port.val rid 0x2102) s
    .next (barrierAll (updFunc s port.val rid fun f =>
      { f with containing := false, contained := true, held := [] }))

/-- CONTAINMENT_RELEASE (R167). -/
def execContainmentRelease (port : Fin 4) (rid : BitVec 16) (s : State) : Host.Outcome State Fault Refusal :=
  .next (updFunc s port.val rid fun f => { f with contained := false })

/-- RATE_n and WIDTH_n of PCIE_LINK (R500). -/
def setLink (s : State) (port : Nat) (sub : Fin 4) (rate width : Nat) : State :=
  let k := regKey (pciePage port) 0x048
  let v := (cell s k).toNat
  let lo := 2 ^ (8 * sub.val)
  setCell s k (BitVec.ofNat 64 (v - v / lo % 256 * lo + (rate * 32 + width) * lo))

/-- PCIE_LINK_DOWN: later Device stores are discarded, and so are the writes the port holds for the function
(R166); the sub-link shows no link once none of its functions has one. -/
def execPcieLinkDown (port : Fin 4) (rid : BitVec 16) (s : State) : Host.Outcome State Fault Refusal :=
  let f := funcAt s port.val rid
  if !f.up then .next s
  else
    let s := f.held.foldl (fun s _ => funcEvent s port.val rid 0x2101) s
    let s := updFunc s port.val rid fun f => { f with up := false, containing := false, credit := 0, held := [] }
    let left := s.funcs.any fun e => e.1 / 65536 = port.val && e.2.up && e.2.sub = f.sub
    .next (barrierAll (if left then s else setLink s port.val f.sub 0 0))

/-- Sub-links the bifurcation of a port gives it (R500). -/
def subLinks (s : State) (port : Nat) : Nat :=
  match cellField s (pciePage port) 0x040 30 2 with
  | 0 => 1
  | 1 => 2
  | _ => 4

/-- A lane count that a sub-link may train to: one of a bifurcation (Table 21-3), and no more lanes than the port's own
bifurcation gives it (log 104). -/
def laneCount (s : State) (port width : Nat) : Bool :=
  [16, 8, 4].contains width && decide (width * subLinks s port ≤ 16)

/-- PCIE_LINK_UP: a sub-link trains at a rate and a lane count its port may use, and the functions behind it can be
reached, each with the BARs its hierarchy has given it (R499, R500). -/
def execPcieLinkUp (port : Fin 4) (sub : Fin 4) (rate : BitVec 3) (width : BitVec 5)
    (rids : List (BitVec 16 × List (Nat × Nat))) (s : State) : Host.Outcome State Fault Refusal :=
  let p := pciePage port.val
  if cellBit s p 0x040 29 || decide (sub.val ≥ subLinks s port.val) ||
      decide (rate.toNat > cellField s p 0x040 26 3) || !laneCount s port.val width.toNat then .next s
  else
    .next (rids.foldl (fun s r => updFunc s port.val r.1 fun f => { f with up := true, sub := sub, bars := r.2 })
      (setLink s port.val sub rate.toNat width.toNat))

/-! ### Device loads (R155, R157, R168) -/

/-- Registers as a Device load that is over leaves them, with PSWA past the instruction; one that a prefix repeats counts
its iteration, and PSWA is past the prefix with the last. -/
def loadedArch (x : Arch) (l : DevLoad) (bs : List Byte) : Arch :=
  let a := putLoad x l.dst bs
  let a := match l.upd with | some (b, v) => a.setG b v | none => a
  match l.rep with
  | none => { a with pswa := a.pswa + 4 }
  | some n =>
    let a := a.setG n (a.getG n - 1)
    if a.getG n = 0 then { a with pswa := a.pswa + 8 } else a

/-- Iterations of the REP.N a load belongs to are still to come. -/
def moreToLoad (a : Arch) (l : DevLoad) : Bool :=
  l.whole && match l.rep with | some n => a.getG n != 0 | none => false

/-- A Device load is over: its result goes to the registers and to the current slot (R264), and its interval closes; that of
a REP.N after its last iteration (R108). -/
def endDevLoad (s : State) (lp : Fin 48) (l : DevLoad) (bs : List Byte) : State :=
  let a := loadedArch (lpAt s lp).arch l bs
  if moreToLoad a l then updLp s lp fun x => { x with arch := a, ckpt := a, wait := .none }
  else closeDue (updLp s lp fun x => { x with arch := a, ckpt := a, wait := .none, repN := none }) lp

/-- The load a processor waits for. -/
def loadOf (s : State) (lp : Fin 48) : Option DevLoad :=
  match (lpAt s lp).wait with
  | .load l => some l
  | _ => none

/-- A Device load that is nullified leaves its processor as before the instruction, in a REP.N as before its prefix
(R108). -/
def dropLoad (s : State) (lp : Fin 48) : State :=
  updLp s lp fun x => { x with wait := .none, arch := x.repN.getD x.arch, repN := none }

/-- DEVICE_LOAD: issued once, after every earlier Device store to its target; a contained function answers all
ones at once (R155, R157, R167). One to a unit of another package is sent there; of a lost package it ends with poison
(R252). -/
def execDeviceLoad (lp : Fin 48) (rid : BitVec 16) (s : State) : Host.Outcome State Fault Refusal :=
  match loadOf s lp with
  | none => .next s
  | some l =>
    let port := portOf l.addr
    let f := funcAt s port rid
    let line := lineOf l.addr
    let issue := fun (s : State) => updLp s lp fun x => { x with wait := .load { l with issued := some rid } }
    if !localPkg s l.addr then
      if l.issued.isSome || deviceBehind (lpAt s lp) then .next s
      else if lostHome s line then .next (syncCheck (dropLoad (lostRead s lp line) lp) lp 1 l.va)
      else .next (toPkg "load" (linePkg line) (linePkg line) line (issue s))
    else if l.issued.isSome || deviceBehind (lpAt s lp) || f.held.any (fun w => w.lp = some lp) then .next s
    else if f.contained then .next (endDevLoad s lp l (List.replicate l.size 0xFF))
    else
      let s := issue s
      .next (if f.up then emit (.request port rid.toNat l.addr l.size) s else s)

/-- DEVICE_LOAD_COMPLETION: up to 8 bytes arrive, those of the lower addresses first; the last end the load. Poisoned
data is a synchronous machine check (R155, R421). -/
def execDeviceLoadCompletion (lp : Fin 48) (data : Word) (poisoned : Bool) (s : State) :
    Host.Outcome State Fault Refusal :=
  match loadOf s lp with
  | none => .next s
  | some l =>
    if l.issued.isNone then .next s
    else if poisoned then
      .next (syncCheck (dropLoad s lp) lp 1 l.va)
    else
      let got := l.got ++ beBytes (min 8 (l.size - l.got.length)) data.toNat
      if got.length < l.size then
        .next (updLp s lp fun x => { x with wait := .load { l with got := got } })
      else .next (endDevLoad s lp l got)

/-- DEVICE_LOAD_TIMEOUT: all ones after 1 ms, and containment of the function (R168); a unit of another package is
contained there. -/
def execDeviceLoadTimeout (lp : Fin 48) (s : State) : Host.Outcome State Fault Refusal :=
  match loadOf s lp with
  | none => .next s
  | some l =>
    match l.issued with
    | none => .next s
    | some rid =>
      let port := portOf l.addr
      if !localPkg s l.addr then .next (endDevLoad s lp l (List.replicate l.size 0xFF))
      else
        let s := funcEvent s port rid 0x2102
        let s := updFunc s port rid fun f => if f.contained then f else { f with containing := true }
        .next (endDevLoad s lp l (List.replicate l.size 0xFF))

/-! ### DMA of open functions (R200-R204) -/

/-- What a root port has cached for a request, of one kind (R204). -/
def ioFind (s : State) (port : Nat) (rid : BitVec 16) (pasid : Option (BitVec 20)) (f : IoCached → Option α) : Option α :=
  s.ioCache.findSome? fun e => if e.port = port && e.rid = rid.toNat && e.pasid = pasid then f e.what else none

/-- An entry is cached, of 512 for its port, in place of a random one where they are used (R204). -/
def ioKeep (s : State) (e : IoEntry) : State :=
  { taken s with ioCache := setInsert 512 (freeNow s).toNat (fun x => x.port = e.port) e s.ioCache }

/-- The context entry of a requester ID, cached or read, if its V is set and it can be read (R201). -/
def ctxEntry (s : State) (port : Nat) (rid : BitVec 16) : Option (State × Word × Word) :=
  let v := cell s (regKey (pciePage port) 0x100)
  let a := field v 20 32 * 2 ^ 20 + 16 * rid.toNat
  if !bit v 0 then none
  else
    match ioFind s port rid none fun c => match c with | .context e1 e2 => some (e1, e2) | _ => none with
    | some (e1, e2) => some (s, e1, e2)
    | none =>
      if regionOf s a ≠ .dram || anyPoison s a 16 then none
      else
        let e1 := curWord s a
        let e2 := curWord s (a + 8)
        if bit e1 63 then
          some (ioKeep s ⟨port, rid.toNat, none, field e1 52 7, .context e1 e2⟩, e1, e2)
        else none

/-- The table a request's walk begins at, through the PASID entry of one that carries a PASID (R201, R202). -/
def ioRoot (s : State) (port : Nat) (rid : BitVec 16) (part : Nat) (e1 e2 : Word) (pasid : Option (BitVec 20)) :
    Option (State × Nat) :=
  match pasid with
  | none => if bit e1 62 then some (s, field e1 12 40 * 4096) else none
  | some p =>
    if !bit e1 61 || p.toNat ≥ 2 ^ (field e2 0 4 + 5) then none
    else
      match ioFind s port rid pasid fun c => match c with | .pasid e => some e | _ => none with
      | some w => some (s, field w 12 40 * 4096)
      | none =>
        match ctxStorage s part (field e2 12 40 * 4096 + 8 * p.toNat) with
        | none => none
        | some pa =>
          let w := curWord s pa
          if anyPoison s pa 8 || !bit w 63 || w &&& ~~~(0x800FFFFFFFFFF000 : Word) ≠ 0 then none
          else some (ioKeep s ⟨port, rid.toNat, pasid, part, .pasid w⟩, field w 12 40 * 4096)

/-- The deepest non-leaf entry cached on an address's path for a request. -/
def ioDeepest (s : State) (port : Nat) (rid : BitVec 16) (pasid : Option (BitVec 20)) (va : Word) : Option WalkEntry :=
  let at_ := fun (lv : Nat) => ioFind s port rid pasid fun c => match c with
    | .walk e => if e.level = lv && e.prefix_ = va.toNat / 2 ^ levelShift lv then some e else none
    | _ => none
  (at_ 2).orElse fun _ => (at_ 3).orElse fun _ => (at_ 4).orElse fun _ => at_ 5

/-- A request's translation of one page: the state after A, D and the cache, and the physical address. -/
def ioTranslate (s : State) (port : Nat) (rid : BitVec 16) (pasid : Option (BitVec 20)) (part : Nat) (root : Nat)
    (va : Word) (write : Bool) : Option (State × Nat) :=
  let need : Word := if write then 0xC0 else 0x40
  let hit := ioFind s port rid pasid fun c => match c with
    | .leaf e => if e.vpn = va.toNat / 2 ^ levelShift e.level && e.leaf &&& need = need && e.u && (!write || e.w)
        then some e else none
    | _ => none
  match hit with
  | some e =>
    let sh := levelShift e.level
    (ctxStorage s part (field e.leaf 12 40 * 4096 / 2 ^ sh * 2 ^ sh + va.toNat % 2 ^ sh)).map fun pa => (s, pa)
  | none =>
    if !canonical va then none
    else
      let start := match ioDeepest s port rid pasid va with
        | some e => ioWalk s part va (e.level - 1) e.next.toNat e.u e.w []
        | none => ioWalk s part va 5 root true true []
      match start with
      | none => none
      | some (k, passed) =>
        let sh := levelShift k.level
        if !k.u || (write && !k.w) then none
        else
          match ctxStorage s part (field k.leaf 12 40 * 4096 + va.toNat % 2 ^ sh) with
          | none => none
          | some pa =>
            let leaf := k.leaf ||| need
            let s := if leaf = k.leaf then s else swapQueued s (.port (Fin.ofNat 4 port)) k.leafAt k.leaf leaf
            let x : TlbEntry := { ctx := part, asid := none, level := k.level, vpn := va.toNat / 2 ^ sh,
                                  leafAt := BitVec.ofNat 64 k.leafAt, leaf := leaf, u := k.u, w := k.w, x := false }
            let s := passed.foldl (fun s e => ioKeep s ⟨port, rid.toNat, pasid, part, .walk e⟩) s
            some (ioKeep s ⟨port, rid.toNat, pasid, part, .leaf x⟩, pa)

/-- A request of several pages: every page is translated before any byte moves. -/
def ioPages (s : State) (port : Nat) (rid : BitVec 16) (pasid : Option (BitVec 20)) (part root : Nat) (write : Bool) :
    Nat → Word → Nat → Option (State × List (Nat × Nat))
  | 0, _, _ => none
  | fuel + 1, va, n =>
    if n = 0 then some (s, [])
    else
      let k := min n (4096 - va.toNat % 4096)
      match ioTranslate s port rid pasid part root va write with
      | none => none
      | some (s, pa) =>
        match ioPages s port rid pasid part root write fuel (va + BitVec.ofNat 64 k) (n - k) with
        | none => none
        | some (s, l) => some (s, (pa, k) :: l)

/-- The runs of a request, or the partition its block is reported to (R203). -/
def ioRuns (s : State) (port : Nat) (rid : BitVec 16) (pasid : Option (BitVec 20)) (addr : Word) (write : Bool)
    (n : Nat) : Except Nat (State × List (Nat × Nat)) :=
  match ctxEntry s port rid with
  | none => .error mgrCtx
  | some (s, e1, e2) =>
    let part := field e1 52 7
    match bindOf s port rid with
    | none => .error part
    | some ix =>
      if bindCtx s port ix ≠ part || isReleased s 4 (port * 64 + ix) then .error part
      else
        match ioRoot s port rid part e1 e2 pasid with
        | none => .error part
        | some (s, root) =>
          match ioPages s port rid pasid part root write (n / 4096 + 3) addr n with
          | some r => .ok r
          | none => .error part

/-- Whether a function's requests reach its port: its link is up and it is not isolated, outside Quiesce (R361). -/
def funcTalks (s : State) (port : Nat) (rid : BitVec 16) : Bool :=
  let f := funcAt s port rid
  f.up && !f.contained && !s.mode.quiesce

/-- DMA of an open function, translated or blocked (R202, R203), and the bytes performed counted in its owner's meter (R385).
Poisoned data completes with Completer Abort. -/
def openDma (s : State) (port : Nat) (rid : BitVec 16) (pasid : Option (BitVec 20)) (addr : Word) (write : Bool)
    (n : Nat) (data : List Byte) : State :=
  if !funcTalks s port rid then s
  else
    let owner := funcCtx s port rid
    let count := fun (s : State) => meter s owner 12 n
    match ioRuns s port rid pasid addr write n with
    | .error ctx =>
      let s := logEvent s { page := pciePage port, code := 0x2103, sub := rid.toNat, owner := some ctx }
      if write then s else emit (.dmaAbort port rid.toNat) s
    | .ok (s, l) =>
      if write then count ((splitRuns l data).foldl (fun s r => agentWrite s r.1 r.2 (.port (Fin.ofNat 4 port))) s)
      else if poisonRuns s l then emit (.dmaAbort port rid.toNat) s
      else count (freshen (emit (.dmaData port rid.toNat (readRuns s l)) s))

/-- DMA_REQUEST (R202). -/
def execDmaRequest (port : Fin 4) (rid : BitVec 16) (pasid : Option (BitVec 20)) (addr : Word) (write : Bool)
    (len : Nat) (data : List Byte) (s : State) : Host.Outcome State Fault Refusal :=
  .next (inOrder s (.dma port rid pasid addr write len data) fun s =>
    openDma s port.val rid pasid addr write len data)

/-! ### MSI-X (R382, R383) -/

/-- The requester ID is bound to a channel path of the port. -/
def pathBound (s : State) (port : Nat) (rid : BitVec 16) : Bool :=
  (List.range 64).any fun k => bit (pathCfg s (port * 64 + k)) 63 && pathRid s (port * 64 + k) = rid

/-- A message of a function: queued within its budget, coalesced beyond it, or discarded. -/
def msix (s : State) (port : Nat) (rid : BitVec 16) (data : BitVec 32) : State :=
  if !funcTalks s port rid then s
  else if pathBound s port rid then bump s (pciePage port) 0x7C0
  else
    match bindOf s port rid with
    | none => onceEvent s 0x10000 { page := pciePage port, code := 0x2151, owner := some mgrCtx }
    | some n =>
      let ctx := bindCtx s port n
      if data.toNat ≥ 2048 then
        onceEvent s 0x10000 { page := pciePage port, code := 0x2151, owner := some ctx }
      else
        let f := funcAt s port rid
        let s := meter s ctx 13 1
        if f.coalesced || f.msixLeft = 0 || (s.msixQ.filter fun m => m.ctx = ctx).length ≥ 4096 then
          let s := updFunc s port rid fun f => { f with coalesced := true }
          if ctx < mgrCtx then bump s (partPage ctx) 0x7C4 else s
        else
          let s := updFunc s port rid fun f => { f with msixLeft := f.msixLeft - 1 }
          { s with msixQ := s.msixQ ++ [⟨ctx, port, rid.toNat, cellField s (pciePage port) (0x700 + 4 * n) 20 3,
                                         data.toNat⟩] }

/-- MSIX_MESSAGE (R382). -/
def execMsixMessage (port : Fin 4) (rid : BitVec 16) (data : BitVec 32) (s : State) :
    Host.Outcome State Fault Refusal :=
  .next (inOrder s (.msix port rid data) fun s => msix s port.val rid data)

/-- A posted write: one of 4 bytes to the message address is an MSI-X (R382). -/
def postedWrite (port : Fin 4) (rid : BitVec 16) (pasid : Option (BitVec 20)) (addr : Word) (data : List Byte)
    (s : State) : State :=
  if addr = 0xA000000000000000 ∧ data.length = 4 then msix s port.val rid (BitVec.ofNat 32 (beVal data.reverse))
  else openDma s port.val rid pasid addr true data.length data

/-- POSTED_WRITE: performed in arrival order (R165). -/
def execPostedWrite (port : Fin 4) (rid : BitVec 16) (pasid : Option (BitVec 20)) (addr : Word) (data : List Byte)
    (s : State) : Host.Outcome State Fault Refusal :=
  .next (inOrder s (.posted port rid pasid addr data) (postedWrite port rid pasid addr data))

/-! ### What a port held (R165) -/

/-- A message that a port held has its effect. -/
def goHeld (c : PortMsg) (s : State) : State :=
  match c with
  | .posted port rid pasid addr data => postedWrite port rid pasid addr data s
  | .dma port rid pasid addr write len data => openDma s port.val rid pasid addr write len data
  | .msix port rid data => msix s port.val rid data
  | .adapter port rid addr write len data => adapterDma port rid addr write len data s
  | .frame path rid frame .discard => frameDiscard path rid frame s
  | .frame path rid frame .ack => frameAck path rid frame s
  | .frame path rid frame .status => frameStatus path rid frame s
  | .frame path rid frame .resync => frameResync path rid frame s
  | .frame path rid frame .heartbeat => frameHeartbeat path rid frame s

/-- What the ports held goes on in order, as far as no earlier write waits. -/
def portsGoOn (s : State) : State :=
  s.portHeld.foldl (fun s c => inOrder s c (goHeld c)) { s with portHeld := [] }

/-! ### Translation and intervals -/

/-- ACCESSED_DIRTY_UPDATE (R190): the bits are set by a swap against the value the walk read; a swap that fails, and a
walk that no longer permits the access, drop the translation. -/
def execAccessedDirtyUpdate (lp : Fin 48) (va : Word) (store : Bool) (expected : Word) (s : State) :
    Host.Outcome State Fault Refusal :=
  let acc : Access := if store then .store else .load
  if !lpReady s lp || !bit (lpAt s lp).arch.psws 60 || !canonical va then .next s
  else
    let asid : BitVec 16 := BitVec.ofNat 16 (field (lpAt s lp).arch.c[1] 0 16)
    let drop := fun (s : State) => updTlbs s lp fun x => tlbiPair x (.va true) va asid (lpCtx s lp)
    match walkOrNone lp va acc false true false s with
    | .error _ t => .next (drop t)
    | .ok k t =>
      let new := expected ||| adBits acc
      if new = expected then .next s
      else
        let (t, ok) := swapEntry t k.leafAt expected new
        let t := updTlbs t lp fun x => dropLeaves x fun e => e.hits (lpCtx s lp) asid va
        .next (if ok then t else drop t)

/-- An interval of a processor may close: at an instruction boundary of an active pair. -/
def mayClose (s : State) (lp : Fin 48) : Bool :=
  (lpAt s lp).run = .running && (lpAt s lp).wait = .none && (lpAt s lp).repN.isNone &&
    match pairOf s lp with
    | some p => (pairAt s p).role = .active && !(pairAt s p).retrying
    | none => false

/-- CHECKPOINT_CLOSE (R260, R261): a close that is due is completed once the released part has room. -/
def execCheckpointClose (lp : Fin 48) (s : State) : Host.Outcome State Fault Refusal :=
  .next (if mayClose s lp && decide ((lpAt s lp).icount ≥ 256) && closeRoom (lpAt s lp) then closeInterval s lp else s)

/-- INTERVAL_LIMIT (R260): 2,048 core cycles since the last close, or 256 instructions. -/
def execIntervalLimit (lp : Fin 48) (s : State) : Host.Outcome State Fault Refusal :=
  .next (if mayClose s lp then closeDue s lp else s)

/-- RESERVATION_HOLD_EXPIRY (R173). -/
def execReservationHoldExpiry (lp : Fin 48) (s : State) : Host.Outcome State Fault Refusal :=
  .next (updLp s lp fun x => { x with resHold := false })

end Sys2Proof.Machine
end

