-- ==== Sys2Proof/Machine/Interrupt.lean ====
section
/-! DEFINITION. Interruptions (12 R312, R313; 14 R346; 15 R373, R378-R383; 17 R420-R423): what is pending, to whom it
is offered, and the entry of each. -/

namespace Sys2Proof.Machine

/-! ### Who may take one -/

/-- A logical processor stands at an instruction boundary and may take an interruption there: not within a REP.N, and with
room for the close that the entry makes (R108, R262). -/
def canTake (s : State) (lp : Fin 48) : Bool :=
  let x := lpAt s lp
  x.run = .running && x.wait = .none && x.repN.isNone && closeRoom x && !s.mode.quiesce &&
    match pairOf s lp with
    | some p => pairReady s p && !((pairAt s p).role = .halted && (pairAt s p).irqHold)
    | none => false

/-- A logical processor runs a context so that its interruptions may be offered to it: a partition in User or
Supervisor state, the manager context in Manager state with C16 at 80h (R378). -/
def runsCtx (s : State) (lp : Fin 48) (ctx : Nat) : Bool :=
  decide (lpPart s lp = ctx) && (decide (privOf (lpAt s lp).arch.psws = 2) == decide (ctx = mgrCtx)) &&
    decide ((lpAt s lp).run = .running)

/-- The context whose interruptions a logical processor may take now. -/
def intCtx (s : State) (lp : Fin 48) : Option Nat :=
  let c := lpPart s lp
  if runsCtx s lp c then some c else none

/-- Enabled for I/O-class interruptions of a subclass: PSWS.IOE and the IOMASK bit (R312). -/
def ioEnabled (s : State) (lp : Fin 48) (isc : Nat) : Bool :=
  bit (lpAt s lp).arch.psws 59 && bit (lpAt s lp).arch.c[12] isc

/-- Enabled for external interruptions: PSWS.EXE. -/
def extEnabled (s : State) (lp : Fin 48) : Bool := bit (lpAt s lp).arch.psws 58

/-- Enabled for asynchronous machine checks: PSWS.MCE, with no handler active (R420). -/
def mcEnabled (s : State) (lp : Fin 48) : Bool := bit (lpAt s lp).arch.psws 57 && !(lpAt s lp).handler

/-! ### What is pending -/

/-- A machine check may be offered: its ring write is made, and a held one waits for every handler of its context. -/
def checkDue (s : State) (c : Check) : Bool := c.ready && !(c.held && handlerActive s c.ctx none)

/-- The logical processor a check is made pending on, while it names one of the context. -/
def checkLp (s : State) (c : Check) : Option (Fin 48) := c.lp.filter fun l => lpPart s l = c.ctx

/-- Sources of I/O-class offers, with their context and subclass, and the checks that name no processor. -/
def pendingIo (s : State) : List (IntSrc × Nat × Nat) :=
  (s.chan.sch.filter (fun e => e.2.status.isSome && e.2.enabled && !e.2.taken)).map
    (fun e => (.sch e.1, schOwner s e.1, e.2.isc)) ++
  (s.eng.jqs.filter (fun e => e.2.notify)).map
    (fun e => (.queue (e.1 / 64) (e.1 % 64), jqOwner s e.1, e.2.isc)) ++
  s.msixQ.map (fun m => (.msix m.port m.rid m.vector, m.ctx, m.isc)) ++
  (s.funcs.filter (fun e => e.2.coalesced)).filterMap (fun e =>
    (bindOf s (e.1 / 65536) (BitVec.ofNat 16 e.1)).map fun n =>
      (.coalesced (e.1 / 65536) (e.1 % 65536), bindCtx s (e.1 / 65536) n,
       cellField s (pciePage (e.1 / 65536)) (0x700 + 4 * n) 20 3)) ++
  (s.err.checks.filter (fun c => checkDue s c && (checkLp s c).isNone)).map
    (fun c => (.check c.seq.toNat, c.ctx, 0))

/-- Enabled for an offer of a source. A halted or stopped pair runs nothing: its processor's interruptions stay
pending (R282, R378, R424). -/
def offerEnabled (s : State) (lp : Fin 48) (src : IntSrc) (ctx isc : Nat) : Bool :=
  runsCtx s lp ctx && (match pairOf s lp with | some p => pairReady s p | none => false) &&
    match src with
    | .check _ => mcEnabled s lp
    | _ => ioEnabled s lp isc

/-- The enabled logical processor that follows the last one chosen for a context (R379). -/
def nextLp (s : State) (src : IntSrc) (ctx isc : Nat) : Option (Fin 48) :=
  let last := Tab.look s.presLast ctx
  let en := all48.filter fun lp => offerEnabled s lp src ctx isc
  match last with
  | none => en.head?
  | some l =>
    match en.find? fun lp => decide (lp.val > l) with
    | some lp => some lp
    | none => en.head?

/-- An offer is made. -/
def makeOffer (s : State) (src : IntSrc) (ctx isc : Nat) (lp : Fin 48) : State :=
  { s with offers := ⟨src, ctx, isc, lp, false⟩ :: s.offers, presLast := Tab.put s.presLast ctx lp.val }

/-- A tick-compare interruption is pending: C7 is not zero, and the Transit number has reached it. -/
def tickDue (s : State) (lp : Fin 48) : Bool :=
  let c := (lpAt s lp).arch.c[7]
  c != 0 && decide (c.toNat ≤ s.time.transit.toNat)

/-- What is pending for a named processor, as its pair's lines will show it. -/
def linesDue (s : State) (lp : Fin 48) : List IntLine :=
  (if tickDue s lp then [.tick] else []) ++ (if (lpAt s lp).signal then [.signal] else []) ++
    ((s.err.checks.filter fun c => checkDue s c && checkLp s c = some lp).map fun c => .check c.seq)

/-- PRESENTATION_EDGE: a pair's lines change: they show what is pending for its processor; offers whose source is gone or whose
processor is no longer enabled end, those not taken since the last edge are to be withdrawn, and new ones are made where
the presenter's choice falls on it (R267, R379). -/
def execPresentationEdge (pair : Fin 48) (s : State) : Host.Outcome State Fault Refusal :=
  .next <|
    match (pairAt s pair).lp with
    | none => s
    | some lp =>
      if s.mode.quiesce then s
      else
        let pend := pendingIo s
        let keep := (s.offers.filter fun o =>
          o.lp ≠ lp || (pend.contains (o.src, o.ctx, o.isc) && offerEnabled s lp o.src o.ctx o.isc)).map fun o =>
          if o.lp = lp then { o with old := true } else o
        let s := updLp s lp fun x => { x with lines := linesDue s lp }
        pend.foldl (fun s p =>
          if s.offers.any fun o => o.src = p.1 && o.ctx = p.2.1 then s
          else if nextLp s p.1 p.2.1 p.2.2 = some lp then makeOffer s p.1 p.2.1 p.2.2 lp
          else s) { s with offers := keep }

/-- INTERRUPT_OFFER_EXPIRY: offers of a processor not taken by the next edge are withdrawn; each is made again at an edge of
the pair of the enabled processor that follows (R267, R379). -/
def execInterruptOfferExpiry (lp : Fin 48) (s : State) : Host.Outcome State Fault Refusal :=
  .next (if s.mode.quiesce then s else { s with offers := s.offers.filter fun o => !(o.lp = lp && o.old) })

/-! ### Machine checks (R420) -/

/-- The check a logical processor takes next: one named to it, or one offered to it, in SEQ order. -/
def checkFor (s : State) (lp : Fin 48) : Option Check :=
  if !canTake s lp || !mcEnabled s lp then none
  else
    s.err.checks.find? fun c =>
      checkDue s c && runsCtx s lp c.ctx &&
        match checkLp s c with
        | some l => l = lp && (lpAt s lp).lines.contains (.check c.seq)
        | none => s.offers.any fun o => o.src = .check c.seq.toNat && o.ctx = c.ctx && o.lp = lp && !o.old

/-- MACHINE_CHECK: the entry at the vector plus 400h, with REASON the class and the SEQ in the address register. -/
def execMachineCheck (lp : Fin 48) (s : State) : Host.Outcome State Fault Refusal :=
  .next <|
    match checkFor s lp with
    | none => s
    | some c =>
      let s := { s with
        err := { s.err with checks := s.err.checks.erase c },
        offers := s.offers.filter fun o => !(o.src = .check c.seq.toNat && o.ctx = c.ctx) }
      enter s lp (decide (c.ctx = mgrCtx)) true 0x400 (codeWord c.cls 0 0x400) (c.seq.setWidth 64)

/-! ### Partition changed (R373) -/

def changedFor (s : State) (lp : Fin 48) : Option Nat :=
  if canTake s lp && (checkFor s lp).isNone then (lpAt s lp).partChanged else none

/-- PARTITION_CHANGED: taken into Manager state at MVEC + 300h, with the old partition in REASON. -/
def execPartitionChanged (lp : Fin 48) (s : State) : Host.Outcome State Fault Refusal :=
  .next <|
    match changedFor s lp with
    | none => s
    | some old =>
      enter (updLp s lp fun x => { x with partChanged := none }) lp true false 0x300 (codeWord old 0 0x300) 0

/-! ### External interruptions (R380, R381) -/

/-- No interruption of a higher class is to be taken first, and the context is one that may be offered. -/
def extTurn (s : State) (lp : Fin 48) : Option Nat :=
  if canTake s lp && extEnabled s lp && (checkFor s lp).isNone && (lpAt s lp).partChanged.isNone then intCtx s lp
  else none

/-- A tick compare that the pair's lines show and that is still pending. -/
def tickShown (s : State) (lp : Fin 48) : Bool := tickDue s lp && (lpAt s lp).lines.contains .tick

/-- A signal that the pair's lines show. -/
def signalShown (s : State) (lp : Fin 48) : Bool := (lpAt s lp).signal && (lpAt s lp).lines.contains .signal

/-- TICK_COMPARE. -/
def execTickCompare (lp : Fin 48) (s : State) : Host.Outcome State Fault Refusal :=
  .next <|
    match extTurn s lp with
    | none => s
    | some ctx =>
      if tickShown s lp then enter s lp (decide (ctx = mgrCtx)) false 0x200 (codeWord 0 0 0x200) s.time.transit else s

/-- SIGNAL: after tick compare; taking it ends it. -/
def execSignal (lp : Fin 48) (s : State) : Host.Outcome State Fault Refusal :=
  .next <|
    match extTurn s lp with
    | none => s
    | some ctx =>
      if signalShown s lp && !tickShown s lp then
        enter (updLp s lp fun x => { x with signal := false }) lp (decide (ctx = mgrCtx)) false 0x200
          (codeWord 0 0 0x210) 0
      else s

/-! ### I/O-class interruptions -/

/-- CODE of a source, which is also its order within a subclass (Table 15-5). -/
def IntSrc.code (i : IntSrc) : Nat :=
  match i with
  | .sch _ => 0x100
  | .queue _ _ => 0x110
  | .msix _ _ _ => 0x120
  | .coalesced _ _ => 0x121
  | .check _ => 0x400

/-- The address register of a source (Table 15-5). -/
def IntSrc.addr (s : State) (i : IntSrc) : Nat :=
  match i with
  | .sch n => pkgId s * 262144 + n
  | .queue die q => (die + 4) * 256 + q
  | .msix port rid v => port * 2 ^ 32 + rid * 65536 + v
  | .coalesced port rid => port * 2 ^ 32 + rid * 65536
  | .check q => q

/-- Taking an interruption: a notification, a message and a coalesced indication end; a status stays. -/
def takeSrc (s : State) (o : Offer) : State :=
  match o.src with
  | .sch n => updSch s n fun x => { x with taken := true }
  | .queue die q => updJq s (die * 64 + q) fun x => { x with notify := false }
  | .msix port rid v =>
    match s.msixQ.findIdx? fun m => m.port = port && m.rid = rid && m.vector = v && m.ctx = o.ctx with
    | some i => { s with msixQ := s.msixQ.eraseIdx i }
    | none => s
  | .coalesced port rid => updFunc s port (BitVec.ofNat 16 rid) fun f => { f with coalesced := false }
  | .check _ => s

/-- The offer a logical processor takes: the lowest subclass, then the lowest code, then the oldest. -/
def ioFor (s : State) (lp : Fin 48) : Option Offer :=
  let pend := pendingIo s
  let l := (s.offers.filter fun o =>
    o.lp = lp && !o.old && (match o.src with | .check _ => false | _ => true) && pend.contains (o.src, o.ctx, o.isc) &&
      offerEnabled s lp o.src o.ctx o.isc).reverse
  l.find? fun o => l.all fun q => decide (o.isc * 65536 + o.src.code ≤ q.isc * 65536 + q.src.code)

/-- IO_INTERRUPTION: the entry at the vector plus 100h, with REASON the subclass. -/
def execIoInterruption (lp : Fin 48) (s : State) : Host.Outcome State Fault Refusal :=
  .next <|
    if !canTake s lp || (checkFor s lp).isSome || (lpAt s lp).partChanged.isSome ||
        (extEnabled s lp && (intCtx s lp).isSome && (tickShown s lp || signalShown s lp)) then s
    else
      match ioFor s lp with
      | none => s
      | some o =>
        let s := takeSrc { s with offers := s.offers.erase o } o
        enter s lp (decide (o.ctx = mgrCtx)) false 0x100 (codeWord o.isc 0 o.src.code)
          (BitVec.ofNat 64 (IntSrc.addr s o.src))

/-! ### Ring writes (R416, R417) -/

/-- The absolute address of a DRAM line for a partition: the first valid DRAM entry of its zone table, in ascending
zone order, that names the line's granule (R417). -/
def absOf (s : State) (ctx : Nat) (pa : Nat) : Option Nat :=
  let zt := cell s (regKey (partPage ctx) 0x080)
  let gran := pa / gib
  ((List.range (field zt 0 15 + 1)).find? fun z =>
    let e := curWord s (field zt 18 34 * 2 ^ 18 + 8 * z)
    bit e 63 && decide (field e 61 2 = 0) && decide (field e 30 22 = gran)).map fun z => z * gib + pa % gib

/-- The form a record takes in a context's ring: a partition is shown absolute addresses (R417). -/
def recordFor (s : State) (ctx : Nat) (r : EvRec) : EvRec :=
  if ctx ≥ mgrCtx || r.kind ≠ .phys then r
  else
    match if regionOf s r.addr.toNat = .dram then absOf s ctx r.addr.toNat else none with
    | some a => { r with kind := .abs, addr := BitVec.ofNat 64 a }
    | none => { r with kind := .none, addr := 0 }

/-- MACHINE_CHECK_RING_WRITE: the oldest record on its way is written by WrL, once its line is free, or counted in MCR_LOST, and
its check may be offered. -/
def execMachineCheckRingWrite (s : State) : Host.Outcome State Fault Refusal :=
  .next <|
    match if keeperRuns s then s.err.ringWait else [] with
    | [] => s
    | c :: l =>
      let ring := cell s (regKey (errlogPage 4) 0x048 c.ctx)
      let r := recordFor s c.ctx c.ev
      let a := field ring 12 40 * 4096 + 64 * (c.seq.toNat % 2 ^ (field ring 0 4 + 6))
      if bit ring 63 && !canWriteAll s [(a, 64)] then s else
      let s := { s with err := { s.err with ringWait := l } }
      let s := if bit ring 63 then agentWrite s a (evBytes s r c.seq) else bump s (errlogPage 4) 0x054 1 c.ctx
      { s with err := { s.err with checks := s.err.checks.map fun k =>
          if k.ctx = c.ctx && k.seq = c.seq then { k with ready := true } else k } }

end Sys2Proof.Machine
end

