-- ==== Sys2Proof/Machine/Time.lean ====
section
/-! DEFINITION. The time-of-day loop (02 R22-R31, R33), its inputs and messages, the oscillator input (21 R507), lanes
(01 R12), imbalance (02 R43), and the test access port (21 R511). -/

namespace Sys2Proof.Machine

/-! ### Instants -/

def updTime (s : State) (f : Time → Time) : State := { s with time := f s.time }

/-- Events of the TOD page. -/
def todEvent (s : State) (code : Nat) (sub : Nat := 0) (detail : Nat := 0) : State :=
  logEvent s { page := todPage, code := code, sub := sub, detail := detail }

/-- TOD_CTL.AUTO and TCO_EN. -/
def todAuto (s : State) : Bool := cellBit s todPage 0x060 29
def tcoEnabled (s : State) : Bool := cellBit s todPage 0x060 27
def ppsoEnabled (s : State) : Bool := cellBit s todPage 0x060 28

/-! ### The loop (R24-R26) -/

/-- ±20 ppm and ±5 ppm, in 0.001 ppb. -/
def freqLimit : Int := 20000000
def slewLimit : Int := 5000000

def clampInt (m x : Int) : Int := max (-m) (min m x)

/-- Holdover: the frequency correction is frozen at its mean over the last 1,000 s of the latest lock, or over the whole
of it if it was shorter; the slew is zero; 2011h. A loop that never locked keeps the correction it has. -/
def enterHoldover (s : State) : State :=
  let h := s.time.freqHist
  let mean : Int := if h.isEmpty then s.time.freq else h.foldl (· + ·) 0 / (h.length : Int)
  todEvent (updTime s fun t => { t with
    loop := .holdover, active := 0, freq := mean, slew := 0, within := 0, lostLock := false }) 0x2011

/-- The phase error of a reference is taken: the loop slews it away within a second, at no more than 5 ppm, and locks
once it has stayed within 5 ns for ten consecutive edges (R24). -/
def steer (s : State) (src : BitVec 2) (err freq : Int) : State :=
  let near := decide (-80 ≤ err ∧ err ≤ 80)
  let within := if near then s.time.within + 1 else 0
  let was := s.time.loop = .locked
  let locks := !was && decide (within ≥ 10)
  let s := updTime s fun t => { t with
    active := src, phaseErr := err, within := within, freq := freq, slew := clampInt slewLimit (-(err * 125 / 2)),
    freqHist := if was then (freq :: t.freqHist).take 1000 else if locks then [freq] else t.freqHist,
    lostLock := t.lostLock && !locks,
    loop := if was || locks then .locked else .acquiring }
  if locks then todEvent s 0x0012 else s

/-! ### PPS inputs (R23) -/

def ppsAt (s : State) (b : Bool) : PpsIn := if b then s.time.ppsB else s.time.ppsA

def setPps (s : State) (b : Bool) (x : PpsIn) : State :=
  updTime s fun t => if b then { t with ppsB := x } else { t with ppsA := x }

/-- Code of an input in TOD_CTL.SRC. -/
def ppsCode (b : Bool) : BitVec 2 := if b then 2 else 1

/-- An ignored edge is counted in PPS_COUNT, [31:16] for B and [15:0] for A. -/
def countIgnored (s : State) (b : Bool) : State :=
  let k := regKey todPage 0x070
  let v := cell s k
  let lo := field v 0 16
  let hi := field v 16 16
  setCell s k (BitVec.ofNat 64 (if b then min 65535 (hi + 1) * 65536 + lo else hi * 65536 + min 65535 (lo + 1)))

/-- The loop steers to an input now. -/
def steersTo (s : State) (b : Bool) : Bool := decide (s.time.src = ppsCode b)

/-- The selected input is lost: with AUTO the loop goes to the other input if that is qualified, in holdover too, else
it enters holdover (R26). DESIGN CHOICE (log 92): a loss of B after a switch from A to B switches to A again where A is
qualified; the spec's "never switches back automatically" is read as ruling out a switch with no loss. -/
def sourceLost (s : State) (b : Bool) : State :=
  if !steersTo s b || s.time.loop = .free then s
  else if todAuto s && (ppsAt s !b).qualified then
    todEvent (updTime s fun t => { t with src := ppsCode !b, active := ppsCode !b, loop := .acquiring, within := 0,
                                          freqBad := false, lostLock := false, label := none }) 0x2011
  else if s.time.loop = .holdover then s
  else enterHoldover s

/-- Distance of an edge from its predicted instant: whole seconds after the previous accepted edge. -/
def offPrediction (last : Int) (t : Nat) : Nat :=
  let r := ((t : Int) - last).toNat % secSteps
  min r (secSteps - r)

/-- The signed distance of an instant from the nearest whole second. -/
def phaseOf (t : Nat) : Int :=
  let r := t % secSteps
  if r ≤ secSteps / 2 then (r : Int) else (r : Int) - secSteps

/-- PPS_OUT rises at an instant where FRACTION is zero, if it is driven, and stays high for 100 µs (R28, R506). The
Keeper drives it. -/
def risePps (s : State) : State :=
  let on := ppsoEnabled s && keeperRuns s
  let s := updTime s fun t => { t with ppsOut := on, tcSent := false, ppsHigh := if on then 10 else t.ppsHigh }
  if on then emit .ppsOut s else s

/-- Initialisation: the label sets SECONDS, and the edge, which the running TOD placed at an instant `old`, sets
FRACTION to zero (R27). The edges of either input keep their distances. -/
def setByLabel (s : State) (sec : Word) (old : Nat) : State :=
  let d : Int := (sec.toNat * secSteps : Nat) - (old : Int)
  let mv := fun (x : PpsIn) => { x with last := x.last.map (· + d) }
  risePps (updTime s fun u => { u with
    seconds := sec, steps := 0, transit := BitVec.ofNat 64 (sec.toNat * 100000), read := 0, label := none,
    labelOk := true, phaseErr := 0, ppsA := mv u.ppsA, ppsB := mv u.ppsB })

/-- An accepted edge of an input: it is qualified after ten that lie 1 s ± 1 µs apart, and a qualified selected input
steers the loop, out of holdover only after ten such edges again (R25, log 93); one whose distance from the edge before
would need more than ±20 ppm is disqualified (R23, R24, log 93). A label that waited is used or forgotten (R27). -/
def acceptEdge (s : State) (b : Bool) (t : Nat) : State :=
  let x := ppsAt s b
  let d : Int := match x.last with | some l => (t : Int) - l - secSteps | none => 0
  let spaced := match x.last with | some _ => decide (-16000 ≤ d ∧ d ≤ 16000) | none => false
  let run := if spaced then x.run + 1 else 1
  let s := setPps s b { last := some t, run := run, outliers := 0, qualified := x.qualified || decide (run ≥ 10) }
  let set := if s.mode.mode = .init && steersTo s b then s.time.label else none
  let s := if steersTo s b then updTime s fun t => { t with label := none } else s
  if let some l := set then setByLabel s l t
  else if !steersTo s b || !(ppsAt s b).qualified || (s.time.loop = .holdover && decide (run < 10)) then s
  else
    let need := s.time.freq + s.time.slew - d * 125 / 2
    let off := decide (need < -freqLimit ∨ need > freqLimit)
    if x.last.isSome && off then
      let s := updTime (setPps s b { ppsAt s b with qualified := false, run := 0 }) fun t => { t with freqBad := true }
      sourceLost (todEvent s 0x2013) b
    else steer s (ppsCode b) (phaseOf t) (if x.last.isSome then need else s.time.freq)

/-- PPS_EDGE: an edge `off` steps into the tick, high for `highNs`; a pulse shorter than 50 ns is no edge (R506). -/
def execPpsEdge (inputB : Bool) (off : Fin 160000) (highNs : Nat) (s : State) : Host.Outcome State Fault Refusal :=
  let x := ppsAt s inputB
  let t := instant s off.val
  .next <|
    if highNs < 50 || !keeperRuns s then s
    else
      match x.last with
      | none => acceptEdge s inputB t
      | some l =>
        if (t : Int) < l + (secSteps / 2 : Nat) then countIgnored s inputB
        else if s.time.loop = .locked && decide (offPrediction l t > 16000) then
          let s := countIgnored (setPps s inputB { x with outliers := x.outliers + 1 }) inputB
          if x.outliers + 1 ≥ 3 && steersTo s inputB then
            updTime (setPps s inputB { ppsAt s inputB with outliers := 0 }) fun t =>
              { t with loop := .acquiring, within := 0, lostLock := true }
          else s
        else acceptEdge s inputB t

/-- PPS_QUALIFICATION_LOSS: no accepted edge for 1.5 s. -/
def execPpsQualificationLoss (inputB : Bool) (off : Fin 160000) (s : State) : Host.Outcome State Fault Refusal :=
  let x := ppsAt s inputB
  let late := match x.last with
    | some l => decide ((instant s off.val : Int) ≥ l + (secSteps * 3 / 2 : Nat))
    | none => true
  .next <|
    if !x.qualified || !late || !keeperRuns s then s
    else
      let s := setPps s inputB { x with qualified := false, run := 0 }
      sourceLost (if steersTo s inputB then updTime s fun t => { t with label := none } else s) inputB

/-- REACQUIRE_TIMEOUT: a loop that had locked and is acquiring again has not locked within 1.5 s. Its input must show
ten edges again before the loop slews back. -/
def execReacquireTimeout (s : State) : Host.Outcome State Fault Refusal :=
  .next (if s.time.loop = .acquiring && s.time.lostLock && keeperRuns s then
    let b := decide (s.time.src = 2)
    enterHoldover (setPps s b { ppsAt s b with run := 0 }) else s)

/-! ### The time code (R27) -/

/-- TIME_CODE_MESSAGE: accepted with its CRC, its version, and its end 100 ms to 900 ms after an accepted edge of the
selected input. In Initialisation it labels the next edge; in Operating it is compared with the SECONDS of that edge,
at receipt (log 93). -/
def execTimeCodeMessage (msg : BitVec 160) (sinceEdgeMs : Nat) (framing : Bool) (s : State) :
    Host.Outcome State Fault Refusal :=
  let bs := beBytes 20 msg.toNat
  let part := fun (o n : Nat) => (bs.drop o).take n
  let last := if s.time.src = 1 then s.time.ppsA.last else if s.time.src = 2 then s.time.ppsB.last else none
  .next <|
    match last with
    | none => s
    | some l =>
      let good := framing && part 0 2 == [0x5A, 0xA5] && part 2 1 == [1] &&
        leVal (part 16 4) == (crc32c (bs.take 16)).toNat && decide (100 ≤ sinceEdgeMs ∧ sinceEdgeMs ≤ 900)
      if !good || !keeperRuns s then s
      else
        let sec := BitVec.ofNat 64 (leVal (part 4 8))
        if running s then
          let next := (l + (secSteps + secSteps / 2 : Nat)) / (secSteps : Nat)
          let ok := decide ((sec.toNat : Int) = next)
          let s := updTime s fun t => { t with labelOk := ok }
          if ok then s else todEvent s 0x2014
        else if s.mode.mode = .init then updTime s fun t => { t with label := some sec }
        else s

/-- TIME_CODE_OUTPUT: 100 ms to 500 ms after a PPS_OUT edge, the message that labels the following edge. When the UTC
offset counts as valid is not said: that flag is free. -/
def execTimeCodeOutput (s : State) : Host.Outcome State Fault Refusal :=
  .next <|
    if !tcoEnabled s || !s.time.ppsOut || s.time.tcSent || !keeperRuns s ||
        !decide (secSteps / 10 ≤ s.time.steps ∧ s.time.steps ≤ secSteps / 2) then s
    else
      let flags := (if s.time.loop = .locked then 1 else 0) + (freeNow s).toNat % 2 * 2
      let b : List Byte := [0x5A, 0xA5, 1, BitVec.ofNat 8 flags] ++ leBytes 8 (s.time.seconds.toNat + 1) ++
        leBytes 2 (cell s (regKey todPage 0x06C)).toNat ++ [0, 0]
      updTime (emit (.timeCode (b ++ leBytes 4 (crc32c b).toNat)) (taken s)) fun t => { t with tcSent := true }

/-! ### Coupled packages (R29-R31) -/

/-- The link a slave takes time over: the one TOD_INIT names, or that of another slave. -/
def timeLink (s : State) : Nat := match s.time.route with | some l => l.val | none => cellField s todPage 0x064 28 2

/-- A time-transfer message leaves on a link, stamped with its departure. -/
def sendTime (s : State) (link off : Nat) : State := emit (.timeTransfer link (instant s off)) s

/-- TIME_TRANSFER_MESSAGE: a slave's offset is half the difference of the two one-way intervals, in steps, less the
link's asymmetry, and is slewed away. On any other link the message is answered with one of this package: that of a
slave to its master, or to the slave it takes time from (R30, R31). -/
def execTimeTransferMessage (link : Fin 4) (out back : Int) (s : State) : Host.Outcome State Fault Refusal :=
  let k := vget s.links Link.reset link.val
  .next <|
    if !k.up || k.failed || !keeperRuns s then s
    else if isSlave s && link.val = timeLink s then
      if s.time.src = 3 then steer s 3 ((out - back) / 2 - k.asym) s.time.freq else s
    else sendTime s link.val 0

/-- Every ten ticks a slave sends a time-transfer message on the link it takes time over (R30); the master and the
serving slave answer each. -/
def tickTransfer (s : State) : State :=
  let l := timeLink s
  let k := vget s.links Link.reset l
  if decide (s.time.transit.toNat % 10 = 0) && isSlave s && !s.mode.coupled.isEmpty && k.up && !k.failed && keeperRuns s
  then sendTime s l 0 else s

/-- A slave whose link has failed takes time from another slave with a direct link, or enters holdover (R31). -/
def timeLinkLost (s : State) (l : Nat) : State :=
  if !isSlave s || l ≠ timeLink s || s.time.src ≠ 3 then s
  else
    let ok := fun (f : Fin 4) => f.val != l && (vget s.links Link.reset f.val).up && !(vget s.links Link.reset f.val).failed
    match (List.finRange 4).find? ok with
    | some f => todEvent (updTime s fun t => { t with route := some f, within := 0 }) 0x2011
    | none => if s.time.loop = .holdover then s else enterHoldover s

/-! ### Ticks and the oscillator (R33, 21 R507) -/

/-- DIE_REALIGNMENT_COMPLETE: the die's counter is steered onto the Keeper's, and Strike commands are accepted again
once no die deviates. -/
def execDieRealignmentComplete (die : Fin 6) (s : State) : Host.Outcome State Fault Refusal :=
  .next (updTime s fun t => { t with
    deviating := t.deviating.filter (· ≠ die.val), dieOff := vset t.dieOff die.val 0 })

/-- OSCILLATOR_INPUT_LOST: the counters move to the internal backup, with no step and no tick lost. -/
def execOscillatorInputLost (s : State) : Host.Outcome State Fault Refusal :=
  .next (if s.time.oscLost || !keeperRuns s then s else todEvent (updTime s fun t => { t with oscLost := true }) 0x2016)

/-- OSCILLATOR_INPUT_RESTORED. -/
def execOscillatorInputRestored (s : State) : Host.Outcome State Fault Refusal :=
  .next (if s.time.oscLost && keeperRuns s then todEvent (updTime s fun t => { t with oscLost := false }) 0x0017 else s)

/-! ### Lanes (01 R12) and imbalance (R43) -/

/-- The two dies of a die-to-die link: each compute die to SD0 and SD1, the compute dies round their ring, SD0 to
SD1. -/
def linkEnds (l : Nat) : Nat × Nat :=
  if l < 8 then (l / 2, 4 + l % 2)
  else match l with
    | 8 => (0, 1)
    | 9 => (1, 2)
    | 10 => (2, 3)
    | 11 => (3, 0)
    | _ => (4, 5)

/-- LANE_REMAP: a spare lane of the direction is used; a third failing lane loses the die that the direction leads
to. -/
def execLaneRemap (link : Fin 13) (inbound : Bool) (s : State) : Host.Outcome State Fault Refusal :=
  let k := link.val * 2 + inbound.toNat
  let n := Tab.read (fun _ => 0) s.lanes k
  let far := if inbound then (linkEnds link.val).1 else (linkEnds link.val).2
  .next <|
    if !dieOn s far then s
    else if n ≥ 2 then raise s { page := errlogPage far, code := 0x8177 }
    else { s with lanes := Tab.write (fun _ => 0) s.lanes k (n + 1) }

/-- IMBALANCE_EVENT: raised once a run, with the resource in SUBUNIT. -/
def execImbalanceEvent (cls index : Nat) (s : State) : Host.Outcome State Fault Refusal :=
  let k := cls * 1024 + index
  .next <|
    if s.bud.raised.contains k || decide (Tab.read (fun _ => 0) s.bud.run k < 1000000) then s
    else logEvent { s with bud := { s.bud with raised := k :: s.bud.raised } }
      { page := budgetPage 4, code := 0x0021, sub := k }

/-! ### The test access port (21 R511) -/

/-- An instruction of the first row: accepted in every mode but Off. -/
def tapLoad (s : State) (i : TapInstr) : State :=
  if s.mode.mode = .off then s else { s with tap := { s.tap with instr := i } }

/-- One of the second row: accepted in phase CONFIG, and PROCEED is discarded from then on; it acts as BYPASS in any
other mode. -/
def tapTest (s : State) (i : TapInstr) : State :=
  if s.mode.mode = .init && s.mode.phase = 2 then { s with tap := { instr := i, used := true } }
  else tapLoad s .bypass

/-- The identification code: the part number 0A74h and a one in bit 0, the revision and the manufacturer's identity as
Config has them. -/
def idcodeValue : BitVec 32 := (Config.idcode &&& 0xF0000FFE#32) ||| 0x00A74001#32

def execBypass (s : State) : Host.Outcome State Fault Refusal := .next (tapLoad s .bypass)

/-- IDCODE: the code is shifted out. -/
def execIdcode (s : State) : Host.Outcome State Fault Refusal :=
  .next (if s.mode.mode = .off then s else emit (.tap "IDCODE" (idcodeValue.setWidth 64)) (tapLoad s .idcode))

def execSamplePreload (s : State) : Host.Outcome State Fault Refusal := .next (tapLoad s .sample)
def execExtest (s : State) : Host.Outcome State Fault Refusal := .next (tapTest s .extest)
def execExtestPulse (s : State) : Host.Outcome State Fault Refusal := .next (tapTest s .extestPulse)
def execExtestTrain (s : State) : Host.Outcome State Fault Refusal := .next (tapTest s .extestTrain)
def execClamp (s : State) : Host.Outcome State Fault Refusal := .next (tapTest s .clamp)
def execHighz (s : State) : Host.Outcome State Fault Refusal := .next (tapTest s .highz)

end Sys2Proof.Machine
end

