-- ==== Sys2Proof/Machine/Almanac.lean ====
section
/-! DEFINITION. The Almanac (02 R44-R46) and the meters (15 R385-R387): capture at a tick, the rings, and the writing of
a record. -/

namespace Sys2Proof.Machine

/-! ### Rings (R44, R45) -/

/-- Bytes of a ring its consumer has not read, and whether `n` more leave the pointers apart. -/
def ringUsed (size wp rp : Nat) : Nat := (wp + size - rp % (max 1 size)) % (max 1 size)

def ringRoom (size wp rp n : Nat) : Bool := decide (0 < size ∧ ringUsed size wp rp + n < size)

/-- A register of an ALMANAC page as a number. -/
def almReg (s : State) (die off : Nat) : Nat := (cell s (regKey (almPage die) off)).toNat

def almEn (s : State) (die : Nat) : Bool := cellBit s (almPage die) 0x040 31

def almAt (s : State) (die : Nat) : Almanac :=
  vget s.alm { cadence := 0, seq := 0, waiting := [], use := [] } die

def updAlm (s : State) (die : Nat) (f : Almanac → Almanac) : State := { s with alm := vset s.alm die (f (almAt s die)) }

/-- Records are dropped: counted, with 0031h at the first since ALM_DROP was cleared. -/
def almDrop (s : State) (die n : Nat) : State :=
  if n = 0 then s
  else
    let s' := bump s (almPage die) 0x068 n
    if almReg s die 0x068 = 0 then logEvent s' { page := almPage die, code := 0x0031 } else s'

/-! ### Records (R46) -/

/-- Resources of a die, in the model's numbering. -/
def dieRes (s : State) (die : Nat) : List Nat :=
  ((populated s).filter fun c => 4 + c / 8 = die).map resDram ++ (if die < 4 then [resRing die] else []) ++
    (if die < 6 then (List.range (neighbours die).length).map (resLink die) else [])

/-- Body of a record of type 01h: the use of each activity on each resource of the die, 4 bytes each (log 48). -/
def useBody (s : State) (die : Nat) : List Byte :=
  (List.range 5).flatMap fun a => (dieRes s die).flatMap fun r =>
    beBytes 4 (Tab.read (fun _ => 0) (almAt s die).use (budgetKey a r))

/-- The kind of a record due is not stated: a free one of the five of Table 2-6, and what a record of types 02h to
05h carries is free, in one to four lines (log 48). -/
def recordBody (s : State) (die : Nat) : Nat × Nat × List Byte :=
  let ty := (freeNow s).toNat % 5 + 1
  if ty = 1 then
    let body := useBody s die
    (1, (32 + body.length + 255) / 256, body)
  else
    let n := (Config.freeWord (s.freeCtr + 1)).toNat % 4 + 1
    (ty, n, (List.range (256 * n - 32)).map fun i => Config.freeByte (s.freeCtr + 2) i)

/-- The capture of a record: what was not written before is dropped, and so is this one with no room or the stream
off; its sequence number is consumed. -/
def almCapture (s : State) (die : Nat) : State :=
  let x := almAt s die
  let (ty, lines, body) := recordBody s die
  let s := taken s 3
  let r : AlmRecord := ⟨s.time.transit, s.time.seconds, BitVec.ofNat 64 (todFrac s.time.steps), x.seq, ty, lines, body⟩
  let ok := almEn s die && ringRoom (almReg s die 0x050) (almReg s die 0x058) (almReg s die 0x060) (256 * lines)
  let s := updAlm s die fun x => { x with cadence := 0, seq := x.seq + 1, waiting := if ok then [r] else [], use := [] }
  almDrop s die (x.waiting.length + (if ok then 0 else 1))

/-- Cycle 24: the cadence counter advances, and a record is captured when it is due. -/
def almTick (s : State) (die : Nat) : State :=
  if !dieOn s die then s
  else if (almAt s die).cadence + 1 ≥ field (cell s (regKey (almPage die) 0x040)) 0 16 then almCapture s die
  else updAlm s die fun x => { x with cadence := x.cadence + 1 }

/-- The bytes of a record: the header of Table 2-6, the body, and zeros to whole lines. -/
def almBytes (die : Nat) (r : AlmRecord) : List Byte :=
  let h := beBytes 8 r.transit.toNat ++ beBytes 8 r.sec.toNat ++ beBytes 8 r.frac.toNat ++ beBytes 4 r.seq.toNat ++
    beBytes 1 die ++ beBytes 1 r.type ++ beBytes 1 r.lines ++ beBytes 1 1 ++ r.body
  h ++ List.replicate (256 * r.lines - h.length) 0

/-- The system die that writes a die's stream (Table 1-2). -/
def almWriter (die : Nat) : Nat := if die = 0 ∨ die = 1 ∨ die = 4 ∨ die = 6 then 4 else 5

/-- Cost of the lines of a record: a DRAM slot each, ring slots on a compute die, and the links crossed (R514). -/
def almCost (s : State) (die a lines : Nat) : List (Nat × Nat) :=
  (List.range lines).flatMap fun i =>
    let line := lineOf a + i
    let w := almWriter die
    dramCost s line ++ (if die < 6 then lineCost die w else []) ++ (hops w (toward s line)).map fun r => (r, 5)

/-- ALMANAC_RECORD_WRITTEN: a captured record is written within the Telemetry budget, once its lines are free, and ALM_WP
advances. DESIGN CHOICE (log 94): a record with all its lines is one unsplit request (R39). -/
def execAlmanacRecordWritten (die : Fin 7) (s : State) : Host.Outcome State Fault Refusal :=
  .next <|
    let d := die.val
    match (almAt s d).waiting with
    | [] => s
    | r :: l =>
      let size := almReg s d 0x050
      let wp := almReg s d 0x058
      let a := almReg s d 0x048 + wp
      if !dieOn s d || !canWriteAll s [(a, 256 * r.lines)] then s
      else
        match spend s .tel (almCost s d a r.lines) with
        | (s, false) => s
        | (s, true) =>
          let s := agentWrite (updAlm s d fun x => { x with waiting := l }) a (almBytes d r)
          setCell s (regKey (almPage d) 0x058) (BitVec.ofNat 64 ((wp + 256 * r.lines) % max 1 size))

/-! ### Meters (R385-R387) -/

/-- The period of METER_CTL.PERIOD, in ticks. -/
def meterPeriod (n : Nat) : Option Nat :=
  match n with
  | 0 => some 100
  | 1 => some 1000
  | 2 => some 10000
  | 3 => some 100000
  | 4 => some 6000000
  | _ => none

/-- The record of a partition's snapshot (Table 15-7). -/
def meterBytes (s : State) (p period : Nat) : List Byte :=
  let x := partAt s p
  let b := beBytes 8 s.time.transit.toNat ++ beBytes 4 x.seq.toNat ++ beBytes 1 p ++ beBytes 1 period ++ beBytes 1 1 ++
    beBytes 1 x.flags.toNat ++ (x.snap.toList.flatMap fun w => beBytes 8 w.toNat) ++ List.replicate 108 0
  b ++ beBytes 4 (crc32c b).toNat

/-- A partition's record, where its period ends at this tick: written, or dropped with no room or the meter off. -/
def meterRecord (s : State) (p : Nat) : State :=
  let pg := meterPage p
  let ctl := cell s (regKey pg 0x040)
  let rg := fun (o : Nat) => (cell s (regKey pg o)).toNat
  match meterPeriod (field ctl 0 3) with
  | none => s
  | some n =>
    if s.time.transit.toNat % n ≠ 0 || !(partAt s p).exists_ then s
    else
      let next := fun (s : State) => updPart s p fun x => { x with seq := x.seq + 1 }
      if bit ctl 31 && ringRoom (rg 0x050) (rg 0x058) (rg 0x060) 256 then
        let s := agentWrite s (rg 0x048 + rg 0x058) (meterBytes s p (field ctl 0 3))
        updPart (next (setCell s (regKey pg 0x058) (BitVec.ofNat 64 ((rg 0x058 + 256) % max 1 (rg 0x050))))) p
          fun x => { x with flags := 0 }
      else
        let s' := next (bump s pg 0x068)
        if rg 0x068 = 0 then logEvent s' { page := pg, code := 0x0152, owner := some p } else s'

/-- Core cycles of a running logical processor in the closing tick: how they fall to User, Supervisor and Manager
state is free, within the 50,000 of a tick (log 32). -/
def meterCycles (s : State) (lp : Fin 48) : State :=
  let ctx := lpPart s lp
  let runs := (lpAt s lp).run = .running && !s.mode.quiesce &&
    match pairOf s lp with | some p => pairReady s p | none => false
  if !runs || ctx ≥ mgrCtx then s
  else
    let f := fun (i : Nat) => (Config.freeWord (s.freeCtr + i)).toNat
    let total := f 0 % 50001
    let u := f 1 % (total + 1)
    let v := f 2 % (total - u + 1)
    meter (meter (meter (taken s 3) ctx 0 u) ctx 1 v) ctx 2 (total - u - v)

/-- Cycle 1: every partition's counters are snapshotted. -/
def meterSnap (s : State) : State := { s with parts := s.parts.map fun x => { x with snap := x.counters } }

/-- Ticks of assignment, granules and scratch, under the assignment live at cycle 8. -/
def meterTicks (s : State) : State :=
  allParts.foldl (fun s p =>
    if !(partAt s p).exists_ then s
    else
      let lps := (List.range 48).countP fun i => lpMaskHas s p i
      let mib := ((List.range 4).map fun d => (scrRange s p d).2).sum
      meter (meter s p 3 lps) p 15 mib) s

/-- Granules each partition owns, counted group by group. -/
def meterGranules (s : State) : State :=
  let n := min 8192 (installedGib s)
  (List.range n).foldl (fun s e => let c := ownerEntry s e; if c < 128 then meter s c 14 1 else s) s

end Sys2Proof.Machine
end

