-- ==== Sys2Proof/Machine/Dram.lean ====
section
/-! DEFINITION. Memory channels (16 R398-R407): page policy, refresh, ECC and marking, Sweep, command faults and
drift. -/

namespace Sys2Proof.Machine

/-- Ranks of a populated channel. -/
def ranksOf (m : Mc) : Nat := match m.spd with | some d => d.dimms * d.ranksPerDimm | none => 0

/-! ### Open rows (R398) -/

/-- Rows of a rank are closed. -/
def closeRank (s : State) (ch rank : Nat) : State :=
  updMc s ch fun m => { m with banks := m.banks.map fun e =>
    (if e.1 / 64 = rank then (e.1, { e.2 with opened := none }) else e) }

/-- ROW_CLOSE_TIMEOUT: no request to the bank for 2 µs. -/
def execRowCloseTimeout (ch : Fin 16) (rank : Fin 8) (sub : Bool) (bank : Fin 32) (s : State) :
    Host.Outcome State Fault Refusal :=
  .next (updMc s ch.val fun m => { m with banks := m.banks.map fun e =>
    (if e.1 = bankKey rank.val sub.toNat bank.val then (e.1, { e.2 with opened := none }) else e) })

/-! ### Refresh (R399, R400) -/

/-- REFRESH_DUE: a forced burst at P = 8, a postponement while the rank has requests queued, else the refresh. -/
def execRefreshDue (ch : Fin 16) (rank : Fin 8) (busy : Bool) (s : State) : Host.Outcome State Fault Refusal :=
  let m := mcAt s ch.val
  let put := fun (s : State) (p : Nat) =>
    updMc s ch.val fun m => { m with postponed := Tab.write (fun _ => 0) m.postponed rank.val p }
  let p := Tab.read (fun _ => 0) m.postponed rank.val
  if m.st ≠ .running || decide (rank.val ≥ ranksOf m) then .next s
  else if p ≥ 8 then .next (bump (closeRank (put s 0) ch.val rank.val) (mcPage ch.val) 0x7CC)
  else if busy then .next (put s (p + 1))
  else .next (closeRank (put s (p - 1)) ch.val rank.val)

/-- DIMM_TEMPERATURE_READ: HOT from above 85 °C until every DIMM is at 83 °C or below (R400). -/
def execDimmTemperatureRead (ch : Fin 16) (temps : List Nat) (s : State) : Host.Outcome State Fault Refusal :=
  let m := mcAt s ch.val
  if m.st ≠ .running then .next s
  else if temps.any fun t => decide (t > 85) then
    if m.hot then .next s
    else .next (logEvent (updMc s ch.val fun m => { m with hot := true }) { page := mcPage ch.val, code := 0x2164 })
  else if temps.all fun t => decide (t ≤ 83) then .next (updMc s ch.val fun m => { m with hot := false })
  else .next s

/-! ### ECC (R401-R403) -/

/-- An event of a line of a channel: SUBUNIT holds the rank and the subchannel, and what else is given; 4163h has
the channel-local line number in DETAIL (R512). -/
def lineEvent (s : State) (ch code sub line : Nat) : State :=
  let o := pkgOff (line * 256)
  let a := (dramAt s o).2
  let p := placeOf s (orderOf s o) a
  logEvent s { page := mcPage ch, code := code, sub := p.rank * 64 + p.sub * 16 + sub,
               detail := if code = 0x4163 then a / 256 else 0,
               owner := granuleCtx s (line * 256), kind := .phys, addr := BitVec.ofNat 64 (line * 256) }

/-- A corrected error of a device on a line is remembered for 1,000,000 ticks. -/
def noteLine (s : State) (ch sub dev line : Nat) : State :=
  let now := s.time.transit.toNat
  updMc s ch fun m =>
    let k := sub * 16 + dev
    let l := ((Tab.look m.corrected k).getD []).filter fun e => decide (now < e.2 + 1000000) && e.1 != line
    { m with corrected := Tab.put m.corrected k ((line, now) :: l) }

def markOf (m : Mc) (sub : Nat) : Option Nat := if sub = 0 then m.mark0 else m.mark1

/-- A device with more than 256 lines corrected is marked, if its subchannel has no mark (R402). -/
def markDevice (s : State) (ch sub dev : Nat) : State :=
  let m := mcAt s ch
  if (markOf m sub).isSome || decide (((Tab.look m.corrected (sub * 16 + dev)).getD []).length ≤ 256) then s
  else
    let s := updMc s ch fun m => if sub = 0 then { m with mark0 := some dev } else { m with mark1 := some dev }
    logEvent s { page := mcPage ch, code := 0x2162, sub := sub * 16 + dev }

/-- How a read of a line fares. -/
inductive EccResult where
  | clean | corrected | poisoned
  deriving DecidableEq, Repr

/-- A read of a line with errors in the devices of a list. A marked device is an erasure: its own errors do not
count, and one further device is detected and not corrected. Data that cannot be corrected is delivered and written
back poisoned; a line held dirty in a cache keeps its newer data (R401-R404). -/
def dramRead (s : State) (ch sub line : Nat) (bad : List Nat) : State × EccResult :=
  if (mcAt s ch).st = .failed then (s, .poisoned)
  else
    let mark := markOf (mcAt s ch) sub
    let errs := bad.filter fun d => mark ≠ some d
    if s.poison.contains line then (s, .poisoned)
    else
      match errs, mark with
      | [], _ => (s, .clean)
      | [d], none =>
        let s := lineEvent (bump s (mcPage ch) 0x7C0) ch 0x0161 d line
        (markDevice (noteLine s ch sub d line) ch sub d, .corrected)
      | _, _ =>
        let dirty := all48.any fun p => (pairAt s p).l2.any fun e => e.1 = line && e.2.st = .m
        let s := if dirty then s else setPoison s line true
        (lineEvent (bump (bump s (mcPage ch) 0x7C4) (mcPage ch) 0x7C8) ch 0x4163 0 line, .poisoned)

/-! ### Sweep (R404) -/

/-- Line number of a channel-local line: the inverse of the placement. -/
def lineAtLocal (s : State) (ch n : Nat) : Nat :=
  let a := n * 256
  let l := populated s
  let r := cellField s mapPage 0x040 0 9
  let q := qGib s
  let ix := (l.findIdx? fun c => c = ch).getD 0
  let o :=
    if a < (q - r) * gib then
      let g := granBits s
      let k := Nat.log2 l.length
      let v := a / 2 ^ g
      let low := ix ^^^ foldBits k 44 (v % 2 ^ 44) ^^^ (salt s / 2 ^ 24 % 2 ^ k)
      (v * 2 ^ k + low % 2 ^ k) * 2 ^ g + a % 2 ^ g
    else l.length * (q - r) * gib + ix * (r * gib) + (a - (q - r) * gib)
  (pkgId s * 2 ^ 50 + o) / 256

/-- SWEEP_READ: the next line of the channel is read, corrected and written back, within Sweep's budget; a poisoned
line is counted and left (R404, R514). -/
def execSweepRead (ch : Fin 16) (badDevices : List (Fin 10)) (s : State) : Host.Outcome State Fault Refusal :=
  let c := ch.val
  let m := mcAt s c
  if m.st ≠ .running then .next s
  else
    match spend s .sweep [(resDram c, 1)] with
    | (s, false) => .next s
    | (s, true) =>
      let line := lineAtLocal s c m.cursor
      let o := pkgOff (line * 256)
      let p := placeOf s (orderOf s o) (m.cursor * 256)
      let s := bankAccess s c p.rank p.sub p.bank p.row
      let was := s.poison.contains line
      let (s, r) := dramRead s c p.sub line (badDevices.map (·.val))
      let s := if r = .corrected then debit s Activity.sweep.code (resDram c) 1 else s
      let s := if was then bump s (mcPage c) 0x7C4 else s
      let total := qGib s * (gib / 256)
      .next (updMc s c fun m =>
        if m.cursor + 1 ≥ total then { m with cursor := 0, passes := m.passes + 1 } else { m with cursor := m.cursor + 1 })

/-! ### Command faults (R405) -/

/-- CA_PARITY_ALERT: the commands are sent again; the sixteenth retry of a tick that fails fails the channel. -/
def execCaParityAlert (ch : Fin 16) (s : State) : Host.Outcome State Fault Refusal :=
  let c := ch.val
  let m := mcAt s c
  if m.st ≠ .running then .next s
  else if m.retries ≥ 16 then
    .next (logEvent (updMc s c fun m => { m with st := .failed }) { page := mcPage c, code := 0x4167 })
  else
    let s := bump (updMc s c fun m => { m with retries := m.retries + 1 }) (mcPage c) 0x7C0
    .next (logEvent s { page := mcPage c, code := 0x0161, sub := 0x8000 })

/-! ### Drift (R407) -/

/-- A centre moves by at most one step. -/
def oneStep (d : Int) : Int := max (-1) (min 1 d)

/-- SUBUNIT of a lane: rank, subchannel and byte lane (R512). -/
def laneSub (k : Nat) : Nat := k / 16 * 64 + k / 8 % 2 * 16 + k % 8

/-- A lane after a step of its drift: beyond 16 steps it is retrained in place, beyond 8 it is reported. -/
def driftLane (s : State) (c k : Nat) (old new : Int) (put : Int → Lane → Lane) : State :=
  let store := fun (s : State) (d : Int) =>
    updMc s c fun m => match Tab.look m.lanes k with
      | some l => { m with lanes := Tab.put m.lanes k (put d l) }
      | none => m
  if new.natAbs > 16 then logEvent (store s 0) { page := mcPage c, code := 0x2165, sub := laneSub k }
  else
    let s := store s new
    if new.natAbs > 8 ∧ old.natAbs ≤ 8 then logEvent s { page := mcPage c, code := 0x0165, sub := laneSub k } else s

/-- CALIBRATION_CHECK: one step under the Calibration budget, whose cost falls on the first lane of a subchannel's
check (R407, R514). -/
def execCalibrationCheck (ch : Fin 16) (rank : Fin 8) (sub : Bool) (lane : Fin 5) (kind : CalKind) (dir : Int)
    (s : State) : Host.Outcome State Fault Refusal :=
  let c := ch.val
  let m := mcAt s c
  let k := rank.val * 16 + sub.toNat * 8 + lane.val
  if m.st ≠ .running || decide (rank.val ≥ ranksOf m) then .next s
  else
    match if lane = 0 then spend s .cal [(resDram c, if kind = .readWindow then 4 else 2)] else (s, true) with
    | (s, false) => .next s
    | (s, true) =>
      match Tab.look m.lanes k, kind with
      | some l, .readWindow =>
        .next (driftLane s c k l.rdDrift (l.rdDrift + oneStep dir) fun d l => { l with rdDrift := d })
      | some l, .writeTiming =>
        .next (driftLane s c k l.wrDrift (l.wrDrift + oneStep dir) fun d l => { l with wrDrift := d })
      | _, _ => .next s

end Sys2Proof.Machine
end

