-- ==== Sys2Proof/Machine/Coherence.lean ====
section
/-! DEFINITION. The commands of the coherence protocol (10 R232-R252): requests at the die ordering point and the
home, evictions, snoops and their answers, memory commands, fills, maintenance and timeouts. -/

namespace Sys2Proof.Machine

/-! ### Requests of pairs (R232-R234) -/

def missAt (s : State) (p : Fin 48) (line : Nat) : Option Miss := Tab.look (pairAt s p).misses line

def updMiss (s : State) (p : Fin 48) (line : Nat) (f : Miss → Miss) : State :=
  updPair s p fun x =>
    match Tab.look x.misses line with
    | some m => { x with misses := Tab.put x.misses line (f m) }
    | none => x

def endMiss (s : State) (p : Fin 48) (line : Nat) : State :=
  updPair s p fun x => { x with misses := Tab.del x.misses line }

/-- A pair may issue a request: powered, and no request of its die open for the line, which is not leaving the die (R215,
R233). -/
def mayRequest (s : State) (p : Fin 48) (line : Nat) : Bool :=
  (pairAt s p).powered && cacheable s line && !dieWaits s (p.val / 12) line

/-- The die ordering point passes a request to the home. -/
def toHome (s : State) (p : Fin 48) (k : ReqKind) (line : Nat) : State :=
  let m : Miss := { kind := k, retries := 0, ticket := none, filled := false, refused := false, backoff := false,
                    poisoned := false }
  let s := updPair (countTo s (p.val / 12) line false false) p fun x => { x with misses := Tab.put x.misses line m }
  if homeHere s line then arrive s ⟨k, .pair p, line, [], none, false⟩
  else sendDie k.name (homeDie s line) line s

/-- A request of a pair of another package reaches a home of this one. -/
def fromAfar (s : State) (d : Fin 16) (k : ReqKind) (line : Nat) : State :=
  let busy := (match txnAt s line with | some t => t.req.who = .remote d | none => false) ||
    (sliceAt s (homeSlice s line)).waiting.any fun w => w.who = .remote d && w.line = line
  if !homeHere s line || !cacheable s line || d.val / 4 = pkgId s || !s.mode.coupled.contains (d.val / 4) ||
      s.fenced.contains (d.val / 4) || busy then s
  else arrive s ⟨k, .remote d, line, [], none, false⟩

/-- A line moves to a requester's L2 within the die; without a way for it a line leaves to make room, and the request is made
again (R209). -/
def placeOr (s t : State) (p : Fin 48) (line : Nat) (st : CohSt) : State := (l2Place t p line st).getD (fillRoom s p line)

/-- Stores that waited in the L2 for ownership of a line are performed: E becomes M (Table 1-5). -/
def mergeOwning (s : State) (p : Fin 48) (line : Nat) : State :=
  match (pairAt s p).lp with
  | none => s
  | some lp => barrierCheck (mergeWaiting s p line) lp

/-- RDS (Table 10-2). A load takes no reservation away (R171). -/
def execRds (who : Agent) (line : Nat) (s : State) : Host.Outcome State Fault Refusal :=
  .next <|
    match who with
    | .remote d => fromAfar s d .rdS line
    | .pair p =>
      if !mayRequest s p line || (l2State s p line).isSome then s
      else
        match holderOn s p line [.m], holderOn s p line [.l, .e] with
        | some q, _ => mergeOwning (placeOr s (l2Drop s q line) p line .m) p line
        | none, some q => placeOr s (l2SetState s q line .s) p line .l
        | none, none =>
          if l3HolderOn s p line [.l, .e] then placeOr s (l3Remove s (p.val / 12) line) p line .l
          else toHome s p .rdS line
    | _ => s

/-- The die's copies are held for a reservation against an ownership request (R173). -/
def heldOn (s : State) (die line : Nat) (but : Option (Fin 48)) : Bool :=
  (pairsOfDie die).any fun q => but != some q && match (pairAt s q).lp with
    | some lp => (lpAt s lp).resHold && (lpAt s lp).reservation = some line
    | none => false

/-- RDO (Table 10-2). -/
def execRdo (who : Agent) (line : Nat) (s : State) : Host.Outcome State Fault Refusal :=
  .next <|
    match who with
    | .remote d => fromAfar s d .rdO line
    | .pair p =>
      let die := p.val / 12
      if !mayRequest s p line || (l2State s p line).isSome || heldOn s die line (some p) then s
      else if (holderOn s p line [.m]).isSome then
        mergeOwning (placeOr s (dieRemove s die line (some p)) p line .m) p line
      else if (holderOn s p line [.e]).isSome || l3HolderOn s p line [.e] then
        mergeOwning (placeOr s (dieRemove s die line (some p)) p line .e) p line
      else if (holderOn s p line [.l]).isSome || l3HolderOn s p line [.l] then
        match l2Place (dieRemove s die line (some p)) p line .l with
        | some s => toHome s p .upg line
        | none => fillRoom s p line
      else toHome (dieRemove s die line (some p)) p .rdO line
    | _ => s

/-- UPG: every other copy on the die takes I, and the home orders the upgrade. -/
def execUpg (who : Agent) (line : Nat) (s : State) : Host.Outcome State Fault Refusal :=
  .next <|
    match who with
    | .remote d => fromAfar s d .upg line
    | .pair p =>
      let shared := match l2State s p line with | some .s => true | some .l => true | _ => false
      if !mayRequest s p line || !shared || heldOn s (p.val / 12) line (some p) then s
      else toHome (dieRemove s (p.val / 12) line (some p)) p .upg line
    | _ => s

/-! ### Requests of agents that cache nothing -/

/-- An agent may send a request to a home of this package; another package's line is asked for there. -/
def agentRequest (s : State) (r : Req) : State :=
  let away := match r.who with
    | .remote d => d.val / 4 = pkgId s || !s.mode.coupled.contains (d.val / 4) || s.fenced.contains (d.val / 4)
    | _ => false
  if away || !(regionOf s (r.line * 256)).isStorage then s
  else if homeHere s r.line then arrive s r
  else match r.who with
    | .remote _ => s
    | _ => sendDie r.kind.name (homeDie s r.line) r.line s

/-- RDNA. -/
def execRdna (who : Agent) (line : Nat) (s : State) : Host.Outcome State Fault Refusal :=
  .next (agentRequest s ⟨.rdNA, who, line, [], none, false⟩)

/-- WRL: a whole line. -/
def execWrl (who : Agent) (line : Nat) (data : List Byte) (poisoned : Bool) (s : State) :
    Host.Outcome State Fault Refusal :=
  .next (agentRequest s ⟨.wrL, who, line, reqBytes (line * 256) (data.take 256), none, poisoned⟩)

/-- WRP: part of a line, with a compare or without. -/
def execWrp (who : Agent) (line offset : Nat) (data : List Byte) (compare : Option (List Byte)) (poisoned : Bool)
    (s : State) : Host.Outcome State Fault Refusal :=
  .next (agentRequest s
    ⟨.wrP, who, line, reqBytes (line * 256 + offset) (data.take (256 - offset)), compare, poisoned⟩)

/-! ### Evictions and crossings (R248-R250) -/

/-- A die that has dropped its copy leaves a line's entry (R245). -/
def dirForget (s : State) (line die : Nat) : State :=
  match Tab.look s.dir line with
  | some e => { s with dir := Tab.put s.dir line { e with dies := e.dies.filter (· != die) } }
  | none => s

/-- The home takes a crossed die's eviction out of the record: a WbM's data is written and supplies the requester, an
EvC leaves the transaction to memory; either is acknowledged as stale. -/
def takeCrossed (s : State) (t : Txn) (die : Nat) (wbm : Bool) : State :=
  let line := t.req.line
  let t := { t with
    crossed := t.crossed.filter (· != die), crossing := t.crossing.filter (· != die),
    parkedWbm := if wbm then none else t.parkedWbm,
    parkedEvc := if wbm then t.parkedEvc else t.parkedEvc.filter (· != die),
    supplied := t.supplied || wbm }
  let s := if !wbm then (if t.req.kind = .probe then dirForget s line die else s)
    else
      let s := if t.req.kind = .wrL then discardDirty s line
        else if die / 4 = pkgId s then wroteDram (writeBack s line) line
        else freeLine s line
      dirFree s line
  homeSettle (ackLeaving (putTxn s line t) die line true) line

/-- An eviction reaches its home: served at once, parked in the record of a blocked line, or taken by the transaction
whose snoop it crossed. -/
def evictArrives (s : State) (die line : Nat) (wbm : Bool) : State :=
  match txnAt s line with
  | none => serveEviction s die line wbm
  | some t =>
    if t.crossed.contains die then takeCrossed s t die wbm
    else if wbm then (if t.parkedWbm.isSome then s else putTxn s line { t with parkedWbm := some die })
    else if t.parkedEvc.contains die then s
    else putTxn s line { t with parkedEvc := t.parkedEvc ++ [die] }

/-- An eviction of one kind by a pair of this package or of another; the home of another package answers by ACK. -/
def eviction (s : State) (who : Agent) (line : Nat) (wbm : Bool) : State :=
  if !homeHere s line then s
  else
    match who with
    | .pair p =>
      match l2Find s p line with
      | some l => if l.leaving && !l.acked && l.wbm == wbm then evictArrives s (pairDie s p) line wbm else s
      | none => s
    | .remote d =>
      if d.val / 4 = pkgId s || !s.mode.coupled.contains (d.val / 4) || s.fenced.contains (d.val / 4) then s
      else evictArrives s d.val line wbm
    | _ => s

def execEvc (who : Agent) (line : Nat) (s : State) : Host.Outcome State Fault Refusal :=
  .next (eviction s who line false)

def execWbm (who : Agent) (line : Nat) (s : State) : Host.Outcome State Fault Refusal :=
  .next (eviction s who line true)

/-- CROSSED: the die's answer reaches the home, and is counted. -/
def execCrossed (die : Fin 16) (line : Nat) (s : State) : Host.Outcome State Fault Refusal :=
  let d := die.val
  .next <|
    match txnAt s line with
    | none => s
    | some t =>
      let afar := d / 4 != pkgId s && t.waitFor.contains d
      if !afar && !t.crossing.contains d then s
      else
        let t := { t with waitFor := t.waitFor.filter (· != d), crossing := t.crossing.filter (· != d),
                          crossed := d :: t.crossed }
        let s := bump (putTxn s line t) (slicePage (homeSlice s line)) 0x7CC
        if t.parkedWbm = some d then takeCrossed s t d true
        else if t.parkedEvc.contains d then takeCrossed s t d false
        else s

/-! ### Snoops (R238) -/

/-- What a die answers. -/
inductive DieAnswer where
  /-- Ack, no copy remaining. -/
  | none
  /-- Ack SHARED. -/
  | shared
  /-- Data from an M holder. -/
  | data
  | crossed
  /-- The die holds its answer for a reservation (R173). -/
  | wait
  deriving DecidableEq, Repr

/-- The strongest copy a die of this package holds (R238). -/
def dieState (s : State) (die line : Nat) : Option CohSt :=
  let l := (pairsOfDie die).filterMap (fun p => l2State s p line) ++ (l3Find s die line).toList.map (·.st)
  [CohSt.m, .e, .l, .s].find? fun st => l.contains st

/-- Every copy of one state on a die takes another. -/
def dieSet (s : State) (die line : Nat) (a b : CohSt) : State :=
  let s := (pairsOfDie die).foldl (fun s p => if l2State s p line = some a then l2SetState s p line b else s) s
  match l3Find s die line with
  | some l => if l.st = a then { s with l3 := Tab.put s.l3 (l3Key die line) { l with st := b } } else s
  | none => s

/-- What becomes of an M holder's data under SnpO: the requester takes it dirty, the home writes it, or a whole-line
write discards it; what goes to another package leaves through the home's memory. -/
def giveData (s : State) (k : ReqKind) (who : Agent) (line : Nat) : State :=
  match k, who with
  | .rdO, .pair _ => s
  | .rdO, _ => wroteDram (writeBack s line) line
  | .wrL, _ => discardDirty s line
  | _, _ => wroteDram (writeBack s line) line

/-- A die of this package answers a snoop (Table 10-3). -/
def dieSnoop (s : State) (die line : Nat) (sn : SnoopKind) (give : State → State) : State × DieAnswer :=
  match dieState s die line with
  | none =>
    if !(leavingPairs s (pkgId s * 4 + die) line).isEmpty then (s, .crossed) else (s, .none)
  | some st =>
    match sn with
    | .probe => (s, .shared)
    | .na => (s, if st = .m then .data else .shared)
    | .s =>
      if st = .m then (dieSet (give s) die line .m .l, .data)
      else if st = .e then (dieSet s die line .e .l, .shared)
      else (s, .shared)
    | .o =>
      if heldOn s die line none then (s, .wait)
      else if st = .m then (dieRemove (give s) die line, .data)
      else (dieRemove s die line, .none)

/-- The answer of a die of another package is not determined here: it is free among those its entry allows (log 46).
Data it supplies is free. -/
def farAnswer (s : State) (t : Txn) (sn : SnoopKind) : State × DieAnswer :=
  let line := t.req.line
  let n := (freeNow s).toNat % 3
  let mayM := !t.supplied && !([0, 1, 2, 3].any fun d => dieHolds s d line) &&
    (!dirMode s || (match Tab.look s.dir line with | some e => e.x | none => false))
  let s := taken s
  if n = 2 && mayM && sn ≠ .probe then
    match sn, t.req.kind with
    | .o, .rdO =>
      let bs := (List.range 256).map fun i => Config.freeByte s.freeCtr i
      let s := taken s
      ({ s with dirty := dirtyPut s.dirty (line * 256) bs }, .data)
    | .o, .wrL => (s, .data)
    | .na, _ => (s, .data)
    | _, _ => (freeLine s line, .data)
  else if n = 1 && sn ≠ .o then (s, .shared)
  else (s, .none)

/-- An answer reaches the home. -/
def homeAnswer (s : State) (t : Txn) (die : Nat) (sn : SnoopKind) (a : DieAnswer) : State :=
  let line := t.req.line
  let t := { t with waitFor := t.waitFor.filter (· != die) }
  match a with
  | .wait => s
  | .crossed => putTxn s line { t with crossing := die :: t.crossing }
  | .shared => homeSettle (putTxn s line { t with shared := true }) line
  | .data =>
    let keeps := sn = .s || sn = .na
    let serves := match t.req.kind with | .rdS => true | .rdO => true | .rdNA => true | .wrP => true | _ => false
    let bad := if die / 4 = pkgId s then s.poison.contains line else farPoison s line
    homeSettle (putTxn s line { t with supplied := t.supplied || serves, fromM := t.fromM || serves,
                                       shared := t.shared || keeps, poisoned := t.poisoned || (serves && bad) }) line
  | .none =>
    let s := if sn = .probe then dirForget s line die else s
    homeSettle (putTxn s line t) line

/-- What a die of this package sends for a snoop of another package's home (Table 10-3). DESIGN CHOICE (log 112): the snoop
names neither the requester nor its request, so the requester's data goes by the home's die, and data of an M copy that is
given up always goes. -/
def sendAnswer (s : State) (line : Nat) (sn : SnoopKind) (a : DieAnswer) : State :=
  let home := homeDie s line
  match a with
  | .wait => s
  | .none => sendDie "Ack" home line s
  | .shared => sendDie "Ack SHARED" home line s
  | .crossed => sendDie "Crossed" home line s
  | .data =>
    let bad := if s.poison.contains line then " POISON" else ""
    if sn = .s then sendLine ("DataM" ++ bad) home line (sendLine ("DataS" ++ bad) home line s)
    else sendDie "Ack" home line (sendLine ("DataM" ++ bad) home line s)

/-- A snoop of one kind reaches a die: of a transaction of this package's home, or from another package's home. -/
def snoopArrives (s : State) (die line : Nat) (sn : SnoopKind) : State :=
  if homeHere s line then
    match txnAt s line with
    | none => s
    | some t =>
      if !t.waitFor.contains die || t.req.kind.snoop ≠ sn then s
      else if die / 4 = pkgId s then
        let give := fun s => if sn = .o then giveData s t.req.kind t.req.who line else wroteDram (writeBack s line) line
        let (s, a) := dieSnoop s (die % 4) line sn give
        homeAnswer s t die sn a
      else
        let (s, a) := farAnswer s t sn
        homeAnswer s t die sn a
  else if die / 4 ≠ pkgId s || !s.mode.coupled.contains (linePkg line) || s.fenced.contains (linePkg line) then s
  else
    let (t, a) := dieSnoop s (die % 4) line sn fun s => writeBack s line
    sendAnswer t line sn a

def execSnps (die : Fin 16) (line : Nat) (s : State) : Host.Outcome State Fault Refusal :=
  .next (snoopArrives s die.val line .s)

def execSnpo (die : Fin 16) (line : Nat) (s : State) : Host.Outcome State Fault Refusal :=
  .next (snoopArrives s die.val line .o)

def execSnpna (die : Fin 16) (line : Nat) (probe : Bool) (s : State) : Host.Outcome State Fault Refusal :=
  .next (snoopArrives s die.val line (if probe then .probe else .na))

/-! ### Memory commands (R239) -/

/-- MRD: the home's read of a line whose transaction reads memory. -/
def execMrd (line : Nat) (badDevices : List (Fin 10)) (s : State) : Host.Outcome State Fault Refusal :=
  .next <|
    match txnAt s line with
    | none => s
    | some t =>
      if !t.req.kind.reads || t.mrd then s
      else
        let s := if regionOf s (line * 256) = .dram then
            let o := pkgOff (line * 256)
            let (ch, a) := dramAt s o
            (dramRead (countDram s line) ch (placeOf s (orderOf s o) a).sub line (badDevices.map (·.val))).1
          else s
        putTxn s line { t with mrd := true }

/-- MGO: the snoops are answered, and memory's data goes to the requester. -/
def execMgo (line : Nat) (s : State) : Host.Outcome State Fault Refusal :=
  .next <|
    match txnAt s line with
    | none => s
    | some t =>
      if !t.answered || t.supplied || !t.mrd || t.sent || t.mgo then s
      else
        let t' := { t with mgo := true, sent := true, poisoned := t.poisoned || linePoison s line }
        match t.req.kind with
        | .rdS => answerLine t' (if takesE s t then "DataE" else "DataS") (putTxn s line t')
        | .rdO => answerLine t' "DataE" (putTxn s line t')
        | .rdNA => endTxn (answerLine t' "DataS" s) line
        | _ => s

/-- MDROP: data that memory read for a transaction another source supplied is discarded. -/
def execMdrop (line : Nat) (s : State) : Host.Outcome State Fault Refusal :=
  .next <|
    match txnAt s line with
    | some t => if t.mrd && t.supplied && !t.mgo then putTxn s line { t with mgo := true } else s
    | none => s

/-- Bytes of a write, from its lowest address. -/
def reqData (r : Req) : Nat × List Byte := ((r.data.head?.map (·.1)).getD (r.line * 256), r.data.map (·.2))

/-- MWR: the home writes the line of a WrL, or the merged line of a WrP whose compare holds, acknowledges, and the
transaction ends with the entry freed (R239, R242, R245). -/
def execMwr (line : Nat) (s : State) : Host.Outcome State Fault Refusal :=
  .next <|
    match txnAt s line with
    | none => s
    | some t =>
      let (a, bs) := reqData t.req
      match t.req.kind with
      | .wrL =>
        if !t.answered then s
        else endTxn (answer t.req.who "Ack" line (wroteDram (writeLine s a bs t.req.poisoned) line)) line
      | .wrP =>
        if !t.answered || !(t.mrd || t.supplied) then s
        else
          let ok := match t.req.compare with
            | some e => decide (curBytes s (a / 8 * 8) 8 = e)
            | none => true
          let s := if ok then wroteDram (writeLine s a bs t.req.poisoned) line else dirFree s line
          endTxn (answer t.req.who (if ok && t.req.compare.isSome then "Ack CMPOK" else "Ack") line s) line
      | _ => s

/-! ### Answers to requesters (R239, R241, R254) -/

/-- What a home gives for a request of a pair, once it has sent it: the state, and whether the data is poisoned. What another
package's home gives is free among what Table 10-4 allows it: never E where a cache of this package holds the line; and a
die that holds S copies takes L (log 112). -/
def fillGiven (s : State) (p : Fin 48) (m : Miss) (line : Nat) : Option (CohSt × Bool) :=
  if homeHere s line then
    match txnAt s line with
    | some t =>
      if t.req.who = .pair p && t.sent then
        match t.req.kind with
        | .rdS => some (if takesE s t then .e else .l, t.poisoned)
        | .rdO => some (if t.fromM then .m else .e, t.poisoned)
        | _ => none
      else none
    | none => none
  else if lostHome s line then none
  else
    let free := (freeNow s).toNat % 2 = 0
    let bad := if heldHere s line then s.poison.contains line else farPoison s line
    match m.kind with
    | .rdS => some (if free && !heldHere s line then .e else .l, bad)
    | .rdO => some (if free then .e else .m, bad)
    | _ => none

/-- DATA_FILL: the data fills the requester in the state its message names, and CompAck is owed; a fill that finds no way has
a line of its set leave, and waits (R209). Data of another package is free, unless a cache of this one holds the line.
What a fenced package sends is discarded (R253). -/
def execDataFill (pair : Fin 48) (line : Nat) (s : State) : Host.Outcome State Fault Refusal :=
  .next <|
    match missAt s pair line with
    | none => s
    | some m =>
      match fillGiven s pair m line with
      | none => s
      | some (st, bad) =>
        if m.filled then s
        else
          let u := if homeHere s line || heldHere s line then s else freeLine s line
          match l2Place u pair line st with
          | none => fillRoom s pair line
          | some u =>
            let u := countTo (if bad then setPoison u line true else u) (pair.val / 12) line true true
            mergeOwning (updMiss (taken u) pair line fun m => { m with filled := true, backoff := false, poisoned := bad })
              pair line

/-- The home's Ack ends an eviction: the tag is freed, and a clean line whose home is on another package is in the
L3. -/
def ackEviction (s : State) (p : Fin 48) (line : Nat) (stale : Bool) (l : L2Line) : State :=
  let free := fun (s : State) => updPair s p fun x => { x with l2 := Tab.del x.l2 line }
  if homeHere s line then (if l.acked then free s else s)
  else
    let s := free (if l.wbm then discardDirty s line else s)
    if l.wbm || stale then s else l3Place s (p.val / 12) line l.st

/-- A store of a pair's processor that was sent to another package is accepted there: the oldest to the line (R242, Table
7-1). -/
def ackFar (s : State) (p : Fin 48) (line : Nat) : State :=
  match (pairAt s p).lp with
  | none => s
  | some lp =>
    match (lpAt s lp).toFar.find? fun e => e.blk / 4 = line with
    | none => s
    | some e => barrierCheck (updLp s lp fun x => { x with toFar := x.toFar.erase e }) lp

/-- An upgrade is acknowledged: the line is stored into only if the requester still holds it (R241). -/
def ackUpgrade (s : State) (p : Fin 48) (line : Nat) (m : Miss) (poison : Bool) : State :=
  let home := !homeHere s line || (match txnAt s line with
    | some t => t.req.who = .pair p && t.sent
    | none => false)
  if m.filled || !home then s
  else
    let t := updMiss s p line fun m => { m with filled := true, backoff := false, poisoned := poison }
    if (l2State s p line).isSome then mergeOwning (l2SetState t p line .e) p line else t

/-- ACK: with HOLD the requester waits on; otherwise it ends an eviction, an upgrade, or a store that another package has
accepted, whose compare has failed where CMPOK is clear (R241, R242). -/
def execAck (pair : Fin 48) (line : Nat) (shared hold stale cmpok poison : Bool) (s : State) :
    Host.Outcome State Fault Refusal :=
  .next <|
    if hold || lostHome s line then s
    else
      match l2Find s pair line, missAt s pair line with
      | some l, none => if l.leaving then ackEviction s pair line stale l else ackFar s pair line
      | none, none => ackFar s pair line
      | _, some m => if m.kind = .upg then (if shared || cmpok then s else ackUpgrade s pair line m poison) else ackFar s pair line

/-- COMPACK: the transaction ends, its directory entry updated; a requester's side is over too. Poison has gone with data that
another package owns now (R231). -/
def execCompack (line : Nat) (s : State) : Host.Outcome State Fault Refusal :=
  .next <|
    if !homeHere s line then
      all48.foldl (fun s p =>
        match missAt s p line with
        | some m => if m.filled then endMiss (sendDie "CompAck" (homeDie s line) line s) p line else s
        | none => s) s
    else
      match txnAt s line with
      | none => s
      | some t =>
        let ready := match t.req.who with
          | .pair p => (match missAt s p line with | some m => m.filled | none => true)
          | _ => true
        if !t.sent || !ready || !t.req.kind.holds then s
        else
          let die := (agentDie s t.req.who).getD 0
          let s := match t.req.kind with
            | .rdS => dirAdd s line die (takesE s t)
            | _ => match t.req.who with
              | .remote _ => setPoison (dirOwn s line die) line false
              | _ => dirOwn s line die
          let s := match t.req.who with | .pair p => endMiss s p line | _ => s
          endTxn s line

/-! ### Retries (R236) -/

/-- RETRY: the requester is refused. It backs off, unless its eighth Retry has put it on the reserve list; a ticket
comes with the Retry. -/
def execRetry (pair : Fin 48) (line : Nat) (s : State) : Host.Outcome State Fault Refusal :=
  .next <|
    match missAt s pair line with
    | none => s
    | some m =>
      if m.filled || m.backoff || (homeHere s line && !m.refused) || lostHome s line then s
      else
        let x := sliceAt s (homeSlice s line)
        let listed := homeHere s line && x.reserve.any fun r => r.who = .pair pair && r.line = line
        let ticket := if homeHere s line then
            (x.tickets.find? fun t => t.2.1 = .pair pair && t.2.2 = line).map (·.1) else m.ticket
        updMiss s pair line fun m =>
          { m with retries := m.retries + 1, ticket := ticket, refused := false, backoff := !listed }

/-- RETRY_REISSUE: the wait is over and the request is issued again. -/
def execRetryReissue (pair : Fin 48) (line : Nat) (s : State) : Host.Outcome State Fault Refusal :=
  .next <|
    match missAt s pair line with
    | none => s
    | some m =>
      if !m.backoff || m.filled then s
      else
        let s := updMiss s pair line fun m => { m with backoff := false }
        if homeHere s line then arrive s ⟨m.kind, .pair pair, line, [], none, false⟩
        else sendDie m.kind.name (homeDie s line) line s

/-- TICKET_PASS_OVER: the lowest ticket is passed over. -/
def execTicketPassOver (slice : Fin 96) (s : State) : Host.Outcome State Fault Refusal :=
  .next (updSlice s slice.val fun x => { x with tickets := x.tickets.drop 1 })

/-! ### Directory maintenance (R245) -/

/-- DIRECTORY_PROBE: a PROBE to each recorded die, within the budget of directory maintenance: a message each way a
die (R514). -/
def execDirectoryProbe (line : Nat) (s : State) : Host.Outcome State Fault Refusal :=
  .next <|
    match Tab.look s.dir line with
    | none => s
    | some e =>
      if !dirMode s || (txnAt s line).isSome then s
      else
        let r : Req := ⟨.probe, .almanac 0, line, [], none, false⟩
        let home := homeSlice s line / 24
        let dies := if e.ovf then allDies s else e.dies
        let cost := dies.flatMap fun d =>
          if d / 4 = pkgId s then msgCost home (d % 4) ++ msgCost (d % 4) home
          else
            let sd := match linkTo s (d / 4) with | some l => 4 + l / 2 | none => 4
            msgCost home sd ++ msgCost sd home
        match spend s .dir cost with
        | (s, true) => if (snoopDies s r).isEmpty then dirFree s line else openTxn s r
        | (s, false) => s

/-! ### Timeouts (R237, R251, R252) -/

/-- TRANSACTION_HOLD: the requester hears that its transaction is still open. -/
def execTransactionHold (line : Nat) (s : State) : Host.Outcome State Fault Refusal :=
  .next <|
    match txnAt s line with
    | some t => if t.req.kind.isWork then s else answer t.req.who "Ack HOLD" line s
    | none => s

/-- SNOOP_TIMEOUT: the line is written to memory as poisoned, the entry freed, and the requester answered with poison;
a silent die of this package keeps no copy, since its later answer is discarded. -/
def execSnoopTimeout (line : Nat) (s : State) : Host.Outcome State Fault Refusal :=
  .next <|
    match txnAt s line with
    | none => s
    | some t =>
      match t.waitFor with
      | [] => s
      | d :: _ =>
        let s := t.waitFor.foldl (fun s d => if d / 4 = pkgId s then dieRemove s (d % 4) line else s)
          (discardDirty s line)
        let s := dirFree (setPoison s line true) line
        let s := logEvent s { page := slicePage (homeSlice s line), code := 0x40A1, sub := d,
                              owner := granuleCtx s (line * 256), kind := .phys,
                              addr := BitVec.ofNat 64 (line * 256) }
        let t' := { t with waitFor := [], crossing := [], crossed := [], sent := true, poisoned := true }
        match t.req.kind with
        | .rdS => answerLine t' (if takesE s t' then "DataE" else "DataS") (putTxn s line t')
        | .rdO => answerLine t' "DataE" (putTxn s line t')
        | .upg => answer t.req.who "Ack POISON" line (putTxn s line t')
        | .rdNA => endTxn (answerLine t' "DataS" s) line
        | .wrL => endTxn (answer t.req.who "Ack POISON" line s) line
        | .wrP => endTxn (answer t.req.who "Ack POISON" line s) line
        | .backInv => endTxn s line
        | .probe => endTxn s line

/-- The request a pair has open for a line ends (R252): of a read the line stays in I, and a load of it finds poison; the
stores that waited for an upgrade or an ownership read, and one sent to the home, are not performed; an eviction frees its
tag. -/
def pairTimeout (s : State) (p : Fin 48) (line : Nat) : State :=
  let drop := fun (s : State) => match (pairAt s p).lp with
    | some lp =>
      barrierCheck (updLp s lp fun x => { x with owning := x.owning.filter fun e => e.blk / 4 ≠ line,
                                                 toFar := x.toFar.filter fun e => e.blk / 4 ≠ line }) lp
    | none => s
  match missAt s p line, l2Find s p line with
  | some m, l =>
    let s := endMiss s p line
    if m.kind = .rdS then s else drop (if l.isSome then l2Remove s p line else s)
  | none, some l =>
    if l.leaving then updPair (discardDirty s line) p fun x => { x with l2 := Tab.del x.l2 line } else drop s
  | none, none => drop s

/-- REQUESTER_TIMEOUT: no response for 4 ms, which only a lost or fenced home gives; the event names the requester's page. -/
def execRequesterTimeout (who : Agent) (line : Nat) (s : State) : Host.Outcome State Fault Refusal :=
  .next <|
    if homeHere s line || (s.mode.coupled.contains (linePkg line) && !s.fenced.contains (linePkg line)) then s
    else
      match who with
      | .pair p => lostEvent (pairTimeout s p line) who line ((pairAt s p).lp.map fun lp => lpPart s lp)
      | _ => lostEvent s who line none

end Sys2Proof.Machine
end

