-- ==== Sys2Proof/Machine/Links.lean ====
section
/-! DEFINITION. Coherence links (10 R255, R256), the loss of a link, and a fenced or departing package (10 R253, 19
R463). -/

namespace Sys2Proof.Machine

def linkAt (s : State) (l : Nat) : Link := vget s.links Link.reset l

def updLink (s : State) (l : Nat) (f : Link → Link) : State := { s with links := vset s.links l (f (linkAt s l)) }

/-- A link that exchanges flits. -/
def flitsFlow (k : Link) : Bool := k.up && !k.failed && !k.retraining

/-! ### Flits -/

/-- The 256 bytes of a flit, byte 0 first. -/
def flitRaw (f : BitVec 2048) : List Byte := beBytes 256 f.toNat

/-- Flits acknowledged by ACKSEQ, the last received in order, leave the replay buffer. -/
def ackFlits (k : Link) (seq : Nat) : Link :=
  match k.replayBuf.findIdx? fun e => e.seq.toNat = seq with
  | some i => { k with replayBuf := k.replayBuf.drop (i + 1) }
  | none => k

/-- Credits that a flit's header returns to a virtual channel (Table 10-8); an idle flit returns none. A channel number that
is none of the five of Table 10-7 has no meaning there. -/
def takeCredits (k : Link) (h : Nat) : Link :=
  let c := h / 2 ^ 21 % 8
  if h / 1024 % 4 = 1 || decide (c ≥ 5) then k
  else { k with returned := vset k.returned c (vget k.returned 0 c + h / 4096 % 512) }

/-- A flit received in order is taken, what it acknowledges released, and the credits it returns are counted; one out of order
is refused. -/
def takeFlit (s : State) (l h : Nat) : State :=
  let k := linkAt s l
  if h / 2 ^ 36 % 4096 ≠ k.rxSeq.toNat then emit (.nak l k.rxSeq.toNat) s
  else updLink s l fun k => { takeCredits (ackFlits k (h / 2 ^ 24 % 4096)) h with rxSeq := k.rxSeq + 1 }

/-- FLIT: the CRC is checked after FEC correction. The correcting codes are not given, so whether a flit that arrives
with a bad CRC is corrected is free (log 47), and so is then the rest of its header. By TYPE it carries messages, which are
commands of their own, nothing, credits alone, or a time transfer, which is one too (R30). -/
def execFlit (link : Fin 4) (flit : BitVec 2048) (s : State) : Host.Outcome State Fault Refusal :=
  let l := link.val
  let k := linkAt s l
  let bs := flitRaw flit
  let h := beVal (bs.take 6)
  .next <|
    if !flitsFlow k then s
    else if beVal ((bs.drop 246).take 4) = (crc32c (bs.take 246)).toNat then
      takeFlit s l h
    else if (freeNow s).toNat % 2 = 0 then emit (.nak l k.rxSeq.toNat) (taken s)
    else
      takeFlit (taken s 2) l (k.rxSeq.toNat * 2 ^ 36 + (Config.freeWord (s.freeCtr + 1)).toNat % 2 ^ 36)

/-- NAK: the sender replays from the refused flit, each replay counted. -/
def execNak (link : Fin 4) (seq : BitVec 12) (s : State) : Host.Outcome State Fault Refusal :=
  let l := link.val
  let k := linkAt s l
  .next <|
    if !flitsFlow k then s
    else
      match k.replayBuf.findIdx? fun e => e.seq = seq with
      | none => s
      | some i =>
        let again := k.replayBuf.drop i
        let s := updLink s l fun k => { k with replays := k.replays + again.length, replayBuf := again }
        emit (.replay l seq.toNat) (bump s (clinkPage l) 0x7C0 again.length)

/-- A retrain is counted and raises its event (R256, R257). -/
def retrainEvent (s : State) (l : Nat) : State :=
  logEvent (bump s (clinkPage l) 0x7C4) { page := clinkPage l, code := 0x20A4 }

/-- LINK_RETRAIN: more than 64 replays in one tick, or flit lock lost. -/
def execLinkRetrain (link : Fin 4) (lostLock : Bool) (s : State) : Host.Outcome State Fault Refusal :=
  let l := link.val
  let k := linkAt s l
  .next <|
    if !flitsFlow k || !(lostLock || decide (k.replays > 64)) then s
    else retrainEvent (updLink s l fun k => { k with retraining := true }) l

/-! ### A lost package (R253) -/

/-- A home poisons every line of which the lost package's die may have been the owner, and takes its dies out of
every other entry. -/
def fenceDir (s : State) (pkg : Nat) (poison : Bool) : State :=
  s.dir.foldl (fun s (e : Nat × DirEntry) =>
    let mine := e.2.dies.any fun d => d / 4 = pkg
    if !mine then s
    else if e.2.x && poison then dirFree (setPoison (discardDirty s e.1) e.1 true) e.1
    else
      let dies := e.2.dies.filter fun d => d / 4 ≠ pkg
      if dies.isEmpty && !e.2.ovf then dirFree s e.1
      else { s with dir := Tab.put s.dir e.1 { e.2 with dies := dies, x := false } }) s

/-- Open transactions: snoops to the package are answered with Ack, its requests and evictions discarded. -/
def fenceTxns (s : State) (pkg : Nat) : State :=
  let lost := fun (d : Nat) => d / 4 = pkg
  let gone := fun (a : Agent) => match a with | .remote d => decide (d.val / 4 = pkg) | _ => false
  let drop := fun (x : Slice) => ({ x with
    waiting := x.waiting.filter fun r => !gone r.who, reserve := x.reserve.filter fun r => !gone r.who,
    refused := x.refused.filter fun r => !gone r.1, tickets := x.tickets.filter fun t => !gone t.2.1 } : Slice)
  let s := { s with slices := s.slices.map fun (e : Nat × Slice) => (e.1, drop e.2) }
  s.txns.foldl (fun s (e : Nat × Txn) =>
    match txnAt s e.1 with
    | none => s
    | some t =>
      let t := { t with
        waitFor := t.waitFor.filter fun d => !lost d, crossing := t.crossing.filter fun d => !lost d,
        crossed := t.crossed.filter fun d => !lost d, parkedEvc := t.parkedEvc.filter fun d => !lost d,
        parkedWbm := t.parkedWbm.filter fun d => !lost d }
      let s := putTxn s e.1 t
      if gone t.req.who then endTxn s e.1 else homeSettle s e.1) s

/-- A surviving package fences another: with poison where the other was lost, without where it announced that its
writeback is complete. The event is raised by each home with lines of it. -/
def fencePkg (s : State) (pkg : Nat) (poison : Bool) : State :=
  if s.fenced.contains pkg || pkg = pkgId s then s
  else
    let sls := ((s.dir.filter fun e => e.2.dies.any fun d => d / 4 = pkg).map fun e => homeSlice s e.1).eraseDups
    let s := fenceDir { s with fenced := pkg :: s.fenced } pkg poison
    let s := sls.foldl (fun s sl => logEvent s { page := slicePage sl, code := 0x20A6 }) s
    fenceTxns s pkg

/-- A package to which no route is left: in directory mode the one with the higher number checkstops and the other
fences it; in broadcast mode every package checkstops. -/
def noRoute (s : State) (l pkg : Nat) : State :=
  if s.fenced.contains pkg || s.mode.mode = .checkstop then s
  else if !dirMode s || pkgId s > pkg then raise s { page := clinkPage l, code := 0x80A5 }
  else fencePkg s pkg true

/-- Flits a failed link held go by the alternate route of their package, each message whole; where there is none they are
dropped (R253, R256). -/
def moveFlits (s : State) (l : Nat) : State :=
  let buf := (linkAt s l).replayBuf
  let first := buf.head?.map (·.seq)
  let s := updLink s l fun k => { k with replayBuf := [] }
  buf.foldl (fun s e => if e.second && first != some e.seq then s else toPkgData e.name e.pkg e.dest e.line e.data s) s

/-- A link has failed: each package it served is reached by the alternate route, or has none. -/
def failLink (s : State) (l : Nat) : State :=
  let uses := fun (p : Nat) =>
    let r := cellField s mapPage 0x0C8 (8 * p) 8
    decide (p ≠ pkgId s) && s.mode.coupled.contains p && linkTo s p = some l && r.testBit 7
  let pkgs := (List.range 4).filter uses
  let s := updLink s l fun k => { k with up := false, retraining := false, failed := true }
  let back := pkgs.any fun p => (linkTo s p).isSome
  let s := if back then logEvent s { page := clinkPage l, code := 0x20A4 } else s
  timeLinkLost (moveFlits (pkgs.foldl (fun s p => if (linkTo s p).isSome then s else noRoute s l p) s) l) l

/-- LINK_RETRAIN_COMPLETE: the link resumes from its replay buffer, at x16 or x8; a retrain that fails is followed by another;
the third successive failure, or a retrain of more than 200 µs, fails the link. -/
def execLinkRetrainComplete (link : Fin 4) (ok : Bool) (x8 : Bool) (tookUs : Nat) (s : State) :
    Host.Outcome State Fault Refusal :=
  let l := link.val
  let k := linkAt s l
  .next <|
    if !k.retraining then s
    else if decide (tookUs > 200) || (!ok && decide (k.failedRetrains ≥ 2)) then failLink s l
    else if !ok then retrainEvent (updLink s l fun k => { k with failedRetrains := k.failedRetrains + 1 }) l
    else
      let s := updLink s l fun k => { k with retraining := false, x8 := x8, failedRetrains := 0, replays := 0 }
      match k.replayBuf with
      | [] => s
      | e :: _ => emit (.replay l e.seq.toNat) s

/-- LINK_FAILED: the link stops carrying traffic. -/
def execLinkFailed (link : Fin 4) (s : State) : Host.Outcome State Fault Refusal :=
  .next (if (linkAt s link.val).up && !(linkAt s link.val).failed then failLink s link.val else s)

/-- DEPARTURE_ANNOUNCEMENT: in directory mode a package that is not itself resetting fences the departing one without
poison; in broadcast mode the warm reset is carried to this package (R463). -/
def execDepartureAnnouncement (pkg : Fin 4) (s : State) : Host.Outcome State Fault Refusal :=
  .next <|
    if pkg.val = pkgId s || !s.mode.coupled.contains pkg.val || s.mode.transition = .warm then s
    else if dirMode s then fencePkg s pkg.val false
    else if warmAccepted s then warmBegin s else s

/-- Another package of the complex checkstops: it is fenced, with poison, in directory mode; in broadcast mode every package
checkstops (R253, R426). The spec names no code for that; 80A5h of the link toward it is taken (log 115). -/
def otherCheckstops (s : State) (pkg : Nat) : State :=
  if pkg = pkgId s || !s.mode.coupled.contains pkg || s.fenced.contains pkg || s.mode.mode = .checkstop ||
      s.mode.transition = .warm then s
  else if dirMode s then fencePkg s pkg true
  else raise s { page := clinkPage ((linkTo s pkg).getD 0), code := 0x80A5 }

/-- CHECKSTOP (R426): a class-4 event of a page of this package, or the checkstop of another package. -/
def execCheckstop (source : StopSource) (code : BitVec 16) (s : State) :
    Host.Outcome State Fault Refusal :=
  .next <|
    match source with
    | .package p => otherCheckstops s p.val
    | .page page =>
      if classOf code.toNat = 4 && pagePresent page.toNat && dieOn s (pageDie page.toNat)
      then raise s { page := page.toNat, code := code.toNat } else s

end Sys2Proof.Machine
end

