-- ==== Sys2Proof/Machine/Tick.lean ====
section
/-! DEFINITION. The Transit tick (02 R20, R33, R35, Table 2-3): the events of the tick boundary window in their order,
for every die of the package at once, and the counters that a tick steps elsewhere. -/

namespace Sys2Proof.Machine

/-! ### Cycle 0: the tick (R20, R28, R33) -/

/-- The Transit number and the time of day advance by one tick; PPS_OUT rises at a whole second. -/
def tickTime (s : State) : State :=
  let t := s.time
  let wraps := decide (t.steps + tickSteps ≥ secSteps)
  let s := updTime s fun t => { t with
    transit := t.transit + 1, steps := if wraps then 0 else t.steps + tickSteps,
    seconds := if wraps then t.seconds + 1 else t.seconds, read := max (t.read - tickSteps) (-tickSteps),
    ppsHigh := t.ppsHigh - 1 }
  tickTransfer (if wraps then risePps s else s)

/-- A tick echo says by how much a die's counter lags (R32). One that deviates by more than 2 ns: 2015h, and a Strike
not yet committed is cancelled. -/
def tickEcho (s : State) (echo : List Int) : State :=
  if s.err.degKeeper then s
  else
    (List.range 6).foldl (fun s d =>
      let e := echo.getD d 0
      let s := if dieOn s d then updTime s fun t => { t with dieOff := vset t.dieOff d e } else s
      if decide (-32 ≤ e ∧ e ≤ 32) || s.time.deviating.contains d || !dieOn s d then s
      else
        let s := todEvent (updTime s fun t => { t with deviating := d :: t.deviating }) 0x2015 d (BitVec.ofInt 64 e).toNat
        if s.strike.st = .armed then cancelStrike s 4 else s) s

/-! ### Cycle 2: BUDGET_USE (R49) -/

/-- The link port at the far end of a link port: the resource of the inbound direction. -/
def resInbound (die port : Nat) : Nat :=
  let far := (neighbours die).getD port 0
  resLink far (((neighbours far).findIdx? fun d => d = die).getD 0)

/-- Use of a resource by every activity, in 1/1024 of its capacity, rounded up. -/
def useShare (s : State) (res : Nat) : Nat :=
  let u := ((List.range 5).map fun a => budgetUse s a res).sum
  let c := capacity s res
  if c = 0 then 0 else (u * 1024 + c - 1) / c

/-- Resources a page owns and reports, with their RES codes. -/
def pageRes (die : Nat) : List (Nat × Nat) :=
  (if die < 4 then [(0, resRing die)] else []) ++
  (List.range (neighbours die).length).flatMap fun p => [(2 + 2 * p, resLink die p), (3 + 2 * p, resInbound die p)]

/-- BUDGET_USE of a page: the resource of the highest use, the lowest code among equals, and the activities held. -/
def useWord (s : State) (l : List (Nat × Nat)) : Nat :=
  let best := l.foldl (fun (b : Option (Nat × Nat)) r =>
    let u := useShare s r.2
    match b with
    | some x => if u > x.2 then some (r.1, u) else b
    | none => some (r.1, u)) none
  let held := ((List.range 5).map fun a =>
    if l.any fun r => Tab.look s.bud.held (budgetKey a r.2) = some true then 2 ^ (31 - a) else 0).sum
  match best with
  | some (c, u) => held + c * 65536 + u % 512
  | none => held

/-- Cycle 2: BUDGET_USE of every page is latched, the uses of the Almanac period added up, the counters zeroed. -/
def tickBudget (s : State) : State :=
  let put := fun (t : State) (p w : Nat) => setCell t (regKey p 0x028) (BitVec.ofNat 64 w)
  let t := (List.range 6).foldl (fun t d =>
    put t (budgetPage d) (useWord s (pageRes d))) s
  let t := (populated s).foldl (fun t c => put t (mcPage c) (useWord s [(0, resDram c)])) t
  let t := (List.range 7).foldl (fun t d =>
    let l := dieRes s d
    updAlm t d fun x => { x with use := (s.bud.use.filter fun e => l.contains (e.1 % 256)).foldl (fun u e =>
      Tab.write (fun _ => 0) u e.1 (Tab.read (fun _ => 0) u e.1 + e.2)) x.use }) t
  { t with bud := { t.bud with use := [], held := [] } }

/-! ### Cycle 8: a Strike (R73)

Only a checkstop prevents a committed one. -/

/-- A committed Strike for this tick is applied. Entry into Memory hold goes on as the processors stop. -/
def tickStrike (s : State) : State :=
  if s.strike.st = .committed then
    if s.strike.target = s.time.transit && s.mode.mode != .checkstop then afterStrike (applyStrike s) else s
  else if s.mode.transition = .hold then afterStrike s
  else s

/-! ### Cycle 12: refills (R39, R65, 15 R383) -/

/-- The lease steps, and every function may deliver its messages singly again. -/
def tickRefill (s : State) : State :=
  let s := if s.pen.holder.isSome then { s with pen := { s.pen with lease := s.pen.lease - 1 } } else s
  s.funcs.foldl (fun s (e : Nat × Func) =>
    let port := e.1 / 65536
    let rid := BitVec.ofNat 16 e.1
    match bindOf s port rid with
    | some n => updFunc s port rid fun f => { f with msixLeft := cellField s (pciePage port) (0x140 + 4 * n) 0 8 }
    | none => s) s

/-! ### Cycle 16: journal epochs close (13 R331) -/

/-- Every entry whose acknowledged progress has changed is rewritten. -/
def tickJournal (s : State) : State :=
  if s.mode.mode = .checkstop then s
  else
    (s.chan.ops.filter fun e => e.2.stage != .ended && e.2.acked != e.2.journalled && dieOn s (4 + e.2.die)).foldl
      (fun s e => jrnWrite s e.1 e.2 e.2.stage.code) s

/-! ### Cycle 20: channel paths (13 R333-R335, 21 R500) -/

/-- A HEARTBEAT of the complex: with INIT and the boot identifier while a path is brought up. -/
def sendBeat (s : State) (p : Nat) (init : Bool) : State :=
  emit (.frame p (frameBytes 5 p 0 0 0 s.chan.beat.toNat (if init then 0x100 else 0) 0 0 s.time.transit.toNat
    s.chan.bootId.toNat)) s

/-- SILENCE steps on every path that is defined, bad frames are forgotten, resynchronisation that is due is asked for,
and every twentieth tick HEARTBEATs leave. -/
def tickPaths (s : State) : State :=
  let beat := decide (s.time.transit.toNat % 20 = 0)
  let s := if beat then { s with chan := { s.chan with beat := s.chan.beat + 1 } } else s
  let s := s.chan.paths.foldl (fun s (e : Nat × Path) =>
    let p := e.1
    if e.2.st = .none then s
    else
      let s := updPath s p fun x => { x with
        silence := if x.st = .up then min 60 (x.silence + 1) else x.silence, sinceBeat := x.sinceBeat + 1, bad := 0,
        resyncDue := false }
      let s := if e.2.resyncDue && e.2.st = .up then
          (s.chan.ops.filter fun o => o.2.path = p).foldl (fun s o => sendResync s o.1) s
        else s
      if beat && pathLinked s p then sendBeat s p (e.2.st = .init) else s) s
  { s with chan := { s.chan with
      revoked := s.chan.revoked.filter fun r => decide (s.time.transit.toNat ≤ r.2.2 + 10),
      ops := s.chan.ops.map fun (e : Nat × Op) =>
        (if e.2.stage = .waiting then (e.1, { e.2 with waited := e.2.waited + 1 }) else e) } }

/-! ### Cycle 24: attentions, measurements, ageing (17 R419, 20 R481, R483, R491-R496) -/

/-- Attention outputs follow the pointers. -/
def tickAttention (s : State) : State :=
  if !keeperRuns s then s else { s with err := { s.err with attnA := s.err.rpA != s.err.wp, attnB := s.err.rpB != s.err.wp } }

/-- exp(x / 2^64) in units of 2^-64, for x below 2^67, by its series. -/
def expFix (x : Nat) : Nat :=
  ((List.range 64).foldl (fun (a : Nat × Nat) i =>
    let t := a.1 * x / ((i + 1) * 2 ^ 64)
    (t, a.2 + t)) (2 ^ 64, 2 ^ 64)).2

/-- The ageing of one tick at a junction temperature, in units of 2^-32 of a tick at 80 °C (R494, log 49). -/
def ageStep (tj : Nat) : Nat :=
  let a := 812300 * 2 ^ 64 / 35315
  let b := 812300 * 2 ^ 64 / (100 * tj + 27315)
  if a ≥ b then expFix (a - b) / 2 ^ 32 else 2 ^ 96 / expFix (b - a)

/-- A feed after a tick: a change of its status input breaks its quiet, being in range counts toward its repair. -/
def tickFeed (s : State) (b : Bool) : State :=
  updFeed s b fun x => { x with
    changes := 0, quiet := if x.changes = 0 then x.quiet + 1 else 0,
    repair := if x.st = .repairing then (if inRange s x then x.repair + 1 else 0) else x.repair }

/-- The measurements of a tick; 01A7h and 21A8h once an excursion. -/
def tickMeasure (s : State) (inp : TickIn) : State :=
  if !keeperRuns s then s else
  let tj := Vector.ofFn fun d : Fin 7 => if dieOn s d.val then min 254 (inp.temps.getD d.val 0) else 255
  let tmax := ((List.range 7).filter fun d => dieOn s d).foldl (fun m d => max m (vget tj 0 d)) 0
  let f := s.feed
  let vsb := field inp.mv 16 16
  let s := { s with feed := { f with
    mv := inp.mv, pwr := inp.pwr, vsbOk := decide (1700 ≤ vsb ∧ vsb ≤ 3600), tj := tj,
    hot := Vector.ofFn fun d : Fin 7 =>
      if dieOn s d.val && decide (vget tj 0 d.val ≥ 110) then vget f.hot 0 d.val + 1 else 0,
    age := Vector.ofFn fun d : Fin 7 => f.age[d] + (if dieOn s d.val then ageStep (vget tj 0 d.val) else 0),
    over90 := if tmax < 85 then false else f.over90 || decide (tmax ≥ 90),
    over95 := if tmax < 85 then false else f.over95 || decide (tmax ≥ 95) } }
  let s := if tmax ≥ 90 && !f.over90 then feedEvent s 0x01A7 0 else s
  let s := if tmax ≥ 95 && !f.over95 then feedEvent s 0x21A8 0 else s
  tickFeed (tickFeed s false) true

/-! ### Counters that a tick steps -/

/-- The resources of a class of R43, by its number (Budget.lean), and the capacity of one of them per tick. -/
def fgClass (s : State) (cls : Nat) : List Nat × Nat :=
  match cls with
  | 0 => (populated s, dramC (cellField s mapPage 0x040 30 2))
  | 1 => (List.range 96, Config.sliceCapacity)
  | _ => ((List.range 6).flatMap fun d => (List.range (neighbours d).length).map fun p => d * 8 + p, 156250)

/-- Foreground traffic of a resource in the closing tick. -/
def fgOf (s : State) (cls i : Nat) : Nat := Tab.read (fun _ => 0) s.bud.fg (fgKey cls i)

/-- Traffic imbalance of one class (R43): a resource with more than four times the class mean adds to its run, another
ends it; a class that carries less than 1/16 of its capacity neither counts nor breaks a run. -/
def imbalanceOf (s : State) (cls : Nat) : State :=
  let c := fgClass s cls
  let total := (c.1.map (fgOf s cls)).sum
  if total = 0 then s
  else if total * 16 < c.1.length * c.2 then s
  else
    let hot := fun (i : Nat) => decide (fgOf s cls i * c.1.length > 4 * total)
    c.1.foldl (fun s i =>
      let k := fgKey cls i
      let n := if hot i then Tab.read (fun _ => 0) s.bud.run k + 1 else 0
      { s with bud := { s.bud with
          run := Tab.write (fun _ => 0) s.bud.run k n,
          raised := if hot i then s.bud.raised else s.bud.raised.filter (· ≠ k) } }) s

/-- Every class is compared, and the counts of the closing tick are zeroed. -/
def tickImbalance (s : State) : State :=
  let s := [0, 1, 2].foldl imbalanceOf s
  { s with bud := { s.bud with fg := [] } }

/-- Pre-cleaning: dirty lines of the pair a rotation moves from are written back, and stay in E, within the Wear
budget (11 R276, R514). -/
def tickClean (s : State) : State :=
  match s.rotation with
  | none => s
  | some r =>
    if r.stage ≠ .cleaning || !running s || s.mode.quiesce then s
    else
      let s := { s with rotation := some { r with ticks := r.ticks + 1 } }
      let d := r.src.val / 12
      ((dirtyLines s r.src).foldl (fun (acc : State × Bool) line =>
        if !acc.2 then acc
        else
          let t := acc.1
          match spend t .wear (dramCost t line ++ lineCost d (toward t line)) with
          | (t, true) => (cleanLine t r.src line, true)
          | (t, false) => (t, false)) (s, true)).1

/-- Rotations, updates, engines, channels and pairs count the tick, and what is allowed once a tick is allowed again. -/
def tickCounters (s : State) : State :=
  let s := { s with
    rotAge := s.rotAge + 1, rotRetry := s.rotRetry.map fun n => n - 1,
    cs := { s.cs with gap := s.cs.gap - 1, still := if s.cs.updating then s.cs.still + 1 else 0 },
    pairs := s.pairs.map fun x =>
      if x.role = .active && x.powered then { x with activeTicks := x.activeTicks + 1 } else x,
    eng := { s.eng with
      zips := s.eng.zips.map fun e => { e with restarting := false },
      crypts := s.eng.crypts.map fun e => { e with restarting := false },
      drbg := s.eng.drbg.map fun d => { d with ticks := d.ticks + 1 } },
    sideA := { s.sideA with reads := 0 }, sideB := { s.sideB with reads := 0 },
    err := { s.err with once := [] }, onceTick := [],
    mcs := s.mcs.map fun m => { m with retries := 0 },
    links := s.links.map fun k => { k with replays := 0 } }
  endUpdate s

/-- TRANSIT_TICK. -/
def execTransitTick (inp : TickIn) (s : State) : Host.Outcome State Fault Refusal :=
  .next <|
    if s.mode.mode = .off then s
    else
      let s := tickCounters s
      let s := if running s then all48.foldl meterCycles s else s
      let s := tickEcho (tickTime s) inp.echo
      let s := meterSnap s
      let s := if dieOn s 5 && s.mode.mode != .checkstop then allParts.foldl meterRecord s else s
      let s := tickStrike (tickBudget s)
      let s := meterGranules (meterTicks s)
      let s := tickPaths (tickJournal (portsGoOn (tickRefill s)))
      let s := tickMeasure (tickAttention s) inp
      let s := if s.mode.mode = .checkstop then s else (List.range 7).foldl almTick s
      tickClean (tickImbalance s)

end Sys2Proof.Machine
end

