-- ==== Sys2Proof/Machine/Dispatch.lean ====
section
/-! DEFINITION. The dispatch of a command to its meaning, one arm a row of the command table. -/

namespace Sys2Proof.Machine

/-- The effect of a command on everything but the queue. -/
def exec (i : Instr) (s : State) : Host.Outcome State Fault Refusal :=
  match i with
  | .transitTick inp => Sys2Proof.Machine.execTransitTick inp s
  | .dieRealignmentComplete die => Sys2Proof.Machine.execDieRealignmentComplete die s
  | .laneRemap link inbound => Sys2Proof.Machine.execLaneRemap link inbound s
  | .imbalanceEvent cls index => Sys2Proof.Machine.execImbalanceEvent cls index s
  | .ppsEdge inputB off highNs => Sys2Proof.Machine.execPpsEdge inputB off highNs s
  | .ppsQualificationLoss inputB off => Sys2Proof.Machine.execPpsQualificationLoss inputB off s
  | .reacquireTimeout => Sys2Proof.Machine.execReacquireTimeout s
  | .timeCodeMessage msg sinceEdgeMs framing => Sys2Proof.Machine.execTimeCodeMessage msg sinceEdgeMs framing s
  | .timeCodeOutput => Sys2Proof.Machine.execTimeCodeOutput s
  | .timeTransferMessage link out back => Sys2Proof.Machine.execTimeTransferMessage link out back s
  | .keeperDieLoss => Sys2Proof.Machine.execKeeperDieLoss s
  | .oscillatorInputLost => Sys2Proof.Machine.execOscillatorInputLost s
  | .oscillatorInputRestored => Sys2Proof.Machine.execOscillatorInputRestored s
  | .almanacRecordWritten die => Sys2Proof.Machine.execAlmanacRecordWritten die s
  | .registerWrite m off size v => Sys2Proof.Machine.execRegisterWrite m off size v s
  | .draftWrite m off size v => Sys2Proof.Machine.execDraftWrite m off size v s
  | .errClear m page => Sys2Proof.Machine.execErrClear m page s
  | .penTake contenders => Sys2Proof.Machine.execPenTake contenders s
  | .penRelease m => Sys2Proof.Machine.execPenRelease m s
  | .penBreak m => Sys2Proof.Machine.execPenBreak m s
  | .penRenew m => Sys2Proof.Machine.execPenRenew m s
  | .leaseExpiry => Sys2Proof.Machine.execLeaseExpiry s
  | .proofStart m => Sys2Proof.Machine.execProofStart m s
  | .proofComplete => Sys2Proof.Machine.execProofComplete s
  | .strikeAtTick m cycle => Sys2Proof.Machine.execStrikeAtTick m cycle s
  | .strikeAtE m cycle => Sys2Proof.Machine.execStrikeAtE m cycle s
  | .strikeCancel m => Sys2Proof.Machine.execStrikeCancel m s
  | .armAcknowledgement die => Sys2Proof.Machine.execArmAcknowledgement die s
  | .quiesceEntry => Sys2Proof.Machine.execQuiesceEntry s
  | .unitQuiesced unit => Sys2Proof.Machine.execUnitQuiesced unit s
  | .strikeAckDeadline => Sys2Proof.Machine.execStrikeAckDeadline s
  | .strikeCommit => Sys2Proof.Machine.execStrikeCommit s
  | .quiesceExit => Sys2Proof.Machine.execQuiesceExit s
  | .sidebandPointerWrite portB bytes => Sys2Proof.Machine.execSidebandPointerWrite portB bytes s
  | .sidebandRead portB => Sys2Proof.Machine.execSidebandRead portB s
  | .add lp d a b c => Sys2Proof.Machine.execAdd lp d a b c s
  | .sub lp d a b c => Sys2Proof.Machine.execSub lp d a b c s
  | .addc lp d a b c => Sys2Proof.Machine.execAddc lp d a b c s
  | .subc lp d a b c => Sys2Proof.Machine.execSubc lp d a b c s
  | .and lp d a b c => Sys2Proof.Machine.execAnd lp d a b c s
  | .or lp d a b c => Sys2Proof.Machine.execOr lp d a b c s
  | .xor lp d a b c => Sys2Proof.Machine.execXor lp d a b c s
  | .andn lp d a b c => Sys2Proof.Machine.execAndn lp d a b c s
  | .orn lp d a b c => Sys2Proof.Machine.execOrn lp d a b c s
  | .xnor lp d a b c => Sys2Proof.Machine.execXnor lp d a b c s
  | .sll lp d a b c => Sys2Proof.Machine.execSll lp d a b c s
  | .srl lp d a b c => Sys2Proof.Machine.execSrl lp d a b c s
  | .sra lp d a b c => Sys2Proof.Machine.execSra lp d a b c s
  | .rol lp d a b c => Sys2Proof.Machine.execRol lp d a b c s
  | .clz lp d a b c => Sys2Proof.Machine.execClz lp d a b c s
  | .ctz lp d a b c => Sys2Proof.Machine.execCtz lp d a b c s
  | .popc lp d a b c => Sys2Proof.Machine.execPopc lp d a b c s
  | .extb lp d a b c => Sys2Proof.Machine.execExtb lp d a b c s
  | .exth lp d a b c => Sys2Proof.Machine.execExth lp d a b c s
  | .extw lp d a b c => Sys2Proof.Machine.execExtw lp d a b c s
  | .cmpeq lp d a b c => Sys2Proof.Machine.execCmpeq lp d a b c s
  | .cmpne lp d a b c => Sys2Proof.Machine.execCmpne lp d a b c s
  | .cmplt lp d a b c => Sys2Proof.Machine.execCmplt lp d a b c s
  | .cmpltu lp d a b c => Sys2Proof.Machine.execCmpltu lp d a b c s
  | .cmple lp d a b c => Sys2Proof.Machine.execCmple lp d a b c s
  | .cmpleu lp d a b c => Sys2Proof.Machine.execCmpleu lp d a b c s
  | .sel lp d a b c => Sys2Proof.Machine.execSel lp d a b c s
  | .dadj lp d a b c => Sys2Proof.Machine.execDadj lp d a b c s
  | .mul lp d a b c => Sys2Proof.Machine.execMul lp d a b c s
  | .mulwu lp d a b c => Sys2Proof.Machine.execMulwu lp d a b c s
  | .mulws lp d a b c => Sys2Proof.Machine.execMulws lp d a b c s
  | .mulq lp d a b c => Sys2Proof.Machine.execMulq lp d a b c s
  | .divs lp d a b c => Sys2Proof.Machine.execDivs lp d a b c s
  | .divu lp d a b c => Sys2Proof.Machine.execDivu lp d a b c s
  | .jr lp d a b c => Sys2Proof.Machine.execJr lp d a b c s
  | .lbu lp t b disp => Sys2Proof.Machine.execLbu lp t b disp s
  | .lbs lp t b disp => Sys2Proof.Machine.execLbs lp t b disp s
  | .lhu lp t b disp => Sys2Proof.Machine.execLhu lp t b disp s
  | .lhs lp t b disp => Sys2Proof.Machine.execLhs lp t b disp s
  | .lwu lp t b disp => Sys2Proof.Machine.execLwu lp t b disp s
  | .lws lp t b disp => Sys2Proof.Machine.execLws lp t b disp s
  | .ld lp t b disp => Sys2Proof.Machine.execLd lp t b disp s
  | .ldup lp t b disp => Sys2Proof.Machine.execLdup lp t b disp s
  | .stb lp t b disp => Sys2Proof.Machine.execStb lp t b disp s
  | .sth lp t b disp => Sys2Proof.Machine.execSth lp t b disp s
  | .stw lp t b disp => Sys2Proof.Machine.execStw lp t b disp s
  | .std lp t b disp => Sys2Proof.Machine.execStd lp t b disp s
  | .stdup lp t b disp => Sys2Proof.Machine.execStdup lp t b disp s
  | .lfs lp t b disp => Sys2Proof.Machine.execLfs lp t b disp s
  | .lfd lp t b disp => Sys2Proof.Machine.execLfd lp t b disp s
  | .lfq lp t b disp => Sys2Proof.Machine.execLfq lp t b disp s
  | .stfs lp t b disp => Sys2Proof.Machine.execStfs lp t b disp s
  | .stfd lp t b disp => Sys2Proof.Machine.execStfd lp t b disp s
  | .stfq lp t b disp => Sys2Proof.Machine.execStfq lp t b disp s
  | .ldua lp t b disp => Sys2Proof.Machine.execLdua lp t b disp s
  | .stua lp t b disp => Sys2Proof.Machine.execStua lp t b disp s
  | .addi lp d a imm => Sys2Proof.Machine.execAddi lp d a imm s
  | .addis lp d a imm => Sys2Proof.Machine.execAddis lp d a imm s
  | .andi lp d a imm => Sys2Proof.Machine.execAndi lp d a imm s
  | .ori lp d a imm => Sys2Proof.Machine.execOri lp d a imm s
  | .xori lp d a imm => Sys2Proof.Machine.execXori lp d a imm s
  | .cmpeqi lp d a imm => Sys2Proof.Machine.execCmpeqi lp d a imm s
  | .cmplti lp d a imm => Sys2Proof.Machine.execCmplti lp d a imm s
  | .cmpltui lp d a imm => Sys2Proof.Machine.execCmpltui lp d a imm s
  | .shi lp d a imm => Sys2Proof.Machine.execShi lp d a imm s
  | .bz lp t disp => Sys2Proof.Machine.execBz lp t disp s
  | .bnz lp t disp => Sys2Proof.Machine.execBnz lp t disp s
  | .bal lp t disp => Sys2Proof.Machine.execBal lp t disp s
  | .fenceL lp d a b c => Sys2Proof.Machine.execFenceL lp d a b c s
  | .fenceS lp d a b c => Sys2Proof.Machine.execFenceS lp d a b c s
  | .fenceA lp d a b c => Sys2Proof.Machine.execFenceA lp d a b c s
  | .rdtod lp d a b c off => Sys2Proof.Machine.execRdtod lp d a b c off s
  | .rdtick lp d a b c => Sys2Proof.Machine.execRdtick lp d a b c s
  | .mfc lp d a b c => Sys2Proof.Machine.execMfc lp d a b c s
  | .mtc lp d a b c => Sys2Proof.Machine.execMtc lp d a b c s
  | .rfe lp d a b c => Sys2Proof.Machine.execRfe lp d a b c s
  | .mcall lp d a b c => Sys2Proof.Machine.execMcall lp d a b c s
  | .svc lp d a imm => Sys2Proof.Machine.execSvc lp d a imm s
  | .repI lp n low body => Sys2Proof.Machine.execRepI lp n low body s
  | .repN lp n low body => Sys2Proof.Machine.execRepN lp n low body s
  | .smov lp rg l1 l2 b1 d1 b2 d2 => Sys2Proof.Machine.execSmov lp rg l1 l2 b1 d1 b2 d2 s
  | .scmp lp rg l1 l2 b1 d1 b2 d2 => Sys2Proof.Machine.execScmp lp rg l1 l2 b1 d1 b2 d2 s
  | .sxor lp rg l1 l2 b1 d1 b2 d2 => Sys2Proof.Machine.execSxor lp rg l1 l2 b1 d1 b2 d2 s
  | .dadd lp rg l1 l2 b1 d1 b2 d2 => Sys2Proof.Machine.execDadd lp rg l1 l2 b1 d1 b2 d2 s
  | .dsub lp rg l1 l2 b1 d1 b2 d2 => Sys2Proof.Machine.execDsub lp rg l1 l2 b1 d1 b2 d2 s
  | .dmul lp rg l1 l2 b1 d1 b2 d2 => Sys2Proof.Machine.execDmul lp rg l1 l2 b1 d1 b2 d2 s
  | .ddiv lp rg l1 l2 b1 d1 b2 d2 => Sys2Proof.Machine.execDdiv lp rg l1 l2 b1 d1 b2 d2 s
  | .dcmp lp rg l1 l2 b1 d1 b2 d2 => Sys2Proof.Machine.execDcmp lp rg l1 l2 b1 d1 b2 d2 s
  | .dshr lp rg l1 l2 b1 d1 b2 d2 => Sys2Proof.Machine.execDshr lp rg l1 l2 b1 d1 b2 d2 s
  | .dcopy lp rg l1 l2 b1 d1 b2 d2 => Sys2Proof.Machine.execDcopy lp rg l1 l2 b1 d1 b2 d2 s
  | .dztp lp rg l1 l2 b1 d1 b2 d2 => Sys2Proof.Machine.execDztp lp rg l1 l2 b1 d1 b2 d2 s
  | .dptz lp rg l1 l2 b1 d1 b2 d2 => Sys2Proof.Machine.execDptz lp rg l1 l2 b1 d1 b2 d2 s
  | .dtob lp rg l1 l2 b1 d1 b2 d2 => Sys2Proof.Machine.execDtob lp rg l1 l2 b1 d1 b2 d2 s
  | .dfrb lp rg l1 l2 b1 d1 b2 d2 => Sys2Proof.Machine.execDfrb lp rg l1 l2 b1 d1 b2 d2 s
  | .faddD lp d a b c => Sys2Proof.Machine.execFaddD lp d a b c s
  | .faddQ lp d a b c => Sys2Proof.Machine.execFaddQ lp d a b c s
  | .fsubD lp d a b c => Sys2Proof.Machine.execFsubD lp d a b c s
  | .fsubQ lp d a b c => Sys2Proof.Machine.execFsubQ lp d a b c s
  | .fmulD lp d a b c => Sys2Proof.Machine.execFmulD lp d a b c s
  | .fmulQ lp d a b c => Sys2Proof.Machine.execFmulQ lp d a b c s
  | .fdivD lp d a b c => Sys2Proof.Machine.execFdivD lp d a b c s
  | .fdivQ lp d a b c => Sys2Proof.Machine.execFdivQ lp d a b c s
  | .fsqrtD lp d a b c => Sys2Proof.Machine.execFsqrtD lp d a b c s
  | .fsqrtQ lp d a b c => Sys2Proof.Machine.execFsqrtQ lp d a b c s
  | .fmaD lp d a b c => Sys2Proof.Machine.execFmaD lp d a b c s
  | .fmaQ lp d a b c => Sys2Proof.Machine.execFmaQ lp d a b c s
  | .fmsD lp d a b c => Sys2Proof.Machine.execFmsD lp d a b c s
  | .fmsQ lp d a b c => Sys2Proof.Machine.execFmsQ lp d a b c s
  | .fcmpeq lp q d a b c => Sys2Proof.Machine.execFcmpeq lp q d a b c s
  | .fcmplt lp q d a b c => Sys2Proof.Machine.execFcmplt lp q d a b c s
  | .fcmple lp q d a b c => Sys2Proof.Machine.execFcmple lp q d a b c s
  | .fcmpun lp q d a b c => Sys2Proof.Machine.execFcmpun lp q d a b c s
  | .fmin lp q d a b c => Sys2Proof.Machine.execFmin lp q d a b c s
  | .fmax lp q d a b c => Sys2Proof.Machine.execFmax lp q d a b c s
  | .fmvf lp d a b c => Sys2Proof.Machine.execFmvf lp d a b c s
  | .fmvgh lp d a b c => Sys2Proof.Machine.execFmvgh lp d a b c s
  | .fmvgl lp d a b c => Sys2Proof.Machine.execFmvgl lp d a b c s
  | .fneg lp d a b c => Sys2Proof.Machine.execFneg lp d a b c s
  | .fabs lp d a b c => Sys2Proof.Machine.execFabs lp d a b c s
  | .fcpysgn lp d a b c => Sys2Proof.Machine.execFcpysgn lp d a b c s
  | .fmov lp d a b c => Sys2Proof.Machine.execFmov lp d a b c s
  | .fcvt lp k d a b c => Sys2Proof.Machine.execFcvt lp k d a b c s
  | .fcvti lp q d a b c => Sys2Proof.Machine.execFcvti lp q d a b c s
  | .fcvtu lp q d a b c => Sys2Proof.Machine.execFcvtu lp q d a b c s
  | .fcvtf lp q d a b c => Sys2Proof.Machine.execFcvtf lp q d a b c s
  | .fcvtfu lp q d a b c => Sys2Proof.Machine.execFcvtfu lp q d a b c s
  | .ftopd lp q d a b c => Sys2Proof.Machine.execFtopd lp q d a b c s
  | .ffrpd lp q d a b c => Sys2Proof.Machine.execFfrpd lp q d a b c s
  | .mffpc lp d a b c => Sys2Proof.Machine.execMffpc lp d a b c s
  | .mtfpc lp d a b c => Sys2Proof.Machine.execMtfpc lp d a b c s
  | .ldrsv lp d a b c => Sys2Proof.Machine.execLdrsv lp d a b c s
  | .stcnd lp d a b c => Sys2Proof.Machine.execStcnd lp d a b c s
  | .cswp lp d a b c => Sys2Proof.Machine.execCswp lp d a b c s
  | .fadd lp d a b c => Sys2Proof.Machine.execFadd lp d a b c s
  | .ccln lp d a b c => Sys2Proof.Machine.execCcln lp d a b c s
  | .cinv lp d a b c => Sys2Proof.Machine.execCinv lp d a b c s
  | .ccli lp d a b c => Sys2Proof.Machine.execCcli lp d a b c s
  | .crange lp d a b c => Sys2Proof.Machine.execCrange lp d a b c s
  | .crstat lp d a b c => Sys2Proof.Machine.execCrstat lp d a b c s
  | .tlbiVa lp d a b c => Sys2Proof.Machine.execTlbiVa lp d a b c s
  | .tlbiAsid lp d a b c => Sys2Proof.Machine.execTlbiAsid lp d a b c s
  | .tlbiPart lp d a b c => Sys2Proof.Machine.execTlbiPart lp d a b c s
  | .iostart lp d a b c => Sys2Proof.Machine.execIostart lp d a b c s
  | .iohalt lp d a b c => Sys2Proof.Machine.execIohalt lp d a b c s
  | .ioclear lp d a b c => Sys2Proof.Machine.execIoclear lp d a b c s
  | .iotest lp d a b c => Sys2Proof.Machine.execIotest lp d a b c s
  | .iostore lp d a b c => Sys2Proof.Machine.execIostore lp d a b c s
  | .iomodify lp d a b c => Sys2Proof.Machine.execIomodify lp d a b c s
  | .accessedDirtyUpdate lp va store expected => Sys2Proof.Machine.execAccessedDirtyUpdate lp va store expected s
  | .checkpointClose lp => Sys2Proof.Machine.execCheckpointClose lp s
  | .intervalLimit lp => Sys2Proof.Machine.execIntervalLimit lp s
  | .releasedEntryDrain lp => Sys2Proof.Machine.execReleasedEntryDrain lp s
  | .deviceStore lp rid => Sys2Proof.Machine.execDeviceStore lp rid s
  | .deviceLoad lp rid => Sys2Proof.Machine.execDeviceLoad lp rid s
  | .creditTimeout port rid => Sys2Proof.Machine.execCreditTimeout port rid s
  | .deviceLoadTimeout lp => Sys2Proof.Machine.execDeviceLoadTimeout lp s
  | .containmentComplete port rid => Sys2Proof.Machine.execContainmentComplete port rid s
  | .postedWrite port rid pasid addr data => Sys2Proof.Machine.execPostedWrite port rid pasid addr data s
  | .dmaRequest port rid pasid addr write len data => Sys2Proof.Machine.execDmaRequest port rid pasid addr write len data s
  | .msixMessage port rid data => Sys2Proof.Machine.execMsixMessage port rid data s
  | .prefetch lp va store => Sys2Proof.Machine.execPrefetch lp va store s
  | .l2Eviction pair line => Sys2Proof.Machine.execL2Eviction pair line s
  | .burinSet die => Sys2Proof.Machine.execBurinSet die s
  | .burinComplete die => Sys2Proof.Machine.execBurinComplete die s
  | .rds who line => Sys2Proof.Machine.execRds who line s
  | .rdo who line => Sys2Proof.Machine.execRdo who line s
  | .upg who line => Sys2Proof.Machine.execUpg who line s
  | .rdna who line => Sys2Proof.Machine.execRdna who line s
  | .wrl who line data poisoned => Sys2Proof.Machine.execWrl who line data poisoned s
  | .wrp who line offset data compare poisoned => Sys2Proof.Machine.execWrp who line offset data compare poisoned s
  | .evc who line => Sys2Proof.Machine.execEvc who line s
  | .wbm who line => Sys2Proof.Machine.execWbm who line s
  | .snps die line => Sys2Proof.Machine.execSnps die line s
  | .snpo die line => Sys2Proof.Machine.execSnpo die line s
  | .snpna die line probe => Sys2Proof.Machine.execSnpna die line probe s
  | .crossed die line => Sys2Proof.Machine.execCrossed die line s
  | .ack pair line shared hold stale cmpok poison => Sys2Proof.Machine.execAck pair line shared hold stale cmpok poison s
  | .retry pair line => Sys2Proof.Machine.execRetry pair line s
  | .retryReissue pair line => Sys2Proof.Machine.execRetryReissue pair line s
  | .ticketPassOver slice => Sys2Proof.Machine.execTicketPassOver slice s
  | .compack line => Sys2Proof.Machine.execCompack line s
  | .mrd line badDevices => Sys2Proof.Machine.execMrd line badDevices s
  | .mgo line => Sys2Proof.Machine.execMgo line s
  | .mdrop line => Sys2Proof.Machine.execMdrop line s
  | .mwr line => Sys2Proof.Machine.execMwr line s
  | .dataFill pair line => Sys2Proof.Machine.execDataFill pair line s
  | .directoryProbe line => Sys2Proof.Machine.execDirectoryProbe line s
  | .transactionHold line => Sys2Proof.Machine.execTransactionHold line s
  | .snoopTimeout line => Sys2Proof.Machine.execSnoopTimeout line s
  | .requesterTimeout who line => Sys2Proof.Machine.execRequesterTimeout who line s
  | .flit link flit => Sys2Proof.Machine.execFlit link flit s
  | .nak link seq => Sys2Proof.Machine.execNak link seq s
  | .linkRetrain link lostLock => Sys2Proof.Machine.execLinkRetrain link lostLock s
  | .linkRetrainComplete link ok x8 tookUs => Sys2Proof.Machine.execLinkRetrainComplete link ok x8 tookUs s
  | .linkFailed link => Sys2Proof.Machine.execLinkFailed link s
  | .departureAnnouncement pkg => Sys2Proof.Machine.execDepartureAnnouncement pkg s
  | .mismatch pair kind slice sinceEdge => Sys2Proof.Machine.execMismatch pair kind slice sinceEdge s
  | .retryRestart pair => Sys2Proof.Machine.execRetryRestart pair s
  | .domainPowerUpComplete dom => Sys2Proof.Machine.execDomainPowerUpComplete dom s
  | .sparingWritebackComplete pair => Sys2Proof.Machine.execSparingWritebackComplete pair s
  | .checkpointCopyComplete pair => Sys2Proof.Machine.execCheckpointCopyComplete pair s
  | .sparingResume pair => Sys2Proof.Machine.execSparingResume pair s
  | .rotationPeriodExpiry => Sys2Proof.Machine.execRotationPeriodExpiry s
  | .beginRotation m arg => Sys2Proof.Machine.execBeginRotation m arg s
  | .preCleaningEnd => Sys2Proof.Machine.execPreCleaningEnd s
  | .rotationSwitch => Sys2Proof.Machine.execRotationSwitch s
  | .rotationResume => Sys2Proof.Machine.execRotationResume s
  | .rotationRetry => Sys2Proof.Machine.execRotationRetry s
  | .debugHalt m pair => Sys2Proof.Machine.execDebugHalt m pair s
  | .haltDone pair => Sys2Proof.Machine.execHaltDone pair s
  | .debugStep m pair => Sys2Proof.Machine.execDebugStep m pair s
  | .debugResume m pair => Sys2Proof.Machine.execDebugResume m pair s
  | .checkpointWindowWrite m pair off size v => Sys2Proof.Machine.execCheckpointWindowWrite m pair off size v s
  | .taken m pair => Sys2Proof.Machine.execTaken m pair s
  | .interruptOfferExpiry lp => Sys2Proof.Machine.execInterruptOfferExpiry lp s
  | .ioInterruption lp => Sys2Proof.Machine.execIoInterruption lp s
  | .tickCompare lp => Sys2Proof.Machine.execTickCompare lp s
  | .signal lp => Sys2Proof.Machine.execSignal lp s
  | .partitionChanged lp => Sys2Proof.Machine.execPartitionChanged lp s
  | .machineCheck lp => Sys2Proof.Machine.execMachineCheck lp s
  | .signalStore lp page off size v => Sys2Proof.Machine.execSignalStore lp page off size v s
  | .commandWordFetch sch => Sys2Proof.Machine.execCommandWordFetch sch s
  | .finalStatus sch => Sys2Proof.Machine.execFinalStatus sch s
  | .nopathWaitExpiry sch => Sys2Proof.Machine.execNopathWaitExpiry sch s
  | .ackFrame path rid frame => Sys2Proof.Machine.execAckFrame path rid frame s
  | .statusFrame path rid frame => Sys2Proof.Machine.execStatusFrame path rid frame s
  | .heartbeat path rid frame => Sys2Proof.Machine.execHeartbeat path rid frame s
  | .resync path rid frame => Sys2Proof.Machine.execResync path rid frame s
  | .inboundFrameDiscard path rid frame => Sys2Proof.Machine.execInboundFrameDiscard path rid frame s
  | .adapterDma port rid addr write len data => Sys2Proof.Machine.execAdapterDma port rid addr write len data s
  | .pathFailed path cause => Sys2Proof.Machine.execPathFailed path cause s
  | .cpStop cp => Sys2Proof.Machine.execCpStop cp s
  | .cpTakeoverComplete cp => Sys2Proof.Machine.execCpTakeoverComplete cp s
  | .jqTail ctx die q v => Sys2Proof.Machine.execJqTail ctx die q v s
  | .jqCtl ctx die q v => Sys2Proof.Machine.execJqCtl ctx die q v s
  | .descriptorDispatch die => Sys2Proof.Machine.execDescriptorDispatch die s
  | .deflateCompress job => Sys2Proof.Machine.execDeflateCompress job s
  | .deflateDecompress job => Sys2Proof.Machine.execDeflateDecompress job s
  | .zstandardCompress job => Sys2Proof.Machine.execZstandardCompress job s
  | .zstandardDecompress job => Sys2Proof.Machine.execZstandardDecompress job s
  | .aesGcmEncrypt job => Sys2Proof.Machine.execAesGcmEncrypt job s
  | .aesGcmDecrypt job => Sys2Proof.Machine.execAesGcmDecrypt job s
  | .aesXtsEncrypt job => Sys2Proof.Machine.execAesXtsEncrypt job s
  | .aesXtsDecrypt job => Sys2Proof.Machine.execAesXtsDecrypt job s
  | .aesCtr job => Sys2Proof.Machine.execAesCtr job s
  | .hash job => Sys2Proof.Machine.execHash job s
  | .hmac job => Sys2Proof.Machine.execHmac job s
  | .ed25519Sign job => Sys2Proof.Machine.execEd25519Sign job s
  | .ed25519Verify job => Sys2Proof.Machine.execEd25519Verify job s
  | .ecdsaSign job => Sys2Proof.Machine.execEcdsaSign job s
  | .ecdsaVerify job => Sys2Proof.Machine.execEcdsaVerify job s
  | .mlDsaSign job => Sys2Proof.Machine.execMlDsaSign job s
  | .mlDsaVerify job => Sys2Proof.Machine.execMlDsaVerify job s
  | .mlKemEncapsulate job => Sys2Proof.Machine.execMlKemEncapsulate job s
  | .mlKemDecapsulate job => Sys2Proof.Machine.execMlKemDecapsulate job s
  | .randomBytes job => Sys2Proof.Machine.execRandomBytes job s
  | .compressThenEncrypt job => Sys2Proof.Machine.execCompressThenEncrypt job s
  | .decryptThenDecompress job => Sys2Proof.Machine.execDecryptThenDecompress job s
  | .importKey job => Sys2Proof.Machine.execImportKey job s
  | .unwrap job => Sys2Proof.Machine.execUnwrap job s
  | .wrap job => Sys2Proof.Machine.execWrap job s
  | .generate job => Sys2Proof.Machine.execGenerate job s
  | .publicKey job => Sys2Proof.Machine.execPublicKey job s
  | .erase job => Sys2Proof.Machine.execErase job s
  | .jobComplete job => Sys2Proof.Machine.execJobComplete job s
  | .engineError crypt eng => Sys2Proof.Machine.execEngineError crypt eng s
  | .drbgReseed die => Sys2Proof.Machine.execDrbgReseed die s
  | .entropyHealthFail die => Sys2Proof.Machine.execEntropyHealthFail die s
  | .drbgRecovery die => Sys2Proof.Machine.execDrbgRecovery die s
  | .keySlotError slot badSd0 badSd1 => Sys2Proof.Machine.execKeySlotError slot badSd0 badSd1 s
  | .release m part arg => Sys2Proof.Machine.execRelease m part arg s
  | .reclaim m part arg => Sys2Proof.Machine.execReclaim m part arg s
  | .partitionReset m part => Sys2Proof.Machine.execPartitionReset m part s
  | .start m part => Sys2Proof.Machine.execStart m part s
  | .refreshDue ch rank busy => Sys2Proof.Machine.execRefreshDue ch rank busy s
  | .rowCloseTimeout ch rank sub bank => Sys2Proof.Machine.execRowCloseTimeout ch rank sub bank s
  | .dimmTemperatureRead ch temps => Sys2Proof.Machine.execDimmTemperatureRead ch temps s
  | .sweepRead ch badDevices => Sys2Proof.Machine.execSweepRead ch badDevices s
  | .caParityAlert ch => Sys2Proof.Machine.execCaParityAlert ch s
  | .calibrationCheck ch rank sub lane kind dir => Sys2Proof.Machine.execCalibrationCheck ch rank sub lane kind dir s
  | .machineCheckRingWrite => Sys2Proof.Machine.execMachineCheckRingWrite s
  | .evqReadPointerWrite m portB v => Sys2Proof.Machine.execEvqReadPointerWrite m portB v s
  | .servicePortLinkUp portB => Sys2Proof.Machine.execServicePortLinkUp portB s
  | .dieLoss die => Sys2Proof.Machine.execDieLoss die s
  | .checkstop source code => Sys2Proof.Machine.execCheckstop source code s
  | .imgData m write v => Sys2Proof.Machine.execImgData m write v s
  | .startVerification m slot => Sys2Proof.Machine.execStartVerification m slot s
  | .verificationComplete => Sys2Proof.Machine.execVerificationComplete s
  | .advance m => Sys2Proof.Machine.execAdvance m s
  | .revokeKeyPair m k => Sys2Proof.Machine.execRevokeKeyPair m k s
  | .controlStoreError dom correctable => Sys2Proof.Machine.execControlStoreError dom correctable s
  | .updateRotation => Sys2Proof.Machine.execUpdateRotation s
  | .cpUpdateHandover die => Sys2Proof.Machine.execCpUpdateHandover die s
  | .updateNoProgress => Sys2Proof.Machine.execUpdateNoProgress s
  | .powerOn m => Sys2Proof.Machine.execPowerOn m s
  | .proceed m => Sys2Proof.Machine.execProceed m s
  | .serviceStop m => Sys2Proof.Machine.execServiceStop m s
  | .resume m => Sys2Proof.Machine.execResume m s
  | .hold m => Sys2Proof.Machine.execHold m s
  | .warmReset m => Sys2Proof.Machine.execWarmReset m s
  | .coldReset m => Sys2Proof.Machine.execColdReset m s
  | .ipl m => Sys2Proof.Machine.execIpl m s
  | .pkgResetN lowNs acts => Sys2Proof.Machine.execPkgResetN lowNs acts s
  | .warmResetN lowNs acts => Sys2Proof.Machine.execWarmResetN lowNs acts s
  | .vsbApplied => Sys2Proof.Machine.execVsbApplied s
  | .vsbLost => Sys2Proof.Machine.execVsbLost s
  | .initialisationPhaseComplete inp => Sys2Proof.Machine.execInitialisationPhaseComplete inp s
  | .couplingExchange c => Sys2Proof.Machine.execCouplingExchange c s
  | .couplingTimeout => Sys2Proof.Machine.execCouplingTimeout s
  | .loadComplete eccOk => Sys2Proof.Machine.execLoadComplete eccOk s
  | .warmResetWritebackComplete => Sys2Proof.Machine.execWarmResetWritebackComplete s
  | .holdFlushAnnouncement pkg => Sys2Proof.Machine.execHoldFlushAnnouncement pkg s
  | .holdAnnouncementTimeout => Sys2Proof.Machine.execHoldAnnouncementTimeout s
  | .feedOutOfRange feedB monitor => Sys2Proof.Machine.execFeedOutOfRange feedB monitor s
  | .feedInRange feedB monitor => Sys2Proof.Machine.execFeedInRange feedB monitor s
  | .feedStatusChange feedB level heldNs => Sys2Proof.Machine.execFeedStatusChange feedB level heldNs s
  | .feedRepaired feedB => Sys2Proof.Machine.execFeedRepaired feedB s
  | .chatterEnd feedB => Sys2Proof.Machine.execChatterEnd feedB s
  | .swap m => Sys2Proof.Machine.execSwap m s
  | .clearTrip m => Sys2Proof.Machine.execClearTrip m s
  | .bothFeedsLost => Sys2Proof.Machine.execBothFeedsLost s
  | .thermalTrip => Sys2Proof.Machine.execThermalTrip s
  | .agingCheck die short => Sys2Proof.Machine.execAgingCheck die short s
  | .bypass => Sys2Proof.Machine.execBypass s
  | .idcode => Sys2Proof.Machine.execIdcode s
  | .samplePreload => Sys2Proof.Machine.execSamplePreload s
  | .extest => Sys2Proof.Machine.execExtest s
  | .extestPulse => Sys2Proof.Machine.execExtestPulse s
  | .extestTrain => Sys2Proof.Machine.execExtestTrain s
  | .clamp => Sys2Proof.Machine.execClamp s
  | .highz => Sys2Proof.Machine.execHighz s
  | .keeperCopyOutvoted copy => Sys2Proof.Machine.execKeeperCopyOutvoted copy s
  | .arraySweepRead l3 unit line errors => Sys2Proof.Machine.execArraySweepRead l3 unit line errors s
  | .unassignedOpcode lp word => Sys2Proof.Machine.execUnassignedOpcode lp word s
  | .deviceLoadCompletion lp data poisoned => Sys2Proof.Machine.execDeviceLoadCompletion lp data poisoned s
  | .postedCreditReturn port rid n => Sys2Proof.Machine.execPostedCreditReturn port rid n s
  | .containmentRelease port rid => Sys2Proof.Machine.execContainmentRelease port rid s
  | .pcieLinkDown port rid => Sys2Proof.Machine.execPcieLinkDown port rid s
  | .pcieLinkUp port sub rate width rids => Sys2Proof.Machine.execPcieLinkUp port sub rate width rids s
  | .servicePortLinkDown portB => Sys2Proof.Machine.execServicePortLinkDown portB s
  | .servicePortRead m off size => Sys2Proof.Machine.execServicePortRead m off size s
  | .cancelTimeout sch => Sys2Proof.Machine.execCancelTimeout sch s
  | .reservationHoldExpiry lp => Sys2Proof.Machine.execReservationHoldExpiry lp s
  | .presentationEdge pair => Sys2Proof.Machine.execPresentationEdge pair s
  | .journalEntryError die index badPrimary badMirror => Sys2Proof.Machine.execJournalEntryError die index badPrimary badMirror s
  | .imageSlotError slot word badSd0 badSd1 => Sys2Proof.Machine.execImageSlotError slot word badSd0 badSd1 s
  | .warmResetNRelease => Sys2Proof.Machine.execWarmResetNRelease s
  | .pkgResetNRelease => Sys2Proof.Machine.execPkgResetNRelease s
  | .jqBase ctx die q v => Sys2Proof.Machine.execJqBase ctx die q v s

end Sys2Proof.Machine
end

