-- ==== Sys2Proof/Machine/Sequencer.lean ====
section
/-! DEFINITION. The sequencers of the control stores: the words they hold, the fetch of one microword and the next
microaddress (18 R432-R434, R446). -/

namespace Sys2Proof.Machine

/-- The control stores of Table 18-1. -/
inductive StoreKind where
  | core | rom | cp
  deriving DecidableEq, Repr

/-- Microwords of a store. -/
def StoreKind.micro : StoreKind → Nat
  | .core => 16384
  | .rom => 17408
  | .cp => 8192

/-- Nanowords of a store. -/
def StoreKind.nano : StoreKind → Nat
  | .core => 4096
  | .rom => 4096
  | .cp => 1024

/-- The section of a type in the image of a slot. -/
def sectionOf (s : State) (slot ty : Nat) : Option Section := (imgSections s slot).find? fun x => x.ty = ty

/-- Word `i` of `n` bytes that a section holds from `base` on, up to `top` bytes; past its end a word is free. -/
def sectionWord (s : State) (slot ty base top n i : Nat) (arr : Nat) : BitVec 192 :=
  match sectionOf s slot ty with
  | none => Config.storeWord arr i
  | some x => if base + n * (i + 1) ≤ min x.len top then BitVec.ofNat 192 (imgVal s slot (x.off + base + n * i) n)
      else Config.storeWord arr i

/-- Microword `a` of a store that was loaded from a slot (Table 18-1). -/
def microword (s : State) (k : StoreKind) (slot a : Nat) : BitVec 16 :=
  match k with
  | .core => (sectionWord s slot 1 0 32768 2 a 0).setWidth 16
  | .cp => (sectionWord s slot 3 0 16384 2 a 0).setWidth 16
  | .rom => if a < 0x4000 then (Config.storeWord 2 a).setWidth 16
      else (sectionWord s slot 5 0 2048 2 (a - 0x4000) 0).setWidth 16

/-- Nanoword `i` of a store. -/
def nanoword (s : State) (k : StoreKind) (slot i : Nat) : BitVec 192 :=
  match k with
  | .core => sectionWord s slot 2 0 98304 24 i 1
  | .cp => sectionWord s slot 4 0 24576 24 i 1
  | .rom => if i < 0xF00 then Config.storeWord 3 i else sectionWord s slot 5 2048 8192 24 (i - 0xF00) 1

/-- COND of a microword (Table 18-2). -/
def ucond (m : BitVec 16) : BitVec 4 := m.extractLsb' 12 4

/-- NANO of a microword (Table 18-2). -/
def unano (m : BitVec 16) : BitVec 12 := m.extractLsb' 0 12

/-- NEXT of a nanoword (Table 18-3). -/
def unext (n : BitVec 192) : BitVec 15 := n.extractLsb' 177 15

/-- What the datapath tells a sequencer in a cycle (Table 18-4), and what a SPEC call control loads into the link register. -/
structure UConds where
  zero : Bool
  carry : Bool
  negative : Bool
  closeDue : Bool
  interrupt : Bool
  exception : Bool
  badNibble : Bool
  repZero : Bool
  lenClass : BitVec 3
  response : BitVec 2
  opcode : BitVec 6
  fn : BitVec 6
  call : Bool
  linkTo : BitVec 15
  deriving DecidableEq, Repr

/-- The conditions of a cycle, which the controls that no rule defines decide: free bits (log 116). -/
def UConds.free (w : Word) : UConds :=
  { zero := w.getLsbD 0, carry := w.getLsbD 1, negative := w.getLsbD 2, closeDue := w.getLsbD 3,
    interrupt := w.getLsbD 4, exception := w.getLsbD 5, badNibble := w.getLsbD 6, repZero := w.getLsbD 7,
    lenClass := w.extractLsb' 8 3, response := w.extractLsb' 11 2, opcode := w.extractLsb' 13 6,
    fn := w.extractLsb' 19 6, call := w.getLsbD 25, linkTo := w.extractLsb' 26 15 }

def bit0 (b : Bool) : BitVec 15 := (BitVec.ofBool b).setWidth 15

/-- The next microaddress before it wraps (Table 18-4). -/
def nextRaw (c : UConds) (cond : BitVec 4) (cur link next : BitVec 15) : BitVec 15 :=
  match cond.toNat with
  | 0x0 => cur + 1
  | 0x1 => next
  | 0x2 => next ||| bit0 c.zero
  | 0x3 => next ||| bit0 c.carry
  | 0x4 => next ||| bit0 c.negative
  | 0x5 => next ||| (bit0 c.negative <<< 1 ||| bit0 c.zero)
  | 0x6 => next ||| bit0 c.closeDue
  | 0x7 => next ||| bit0 c.interrupt
  | 0x8 => next ||| bit0 c.exception
  | 0x9 => next ||| bit0 c.badNibble
  | 0xA => next ||| bit0 c.repZero
  | 0xB => next ||| c.lenClass.setWidth 15
  | 0xC => next ||| c.response.setWidth 15
  | 0xD => next ||| c.opcode.setWidth 15 <<< 3
  | 0xE => next ||| c.fn.setWidth 15 <<< 3
  | _ => link

/-- An address that names no word of the store wraps within its size (R434). -/
def wrapAddr (k : StoreKind) (a : BitVec 15) : BitVec 15 := BitVec.ofNat 15 (a.toNat % k.micro)

/-- The lowest-numbered valid match entry that names a next microaddress replaces it by its patch address; only a store that
runs the forerunner ROM has them (R446). -/
def patched (s : State) (k : StoreKind) (slot : Nat) (a : BitVec 15) : BitVec 15 :=
  if k ≠ .rom then a else
  match sectionOf s slot 5 with
  | none => a
  | some x =>
    match (List.range 32).find? fun i =>
        (patchEntry s slot x i).testBit 63 && decide (patchEntry s slot x i / 2 ^ 32 % 32768 = a.toNat) with
    | some i => BitVec.ofNat 15 (patchEntry s slot x i)
    | none => a

/-- The microaddress that follows the one a sequencer is at (R434, R446). -/
def nextAddr (s : State) (k : StoreKind) (slot : Nat) (c : UConds) (q : Seq) : BitVec 15 :=
  let m := microword s k slot (q.addr.toNat % k.micro)
  let n := nanoword s k slot ((unano m).toNat % k.nano)
  patched s k slot (wrapAddr k (nextRaw c (ucond m) q.addr q.link (unext n)))

/-- One cycle of a sequencer (R433). -/
def cycleSeq (s : State) (k : StoreKind) (image : Word) (c : UConds) (q : Seq) : Seq :=
  { addr := nextAddr s k (field image 15 1) c q, link := if c.call then c.linkTo else q.link }

/-- The store a pair runs from: the ROM bit of CS_VERSION says (R445). -/
def pairStore (x : Pair) : StoreKind := if x.image.getLsbD 14 then .rom else .core

/-- One cycle of the sequencer of a pair, while the pair is powered and its store loaded. -/
def cyclePair (s : State) (p : Fin 48) : State :=
  let x := pairAt s p
  if x.powered && x.image != 0 then
    taken (updPair s p fun x => { x with seq := cycleSeq s (pairStore x) x.image (UConds.free (freeNow s)) x.seq })
  else s

/-- One cycle of the sequencer of a channel processor. -/
def cycleCp (s : State) (c : Nat) : State :=
  let x := cpAt s c
  if x.image != 0 && dieOn s (4 + c / 16) then
    taken (updCp s c fun x => { x with seq := cycleSeq s .cp x.image (UConds.free (freeNow s)) x.seq })
  else s

/-- One cycle of every sequencer. -/
def cycleAll (s : State) : State := (List.range 32).foldl cycleCp (all48.foldl cyclePair s)

end Sys2Proof.Machine
end

