-- ==== Sys2Proof/Machine/Pins.lean ====
section
/-! DEFINITION. The levels the package drives on its output signals (21 R497-R510): each is derived from the state, and
none is held apart from it. `true` is a high level; in Off every output is high-impedance (R498), which `none` says. -/

namespace Sys2Proof.Machine

/-- A level the Keeper drives; in Off nothing is driven (R498). -/
def driven (s : State) (b : Bool) : Option Bool := if s.mode.mode = .off then none else some b

/-- DRESET_N of a channel: low from power-up until training begins, in phase 04h; high during Memory hold (R503).
DEDUCED (log 103): it stays high for a channel whose DIMMs are in self-refresh, whose content a low would end. -/
def dresetN (s : State) (ch : Nat) : Bool :=
  match s.mode.mode with
  | .off => false
  | .standby => false
  | .hold => true
  | .init => decide (s.mode.phase ≥ 4) || (vget s.mcs Mc.reset ch).st = .selfRefresh
  | _ => true

/-- Pn_PERST_N: low from power-up until the port's training starts in phase 04h, and throughout while PCIE_INIT.DIS is
set (R499). -/
def perstN (s : State) (port : Nat) : Bool :=
  dieOn s (4 + port / 2) && (s.mode.mode != .init || decide (s.mode.phase ≥ 4)) && !cellBit s (pciePage port) 0x040 29

/-- SPx_ATTN_N: open-drain, asserted low (R419, R505). -/
def attnN (s : State) (portB : Bool) : Option Bool := driven s !(if portB then s.err.attnB else s.err.attnA)

/-- PPS_OUT: high for 100 µs from each rising edge, low while PPSO_EN is clear (R28, R506). -/
def ppsLevel (s : State) : Option Bool := driven s (decide (s.time.ppsHigh > 0) && ppsoEnabled s && keeperRuns s)

/-- FA_ACT and FB_ACT follow FEED_STATE.ACTIVE (R509). -/
def feedAct (s : State) (b : Bool) : Option Bool := driven s (s.feed.active = some b && s.mode.mode != .standby)

/-- STBY_OK: high while the Keeper runs. -/
def stbyOk (s : State) : Option Bool := driven s (keeperRuns s)

/-- PKG_PG: high while the six dies are powered, low in Off, Standby and Memory hold. -/
def pkgPg (s : State) : Bool := dieOn s 0

/-- THERMTRIP_N: open-drain, low from the thermal trip until CLEAR_TRIP (R510). -/
def thermtripN (s : State) : Option Bool := driven s !s.feed.trip

end Sys2Proof.Machine
end

