-- ==== Sys2Proof/Safety.lean ====
section
/-! DEFINITION. What a safe run is, and the words statements use: how an instruction begins, what its operands in
storage are, and what it leaves. -/

namespace Sys2Proof.Machine

/-- What a command answers. -/
abbrev Answer := Host.Outcome State Fault Refusal

/-- A command completes: its outcome is a next state. -/
def Completes (i : Instr) (s : State) : Prop := ∃ t, exec i s = .next t

/-- A command completes, and what it leaves has a property. -/
def Gives (i : Instr) (s : State) (P : State → Prop) : Prop := ∃ t, exec i s = .next t ∧ P t

/-- The memory table in its canonical form. -/
abbrev Memory.wf (m : Memory) : Prop := Tab.wf (fun _ => (0 : Byte)) m = true

/-! ### Instructions -/

/-- The instruction address of a processor moved on. -/
def advanced (s : State) (lp : Fin 48) (n : Nat) : State :=
  updLp s lp fun x => { x with arch := { x.arch with pswa := x.arch.pswa + BitVec.ofNat 64 n } }

/-- The registers of a processor, as a function gives them. -/
def withRegs (s : State) (lp : Fin 48) (g : Arch → Arch) : State := updLp s lp fun x => { x with arch := g x.arch }

/-- A processor begins an instruction: it can run one, its interval closes first where it must, and the words of the
instruction are fetched with no exception, which leaves `u`. -/
def Begins (s : State) (lp : Fin 48) (f : Form) (u : State) : Prop :=
  lpReady s lp = true ∧ ∃ t, prepare s lp f.before = some t ∧ fetchInstr lp f.len t = .ok () u

/-- The registers of a processor. -/
def archOf (s : State) (lp : Fin 48) : Arch := (lpAt s lp).arch

/-- General register `i` of a processor, as it reads. -/
def gOf (s : State) (lp : Fin 48) (i : Fin 32) : Word := (lpAt s lp).arch.getG i

/-- An instruction that has moved past itself and then changes only registers answers this. -/
def regsAnswer (u : State) (lp : Fin 48) (f : Form) (g : Arch → Arch) : Answer :=
  .next (finish (withRegs (advanced u lp f.len) lp g) lp f)

/-- An operand in storage is translated without exception to pieces of Normal memory, which leaves `v`. -/
def Reaches (u : State) (lp : Fin 48) (acc : Access) (va : Word) (n : Nat) (asUser : Bool) (l : List Piece) (v : State) :
    Prop :=
  operand lp acc va n asUser u = .ok l v ∧ allNormal l = true

/-- Pieces of an operand hold bytes that can be read: none of them is poisoned. -/
def Reads (v : State) (lp : Fin 48) (va : Word) (l : List Piece) (bs : List Byte) : Prop :=
  readPieces lp va l v = .ok bs v

/-- Bytes enter the gate of a processor, which leaves `w`. -/
def Stores (v : State) (lp : Fin 48) (l : List Piece) (bs : List Byte) (w : State) : Prop :=
  storePieces lp l bs v = .ok ⟨⟩ w

/-- The registers of a processor and its gate, as an instruction leaves them that reads storage: what it answers. -/
def leaves (v : State) (lp : Fin 48) (f : Form) (g : Arch → Arch) : Answer := .next (finish (withRegs v lp g) lp f)

/-- A load of `n` bytes at `va` brings `bs` and leaves `v`. -/
def Loads (u : State) (lp : Fin 48) (va : Word) (n : Nat) (asUser : Bool) (bs : List Byte) (v : State) : Prop :=
  ∃ l, Reaches (advanced u lp 4) lp .load va n asUser l v ∧ Reads v lp va l bs ∧ bs.length = n

/-- A store of the low `n` bytes of a number at `va` leaves `w`. -/
def Saves (u : State) (lp : Fin 48) (va : Word) (n : Nat) (asUser : Bool) (value : Nat) (w : State) : Prop :=
  ∃ l v, Reaches (advanced u lp 4) lp .store va n asUser l v ∧ Stores v lp l (beBytes n value) w

/-- Two operands of a storage-to-storage instruction pass their pre-test and hold bytes that can be read: the
pieces and the bytes of each, and the state left. -/
def Both (u : State) (lp : Fin 48) (x y : XOp) (p q : List Piece) (bs cs : List Byte) (v : State) : Prop :=
  pretest2 lp x y (advanced u lp 8) = .ok (p, q) v ∧ Reads v lp x.va p bs ∧ Reads v lp y.va q cs

/-! ### Commands of pages, coherence and jobs -/

/-- A command of a page is taken from a master: it may write the page, and no earlier one is in progress. -/
def MayCommand (s : State) (m : Master) (p : Nat) : Prop :=
  writable s m p = true ∧ Tab.read (fun _ => (0 : Word)) s.cmds p = 0

/-- A request opens its transaction at the home: the record holds it, and the dies it snoops. -/
def OpensTxn (s t : State) (r : Req) : Prop :=
  ∃ x, txnAt t r.line = some x ∧ x.req = r ∧ x.waitFor = snoopDies s r ∧ x.mrd = false ∧ x.supplied = false

/-- Nothing hinders a request at its home: its line is not blocked, its slice has a buffer, none of its requests
waits, and its directory set has a way. -/
def HomeFree (s : State) (r : Req) : Prop :=
  homeHere s r.line = true ∧ txnAt s r.line = none ∧ Tab.look s.slices (homeSlice s r.line) = none ∧
  buffersUsed s (homeSlice s r.line) < 64 ∧ wayShort s r = false

/-- A job holds its engines, names a function and passes the checks every job meets first. -/
def JobRuns (s : State) (j : Nat) (x : Job) (func : Nat) : Prop :=
  Tab.look s.eng.jobs j = some x ∧ x.func = func ∧ (x.zip.isSome || x.crypt.isSome) = true ∧ x.ended = none ∧
  x.inline = none ∧ s.mode.quiesce = false ∧ jobForm x = .ok ()

/-- A job's function ends it, with an end that has a property. -/
def JobEnds (i : Instr) (s : State) (j : Nat) (x : Job) (P : State → JobEnd → Prop) : Prop :=
  Gives i s fun t => ∃ e, Tab.look t.eng.jobs j = some { x with ended := some e } ∧ P t e

end Sys2Proof.Machine
end

