-- ==== Sys2Proof/Certificates/Slice0/Obligations.lean ====
section
/-! DEFINITION. The statements about the model, for the provers. -/

open Sys2Proof Sys2Proof.Machine

/-! ### The queue -/

/-- A step with a command at the front of the queue is that command's effect on the state with the queue's rest; with
nothing waiting every sequencer of the block runs one cycle, which is the model's choice (log 1). -/
def Obligations.StepRunsFrontCommand : Prop :=
  (∀ (c : Instr) (rest : List Instr) (s : State),
     step { s with pending := c :: rest } = exec c { s with pending := rest }) ∧
  (∀ s : State, s.pending = [] → step s = .next (cycleAll s))

/-! ### Integer instructions (04) -/

/-- R78: G0 reads as zero in every use and a write to it is discarded; a write to any other register is what it
then reads, and no other register changes. -/
def Obligations.GeneralRegisters : Prop :=
  (∀ a : Arch, a.getG 0 = 0) ∧ (∀ (a : Arch) (v : Word), a.setG 0 v = a) ∧
  (∀ (a : Arch) (i : Fin 32) (v : Word), i ≠ 0 → (a.setG i v).getG i = v) ∧
  ∀ (a : Arch) (i j : Fin 32) (v : Word), j ≠ i → (a.setG i v).getG j = a.getG j

/-- Table 4-6: the integer instructions of two sources give their result in GD and change no other register but
PSWA. -/
def Obligations.IntegerOfTwo : Prop :=
  ∀ (lp : Fin 48) (d a b : Fin 32) (s u : State), Begins s lp {} u →
    let x := gOf u lp a
    let y := gOf u lp b
    let gd := fun (v : Word) => regsAnswer u lp {} fun r => r.setG d v
    exec (.add lp d a b 0) s = gd (x + y) ∧
    exec (.sub lp d a b 0) s = gd (x - y) ∧
    exec (.mul lp d a b 0) s = gd (x * y) ∧
    exec (.and lp d a b 0) s = gd (x &&& y) ∧
    exec (.or lp d a b 0) s = gd (x ||| y) ∧
    exec (.xor lp d a b 0) s = gd (x ^^^ y) ∧
    exec (.andn lp d a b 0) s = gd (x &&& ~~~y) ∧
    exec (.orn lp d a b 0) s = gd (x ||| ~~~y) ∧
    exec (.xnor lp d a b 0) s = gd (~~~(x ^^^ y)) ∧
    exec (.sll lp d a b 0) s = gd (x <<< (y.toNat % 64)) ∧
    exec (.srl lp d a b 0) s = gd (x >>> (y.toNat % 64)) ∧
    exec (.sra lp d a b 0) s = gd (x.sshiftRight (y.toNat % 64)) ∧
    exec (.rol lp d a b 0) s = gd (x.rotateLeft (y.toNat % 64)) ∧
    exec (.cmpeq lp d a b 0) s = gd (if x = y then 1 else 0) ∧
    exec (.cmpne lp d a b 0) s = gd (if x = y then 0 else 1) ∧
    exec (.cmplt lp d a b 0) s = gd (if x.toInt < y.toInt then 1 else 0) ∧
    exec (.cmpltu lp d a b 0) s = gd (if x.toNat < y.toNat then 1 else 0) ∧
    exec (.cmple lp d a b 0) s = gd (if x.toInt ≤ y.toInt then 1 else 0) ∧
    exec (.cmpleu lp d a b 0) s = gd (if x.toNat ≤ y.toNat then 1 else 0)

/-- Table 4-6: the integer instructions of one source, and SEL. R94, Table 4-7: the instructions of format I; SHI with
a bit of i[15:8] set raises the specification exception at its own address. -/
def Obligations.IntegerOfOne : Prop :=
  (∀ (lp : Fin 48) (d a b c : Fin 32) (s u : State), Begins s lp {} u →
     let x := gOf u lp a
     let gd := fun (v : Word) => regsAnswer u lp {} fun r => r.setG d v
     (∃ n : Nat, exec (.clz lp d a 0 0) s = gd (BitVec.ofNat 64 n) ∧ n ≤ 64 ∧
       (∀ k < n, x.getLsbD (63 - k) = false) ∧ (n < 64 → x.getLsbD (63 - n) = true)) ∧
     (∃ n : Nat, exec (.ctz lp d a 0 0) s = gd (BitVec.ofNat 64 n) ∧ n ≤ 64 ∧
       (∀ k < n, x.getLsbD k = false) ∧ (n < 64 → x.getLsbD n = true)) ∧
     exec (.popc lp d a 0 0) s = gd (BitVec.ofNat 64 ((List.range 64).countP fun k => x.getLsbD k)) ∧
     exec (.extb lp d a 0 0) s = gd ((x.setWidth 8).signExtend 64) ∧
     exec (.exth lp d a 0 0) s = gd ((x.setWidth 16).signExtend 64) ∧
     exec (.extw lp d a 0 0) s = gd ((x.setWidth 32).signExtend 64) ∧
     exec (.sel lp d a b c) s = gd (if gOf u lp c ≠ 0 then x else gOf u lp b)) ∧
  (∀ (lp : Fin 48) (d a : Fin 32) (i : BitVec 16) (s u : State), Begins s lp {} u →
     let x := gOf u lp a
     let gd := fun (v : Word) => regsAnswer u lp {} fun r => r.setG d v
     exec (.addi lp d a i) s = gd (x + i.signExtend 64) ∧
     exec (.addis lp d a i) s = gd (x + i.signExtend 64 <<< 16) ∧
     exec (.andi lp d a i) s = gd (x &&& i.setWidth 64) ∧
     exec (.ori lp d a i) s = gd (x ||| i.setWidth 64) ∧
     exec (.xori lp d a i) s = gd (x ^^^ i.setWidth 64) ∧
     exec (.cmpeqi lp d a i) s = gd (if x = i.signExtend 64 then 1 else 0) ∧
     exec (.cmplti lp d a i) s = gd (if x.toInt < i.toInt then 1 else 0) ∧
     exec (.cmpltui lp d a i) s = gd (if x.toNat < i.toNat then 1 else 0) ∧
     (i.toNat < 256 →
       exec (.shi lp d a i) s = gd
         (match i.toNat / 64 with
          | 0 => x <<< (i.toNat % 64)
          | 1 => x >>> (i.toNat % 64)
          | 2 => x.sshiftRight (i.toNat % 64)
          | _ => x.rotateLeft (i.toNat % 64)))) ∧
  (∀ (lp : Fin 48) (d a : Fin 32) (i : BitVec 16) (s t u : State), 256 ≤ i.toNat → lpReady s lp = true →
     prepare s lp false = some t → fetchInstr lp 4 t = .ok () u → closeRoom (lpAt t lp) = true →
     Gives (.shi lp d a i) s fun y => archOf y lp =
       entryArch (archOf t lp) (decide (privOf (archOf t lp).psws = 2) || bit (archOf t lp).c[23] 3) false 0
         (codeWord 0 1 3) 0)

/-- R98 to R102: the carry chains, the wide products and the divisions, where their registers are admitted. D and C
of a form with two results differ unless both are G0. -/
def Obligations.IntegerOfMore : Prop :=
  ∀ (lp : Fin 48) (d a b c : Fin 32) (s u : State), Begins s lp {} u →
    let x := gOf u lp a
    let y := gOf u lp b
    let z := (gOf u lp c).toNat % 2
    let two := fun (v w : Word) => regsAnswer u lp {} fun r => (r.setG d v).setG c w
    let wide := fun (p : BitVec 128) => regsAnswer u lp {} fun r => (r.setG d (p.extractLsb' 64 64)).setG (d + 1) (p.setWidth 64)
    ((d ≠ c ∨ d = 0) →
      exec (.addc lp d a b c) s =
        two (x + y + BitVec.ofNat 64 z) (if x.toNat + y.toNat + z < 2 ^ 64 then 0 else 1) ∧
      exec (.subc lp d a b c) s =
        two (x - y - BitVec.ofNat 64 z) (if x.toNat < y.toNat + z then 1 else 0) ∧
      exec (.divu lp d a b c) s = (if y = 0 then two (BitVec.allOnes 64) x else two (x / y) (x % y)) ∧
      exec (.divs lp d a b c) s =
        (if y = 0 then two (BitVec.allOnes 64) x
         else two (BitVec.ofInt 64 (x.toInt.tdiv y.toInt)) (BitVec.ofInt 64 (x.toInt.tmod y.toInt)))) ∧
    (d.val % 2 = 0 →
      exec (.mulwu lp d a b 0) s = wide (BitVec.ofNat 128 (x.toNat * y.toNat)) ∧
      exec (.mulws lp d a b 0) s = wide (BitVec.ofInt 128 (x.toInt * y.toInt))) ∧
    (a.val % 2 = 0 → b.val % 2 = 0 → d.val % 4 = 0 → d.val / 4 ≠ a.val / 4 → d.val / 4 ≠ b.val / 4 →
      let p := (x.toNat * 2 ^ 64 + (gOf u lp (a + 1)).toNat) * (y.toNat * 2 ^ 64 + (gOf u lp (b + 1)).toNat)
      exec (.mulq lp d a b 0) s = regsAnswer u lp {} fun r =>
        (((r.setG d (BitVec.ofNat 64 (p / 2 ^ 192))).setG (d + 1) (BitVec.ofNat 64 (p / 2 ^ 128))).setG (d + 2)
          (BitVec.ofNat 64 (p / 2 ^ 64))).setG (d + 3) (BitVec.ofNat 64 p))

/-- R96: the branches. A displacement counts words from the branch itself, and a link register takes the address of
the next instruction. -/
def Obligations.Branches : Prop :=
  ∀ (lp : Fin 48) (t d a : Fin 32) (disp : BitVec 21) (s u : State), Begins s lp {} u →
    let pc := (archOf u lp).pswa
    let target := pc + disp.signExtend 64 <<< 2
    exec (.bz lp t disp) s =
      (regsAnswer u lp {} fun r => if gOf u lp t = 0 then { r with pswa := target } else r) ∧
    exec (.bnz lp t disp) s =
      (regsAnswer u lp {} fun r => if gOf u lp t = 0 then r else { r with pswa := target }) ∧
    exec (.bal lp t disp) s = (regsAnswer u lp {} fun r => { r.setG t (pc + 4) with pswa := target }) ∧
    ((gOf u lp a).toNat % 4 = 0 →
      exec (.jr lp d a 0 0) s = regsAnswer u lp {} fun r => { r.setG d (pc + 4) with pswa := gOf u lp a })

/-! ### Loads and stores (04 R95, 06 R134, 08 R183) -/

/-- R95, R134: a load of format M whose operand is readable Normal memory gives its register the bytes at the
effective address, extended as the instruction says. The update form writes its base after. -/
def Obligations.LoadsComplete : Prop :=
  ∀ (lp : Fin 48) (t b : Fin 32) (disp : BitVec 16) (s u v : State) (bs : List Byte), Begins s lp {} u →
    let va := gOf u lp b + disp.signExtend 64
    let zero := fun (n : Nat) => leaves v lp {} fun r => r.setG t ((BitVec.ofNat (8 * n) (beVal bs)).setWidth 64)
    let sign := fun (n : Nat) => leaves v lp {} fun r => r.setG t ((BitVec.ofNat (8 * n) (beVal bs)).signExtend 64)
    let flt := fun (k : Nat) => leaves v lp {} fun r => r.setF t (BitVec.ofNat 128 (beVal bs * 2 ^ k))
    (Loads u lp va 1 false bs v → exec (.lbu lp t b disp) s = zero 1 ∧ exec (.lbs lp t b disp) s = sign 1) ∧
    (Loads u lp va 2 false bs v → exec (.lhu lp t b disp) s = zero 2 ∧ exec (.lhs lp t b disp) s = sign 2) ∧
    (Loads u lp va 4 false bs v →
      exec (.lwu lp t b disp) s = zero 4 ∧ exec (.lws lp t b disp) s = sign 4 ∧ exec (.lfs lp t b disp) s = flt 96) ∧
    (Loads u lp va 8 false bs v →
      exec (.ld lp t b disp) s = zero 8 ∧ exec (.lfd lp t b disp) s = flt 64 ∧
      (b ≠ t → b ≠ 0 → exec (.ldup lp t b disp) s =
        leaves v lp {} fun r => (r.setG t ((BitVec.ofNat 64 (beVal bs)).setWidth 64)).setG b va)) ∧
    (Loads u lp va 8 true bs v → 1 ≤ privOf (archOf u lp).psws → bit (archOf u lp).psws 60 = true →
      exec (.ldua lp t b disp) s = zero 8) ∧
    (Loads u lp va 16 false bs v → u.mode.mode ≠ .compat → exec (.lfq lp t b disp) s = flt 0)

/-- R95, R134: a store of format M whose operand is writable Normal memory puts the low bytes of its register, or
the first bytes of a floating register, in the gate. The update form writes its base after. -/
def Obligations.StoresComplete : Prop :=
  ∀ (lp : Fin 48) (t b : Fin 32) (disp : BitVec 16) (s u w : State), Begins s lp {} u →
    let va := gOf u lp b + disp.signExtend 64
    let g := (gOf u lp t).toNat
    let f := ((archOf u lp).getF t).toNat
    let done := leaves w lp {} id
    (Saves u lp va 1 false g w → exec (.stb lp t b disp) s = done) ∧
    (Saves u lp va 2 false g w → exec (.sth lp t b disp) s = done) ∧
    (Saves u lp va 4 false g w → exec (.stw lp t b disp) s = done) ∧
    (Saves u lp va 8 false g w →
      exec (.std lp t b disp) s = done ∧
      (b ≠ t → b ≠ 0 → exec (.stdup lp t b disp) s = leaves w lp {} fun r => r.setG b va)) ∧
    (Saves u lp va 8 true g w → 1 ≤ privOf (archOf u lp).psws → bit (archOf u lp).psws 60 = true →
      exec (.stua lp t b disp) s = done) ∧
    (Saves u lp va 4 false (f / 2 ^ 96) w → exec (.stfs lp t b disp) s = done) ∧
    (Saves u lp va 8 false (f / 2 ^ 64) w → exec (.stfd lp t b disp) s = done) ∧
    (Saves u lp va 16 false f w → u.mode.mode ≠ .compat → exec (.stfq lp t b disp) s = done)

/-! ### CTL, SVC and time (04 R81, R82, R92, R104, 07 R161) -/

/-- R161, R82, R104, R92: barriers that find every earlier store performed, the reads of time, the moves of control
registers from a state that reaches them, and the return from an exception. -/
def Obligations.ControlCompletes : Prop :=
  ∀ (lp : Fin 48) (d a c : Fin 32) (off : Fin 160000) (s u : State),
    let x := archOf u lp
    let v := advanced u lp 4
    (Begins s lp {} u →
      exec (.rdtick lp d 0 0 0) s = regsAnswer u lp {} (fun r => r.setG d u.time.transit) ∧
      (d.val % 2 = 0 →
        let o := localOff v lp off.val
        let t := ((instant v 0 : Int) + o).toNat
        (∀ p : Fin 48, pairOf v lp = some p → vget v.time.dieOff 0 (p.val / 12) = 0 → o = max (off.val : Int) v.time.read) ∧
        exec (.rdtod lp d 0 0 0 off) s = leaves { v with time := { v.time with read := o } } lp {} fun r =>
          (r.setG d (BitVec.ofNat 64 (t / 16000000000))).setG (d + 1) (BitVec.ofNat 64 (todFrac (t % 16000000000))))) ∧
    (Begins s lp .serial u →
      exec (.fenceL lp 0 0 0 0) s = regsAnswer u lp .serial id ∧
      (storesDone v lp = true →
        exec (.fenceS lp 0 0 0 0) s = regsAnswer u lp .serial id ∧
        exec (.fenceA lp 0 0 0 0) s = regsAnswer u lp .serial id) ∧
      (c ≠ 14 → c ≠ 15 → c.val < 28 → (if c.val < 16 then 1 else 2) ≤ privOf x.psws →
        exec (.mfc lp d 0 0 c) s = regsAnswer u lp .serial (fun r =>
          r.setG d (if c = 13 then BitVec.ofNat 64 (pkgId u * 2 ^ 14 + lp.val) else x.c[c])) ∧
        (c ≠ 13 → refusesC v lp c (gOf u lp a) = none →
          exec (.mtc lp 0 a 0 c) s = regsAnswer u lp .serial fun r =>
            { r with c := r.c.set c (gOf u lp a &&& maskC c) })) ∧
      (1 ≤ privOf x.psws →
        let pswa := if privOf x.psws = 2 then x.c[19] else x.c[3]
        let psws := if privOf x.psws = 2 then x.c[20] else x.c[4]
        privOf psws ≠ 3 → privOf psws ≤ privOf x.psws →
        (privOf x.psws = 2 → privOf psws < 2 → lpPart v lp ≠ mgrCtx) →
        exec (.rfe lp 0 0 0 0) s = .next (finish (updLp v lp fun y =>
          { y with arch := { y.arch with pswa := pswa &&& 0xFFFFFFFFFFFFFFFC, psws := psws &&& 0xFE00000000000000 },
                   handler := false }) lp .serial)))

/-- R92: the calls, and the exception of a word that begins no instruction. MCALL goes to Manager state, SVC to the
state that its exception is delivered to; the instruction address saved is that of the next instruction, for the
word that is no instruction its own. The entry writes the PSW to the saved-PSW registers of the target state, the code
and the address to the next two; PRIV names the target state, IOE and EXE are clear, SUG and TE and MCE stay; execution
goes on at the vector base, and every other register stays. -/
def Obligations.CallsEnter : Prop :=
  (∀ (lp : Fin 48) (a : Fin 32) (i : BitVec 16) (w : BitVec 32) (s t u : State),
    lpReady s lp = true →
    (prepare s lp true = some t → fetchInstr lp 4 t = .ok () u → closeRoom (lpAt u lp) = true →
      let after := { archOf u lp with pswa := (archOf u lp).pswa + 4 }
      let code := fun (n : Nat) => codeWord (n % 256) 1 n
      (1 ≤ privOf (archOf u lp).psws →
        let n := (gOf u lp a).toNat % 65536
        Gives (.mcall lp 0 a 0 0) s fun y => archOf y lp =
          entryArch after true false 0 (codeWord (n % 256) 1 0xC) (BitVec.ofNat 64 n)) ∧
      Gives (.svc lp 0 0 i) s fun y => archOf y lp =
        entryArch after (decide (privOf (archOf u lp).psws = 2) || bit (archOf u lp).c[23] 11) false 0
          (codeWord (i.toNat % 256) 1 0xB) (BitVec.ofNat 64 i.toNat)) ∧
    (prepare s lp false = some t → assignedWord w = false →
      let n := if field w 26 6 ≥ 0x38 then 8 else 4
      fetchInstr lp n t = .ok () u → closeRoom (lpAt t lp) = true →
      Gives (.unassignedOpcode lp w) s fun y => archOf y lp =
        entryArch (archOf t lp) (decide (privOf (archOf t lp).psws = 2) || bit (archOf t lp).c[23] 1) false 0
          (codeWord 0 (if n = 8 then 2 else 1) 1) 0)) ∧
  ∀ (a : Arch) (code addr : Word),
    let m := entryArch a true false 0 code addr
    let x := entryArch a false false 0 code addr
    (m.c[19] = a.pswa ∧ m.c[20] = a.psws ∧ m.c[21] = code ∧ m.c[22] = addr ∧ privOf m.psws = 2 ∧
      m.pswa = a.c[18] &&& 0xFFFFFFFFFFFFFFFC) ∧
    (x.c[3] = a.pswa ∧ x.c[4] = a.psws ∧ x.c[5] = code ∧ x.c[6] = addr ∧ privOf x.psws = 1 ∧
      x.pswa = a.c[2] &&& 0xFFFFFFFFFFFFFFFC) ∧
    (∀ y ∈ [m, x], bit y.psws 59 = false ∧ bit y.psws 58 = false ∧ bit y.psws 61 = bit a.psws 61 ∧
      bit y.psws 60 = bit a.psws 60 ∧ bit y.psws 57 = bit a.psws 57 ∧ y.g = a.g ∧ y.f = a.f ∧ y.fpc = a.fpc) ∧
    (∀ k : Fin 32, k ≠ 19 → k ≠ 20 → k ≠ 21 → k ≠ 22 → m.c[k] = a.c[k]) ∧
    ∀ k : Fin 32, k ≠ 3 → k ≠ 4 → k ≠ 5 → k ≠ 6 → x.c[k] = a.c[k]

/-! ### The repeat prefix (04 R105 to R108) -/

/-- R105, R107, R108: a prefix whose count is zero goes on past the repeated instruction with no iteration; one
REP.I of ADDI performs one addition, counts it, and stays at the prefix until the count is zero; a REP.N of ADDI that
is not part done performs every iteration of at most 64 as one instruction. -/
def Obligations.RepeatPrefix : Prop :=
  ∀ (lp : Fin 48) (n d : Fin 32) (i : BitVec 16) (s u : State), n ≠ 0 → d ≠ n →
    let k := gOf u lp n
    let form : Form := { len := 8, rep := true }
    (Begins s lp form u → u.mode.mode ≠ .compat →
      exec (.repI lp n 0 (.addi lp d d i)) s = regsAnswer u lp form fun r =>
        if k = 0 then r
        else if k = 1 then (r.setG d (gOf u lp d + i.signExtend 64)).setG n 0
        else { (r.setG d (gOf u lp d + i.signExtend 64)).setG n (k - 1) with pswa := (archOf u lp).pswa }) ∧
    (Begins s lp { form with before := true, after := true } u → (lpAt u lp).repN = none → k.toNat ≤ 64 →
      exec (.repN lp n 0 (.addi lp d d i)) s =
        regsAnswer u lp { form with before := true, after := true } fun r =>
          (r.setG d (gOf u lp d + k * i.signExtend 64)).setG n 0)

/-! ### Storage to storage (04 R103) and decimal (05) -/

/-- R103: SMOV and SXOR store byte by byte in ascending order from the operands as they then stand, and SCMP gives
the sign of an unsigned comparison. -/
def Obligations.StringsComplete : Prop :=
  ∀ (lp : Fin 48) (rg b1 b2 : Fin 32) (l1 : BitVec 8) (d1 d2 : BitVec 11) (p q : List Piece) (bs cs : List Byte)
    (s u v w : State), Begins s lp xForm u →
    let va1 := gOf u lp b1 + d1.setWidth 64
    let va2 := gOf u lp b2 + d2.setWidth 64
    let n := l1.toNat + 1
    (Both u lp ⟨va1, n, .load⟩ ⟨va2, n, .load⟩ p q bs cs v →
      exec (.scmp lp rg l1 0 b1 d1 b2 d2) s = leaves v lp xForm fun r => r.setG rg (compareBytes bs cs)) ∧
    (Both u lp ⟨va1, n, .store⟩ ⟨va2, n, .load⟩ p q bs cs v →
      let bytes := fun f => byteWise f (lpByte v (lpAt v lp)) ((pieceAddrs p).zip (pieceAddrs q)) []
      (Stores v lp p (bytes fun _ y => y) w → exec (.smov lp 0 l1 0 b1 d1 b2 d2) s = leaves w lp xForm id) ∧
      (Stores v lp p (bytes fun x y => x ^^^ y) w → exec (.sxor lp 0 l1 0 b1 d1 b2 d2) s = leaves w lp xForm id))

/-- R114 to R128: the decimal instructions outside Compatibility operating, on operands that hold valid fields. A
result that does not fit is stored cut to its field, and GRG tells whether it did, or with RG = G0 nothing does
where it fits. R114, R124: DADJ adds
sixteen digits and a carry. -/
def Obligations.DecimalCompletes : Prop :=
  (∀ (lp : Fin 48) (rg b1 b2 : Fin 32) (l1 l2 : BitVec 8) (d1 d2 : BitVec 11) (p q : List Piece) (bs cs : List Byte)
     (x y : Int) (s u v w w' : State), Begins s lp xForm u → u.mode.mode ≠ .compat →
     let va1 := gOf u lp b1 + d1.setWidth 64
     let va2 := gOf u lp b2 + d2.setWidth 64
     let n1 := l1.toNat + 1
     let n2 := l2.toNat + 1
     -- the result `z` in a field of `f` and of `n1` bytes, with its overflow status
     let gives := fun (i : Instr) (f : DecForm) (z : Int) =>
       Stores v lp p (storeDec f z n1) w → (rg = 0 → decOverflows f z n1 = false) →
       exec i s = leaves w lp xForm fun r => r.setG rg (if decOverflows f z n1 then 1 else 0)
     (Both u lp ⟨va1, n1, .store⟩ ⟨va2, n2, .load⟩ p q bs cs v →
       (parseDec .packed bs = .ok x → parseDec .packed cs = .ok y →
         gives (.dadd lp rg l1 l2 b1 d1 b2 d2) .packed (x + y) ∧
         gives (.dsub lp rg l1 l2 b1 d1 b2 d2) .packed (x - y) ∧
         gives (.dmul lp rg l1 l2 b1 d1 b2 d2) .packed (x * y)) ∧
       (parseDec .packed cs = .ok y →
         gives (.dcopy lp rg l1 l2 b1 d1 b2 d2) .packed y ∧
         gives (.dptz lp rg l1 l2 b1 d1 b2 d2) .zoned y ∧
         (n1 ∈ [8, 16, 32, 64] → Stores v lp p (beBytes n1 (BitVec.ofInt (8 * n1) y).toNat) w →
           let lost := decide ((BitVec.ofInt (8 * n1) y).toInt ≠ y)
           (rg = 0 → lost = false) →
           exec (.dtob lp rg l1 l2 b1 d1 b2 d2) s = leaves w lp xForm fun r => r.setG rg (if lost then 1 else 0))) ∧
       (parseDec .zoned cs = .ok y → gives (.dztp lp rg l1 l2 b1 d1 b2 d2) .packed y) ∧
       (n2 ∈ [8, 16, 32, 64] →
         gives (.dfrb lp rg l1 l2 b1 d1 b2 d2) .packed (BitVec.ofNat (8 * n2) (beVal cs)).toInt)) ∧
     (Both u lp ⟨va1, n1, .load⟩ ⟨va2, n2, .load⟩ p q bs cs v →
       parseDec .packed bs = .ok x → parseDec .packed cs = .ok y →
       exec (.dcmp lp rg l1 l2 b1 d1 b2 d2) s =
         leaves v lp xForm fun r => r.setG rg (if x < y then BitVec.allOnes 64 else if x = y then 0 else 1)) ∧
     (Both u lp ⟨va1, n1, .store⟩ ⟨va2, n2, .store⟩ p q bs cs v →
       parseDec .packed bs = .ok x → parseDec .packed cs = .ok y → y ≠ 0 →
       Stores v lp p (storeDec .packed (x.tdiv y) n1) w → Stores w lp q (storeDec .packed (x.tmod y) n2) w' →
       exec (.ddiv lp 0 l1 l2 b1 d1 b2 d2) s = leaves w' lp xForm id) ∧
     (pretest lp ⟨va1, n1, .store⟩ (advanced u lp 8) = .ok p v → Reads v lp va1 p bs → parseDec .packed bs = .ok x →
       l2.toNat / 16 ≤ 3 → l2.toNat % 16 = 0 →
       gives (.dshr lp rg l1 l2 b1 d1 b2 0) .packed
         (shiftDec (l2.toNat / 16) x ((gOf u lp b2).setWidth 10).toInt))) ∧
  (∀ (lp : Fin 48) (d a b c : Fin 32) (x y : Nat) (s u : State), Begins s lp {} u → (d ≠ c ∨ d = 0) →
     regDigits (gOf u lp a) = some x → regDigits (gOf u lp b) = some y →
     let t := x + y + (gOf u lp c).toNat % 2
     exec (.dadj lp d a b c) s = regsAnswer u lp {} fun r =>
       (r.setG d (digitsReg t)).setG c (if t < 10 ^ 16 then 0 else 1))

/-! ### Binary floating point (06) -/

/-- R137 to R142: the arithmetic of binary64 and, outside Compatibility operating, of binary128. Where no condition
raised is trap-enabled, FD takes the result and FPC the flags, and nothing else changes but PSWA. -/
def Obligations.FloatArithmetic : Prop :=
  ∀ (lp : Fin 48) (d a b c : Fin 32) (s u : State), Begins s lp {} u →
    let x := archOf u lp
    let m := fpMode x
    let t := fpUTrap x
    let gives := fun (i : Instr) (f : Fmt) (r : Nat × Conds) => r.2 &&& field x.fpc 8 5 = 0 →
      exec i s = regsAnswer u lp {} fun y => { y.setF d (fpPlace f r.1) with fpc := y.fpc ||| BitVec.ofNat 32 r.2 }
    let D := fun i => fpDecode fmtD (fpOperand fmtD (x.getF i))
    let Q := fun i => fpDecode fmtQ (fpOperand fmtQ (x.getF i))
    gives (.faddD lp d a b 0) fmtD (fpAdd fmtD m t (D a) (D b)) ∧
    gives (.fsubD lp d a b 0) fmtD (fpAdd fmtD m t (D a) (D b).negate) ∧
    gives (.fmulD lp d a b 0) fmtD (fpMul fmtD m t (D a) (D b)) ∧
    gives (.fdivD lp d a b 0) fmtD (fpDiv fmtD m t (D a) (D b)) ∧
    gives (.fsqrtD lp d 0 b 0) fmtD (fpSqrt fmtD m t (D b)) ∧
    gives (.fmaD lp d a b c) fmtD (fpFma fmtD m t (D a) (D b) (D c)) ∧
    gives (.fmsD lp d a b c) fmtD (fpFma fmtD m t (D a) (D b) (D c).negate) ∧
    (u.mode.mode ≠ .compat →
      gives (.faddQ lp d a b 0) fmtQ (fpAdd fmtQ m t (Q a) (Q b)) ∧
      gives (.fsubQ lp d a b 0) fmtQ (fpAdd fmtQ m t (Q a) (Q b).negate) ∧
      gives (.fmulQ lp d a b 0) fmtQ (fpMul fmtQ m t (Q a) (Q b)) ∧
      gives (.fdivQ lp d a b 0) fmtQ (fpDiv fmtQ m t (Q a) (Q b)) ∧
      gives (.fsqrtQ lp d 0 b 0) fmtQ (fpSqrt fmtQ m t (Q b)) ∧
      gives (.fmaQ lp d a b c) fmtQ (fpFma fmtQ m t (Q a) (Q b) (Q c)) ∧
      gives (.fmsQ lp d a b c) fmtQ (fpFma fmtQ m t (Q a) (Q b) (Q c).negate))

/-- R138, R144: the compares, minimum and maximum of either format, the moves and the sign instructions, and the
moves of FPC. A compare with a NaN is false but for FCMPUN; the moves copy bits. -/
def Obligations.FloatCompareAndMove : Prop :=
  ∀ (lp : Fin 48) (q : Bool) (d a b : Fin 32) (s u : State), Begins s lp {} u → (q = true → u.mode.mode ≠ .compat) →
    let x := archOf u lp
    let f := if q then fmtQ else fmtD
    let X := fpDecode f (fpOperand f (x.getF a))
    let Y := fpDecode f (fpOperand f (x.getF b))
    let nan := (X.nan?).isSome || (Y.nan?).isSome
    let sig := anySignalling f X Y
    let quiet := field x.fpc 12 1 = 0
    let gd := fun (cond : Conds) (v : Bool) => regsAnswer u lp {} fun r =>
      { r.setG d (if v then 1 else 0) with fpc := r.fpc ||| BitVec.ofNat 32 cond }
    let fd := fun (v : Quad) => regsAnswer u lp {} fun r => r.setF d v
    let pick := fun (r : Nat × Conds) => regsAnswer u lp {} fun y =>
      { y.setF d (fpPlace f r.1) with fpc := y.fpc ||| BitVec.ofNat 32 r.2 }
    let top : Quad := 1 <<< 127
    (quiet →
      exec (.fcmpeq lp q d a b 0) s = gd (if sig then 16 else 0) (!nan && decide (fpCompare X Y = .eq)) ∧
      exec (.fcmplt lp q d a b 0) s = gd (if nan then 16 else 0) (!nan && decide (fpCompare X Y = .lt)) ∧
      exec (.fcmple lp q d a b 0) s = gd (if nan then 16 else 0) (!nan && decide (fpCompare X Y ≠ .gt)) ∧
      exec (.fcmpun lp q d a b 0) s = gd (if sig then 16 else 0) nan ∧
      exec (.fmin lp q d a b 0) s = pick (fpMinMax f false (fpOperand f (x.getF a)) (fpOperand f (x.getF b))) ∧
      exec (.fmax lp q d a b 0) s = pick (fpMinMax f true (fpOperand f (x.getF a)) (fpOperand f (x.getF b)))) ∧
    exec (.fmvf lp d a b 0) s = fd (gOf u lp a ++ gOf u lp b) ∧
    exec (.fmvgh lp d a 0 0) s = (regsAnswer u lp {} fun r => r.setG d ((x.getF a >>> 64).setWidth 64)) ∧
    exec (.fmvgl lp d a 0 0) s = (regsAnswer u lp {} fun r => r.setG d ((x.getF a).setWidth 64)) ∧
    exec (.fneg lp d a 0 0) s = fd (x.getF a ^^^ top) ∧
    exec (.fabs lp d a 0 0) s = fd (x.getF a &&& ~~~top) ∧
    exec (.fcpysgn lp d a b 0) s = fd ((x.getF a &&& ~~~top) ||| (x.getF b &&& top)) ∧
    exec (.fmov lp d a 0 0) s = fd (x.getF a) ∧
    exec (.mffpc lp d 0 0 0) s = (regsAnswer u lp {} fun r => r.setG d (x.fpc.setWidth 64)) ∧
    (gOf u lp a &&& ~~~0x71F1F = 0 → field (gOf u lp a) 16 3 ≤ 4 →
      exec (.mtfpc lp 0 a 0 0) s = regsAnswer u lp {} fun r => { r with fpc := (gOf u lp a).setWidth 32 })

/-- R145 to R147: the conversions between formats, to and from integers, and to and from packed decimal. A condition
raised is set in FPC where it is not trap-enabled. -/
def Obligations.FloatConversions : Prop :=
  ∀ (lp : Fin 48) (q : Bool) (k : Fin 6) (d a c : Fin 32) (s u : State), Begins s lp {} u → u.mode.mode ≠ .compat →
    let x := archOf u lp
    let m := fpMode x
    let t := fpUTrap x
    let f := if q then fmtQ else fmtD
    let g := gOf u lp a
    let gives := fun (i : Instr) (cond : Conds) (h : Arch → Arch) => cond &&& field x.fpc 8 5 = 0 →
      exec i s = regsAnswer u lp {} fun y => { h y with fpc := (h y).fpc ||| BitVec.ofNat 32 cond }
    let toF := fun (i : Instr) (o : Fmt) (r : Nat × Conds) => gives i r.2 fun y => y.setF d (fpPlace o r.1)
    let toG := fun (i : Instr) (r : Int × Conds) => gives i r.2 fun y => y.setG d (BitVec.ofInt 64 r.1)
    let round := if c = 0 then m else c.val - 1
    (let o := fcvtFormats k
     toF (.fcvt lp k d a 0 0) o.2 (fpConvert o.1 o.2 m t (fpOperand o.1 (x.getF a)))) ∧
    (c.val ≤ 5 →
      toG (.fcvti lp q d a 0 c) (fpToInt f round (-(2 ^ 63)) (2 ^ 63 - 1) (fpOperand f (x.getF a))) ∧
      toG (.fcvtu lp q d a 0 c) (fpToInt f round 0 (2 ^ 64 - 1) (fpOperand f (x.getF a)))) ∧
    toF (.fcvtf lp q d a 0 0) f (fpFromInt f m t g.toInt) ∧
    toF (.fcvtfu lp q d a 0 0) f (fpFromInt f m t g.toNat) ∧
    (d.val % 2 = 0 →
      let r := fpToPacked f m c.val (fpOperand f (x.getF a))
      gives (.ftopd lp q d a 0 c) r.2 fun y => (y.setG d r.1.1).setG (d + 1) r.1.2) ∧
    (a.val % 2 = 0 → ∀ neg mag, unpackPair g (gOf u lp (a + 1)) = some (neg, mag) →
      (mag ≠ 0 → toF (.ffrpd lp q d a 0 c) f (fpRound f m t neg mag (10 ^ c.val) 0)) ∧
      (mag = 0 → neg = false →
        exec (.ffrpd lp q d a 0 c) s = regsAnswer u lp {} fun y => y.setF d 0) ∧
      (mag = 0 → neg = true → ∃ z : Bool, exec (.ffrpd lp q d a 0 c) s =
        .next (finish (withRegs (taken (advanced u lp 4)) lp fun y => y.setF d (if z then 1 <<< 127 else 0)) lp {})))

/-- R139 to R141: an exact result that a format holds is the result of every rounding mode, with no condition but
that of a trap-enabled underflow: the value of any finite operand rounds back to the bits it came from. -/
def Obligations.FloatRoundsExactly : Prop :=
  ∀ (f : Fmt) (mode b : Nat) (neg : Bool) (m : Nat) (e : Int), f ∈ [fmtS, fmtD, fmtQ] → b < 2 ^ f.width →
    fpDecode f b = .fin neg m e → fpExact f mode false neg m e = (b, 0)

/-! ### Atomics, maintenance and I/O instructions (07, 09, 12) -/

/-- R169, R170, R173: the atomic instructions on an operand in Normal memory whose line the pair obtains. LDRSV, of a
doubleword or a word, reserves the granule; STCND stores only under the reservation, tells whether it did, and clears it;
CSWP and FADD give the value found. -/
def Obligations.AtomicsComplete : Prop :=
  ∀ (lp : Fin 48) (d a b c k : Fin 32) (pa : Nat) (bs : List Byte) (s u v w y : State), k.val ≤ 1 →
    let va := gOf u lp a
    let old := BitVec.ofNat 64 (beVal bs)
    let n := if k = 1 then 4 else 8
    let place := fun (n : Nat) => ([⟨pa, n, .normal⟩] : List Piece)
    let drop := fun (z : State) => updLp z lp fun x =>
      if x.reservation = some (lineOf pa) then { x with reservation := none, resHold := false } else x
    (va.toNat % n = 0 → Begins s lp {} u → translate lp va .load false false (advanced u lp 4) = .ok (pa, .normal) v →
      (pairOf v lp).bind (fun p => readCopy v p (lineOf pa)) = some w → Reads w lp va (place n) bs →
      exec (.ldrsv lp d a 0 k) s = .next (finish (updLp (withRegs w lp fun r => r.setG d old) lp fun x =>
        { x with reservation := some (lineOf pa), resHold := true }) lp {})) ∧
    (Begins s lp .atom u → translate lp va .store false false (advanced u lp 4) = .ok (pa, .normal) v →
      (va.toNat % n = 0 → (lpAt v lp).reservation ≠ some (lineOf pa) →
        exec (.stcnd lp d a b k) s = .next (finish (withRegs (updLp v lp fun x =>
          { x with reservation := none, resHold := false }) lp fun r => r.setG d 0) lp .atom)) ∧
      (ownLine lp (lineOf pa) v = .ok ⟨⟩ w →
        (va.toNat % n = 0 → (lpAt v lp).reservation = some (lineOf pa) → (lpAt w lp).reservation = some (lineOf pa) →
          Stores w lp (place n) (beBytes n (gOf w lp b).toNat) y →
          exec (.stcnd lp d a b k) s = .next (finish (withRegs (updLp y lp fun x =>
            { x with reservation := none, resHold := false }) lp fun r => r.setG d 1) lp .atom)) ∧
        (va.toNat % 8 = 0 → Reads w lp va (place 8) bs →
          (old ≠ gOf w lp c →
            exec (.cswp lp d a b c) s = .next (finish (withRegs (drop w) lp fun r => r.setG d old) lp .atom)) ∧
          (old = gOf w lp c → Stores w lp (place 8) (beBytes 8 (gOf w lp b).toNat) y →
            exec (.cswp lp d a b c) s = .next (finish (withRegs (drop y) lp fun r => r.setG d old) lp .atom)) ∧
          (Stores w lp (place 8) (beBytes 8 (old + gOf w lp b).toNat) y →
            exec (.fadd lp d a b 0) s = .next (finish (withRegs (drop y) lp fun r => r.setG d old) lp .atom)))))

/-- R216 to R224, R193: cache maintenance by address and by set and way, CRANGE and CRSTAT, and TLB maintenance, by a
processor of Manager state whose earlier stores are performed. By address it completes where no fill of the line is in
flight and the line is not leaving; TLB maintenance, where nothing that may have used the removed entries is unperformed. -/
def Obligations.MaintenanceCompletes : Prop :=
  ∀ (lp p : Fin 48) (d a b c : Fin 32) (pa : Nat) (ty : MemType) (s u v : State), Begins s lp .serial u →
    privOf (archOf u lp).psws = 2 → pairOf u lp = some p →
    let now := advanced u lp 4
    let va := gOf u lp a
    let done := fun (t : State) => (Host.Outcome.next (finish t lp .serial) : Answer)
    let code := fun (k : MaintOp) => match k with
      | .clean => Instr.ccln lp 0 a 0 c
      | .inval => Instr.cinv lp 0 a 0 c
      | .cleanInval => Instr.ccli lp 0 a 0 c
    (c.val < 6 → ∀ k : MaintOp,
      (c.val % 2 = 0 → translate lp va .load false (decide (k = .inval)) now = .ok (pa, ty) v → storesDone v lp = true →
        (ty = .normal → maintWaits v (lineOf pa) = false) →
        exec (code k) s = done
          (if ty ≠ .normal then v
           else if c.val = 4 then maintLine v k (lineOf pa) else maintL1 v p k (decide (c.val = 2)) (lineOf pa))) ∧
      (c.val % 2 = 1 → storesDone now lp = true →
        (c.val = 5 → va.toNat < 2 ^ 15 →
          let e := (pairAt now p).l2.find? fun e => decide (e.1 % 2048 = va.toNat / 16) && decide (e.2.way = va.toNat % 16)
          (e = none → exec (code k) s = done now) ∧
          ∀ x, e = some x → x.2.leaving = false → exec (code k) s = done (maintL2 now p k x.1)) ∧
        (c.val ≠ 5 → va.toNat % 16 ≤ 7 → va.toNat / 16 ≤ 63 →
          let t := if c.val = 3 then (pairAt now p).l1i else (pairAt now p).l1d
          let e := t.find? fun e => decide (e.1 % 64 = va.toNat / 16) && decide (e.2 = va.toNat % 16)
          exec (code k) s = done (match e with
            | some x => maintL1 now p k (decide (c.val = 3)) x.1
            | none => now)))) ∧
    (c.val % 4 = 0 → c.val / 4 ≤ 4 →
      exec (.crstat lp d 0 0 c) s = regsAnswer u lp .serial fun r =>
        r.setG d (burinStatus (burinAt u (burinDie u lp c)) lp)) ∧
    (storesDone now lp = true →
      let gone := fun (i : Instr) (k : TlbiKind) (x : Word) (asid : BitVec 16) (ctx : Nat) =>
        let t := tlbiAll now k x asid ctx
        stillUsed t ctx (closesNow t) = false → exec i s = done t
      (c.val % 4 ≠ 0 → c.val / 4 ≤ 4 → va.toNat % 256 = 0 → (gOf u lp b).toNat % 256 = 0 →
        rangeCheck lp va (gOf u lp b).toNat now = .ok pa now → (gOf u lp b).toNat ≠ 0 →
        let die := burinDie u lp c
        exec (.crange lp d a b c) s =
          if (burinAt u die).busy then regsAnswer u lp .serial fun r => r.setG d 0
          else done (withRegs (updBurin now die fun _ =>
            { Burin.reset with busy := true, op := c.val % 4, start := pa, len := (gOf u lp b).toNat, owner := some lp,
                               ownerCtx := mgrCtx, paused := u.mode.quiesce }) lp fun r => r.setG d 1)) ∧
      (c.val ≤ 1 → gone (.tlbiVa lp 0 a b c) (.va (decide (c = 1))) va ((gOf u lp b).setWidth 16) mgrCtx) ∧
      gone (.tlbiAsid lp 0 a 0 0) .asid 0 (va.setWidth 16) mgrCtx ∧
      (va.toNat % 256 ≤ 128 → gone (.tlbiPart lp 0 a 0 0) .part 0 0 (va.toNat % 256)))

/-- R288 to R292, R304 to R309: the I/O instructions on a subchannel of this package, by a processor not in User
state whose earlier stores can be performed. Each gives the result code of its table in GD, with the effect that code
stands for. -/
def Obligations.IoInstructionsComplete : Prop :=
  ∀ (lp : Fin 48) (d a b : Fin 32) (pa : Nat) (bs : List Byte) (s u v w : State), Begins s lp .serial u →
    1 ≤ privOf (archOf u lp).psws → (gOf u lp a).toNat < 2 ^ 20 → (gOf u lp a).toNat / 2 ^ 18 = pkgId w →
    let n := (gOf u lp a).toNat % 2 ^ 18
    let va := gOf u lp b
    let now := advanced u lp 4
    let ctx := lpCtx w lp
    let gives := fun (t : State) (code : Nat) =>
      (.next (finish (withRegs t lp fun r => r.setG d (BitVec.ofNat 64 code)) lp .serial) : Answer)
    let block := fun (acc : Access) (size : Nat) => va.toNat % size = 0 ∧ translate lp va acc false false now = .ok (pa, .normal) v
    let ready := (homeHere w (lineOf pa) && blocked w (lineOf pa)) = false
    (block .load 32 → readPieces lp va [⟨pa, 32, .normal⟩] v = .ok bs v → startBlockBad bs = false →
      performAll v lp = some w →
      exec (.iostart lp d a b 0) s =
        gives (startOp w n (opOfBlock ctx bs)).1 (startOp w n (opOfBlock ctx bs)).2) ∧
    (performAll now lp = some w →
      exec (.iohalt lp d a 0 0) s =
        gives (if haltResult w ctx n = 0 then haltOp w n else w) (haltResult w ctx n)) ∧
    (block .load 16 → readPieces lp va [⟨pa, 16, .normal⟩] v = .ok bs v → modifyBlockBad bs = false →
      performAll v lp = some w →
      let x := schAt w n
      exec (.iomodify lp d a b 0) s =
        if operational w ctx n = false then gives w 0x40
        else if x.status.isSome then gives w 0x20
        else if x.func ≠ .none then gives w 0x30
        else gives (updSch w n fun x =>
          { x with enabled := decide ((bs.getD 0 0).toNat ≥ 128), isc := (bs.getD 1 0).toNat,
                   lpm := BitVec.ofNat 8 (bs.getD 2 0).toNat }) 0) ∧
    (block .store 64 → performAll v lp = some w → ready →
      exec (.iostore lp d a b 0) s =
        if operational w ctx n then gives (agentWrite w pa (schRecord w n)) 0 else gives w 0x40) ∧
    (block .store 32 → performAll v lp = some w → ready →
      (operational w ctx n = false →
        exec (.iotest lp d a b 0) s = gives w 0x40 ∧ exec (.ioclear lp d a b 0) s = gives w 0x40) ∧
      (operational w ctx n = true →
        ((schAt w n).status = none →
          exec (.iotest lp d a b 0) s = gives w 0x21 ∧ exec (.ioclear lp d a b 0) s = gives (clearOp w n) 0) ∧
        ∀ o, (schAt w n).status = some o →
          let t := removeStatus (agentWrite w pa (oswBytes o)) n
          exec (.iotest lp d a b 0) s = gives t 0 ∧ exec (.ioclear lp d a b 0) s = gives (clearOp t n) 1))

/-- R81, R82, R85, R91, R109, R131, R152: a form reached from too low a state raises the privileged-operation exception;
one that Compatibility operating does not have, the operation exception; and one with a field it does not use that is
not zero, the specification exception. Each saves the address of the instruction itself. -/
def Obligations.ProgramExceptions : Prop :=
  (∀ (lp : Fin 48) (i : Instr) (need : Nat) (s t u : State) (d a b c : Fin 32),
     ((i = .mfc lp d a b c ∨ i = .mtc lp d a b c) ∧ need = (if c.val < 16 then 1 else 2)) ∨
       (need = 1 ∧ (i = .rfe lp d a b c ∨ i = .mcall lp d a b c ∨ i = .iostart lp d a b c ∨ i = .iohalt lp d a b c ∨
         i = .ioclear lp d a b c ∨ i = .iotest lp d a b c ∨ i = .iostore lp d a b c ∨ i = .iomodify lp d a b c ∨
         i = .tlbiVa lp d a b c ∨ i = .tlbiAsid lp d a b c ∨ i = .tlbiPart lp d a b c ∨ i = .crstat lp d a b c)) →
     lpReady s lp = true → prepare s lp true = some t → fetchInstr lp 4 t = .ok () u →
     privOf (archOf u lp).psws < need → closeRoom (lpAt t lp) = true →
     Gives i s fun y => archOf y lp =
       entryArch (archOf t lp) (decide (privOf (archOf t lp).psws = 2) || bit (archOf t lp).c[23] 2) false 0
         (codeWord 0 1 2) 0) ∧
  (∀ (lp : Fin 48) (i : Instr) (f : Form) (s t u : State) (n d a b c : Fin 32) (disp : BitVec 16) (body : Instr),
     (i = .repI lp n 0 body ∧ (repBody lp body).atomic = false ∧ f = { len := 8, rep := true }) ∨
       (f = {} ∧ (i = .lfq lp d b disp ∨ i = .stfq lp d b disp ∨ i = .faddQ lp d a b c ∨ i = .fsubQ lp d a b c ∨
         i = .fmulQ lp d a b c ∨ i = .fdivQ lp d a b c ∨ i = .fsqrtQ lp d a b c ∨ i = .fmaQ lp d a b c ∨
         i = .fmsQ lp d a b c ∨ i = .fcmpeq lp true d a b c ∨ i = .fmin lp true d a b c ∨
         i = .fcvti lp true d a b c ∨ i = .ftopd lp true d a b c)) →
     lpReady s lp = true → prepare s lp f.before = some t → fetchInstr lp f.len t = .ok () u → u.mode.mode = .compat →
     closeRoom (lpAt t lp) = true →
     Gives i s fun y => archOf y lp =
       entryArch (archOf t lp) (decide (privOf (archOf t lp).psws = 2) || bit (archOf t lp).c[23] 1) false 0
         (codeWord 0 1 1) 0) ∧
  (∀ (lp : Fin 48) (i : Instr) (s t u : State) (d a b c : Fin 32),
     (c ≠ 0 ∧ (i = .add lp d a b c ∨ i = .sub lp d a b c ∨ i = .and lp d a b c ∨ i = .or lp d a b c ∨
       i = .xor lp d a b c ∨ i = .sll lp d a b c ∨ i = .cmpeq lp d a b c ∨ i = .mul lp d a b c ∨
       i = .mulwu lp d a b c ∨ i = .clz lp d a b c ∨ i = .extb lp d a b c ∨ i = .jr lp d a b c ∨
       i = .faddD lp d a b c ∨ i = .fcmpeq lp false d a b c ∨ i = .fneg lp d a b c ∨ i = .mffpc lp d a b c ∨
       i = .rdtick lp d a b c)) →
     lpReady s lp = true → prepare s lp false = some t → fetchInstr lp 4 t = .ok () u →
     closeRoom (lpAt t lp) = true →
     Gives i s fun y => archOf y lp =
       entryArch (archOf t lp) (decide (privOf (archOf t lp).psws = 2) || bit (archOf t lp).c[23] 3) false 0
         (codeWord 0 1 3) 0)

/-! ### Time (02) -/

/-- R23 to R26: an edge of a PPS input is filtered, counted, qualified and used, and an input or a lock that is lost
sends the loop to the other input or into holdover. R27, R30: a time code that passes its checks labels the next edge,
the output message labels the next second, and a slave steers by half the difference of the two one-way intervals, less
the asymmetry of the link, while the other end answers with the instant it has. -/
def Obligations.TimeInputs : Prop :=
  (∀ (s : State) (b : Bool) (off : Fin 160000) (high : Nat) (l : Int), keeperRuns s = true →
     let x := ppsAt s b
     let t := instant s off.val
     let put := fun (y : PpsIn) => setPps s b y
     (50 ≤ high → s.time.src ≠ ppsCode b →
       (x.last = none →
         exec (.ppsEdge b off high) s =
           .next (put { last := some t, run := 1, outliers := 0, qualified := x.qualified })) ∧
       (x.last = some l → s.time.loop ≠ .locked → l + 15999984000 ≤ t → t ≤ l + 16000016000 →
         exec (.ppsEdge b off high) s =
           .next (put { last := some t, run := x.run + 1, outliers := 0,
                        qualified := x.qualified || decide (x.run ≥ 9) }))) ∧
     (50 ≤ high → x.last = some l →
       (t < l + 8000000000 → exec (.ppsEdge b off high) s = .next (countIgnored s b)) ∧
       (l + 8000000000 ≤ t → s.time.loop = .locked → offPrediction l t > 16000 → x.outliers < 2 →
         exec (.ppsEdge b off high) s = .next (countIgnored (put { x with outliers := x.outliers + 1 }) b)) ∧
       (l + 8000000000 ≤ t → s.time.loop = .locked → offPrediction l t > 16000 → x.outliers = 2 →
         s.time.src = ppsCode b →
         Gives (.ppsEdge b off high) s fun v => v.time.loop = .acquiring ∧ (ppsAt v b).outliers = 0)) ∧
     (high < 50 → exec (.ppsEdge b off high) s = .next s) ∧
     (x.qualified = true → x.last = some l → l + 24000000000 ≤ t →
       (s.time.src ≠ ppsCode b →
         exec (.ppsQualificationLoss b off) s = .next (put { x with qualified := false, run := 0 })) ∧
       (s.time.src = ppsCode b → s.time.loop = .locked → todAuto s = true → (ppsAt s !b).qualified = true →
         Gives (.ppsQualificationLoss b off) s fun v =>
           v.time.src = ppsCode !b ∧ v.time.active = ppsCode !b ∧ v.time.loop = .acquiring ∧
           (ppsAt v b).qualified = false) ∧
       (s.time.src = ppsCode b → s.time.loop = .locked → todAuto s = false →
         Gives (.ppsQualificationLoss b off) s fun v =>
           v.time.src = s.time.src ∧ v.time.active = 0 ∧ v.time.slew = 0 ∧ v.time.loop = .holdover ∧
           (ppsAt v b).qualified = false)) ∧
     (s.time.loop = .acquiring → s.time.lostLock = true → s.time.freqHist ≠ [] →
       Gives .reacquireTimeout s fun v =>
         v.time.loop = .holdover ∧ v.time.slew = 0 ∧
         v.time.freq = s.time.freqHist.foldl (· + ·) 0 / (s.time.freqHist.length : Int))) ∧
  (∀ (s : State) (sec : Word) (utc ms : Nat) (flags : Byte) (k : Fin 4) (l go back : Int), keeperRuns s = true →
     let body : List Byte := [0x5A, 0xA5, 1, flags] ++ leBytes 8 sec.toNat ++ leBytes 2 utc ++ [0, 0]
     let msg := body ++ leBytes 4 (crc32c body).toNat
     let m := BitVec.ofNat 160 (beVal msg)
     ((if s.time.src = 1 then s.time.ppsA.last else if s.time.src = 2 then s.time.ppsB.last else none) = some l →
       100 ≤ ms → ms ≤ 900 →
       (s.mode.mode = .init →
         exec (.timeCodeMessage m ms true) s = .next { s with time := { s.time with label := some sec } }) ∧
       (running s = true → (sec.toNat : Int) = (l + 24000000000) / 16000000000 →
         exec (.timeCodeMessage m ms true) s = .next { s with time := { s.time with labelOk := true } }) ∧
       (running s = true → (sec.toNat : Int) ≠ (l + 24000000000) / 16000000000 →
         Gives (.timeCodeMessage m ms true) s fun v => v.time = { s.time with labelOk := false })) ∧
     (tcoEnabled s = true → s.time.ppsOut = true → s.time.tcSent = false → 1600000000 ≤ s.time.steps →
       s.time.steps ≤ 8000000000 →
       Gives .timeCodeOutput s fun v => v.time = { s.time with tcSent := true } ∧
         ∃ (f : Byte) (h : List Byte),
           h = [0x5A, 0xA5, 1, f] ++ leBytes 8 (s.time.seconds.toNat + 1) ++
             leBytes 2 (cell s (regKey todPage 0x06C)).toNat ++ [0, 0] ∧
           f.getLsbD 0 = decide (s.time.loop = .locked) ∧
           v.out = .timeCode (h ++ leBytes 4 (crc32c h).toNat) :: s.out) ∧
     ((vget s.links Link.reset k.val).up = true → (vget s.links Link.reset k.val).failed = false →
       (isSlave s = true → s.time.src = 3 → k.val = timeLink s →
         let err := (go - back) / 2 - (vget s.links Link.reset k.val).asym
         Gives (.timeTransferMessage k go back) s fun v =>
           v.time.phaseErr = err ∧ v.time.active = 3 ∧ v.time.freq = s.time.freq ∧
           v.time.slew = max (-5000000) (min 5000000 (-(err * 125 / 2)))) ∧
       (isSlave s = false ∨ k.val ≠ timeLink s →
         exec (.timeTransferMessage k go back) s = .next (emit (.timeTransfer k.val (instant s 0)) s))))

/-- R12, R33, R34, R43, R507: what befalls the oscillator, the dies' ticks, the Keeper, a lane, and an imbalance. R44 to R46: a
captured record is written where ALM_BASE and ALM_WP say, and ALM_WP moves past it. -/
def Obligations.TimeEvents : Prop :=
  (∀ (s : State) (d : Fin 6) (link : Fin 13) (inbound : Bool) (cls index : Nat),
     let time := fun (f : Time → Time) => { s with time := f s.time }
     exec (.dieRealignmentComplete d) s =
       .next (time fun t => { t with deviating := t.deviating.filter (· ≠ d.val), dieOff := vset t.dieOff d.val 0 }) ∧
     (keeperRuns s = true →
       (s.time.oscLost = false →
         exec .oscillatorInputLost s = .next (todEvent (time fun t => { t with oscLost := true }) 0x2016)) ∧
       (s.time.oscLost = true →
         exec .oscillatorInputRestored s = .next (todEvent (time fun t => { t with oscLost := false }) 0x0017))) ∧
     (s.mode.mode ≠ .off → s.err.degKeeper = false →
       Gives .keeperDieLoss s fun v =>
         v.time = { s.time with dieHoldover := true, slew := 0 } ∧ v.err = { s.err with degKeeper := true } ∧
         v.strike.st ≠ .armed ∧ v.regs = s.regs) ∧
     (let far := if inbound then (linkEnds link.val).1 else (linkEnds link.val).2
      let k := link.val * 2 + inbound.toNat
      let n := Tab.read (fun _ => 0) s.lanes k
      dieOn s far = true →
       (n < 2 → exec (.laneRemap link inbound) s = .next { s with lanes := Tab.write (fun _ => 0) s.lanes k (n + 1) }) ∧
       (n ≥ 2 → s.mode.mode ≠ .checkstop → s.err.stopCode = 0 →
         Gives (.laneRemap link inbound) s fun v =>
           v.mode.mode = .checkstop ∧ v.err.stopCode = 0x8177 ∧ v.err.stopPage = errlogPage far)) ∧
     (let k := cls * 1024 + index
      k ∉ s.bud.raised → 1000000 ≤ Tab.read (fun _ => 0) s.bud.run k →
       exec (.imbalanceEvent cls index) s =
         .next (logEvent { s with bud := { s.bud with raised := k :: s.bud.raised } }
           { page := budgetPage 4, code := 0x0021, sub := k }))) ∧
  (∀ (s t : State) (d : Fin 7) (r : AlmRecord) (l : List AlmRecord), dieOn s d.val = true →
     (almAt s d.val).waiting = r :: l →
     let wp := almReg s d.val 0x058
     let a := almReg s d.val 0x048 + wp
     canWriteAll s [(a, 256 * r.lines)] = true → spend s .tel (almCost s d.val a r.lines) = (t, true) →
     exec (.almanacRecordWritten d) s =
       .next (setCell (agentWrite (updAlm t d.val fun x => { x with waiting := l }) a (almBytes d.val r))
         (regKey (almPage d.val) 0x058) (BitVec.ofNat 64 ((wp + 256 * r.lines) % max 1 (almReg s d.val 0x050)))))

/-- R20, R28, R65: a tick advances the Transit number by one and the time of day by 10 µs, carries into the seconds,
where PPS_OUT rises if it is enabled and the Keeper runs, and steps the lease of a held Pen. -/
def Obligations.TickAdvances : Prop :=
  ∀ (inp : TickIn) (s : State), s.mode.mode ≠ .off → s.mode.transition ≠ .hold → s.strike.st ≠ .committed → s.strike.st ≠ .armed →
    s.cs.updating = false → s.portHeld = [] →
    let wraps := s.time.steps + 160000 ≥ 16000000000
    Gives (.transitTick inp) s fun v =>
      v.time.transit = s.time.transit + 1 ∧
      v.time.steps = (if wraps then 0 else s.time.steps + 160000) ∧
      v.time.seconds = (if wraps then s.time.seconds + 1 else s.time.seconds) ∧
      v.time.ppsOut = (if wraps then ppsoEnabled s && keeperRuns s else s.time.ppsOut) ∧
      v.pen = (if s.pen.holder.isSome then { s.pen with lease := s.pen.lease - 1 } else s.pen)

/-! ### The service space, the Pen, Proof and Strike (03) -/

/-- R54, R57, R59, R60: a write by a master to a page it may write: a draft where it holds the Pen, an LV register, a
W1C register, COMMAND 01h; a write outside those rules is discarded and counted. -/
def Obligations.RegisterWrites : Prop :=
  ∀ (s : State) (m : Master) (off : BitVec 31) (r : RegDef) (e : Nat) (v : Word),
    let p := off.toNat / 4096
    let lo := off.toNat % 4096
    (writable s m p = true → off.toNat % 4 = 0 → lo < 0x800 → regAt p lo = some (r, e) → r.bytes = 4 →
      (∀ c, r.ty = .st c → draftOpen s m = true →
        let k := regKey p e (regIx s p e)
        exec (.draftWrite m off 4 v) s = .next (putDraft s k (v &&& 0xFFFFFFFF &&& BitVec.ofNat 64 r.mask)) ∧
        exec (.registerWrite m off 4 v) s = exec (.draftWrite m off 4 v) s) ∧
      (∀ c, r.ty = .st c → draftOpen s m = false →
        exec (.draftWrite m off 4 v) s = .next (discard s m off.toNat true)) ∧
      (r.ty = .lv → pageType p ∉ [0x01, 0x08, 0x11, 0x38, 0x3C] →
        exec (.registerWrite m off 4 v) s =
          .next (setCell s (regKey p e) (v &&& 0xFFFFFFFF &&& BitVec.ofNat 64 r.mask))) ∧
      (r.ty = .w1c →
        let k := regKey p e (regIx s p e)
        exec (.registerWrite m off 4 v) s = .next (setCell s k (cell s k &&& ~~~(v &&& 0xFFFFFFFF)))) ∧
      (r.ty = .ro → exec (.registerWrite m off 4 v) s = .next s)) ∧
    (writable s m p = false →
      exec (.registerWrite m off 4 v) s = .next (discard s m off.toNat true)) ∧
    ∀ page : BitVec 19, writable s m page.toNat = true → Tab.look s.cmds page.toNat = none →
      Gives (.errClear m page) s fun t =>
        cell t (regKey page.toNat 0x010) = 0 ∧ cell t (regKey page.toNat 0x018) = 0

/-- R54, R62, R418, R505: a read answers the value of the register, 4 or 8 bytes of it, an absent page as zero; the
event queue's read pointers move within the queue; a port that comes up starts at the write pointer; and the sideband
reads what its pointer names, big-endian. R511: the first four instructions of the test port are taken in every mode
but Off; the five of the board test act as BYPASS outside phase CONFIG, and in it bar PROCEED. IDCODE shifts out a
code with part number 0A74h and a one in bit 0. -/
def Obligations.PortsAndSideband : Prop :=
  (∀ (s : State) (m : Master) (b : Bool) (off : BitVec 31) (v : BitVec 32) (p h l : Byte) (bytes : List Byte),
     let page := off.toNat / 4096
     let side := if b then s.sideB else s.sideA
     let port := if b then Master.portB else Master.portA
     (off.toNat % 4 = 0 → portLost s m = false → reaches m page = true → dieOn s (pageDie page) = true → page ≠ csPage 6 →
       exec (.servicePortRead m off 4) s =
         .next { s with out := .reply m (BitVec.ofNat 64 (readWord s page (off.toNat % 4096))) :: s.out }) ∧
     (off.toNat % 4 = 0 → portLost s m = false → reaches m page = false → page ≠ csPage 6 →
       exec (.servicePortRead m off 4) s = .next { s with out := .reply m 0 :: s.out }) ∧
     (s.mode.mode ≠ .off → s.err.degKeeper = false → m = port → (s.err.wp - v).toNat ≤ 256 →
       exec (.evqReadPointerWrite m b v) s =
         .next { s with err := if b then { s.err with rpB := v } else { s.err with rpA := v } }) ∧
     exec (.servicePortLinkUp b) s =
       .next { s with err := if b then { s.err with portUpB := true, rpB := s.err.wp }
                             else { s.err with portUpA := true, rpA := s.err.wp } } ∧
     exec (.servicePortLinkDown b) s =
       .next { s with err := if b then { s.err with portUpB := false } else { s.err with portUpA := false } } ∧
     (s.mode.mode ≠ .off → s.err.degKeeper = false →
       let o := h.toNat * 256 + l.toNat
       (1 ≤ p.toNat → p.toNat ≤ 3 → o % 4 = 0 → o < 4096 →
         exec (.sidebandPointerWrite b [p, h, l]) s =
           .next (setSide s b { side with ptr := some (p.toNat * 4096 + o) })) ∧
       (bytes.length ≠ 3 → exec (.sidebandPointerWrite b bytes) s = .next (setSide s b { side with ptr := none })) ∧
       (side.reads < 16 →
         let t := setSide s b { side with reads := side.reads + 1 }
         (side.ptr = none →
           exec (.sidebandRead b) s = .next { t with out := .sideband b (List.replicate 8 0xFF) :: s.out }) ∧
         ∀ a x, side.ptr = some a → a % 8 = 4 →
           readService t port (pageIx 6 (a / 4096) 0 * 4096 + a % 4096) 4 = .value x →
           exec (.sidebandRead b) s = .next { t with out := .sideband b (beBytes 4 x.toNat) :: s.out }) ∧
       (16 ≤ side.reads → exec (.sidebandRead b) s = .next s))) ∧
  (∀ s : State, s.mode.mode ≠ .off →
     let load := fun (i : TapInstr) => (.next { s with tap := { s.tap with instr := i } } : Answer)
     let test := fun (i : TapInstr) =>
       if s.mode.mode = .init ∧ s.mode.phase = 2 then (.next { s with tap := { instr := i, used := true } } : Answer)
       else load .bypass
     exec .bypass s = load .bypass ∧ exec .samplePreload s = load .sample ∧
     (∃ c : BitVec 32, exec .idcode s =
         .next { s with tap := { s.tap with instr := .idcode }, out := .tap "IDCODE" (c.setWidth 64) :: s.out } ∧
       c.getLsbD 0 = true ∧ c.toNat / 2 ^ 12 % 2 ^ 16 = 0x0A74) ∧
     exec .extest s = test .extest ∧ exec .extestPulse s = test .extestPulse ∧ exec .extestTrain s = test .extestTrain ∧
     exec .clamp s = test .clamp ∧ exec .highz s = test .highz)

/-- R63 to R66: a free Pen is granted to a contender, and to one that has never held it before any that has; its holder
releases it and renews its lease, a port breaks it, and a lease that has run out releases it. A release discards every
draft and abandons a Proof. -/
def Obligations.PenMoves : Prop :=
  ∀ (s : State) (m h : Master),
    let granted := fun (t : State) (x : Master) =>
      t.pen.holder = some x ∧ t.pen.lease = 1000 ∧ t.pen.grantSeq = s.pen.grantSeq + 1
    let emptied := fun (t : State) =>
      t.drafts = [] ∧ t.proof.code = 0 ∧ t.proof.busy = false ∧ t.strike.st ≠ .armed
    (writable s m keeperPage = false →
      let refused : Answer := .next (discard s m (keeperOff 0x040) true)
      exec (.penTake [m]) s = refused ∧ exec (.penRelease m) s = refused ∧ exec (.penBreak m) s = refused) ∧
    (writable s m keeperPage = true → s.pen.holder = none →
      Gives (.penTake [m]) s (fun t => granted t m ∧ t.drafts = s.drafts ∧ t.regs = s.regs) ∧
      (∀ l, m ∈ l → m ∉ s.pen.history →
        Gives (.penTake l) s fun t => ∃ w ∈ l, granted t w ∧ w ∉ s.pen.history)) ∧
    (writable s m keeperPage = true → s.pen.holder = some m →
      Gives (.penRelease m) s (fun t => t.pen.holder = none ∧ emptied t) ∧
      exec (.penRenew m) s = .next { s with pen := { s.pen with lease := 1000 } }) ∧
    (writable s m keeperPage = true → s.pen.holder = some h → h ≠ m →
      exec (.penTake [m]) s = .next (discard s m (keeperOff 0x040) true) ∧
      exec (.penRenew m) s = .next (discard s m (keeperOff 0x048) true) ∧
      (m ≠ .manager → Gives (.penBreak m) s fun t => granted t m ∧ emptied t)) ∧
    (s.pen.holder = some h → s.pen.lease = 0 →
      Gives .leaseExpiry s fun t => t.pen.holder = none ∧ emptied t)

/-- R67 to R70: the holder of the Pen starts a Proof, which posts 01h where no dirty register fails a check, and else the
first failing check with its page and offset. -/
def Obligations.ProofRuns : Prop :=
  ∀ (s : State) (m : Master),
    (writable s m keeperPage = true → s.pen.holder = some m → s.proof.busy = false →
      exec (.proofStart m) s = .next { s with proof := { s.proof with busy := true } }) ∧
    (s.pen.holder ≠ some m ∨ s.proof.busy = true →
      exec (.proofStart m) s = .next (discard s m (keeperOff 0x04C) true)) ∧
    (s.proof.busy = true →
      ((∀ e ∈ s.drafts, checkReg s e.1 = []) →
        exec .proofComplete s = .next { s with proof := {
          code := 1, busy := false, page := 0, off := 0, proofed := true, inInit := decide (s.mode.mode = .init) } }) ∧
      (∀ k v c rest, s.drafts = [(k, v)] → checkReg s k = c :: rest → (∀ x ∈ rest, codeRank c ≤ codeRank x) →
        Gives .proofComplete s fun t =>
          t.proof.code = c ∧ t.proof.page = keyPage k ∧ t.proof.off = keyOff k ∧ t.proof.busy = false ∧
          t.proof.proofed = false ∧ t.drafts = s.drafts))

/-- R71 to R74: a Strike is ordered by the Pen's holder, refused for want of a Proof, cancelled, armed by its dies,
committed a tick before its target, and its Quiesce entered and left. -/
def Obligations.StrikeRuns : Prop :=
  ∀ (s : State) (m : Master) (c : Fin 25000) (d : Fin 7) (unit : Nat),
    let target := (cell s (regKey keeperPage 0x060)).toNat
    let armed := fun (n : Nat) => (Host.Outcome.next { s with strike :=
      { st := .armed, reason := 0, tick := BitVec.ofNat 32 n, target := BitVec.ofNat 64 n, cls := strikeClass s,
        waitAcks := dirtyDies s, vals := [] } } : Answer)
    (writable s m keeperPage = true → s.pen.holder = some m → strikeOrdered s = false →
      (s.proof.code = 1 → earliest s c.val ≤ target → target ≤ s.time.transit.toNat + 100000 →
        s.time.deviating = [] → strikeMode s = true → (initDirty s = false ∨ s.mode.mode = .init) →
        exec (.strikeAtTick m c) s = armed target) ∧
      (s.proof.code = 1 → s.time.deviating = [] → strikeMode s = true → (initDirty s = false ∨ s.mode.mode = .init) →
        exec (.strikeAtE m c) s = armed (earliest s c.val)) ∧
      (s.proof.code ≠ 1 →
        Gives (.strikeAtTick m c) s fun t => t.strike.st = .refused ∧ t.strike.reason = 1 ∧ t.drafts = s.drafts)) ∧
    (s.pen.holder ≠ some m →
      exec (.strikeAtE m c) s = .next (discard s m (keeperOff 0x058) true)) ∧
    (s.strike.st = .armed →
      (writable s m keeperPage = true → s.pen.holder = some m →
        Gives (.strikeCancel m) s fun t => t.strike.st = .cancelled ∧ t.strike.reason = 7 ∧ t.drafts = s.drafts) ∧
      exec (.armAcknowledgement d) s =
        .next { s with strike := { s.strike with waitAcks := s.strike.waitAcks.filter (· ≠ d.val) } } ∧
      (s.time.transit.toNat + 1 = s.strike.target.toNat →
        (s.strike.waitAcks ≠ [] →
          Gives .strikeAckDeadline s fun t => t.strike.st = .cancelled ∧ t.strike.reason = 5) ∧
        (s.strike.waitAcks = [] → (s.strike.cls = .quiesce → allQuiet s = true) → s.mode.mode ≠ .checkstop →
          exec .strikeCommit s = .next { s with strike := { s.strike with st := .committed, vals := s.drafts } })) ∧
      (s.strike.cls = .quiesce → s.time.transit.toNat + 10 = s.strike.target.toNat → s.mode.quiesce = false →
        Gives .quiesceEntry s fun t => t.mode.quiesce = true ∧ t.mode.quiet = [] ∧ t.strike = s.strike)) ∧
    (s.strike.st = .committed → exec (.strikeCancel m) s = .next (discard s m (keeperOff 0x058) true)) ∧
    (s.mode.quiesce = true → strikeOrdered s = false →
      Gives .quiesceExit s fun t => t.mode.quiesce = false ∧ ∀ i : Fin 4, t.burin[i].paused = false) ∧
    (s.mode.quiesce = true → unit ∉ s.mode.quiet → (∀ p : Fin 48, pairPage p.val ≠ unit) →
      (∀ i, i < 4 → burinPage i ≠ unit) →
      exec (.unitQuiesced unit) s = .next { s with mode := { s.mode with quiet := unit :: s.mode.quiet } })

/-! ### Released stores, root ports and functions (07, 08, 11, 15, 21) -/

/-- R260 to R263, R153, R160, R173: an interval that is due closes where the released part has room, and the checkpoint
that was current goes to the other slot; the released Normal entries of one close and line leave together, merged into a
line the L2 holds in M or waiting in the L2 for its ownership; an Uncached one is written at its home, a Device one goes to
its unit or its port; the expiry of a reservation's hold lets snoops through. R381: a store of 8
bytes to the first word of a context's own page of the signal granule makes a signal pending on the logical processor
it names, if the context holds it; any other store only counts. -/
def Obligations.StoresLeave : Prop :=
  (∀ (s : State) (lp p : Fin 48) (e : GateEntry) (l : List GateEntry),
     (mayClose s lp = true → closeRoom (lpAt s lp) = true →
       ((lpAt s lp).icount ≥ 256 → exec (.checkpointClose lp) s = .next (closeInterval s lp)) ∧
       Gives (.intervalLimit lp) s fun t =>
         (lpAt t lp).ckpt = archOf s lp ∧ (lpAt t lp).other = (lpAt s lp).ckpt ∧ (lpAt t lp).slot = !(lpAt s lp).slot ∧
         (lpAt t lp).gated = [] ∧ (lpAt t lp).icount = 0 ∧
         (lpAt t lp).released =
           (lpAt s lp).released ++ (lpAt s lp).gated.map fun e => { e with grp := (lpAt s lp).closes + 1 }) ∧
     exec (.reservationHoldExpiry lp) s = .next (updLp s lp fun x => { x with resHold := false }) ∧
     ((lpAt s lp).released = e :: l →
       let line := e.blk / 4
       let left := fun (l : List GateEntry) => updLp s lp fun x => { x with released := l }
       let gives := fun (t : State) => exec (.releasedEntryDrain lp) s = .next (barrierCheck t lp)
       let es := e :: l.filter (leavesWith e)
       let t := left (l.filter fun w => !leavesWith e w)
       (e.ty = .normal → pairOf s lp = some p → farScratch s line = false →
         (l2State s p line = some .m → (∀ w ∈ (lpAt s lp).owning, w.blk / 4 ≠ line) → gives (mergeAll t lp line es)) ∧
         (l2State s p line = none → gives (updLp t lp fun x => { x with owning := x.owning ++ es }))) ∧
       (e.ty = .uncached →
         (homeHere s line = true → blocked s line = false → gives (writeEntry (left l) e)) ∧
         (homeHere s line = false → gives (sendFar (left l) lp "WrP" e))) ∧
       (e.ty = .device → gives (drainDevice (left l) lp e)))) ∧
  (∀ (s : State) (lp t : Fin 48) (page : Nat) (off : BitVec 12) (v : Word),
     v = BitVec.ofNat 64 (pkgId s * 2 ^ 14 + t.val) → t.val < lpCount s → lpOwner s t.val = lpCtx s lp →
     (page = lpCtx s lp → off = 0 → (lpAt s t).run ≠ .waiting →
       exec (.signalStore lp page off 8 v) s = .next (updLp s t fun x => { x with signal := true })) ∧
     (page ≠ lpCtx s lp ∨ off ≠ 0 → lpCtx s lp < 128 →
       exec (.signalStore lp page off 8 v) s = .next (bump s (partPage (lpCtx s lp)) 0x7C0)))

/-- R153, R165 to R168: a Device store is forwarded while its function has credit and held without; a function that is
down or contained takes none; held stores follow returned credit, and containment discards them. R155, R157, R168: a
Device load is issued once the earlier Device stores have gone, its data ends it with the register written and the
address past the instruction, and a timeout ends it with all ones. -/
def Obligations.DeviceAccesses : Prop :=
  (∀ (s : State) (lp : Fin 48) (port : Fin 4) (rid : BitVec 16) (n a : Nat) (b : Byte) (rest : Tab Byte)
     (e : GateEntry) (l : List GateEntry),
     let f := funcAt s port.val rid
     let put := fun (g : Func → Func) => updFunc s port.val rid g
     ((lpAt s lp).toPort = e :: l → e.bytes = (a, b) :: rest → portOf a = port.val →
       let t := updLp s lp fun x => { x with toPort := l }
       let w : Posted := ⟨a, e.bytes.map (·.2), some lp, e.ctx, e.grp⟩
       let gives := fun (t : State) => exec (.deviceStore lp rid) s = .next (barrierCheck t lp)
       (f.up = true → f.contained = false → f.containing = false → f.held = [] → 0 < f.credit →
         gives (emit (.posted port.val rid.toNat a w.data)
           (updFunc t port.val rid fun f => { f with credit := f.credit - 1 }))) ∧
       (f.up = true → f.contained = false → f.credit = 0 ∨ f.held ≠ [] ∨ f.containing = true →
         gives (updFunc t port.val rid fun f => { f with held := f.held ++ [w] })) ∧
       (f.up = false ∨ f.contained = true → gives (funcEvent t port.val rid 0x2101))) ∧
     (f.up = true → f.contained = false → f.containing = false → f.held = [] →
       exec (.postedCreditReturn port rid n) s =
         .next (barrierAll (put fun f => { f with held := [], credit := f.credit + n }))) ∧
     (f.up = true → f.contained = false → f.held ≠ [] →
       exec (.creditTimeout port rid) s = .next (put fun f => { f with containing := true })) ∧
     (f.containing = true → f.held = [] →
       exec (.containmentComplete port rid) s =
         .next (barrierAll (put fun f => { f with containing := false, contained := true, held := [] }))) ∧
     exec (.containmentRelease port rid) s = .next (put fun f => { f with contained := false }) ∧
     (∀ w, f.containing = true → f.held = [w] →
       exec (.containmentComplete port rid) s =
         .next (barrierAll (updFunc (funcEvent s port.val rid 0x2102) port.val rid fun f =>
           { f with containing := false, contained := true, held := [] })))) ∧
  (∀ (s : State) (lp : Fin 48) (rid : BitVec 16) (ld : DevLoad) (data : Word),
     (lpAt s lp).wait = .load ld →
     let port := portOf ld.addr
     let f := funcAt s port rid
     (ld.issued = none → deviceBehind (lpAt s lp) = false →
       let t := updLp s lp fun x => { x with wait := .load { ld with issued := some rid } }
       (localPkg s ld.addr = true → (∀ w ∈ f.held, w.lp ≠ some lp) → f.contained = false → f.up = true →
         exec (.deviceLoad lp rid) s = .next (emit (.request port rid.toNat ld.addr ld.size) t)) ∧
       (localPkg s ld.addr = false → lostHome s (lineOf ld.addr) = false →
         exec (.deviceLoad lp rid) s =
           .next (toPkg "load" (linePkg (lineOf ld.addr)) (linePkg (lineOf ld.addr)) (lineOf ld.addr) t))) ∧
     (ld.issued = some rid → ld.got = [] → ld.rep = none → ld.upd = none →
       (1 ≤ ld.size → ld.size ≤ 8 → closeRoom (lpAt s lp) = true →
         Gives (.deviceLoadCompletion lp data false) s fun t =>
           archOf t lp = { putLoad (archOf s lp) ld.dst (beBytes ld.size data.toNat) with
             pswa := (putLoad (archOf s lp) ld.dst (beBytes ld.size data.toNat)).pswa + 4 } ∧
           (lpAt t lp).wait = .none) ∧
       (localPkg s ld.addr = true → closeRoom (lpAt s lp) = true →
         Gives (.deviceLoadTimeout lp) s fun t =>
           (archOf t lp).g = (putLoad (archOf s lp) ld.dst (List.replicate ld.size 0xFF)).g ∧
           (lpAt t lp).wait = .none ∧ (funcAt t port rid).containing = (f.containing || !f.contained))))

/-- R166, R200 to R204, R382, R500: links of the root ports, and the requests of the functions behind them. -/
def Obligations.FunctionTraffic : Prop :=
  ∀ (s t : State) (port sub : Fin 4) (rid : BitVec 16) (addr : Word) (len part : Nat) (data : List Byte)
    (msg : BitVec 32) (ix : Nat) (runs : List (Nat × Nat)) (rate : BitVec 3) (width : BitVec 5)
    (bars : List (Nat × Nat)),
    let f := funcAt s port.val rid
    let pg := pciePage port.val
    (cellBit s pg 0x040 29 = false → sub.val < subLinks s port.val → rate.toNat ≤ cellField s pg 0x040 26 3 →
      laneCount s port.val width.toNat = true →
      exec (.pcieLinkUp port sub rate width [(rid, bars)]) s =
        .next (updFunc (setLink s port.val sub rate.toNat width.toNat) port.val rid fun f =>
          { f with up := true, sub := sub, bars := bars })) ∧
    (f.up = true →
      Gives (.pcieLinkDown port rid) s fun t =>
        (funcAt t port.val rid).up = false ∧ (funcAt t port.val rid).held = [] ∧ (funcAt t port.val rid).credit = 0) ∧
    (f.up = true → f.contained = false → s.mode.quiesce = false → portWaits s port = false →
      (ioRuns s port.val rid none addr false len = .ok (t, runs) → poisonRuns t runs = false →
        exec (.dmaRequest port rid none addr false len []) s =
          .next (meter (freshen (emit (.dmaData port.val rid.toNat (readRuns t runs)) t)) (funcCtx s port.val rid) 12 len)) ∧
      (ioRuns s port.val rid none addr true data.length = .ok (t, runs) →
        ¬(addr = 0xA000000000000000 ∧ data.length = 4) →
        exec (.postedWrite port rid none addr data) s =
          .next (meter ((splitRuns runs data).foldl (fun s r => agentWrite s r.1 r.2 (.port port)) t)
            (funcCtx s port.val rid) 12 data.length)) ∧
      (ioRuns s port.val rid none addr false len = .error part →
        exec (.dmaRequest port rid none addr false len []) s =
          .next (emit (.dmaAbort port.val rid.toNat)
            (logEvent s { page := pg, code := 0x2103, sub := rid.toNat, owner := some part }))) ∧
      (pathBound s port.val rid = false → bindOf s port.val rid = some ix → msg.toNat < 2048 →
        f.coalesced = false → f.msixLeft ≠ 0 → (s.msixQ.filter fun m => m.ctx = bindCtx s port.val ix).length < 4096 →
        Gives (.msixMessage port rid msg) s fun t =>
          t.msixQ = s.msixQ ++ [⟨bindCtx s port.val ix, port.val, rid.toNat, cellField s pg (0x700 + 4 * ix) 20 3,
            msg.toNat⟩] ∧ (funcAt t port.val rid).msixLeft = f.msixLeft - 1))

/-! ### Caches and coherence (09, 10) -/

/-- R232 to R235, Table 10-2: a request is served within its die where a copy there allows, and otherwise opens a
transaction at its home. -/
def Obligations.CoherenceRequests : Prop :=
  ∀ (s t : State) (p q : Fin 48) (who : Agent) (line off : Nat) (bs : List Byte) (cmp : Option (List Byte)) (bad : Bool),
    let die := p.val / 12
    (mayRequest s p line = true →
      (l2State s p line = none → holderOn s p line [.m] = some q →
        l2Place (l2Drop s q line) p line .m = some t → exec (.rds (.pair p) line) s = .next (mergeOwning t p line)) ∧
      (l2State s p line = none → holderOn s p line [.m] = none → holderOn s p line [.l, .e] = none →
        l3HolderOn s p line [.l, .e] = false → HomeFree s ⟨.rdS, .pair p, line, [], none, false⟩ →
        Gives (.rds (.pair p) line) s fun t => OpensTxn s t ⟨.rdS, .pair p, line, [], none, false⟩ ∧
          (missAt t p line).isSome = true) ∧
      (l2State s p line = none → heldOn s die line (some p) = false → holderOn s p line [.m] = some q →
        l2Place (dieRemove s die line (some p)) p line .m = some t →
        exec (.rdo (.pair p) line) s = .next (mergeOwning t p line)) ∧
      (l2State s p line = none → heldOn s die line (some p) = false → holderOn s p line [.m] = none →
        holderOn s p line [.e] = none → holderOn s p line [.l] = none → l3HolderOn s p line [.e] = false →
        l3HolderOn s p line [.l] = false → HomeFree s ⟨.rdO, .pair p, line, [], none, false⟩ →
        Gives (.rdo (.pair p) line) s fun t => OpensTxn s t ⟨.rdO, .pair p, line, [], none, false⟩ ∧
          (missAt t p line).isSome = true) ∧
      (l2State s p line = some .l ∨ l2State s p line = some .s → heldOn s die line (some p) = false →
        HomeFree s ⟨.upg, .pair p, line, [], none, false⟩ →
        Gives (.upg (.pair p) line) s fun t => OpensTxn s t ⟨.upg, .pair p, line, [], none, false⟩ ∧
          ∀ q : Fin 48, q ≠ p → q.val / 12 = die → l2State t q line = none)) ∧
    ((∀ d, who = .remote d → d.val / 4 ≠ pkgId s ∧ s.mode.coupled.contains (d.val / 4) = true ∧
        s.fenced.contains (d.val / 4) = false) → (regionOf s (line * 256)).isStorage = true →
      (HomeFree s ⟨.rdNA, who, line, [], none, false⟩ →
        Gives (.rdna who line) s fun t => OpensTxn s t ⟨.rdNA, who, line, [], none, false⟩) ∧
      (let r : Req := ⟨.wrL, who, line, reqBytes (line * 256) bs, none, bad⟩
       bs.length = 256 → HomeFree s r → Gives (.wrl who line bs bad) s fun t => OpensTxn s t r) ∧
      (let r : Req := ⟨.wrP, who, line, reqBytes (line * 256 + off) bs, cmp, bad⟩
       off + bs.length ≤ 256 → HomeFree s r →
        Gives (.wrp who line off bs cmp bad) s fun t => OpensTxn s t r))

/-- R238 to R240, R248, R249, Table 10-3: a die answers a snoop by what it holds, an eviction is served at once at an
unblocked line and parked at a blocked one, and a crossed answer is counted. -/
def Obligations.CoherenceSnoops : Prop :=
  ∀ (s : State) (p : Fin 48) (d : Fin 16) (line : Nat) (x : Txn), homeHere s line = true →
    let die := d.val % 4
    let less := x.waitFor.filter (· != d.val)
    (txnAt s line = some x → d.val / 4 = pkgId s → d.val ∈ x.waitFor → x.supplied = false →
      (x.req.kind = .rdS → dieState s die line = none → leavingPairs s (pkgId s * 4 + die) line = [] →
        exec (.snps d line) s = .next (putTxn s line { x with waitFor := less })) ∧
      (x.req.kind = .rdO → dieState s die line = some .l → heldOn s die line none = false →
        exec (.snpo d line) s = .next (putTxn (dieRemove s die line) line { x with waitFor := less })) ∧
      (x.req.kind = .rdO → dieState s die line ≠ none → heldOn s die line none = true →
        exec (.snpo d line) s = .next s) ∧
      (x.req.kind = .rdNA → dieState s die line = some .e →
        exec (.snpna d line false) s = .next (putTxn s line { x with waitFor := less, shared := true }))) ∧
    (txnAt s line = some x → d.val ∈ x.crossing ∨ (d.val / 4 ≠ pkgId s ∧ d.val ∈ x.waitFor) → x.parkedWbm ≠ some d.val →
      d.val ∉ x.parkedEvc →
      exec (.crossed d line) s =
        .next (bump (putTxn s line { x with waitFor := less, crossing := x.crossing.filter (· != d.val),
                                            crossed := d.val :: x.crossed })
          (slicePage (homeSlice s line)) 0x7CC)) ∧
    ∀ l, l2Find s p line = some l → l.leaving = true → l.acked = false →
      (txnAt s line = none →
        (l.wbm = false → exec (.evc (.pair p) line) s = .next (ackLeaving s (pairDie s p) line false)) ∧
        (l.wbm = true → pairDie s p / 4 = pkgId s → exec (.wbm (.pair p) line) s =
          .next (ackLeaving (dirFree (wroteDram (writeBack s line) line) line) (pairDie s p) line false))) ∧
      (txnAt s line = some x → pairDie s p ∉ x.crossed →
        (l.wbm = false → pairDie s p ∉ x.parkedEvc →
          exec (.evc (.pair p) line) s =
            .next (putTxn s line { x with parkedEvc := x.parkedEvc ++ [pairDie s p] })) ∧
        (l.wbm = true → x.parkedWbm = none →
          exec (.wbm (.pair p) line) s = .next (putTxn s line { x with parkedWbm := some (pairDie s p) })))

/-- R239, R241, R242, R245: what a home does with memory, and how a requester takes what it is sent. -/
def Obligations.CoherenceData : Prop :=
  ∀ (s : State) (p : Fin 48) (line : Nat) (x : Txn) (bad : List (Fin 10)) (bs : List Byte), homeHere s line = true →
    (txnAt s line = some x →
      (x.req.kind.reads = true → x.mrd = false →
        Gives (.mrd line bad) s fun t => txnAt t line = some { x with mrd := true }) ∧
      (x.answered = true → x.supplied = false → x.mrd = true → x.sent = false → x.mgo = false → x.req.kind = .rdO →
        x.req.who = .pair p →
        exec (.mgo line) s = .next (putTxn s line
          { x with mgo := true, sent := true, poisoned := x.poisoned || linePoison s line })) ∧
      (x.mrd = true → x.supplied = true → x.mgo = false →
        exec (.mdrop line) s = .next (putTxn s line { x with mgo := true })) ∧
      (x.req.kind = .wrL → x.answered = true → x.req.data = reqBytes (line * 256) bs → bs.length = 256 →
        x.parkedWbm = none → x.parkedEvc = [] → s.slices = [] → failedChannel s line = false →
        Gives (.mwr line) s fun t => txnAt t line = none ∧ Tab.look t.dir line = none ∧
          ∀ j < 256, curByte t (line * 256 + j) = bs.getD j 0) ∧
      (∀ m t, missAt s p line = some m → m.filled = false → x.req.who = .pair p → x.sent = true →
        x.req.kind = .rdO → x.fromM = false → x.poisoned = false → l2Place s p line .e = some t →
        exec (.dataFill p line) s =
          .next (mergeOwning (updMiss (taken (countTo t (p.val / 12) line true true)) p line fun m =>
            { m with filled := true, backoff := false, poisoned := false }) p line)) ∧
      (∀ m, missAt s p line = some m → m.filled = true → x.req.who = .pair p → x.sent = true → x.req.kind = .rdS →
        x.parkedWbm = none → x.parkedEvc = [] → s.slices = [] →
        Gives (.compack line) s fun t => txnAt t line = none ∧ missAt t p line = none)) ∧
    exec (.ack p line false true false false false) s = .next s ∧
    (∀ l, l2Find s p line = some l → missAt s p line = none → l.leaving = true → l.acked = true →
      exec (.ack p line false false false false false) s =
        .next (updPair s p fun y => { y with l2 := Tab.del y.l2 line }))

/-- R236, R237, R245, R251 to R253: refusals and their repetition, the directory's probes, a transaction that is held,
a die that does not answer, and a home that does not. -/
def Obligations.CoherenceEdges : Prop :=
  ∀ (s t : State) (p : Fin 48) (c : Fin 32) (sl : Fin 96) (line : Nat) (m : Miss) (x : Txn) (e : DirEntry),
    exec (.ticketPassOver sl) s = .next (updSlice s sl.val fun x => { x with tickets := x.tickets.drop 1 }) ∧
    (missAt s p line = some m → m.filled = false →
      (homeHere s line = true → m.backoff = false → m.refused = true → Tab.look s.slices (homeSlice s line) = none →
        exec (.retry p line) s = .next (updMiss s p line fun m =>
          { m with retries := m.retries + 1, ticket := none, refused := false, backoff := true })) ∧
      (homeHere s line = true → m.backoff = true →
        exec (.retryReissue p line) s =
          .next (arrive (updMiss s p line fun m => { m with backoff := false }) ⟨m.kind, .pair p, line, [], none, false⟩))) ∧
    (dirMode s = true → Tab.look s.dir line = some e → txnAt s line = none → e.ovf = false →
      (e.dies = [] → exec (.directoryProbe line) s = .next (dirFree s line)) ∧
      (∀ d, e.dies = [d] → d / 4 = pkgId s → pkgId s ∉ s.fenced →
        spend s .dir (msgCost (homeSlice s line / 24) (d % 4) ++ msgCost (d % 4) (homeSlice s line / 24)) = (t, true) →
        exec (.directoryProbe line) s = .next (openTxn t ⟨.probe, .almanac 0, line, [], none, false⟩))) ∧
    (txnAt s line = some x →
      (x.req.who = .cp c → x.req.kind = .wrL →
        exec (.transactionHold line) s = .next (emit (.message "Ack HOLD" (64 + c.val) line) s)) ∧
      (x.req.kind.holds = true → x.waitFor ≠ [] → x.req.who = .pair p →
        Gives (.snoopTimeout line) s fun t =>
          line ∈ t.poison ∧ Tab.look t.dir line = none ∧
          txnAt t line = some { x with waitFor := [], crossing := [], crossed := [], sent := true, poisoned := true } ∧
          ∀ d q : Fin 48, d.val ∈ x.waitFor → d.val / 4 = pkgId s → q.val / 12 = d.val % 4 → l2State t q line = none)) ∧
    (homeHere s line = false → linePkg line ∈ s.fenced → missAt s p line = some m → m.kind = .rdS →
      Gives (.requesterTimeout (.pair p) line) s fun t => missAt t p line = none ∧ t.mem = s.mem)

/-- R213 to R215, R219, R222, R208: the Burin walks its sets, a line begins to leave its L2, a miss of the L1
trains the prefetcher's streams and a confirmed stream requests the line ahead, and an array error that cannot be corrected takes a clean line out. R190: a set of A
and D bits swaps the leaf the walk read, and the translation is dropped from the caches. -/
def Obligations.CachesWork : Prop :=
  (∀ (s : State) (lp p : Fin 48) (d : Fin 4) (line : Nat) (va : Word) (store : Bool),
     (let b := burinAt s d.val
      (b.busy = true → b.paused = false → s.mode.quiesce = false →
         (b.cancelled = true →
           exec (.burinSet d) s = .next (updBurin s d.val fun b => { b with busy := false, cursor := 0, waits := [] })) ∧
         (b.cancelled = false → b.cursor < 2048 → (burinOp b.op = .cleanInval → burinFull s d.val = false) →
           exec (.burinSet d) s = .next (burinOneSet s d.val))) ∧
      (b.busy = true → 2048 ≤ b.cursor → burinLeaving s d.val = false →
         exec (.burinComplete d) s =
           .next (updBurin s d.val fun b => { b with busy := false, cursor := 0, waits := [] }))) ∧
     (∀ x, l2Find s p line = some x → x.leaving = false → leavingCount s p < 32 → txnAt s line = none →
       missAt s p line = none →
       Gives (.l2Eviction p line) s fun t =>
         l2Find t p line = some { x with leaving := true, wbm := decide (x.st = .m) } ∧ t.dirty = s.dirty) ∧
     (let ctl := cell s (regKey (clusterPage p.val) 0x040)
      pairOf s lp = some p → bit ctl 31 = true →
       ((pairAt s p).streams = [] →
         trainStream s p va store = updPair s p fun x => { x with streams :=
           [{ region := va.toNat / 4096, line := va.toNat / 256, stride := 0, misses := 1, store := store }] }) ∧
       (lpReady s lp = true →
         let found := (pairAt s p).streams.find? fun t =>
           t.line = va.toNat / 256 && t.store = store && decide (t.misses ≥ 3)
         (found = none → exec (.prefetch lp va store) s = .next s) ∧
         ∀ x, found = some x → field ctl 8 5 = 1 → field ctl 0 3 = 0 →
           exec (.prefetch lp va store) s = .next (prefetchLine lp p store false s (va + BitVec.ofInt 64 (256 * x.stride))))) ∧
     (l2State s p line = some .e →
       Gives (.arraySweepRead false p.val line 2) s fun t => l2Find t p line = none ∧ t.mem = s.mem)) ∧
  (∀ (s t u : State) (lp : Fin 48) (va : Word) (k : Walked) (expected : Word), lpReady s lp = true →
     bit (archOf s lp).psws 60 = true → canonical va = true → walkOrNone lp va .store false true false s = .ok k t →
     expected ||| adBits .store ≠ expected →
     swapEntry t k.leafAt expected (expected ||| adBits .store) = (u, true) →
     exec (.accessedDirtyUpdate lp va true expected) s =
       .next (updTlbs u lp fun x => dropLeaves x fun e => e.hits (lpCtx s lp)
         (BitVec.ofNat 16 (field (archOf s lp).c[1] 0 16)) va))

/-! ### Coherence links (10) -/

/-- R253, R255, R256: a flit in order is taken and one out of order refused, a NAK replays, a link retrains, resumes or
fails, and a package that departs is fenced. -/
def Obligations.LinksWork : Prop :=
  ∀ (s : State) (l : Fin 4) (seq : BitVec 12) (h : Nat) (body : List Byte) (i us : Nat) (x8 : Bool) (pkg : Fin 4),
    let k := linkAt s l.val
    let bs := beBytes 6 h ++ body
    let flit := BitVec.ofNat 2048 (beVal (bs ++ beBytes 4 (crc32c bs).toNat ++ List.replicate 6 0))
    let put := fun (f : Link → Link) => updLink s l.val f
    (flitsFlow k = true →
      (body.length = 240 → h < 2 ^ 48 →
        (h / 2 ^ 36 = k.rxSeq.toNat →
          exec (.flit l flit) s =
            .next (put fun k => { takeCredits (ackFlits k (h / 2 ^ 24 % 4096)) h with rxSeq := k.rxSeq + 1 })) ∧
        (h / 2 ^ 36 ≠ k.rxSeq.toNat →
          exec (.flit l flit) s = .next { s with out := .nak l.val k.rxSeq.toNat :: s.out })) ∧
      (k.replayBuf.findIdx? (fun e => e.seq = seq) = some i →
        let again := k.replayBuf.drop i
        exec (.nak l seq) s = .next (emit (.replay l.val seq.toNat)
          (bump (put fun k => { k with replays := k.replays + again.length, replayBuf := again })
            (clinkPage l.val) 0x7C0 again.length))) ∧
      exec (.linkRetrain l true) s =
        .next (logEvent (bump (put fun k => { k with retraining := true }) (clinkPage l.val) 0x7C4)
          { page := clinkPage l.val, code := 0x20A4 })) ∧
    (k.retraining = true → us ≤ 200 →
      (k.replayBuf = [] → exec (.linkRetrainComplete l true x8 us) s =
        .next (put fun k => { k with retraining := false, x8 := x8, failedRetrains := 0, replays := 0 })) ∧
      (k.failedRetrains < 2 → exec (.linkRetrainComplete l false x8 us) s =
        .next (retrainEvent (put fun k => { k with failedRetrains := k.failedRetrains + 1 }) l.val))) ∧
    (k.up = true → k.failed = false → (∀ q, linkTo s q ≠ some l.val) →
      Gives (.linkFailed l) s fun t =>
        (linkAt t l.val).up = false ∧ (linkAt t l.val).failed = true ∧ linkUp t l.val = false) ∧
    (pkg.val ≠ pkgId s → pkg.val ∈ s.mode.coupled → s.mode.transition ≠ .warm → dirMode s = true →
      pkg.val ∉ s.fenced → s.txns = [] → s.slices = [] →
      Gives (.departureAnnouncement pkg) s fun t => pkg.val ∈ t.fenced ∧ t.poison = s.poison)

/-! ### Core pairs (01, 11) -/

/-- R258 to R268: a counted mismatch that is neither repeated nor the third of its window sends both copies back to the
checkpoint and retries; one repeated with no clean close between begins a sparing onto a dormant pair; the retry ends;
and a checkpoint wrong in both halves is fatal to its pair. -/
def Obligations.Mismatches : Prop :=
  ∀ (s : State) (p q lp : Fin 48) (sl : Fin 22) (n : Nat), (pairAt s p).lp = some lp → (pairAt s p).role = .active →
    ((pairAt s p).cleanSince = true → inWindow s (pairAt s p).window = [] →
      Gives (.mismatch p .outputs sl n) s fun t =>
        (pairAt t p).retrying = true ∧ (pairAt t p).cleanSince = false ∧ archOf t lp = (lpAt s lp).ckpt ∧
        (lpAt t lp).gated = [] ∧ (lpAt t lp).reservation = none ∧ (lpAt t lp).released = (lpAt s lp).released) ∧
    ((pairAt s p).cleanSince = false → s.rotation = none → bestFor s p (spares s) = some q → q ≠ p →
      Gives (.mismatch p .outputs sl n) s fun t =>
        (pairAt t p).role = .leaving ∧ (pairAt t q).role = .preparing ∧
        t.sparings = s.sparings ++ [⟨p, q, false, false, false⟩] ∧ archOf t lp = (lpAt s lp).ckpt) ∧
    ((pairAt s p).retrying = true →
      Gives (.retryRestart p) s fun t => (pairAt t p).retrying = false ∧ t.lps = s.lps) ∧
    exec (.mismatch p .ckptBoth sl n) s =
      .next (raise (updPair (dropMoves (stopLp s lp) p) p fun x =>
          { x with role := .failed, failed := true, lp := none, retrying := false })
        { page := pairPage p.val, code := 0x6087, owner := some (lpPart s lp), lp := some lp })

/-- Table 1-8, R274 to R278: what a sparing and a rotation do at each of their stages. R281 to R283, R424: a master
halts a pair at its next boundary, the halt is done once its stores are performed, it is stepped and resumed from the
checkpoint, its registers are written through the window, and a stopped pair is taken. -/
def Obligations.PairsMove : Prop :=
  (∀ (s : State) (p q lp : Fin 48) (r : Rotation) (m : Master) (arg : BitVec 24),
     let up := fun (x : Pair) => { x with powered := true, image := currentImage s, l1i := [], l1d := [], l2 := [],
                                          streams := [], misses := [], tlbs := Tlbs.reset }
     (s.sparings = [⟨p, q, false, false, false⟩] → s.rotation = none → (pairAt s q).role = .preparing →
       (pairAt s q).powered = false →
       exec (.domainPowerUpComplete (.pair q)) s =
         .next { (updPair s q up) with sparings := [⟨p, q, false, true, false⟩] }) ∧
     (s.sparings = [⟨p, q, false, true, false⟩] → (pairAt s p).lp = some lp →
       gateEmpty (lpAt (drainStorage s lp) lp) = true →
       Gives (.sparingWritebackComplete p) s fun t =>
         t.sparings = [⟨p, q, true, true, false⟩] ∧ (pairAt t p).l2 = []) ∧
     (s.sparings = [⟨p, q, true, true, false⟩] → s.rotation = none →
       exec (.checkpointCopyComplete p) s = .next { s with sparings := [⟨p, q, true, true, true⟩] }) ∧
     (s.sparings = [⟨p, q, true, true, true⟩] → p ≠ q → (pairAt s p).lp = some lp → (pairAt s p).haltReq = false →
       s.mode.quiesce = false →
       Gives (.sparingResume p) s fun t =>
         t.sparings = [] ∧ (pairAt t q).lp = some lp ∧ (pairAt t q).role = .active ∧ (pairAt t p).lp = none ∧
         (pairAt t p).role = .failed ∧ (pairAt t p).failed = true ∧ archOf t lp = archOf s lp ∧
         (lpAt t lp).reservation = none) ∧
     (running s = true → s.rotation = none → oldest s (all48.filter (rotatable s)) = some p →
       bestFor s p (all48.filter fun q => (pairAt s q).role = .dormant && !(pairAt s q).failed) = some q →
       wearBudget s p = true →
       let begun : Answer := .next { (updPair s q fun x => { x with role := .preparing }) with
         rotation := some ⟨p, q, .powering, 0, false, false⟩, rotRetry := none, rotAgain := none }
       (cellBit s keeperPage 0x0C0 31 = true → s.rotRetry = none →
         cellField s keeperPage 0x0C0 0 9 * 8640000000 ≤ s.rotAge → exec .rotationPeriodExpiry s = begun) ∧
       (s.rotRetry = some 0 → s.rotAgain = none ∨ s.rotAgain = some (p, false) →
         Gives .rotationRetry s fun t => t.rotation = some ⟨p, q, .powering, 0, false, false⟩ ∧ t.rotRetry = none ∧
           (pairAt t q).role = .preparing) ∧
       (arg.getLsbD 8 = false → writable s m keeperPage = true → Tab.look s.cmds keeperPage = none →
         exec (.beginRotation m arg) s = begun)) ∧
     (s.rotation = some r →
       (r.stage = .cleaning → (dirtyLines s r.src).length ≤ 4096 ∨ 100000 ≤ r.ticks →
         let due := { r with stage := .switchDue, few := decide ((dirtyLines s r.src).length ≤ 4096) }
         exec .preCleaningEnd s = .next { s with rotation := some due }) ∧
       (r.stage = .switchDue → (pairAt s r.src).lp = some lp → s.mode.quiesce = false → rotatable s r.src = true →
         (pairAt s r.src).retrying = false → atBoundary s lp = true → running s = true →
         Gives .rotationSwitch s fun t => t.rotation = some { r with stage := .switching } ∧
           (pairAt t r.src).role = .leaving ∧ (lpAt t lp).ckpt = archOf s lp ∧
           (gateEmpty (lpAt (drainStorage (closeInterval s lp) lp) lp) = true → (pairAt t r.src).l2 = [])) ∧
       (r.stage = .copied → s.mode.quiesce = false → (pairAt s r.src).lp = some lp → (pairAt s r.src).haltReq = false →
         r.src ≠ r.dst →
         Gives .rotationResume s fun t => t.rotation = none ∧ t.rotAge = 0 ∧ (pairAt t r.src).role = .dormant ∧
           (pairAt t r.dst).lp = some lp ∧ (pairAt t r.dst).role = .active ∧ archOf t lp = archOf s lp))) ∧
  (∀ (s : State) (m : Master) (p lp : Fin 48) (v : Word), (pairAt s p).lp = some lp →
     writable s m (pairPage p.val) = true →
     let ask := fun (x : Pair) => { x with haltReq := true, owner := BitVec.ofNat 2 m.code }
     ((pairAt s p).role = .active → (pairAt s p).retrying = false → atBoundary s lp = true →
       exec (.debugHalt m p) s =
         .next (updPair (closeInterval (updPair s p ask) lp) p fun y => { y with role := .halted })) ∧
     ((pairAt s p).role = .active → atBoundary s lp = false → exec (.debugHalt m p) s = .next (updPair s p ask)) ∧
     ((pairAt s p).role = .halted →
       (storesDone s lp = true → (pairAt s p).step = false → s.mode.transition ≠ .serviceStop →
         exec (.haltDone p) s = .next (updPair s p fun y => { y with haltDone := true })) ∧
       Gives (.debugStep m p) s (fun t => (pairAt t p).step = true ∧ archOf t lp = (lpAt s lp).ckpt) ∧
       (s.mode.mode ≠ .serviceStop →
         Gives (.debugResume m p) s fun t => (pairAt t p).role = .active ∧ (pairAt t p).haltReq = false ∧
           (pairAt t p).haltDone = false ∧ archOf t lp = (lpAt s lp).ckpt) ∧
       (∀ i : Fin 31, Gives (.checkpointWindowWrite m p (BitVec.ofNat 12 (0x398 + 8 * i.val)) 8 v) s fun t =>
         archOf t lp = (lpAt t lp).ckpt ∧ (lpAt t lp).ckpt = { (lpAt s lp).ckpt with
           g := vset (lpAt s lp).ckpt.g (i.val + 1) v })) ∧
     ((pairAt s p).role = .stopped → Tab.look s.cmds (pairPage p.val) = none →
       exec (.taken m p) s = .next (updPair (flushL2 (drainStorage s lp) p) p fun x =>
         { x with role := .failed, failed := true, powered := false, lp := none, misses := [] })))

/-! ### Interruptions (12, 15, 17) -/

/-- R373, R378 to R380, R420: each class of interruption that its processor may take enters the state of its context
at its own offset from the vector base, with its code and its address. R267, R379, R416, R417: a pair's lines show at an edge
what is pending for its processor, and an offer is made there to the presenter's choice; one not taken by the next edge is
withdrawn; a record on its way to a
context's ring is written where its sequence number says, or counted. -/
def Obligations.InterruptionsEnter : Prop :=
  (∀ (s : State) (lp : Fin 48) (ctx old : Nat) (c : Check) (o : Offer),
     (checkFor s lp = some c →
       Gives (.machineCheck lp) s fun t => t.err.checks = s.err.checks.erase c ∧
         archOf t lp = entryArch (archOf s lp) (decide (c.ctx = 128)) true 0x400 (codeWord c.cls 0 0x400)
           (c.seq.setWidth 64) ∧ (lpAt t lp).handler = true) ∧
     (canTake s lp = true → checkFor s lp = none →
       ((lpAt s lp).partChanged = some old →
         Gives (.partitionChanged lp) s fun t => (lpAt t lp).partChanged = none ∧
           archOf t lp = entryArch (archOf s lp) true false 0x300 (codeWord old 0 0x300) 0) ∧
       ((lpAt s lp).partChanged = none → extEnabled s lp = true → intCtx s lp = some ctx →
         (tickShown s lp = true →
           Gives (.tickCompare lp) s fun t => archOf t lp =
             entryArch (archOf s lp) (decide (ctx = 128)) false 0x200 (codeWord 0 0 0x200) s.time.transit) ∧
         (tickShown s lp = false → signalShown s lp = true →
           Gives (.signal lp) s fun t => (lpAt t lp).signal = false ∧ archOf t lp =
             entryArch (archOf s lp) (decide (ctx = 128)) false 0x200 (codeWord 0 0 0x210) 0)) ∧
       ((lpAt s lp).partChanged = none → ioFor s lp = some o →
         (extEnabled s lp = true → intCtx s lp = none ∨ (tickShown s lp = false ∧ signalShown s lp = false)) →
         Gives (.ioInterruption lp) s fun t => archOf t lp =
           entryArch (archOf s lp) (decide (o.ctx = 128)) false 0x100 (codeWord o.isc 0 o.src.code)
             (BitVec.ofNat 64 (IntSrc.addr s o.src))))) ∧
  (∀ (s : State) (p lp : Fin 48) (src : IntSrc) (ctx isc : Nat) (c : RingCopy) (l : List RingCopy),
     (s.mode.quiesce = false → pendingIo s = [(src, ctx, isc)] →
       ((pairAt s p).lp = some lp → s.offers = [] → nextLp s src ctx isc = some lp →
         exec (.presentationEdge p) s = .next { (updLp s lp fun x => { x with lines := linesDue s lp }) with
           offers := [⟨src, ctx, isc, lp, false⟩], presLast := Tab.put s.presLast ctx lp.val }) ∧
       ((pairAt s p).lp = some lp → s.offers = [⟨src, ctx, isc, lp, false⟩] → offerEnabled s lp src ctx isc = true →
         exec (.presentationEdge p) s = .next { (updLp s lp fun x => { x with lines := linesDue s lp }) with
           offers := [⟨src, ctx, isc, lp, true⟩] }) ∧
       (s.offers = [⟨src, ctx, isc, lp, true⟩] →
         exec (.interruptOfferExpiry lp) s = .next { s with offers := [] })) ∧
     (s.err.ringWait = c :: l → keeperRuns s = true →
       let ring := cell s (regKey (errlogPage 4) 0x048 c.ctx)
       (bit ring 63 = false →
         Gives .machineCheckRingWrite s fun t => t.err.ringWait = l ∧ t.mem = s.mem ∧
           t.regs = (bump s (errlogPage 4) 0x054 1 c.ctx).regs) ∧
       (let a := field ring 12 40 * 4096 + 64 * (c.seq.toNat % 2 ^ (field ring 0 4 + 6))
        bit ring 63 = true → canWriteAll s [(a, 64)] = true →
         let u := { s with err := { s.err with ringWait := l } }
         Gives .machineCheckRingWrite s fun t => t.err.ringWait = l ∧
           t.mem = (agentWrite u a (evBytes u (recordFor s c.ctx c.ev) c.seq)).mem)))

/-! ### Channel programs and links (12, 13) -/

/-- R293, R294, R302, R305, R311: a Command Word is fetched, and checked before it takes effect; a decided ending is
posted with FUNCTION none; a wait without a path, and an adapter that does not answer a cancel, end the operation. -/
def Obligations.ChannelPrograms : Prop :=
  ∀ (s : State) (sch : BitVec 18) (o : Op) (pa d fsc : Nat) (w : Osw), opAt s sch.toNat = some o →
    let n := sch.toNat
    let ends := fun (code detail : Nat) =>
      (.next (setOp s n { o with ending := some (oswOf s o code detail) }) : Answer)
    (let u := (inlineAssign s n o).1
     o.fetchDue = true → o.ending = none → o.halt = false → o.cancel = none → o.stage ≠ .ended → o.stage ≠ .waiting →
      o.resync = false → (cpAt s o.cp).role = .active → o.ipl = false → (inlineAssign s n o).2 = false →
      opDram u o.ctx o.cwaddr 16 = some pa → anyPoison u pa 16 = false →
      (cwFault u pa o (readCw u pa) = 0 →
        exec (.commandWordFetch sch) s = .next (freshen (runCw u n o o.cwaddr (readCw u pa)))) ∧
      (cwFault u pa o (readCw u pa) = d → d ≠ 0 →
        exec (.commandWordFetch sch) s =
          .next (freshen (failOp u n { o with areas := o.areas ++ [⟨o.cwaddr, readCw u pa, o.carried⟩] } 4 d)))) ∧
    (o.ending = some w → s.mode.ipl = .none → inlineReady s o = true →
      Gives (.finalStatus sch) s fun t => (schAt t n).func = .none ∧
        ∃ x, (schAt t n).status = some x ∧ x.fsc = w.fsc ∧ x.detail = w.detail ∧ x.residual = w.residual ∧
          x.parm = w.parm) ∧
    (o.ending = none → o.stage = .waiting → o.sentFirst = false →
      cellField s (cssPage 0) 0x040 0 12 * 100000 ≤ o.waited →
      exec (.nopathWaitExpiry sch) s = ends 9 1) ∧
    (o.ending = none → o.cancel = some (fsc, d) → o.cancelSeq.isSome = true →
      exec (.cancelTimeout sch) s = ends fsc (if fsc ∈ [7, 8, 10, 11] then 2 else d))

/-- R318, R324 to R326, R333 to R338: a frame that passes every check is taken by its type; one that fails is
discarded. R323, R324, R332, R334, R339: an adapter reaches storage only through a live window, in its direction; a
path fails; a channel processor stops and comes back; and a journal entry that one copy has lost is repaired. -/
def Obligations.ChannelHardware : Prop :=
  (∀ (s : State) (p : Fin 256) (rid : BitVec 16) (frame : BitVec 512) (o : Op) (w : Win) (a : Area) (c : Nat × Nat),
     let f := readFrame frame
     let n := f.sch % 262144
     let h := heard s p.val
     let beat := fun (k : Nat) => updPath h p.val fun x => { x with sinceBeat := 0, beats := k }
     portWaits s (Fin.ofNat 4 (p.val / 64)) = false →
     (checkFrame s p.val rid f = .ok → f.ty ≠ 5 → opAt s n = some o → (cpAt s o.cp).role = .active →
       f.flags.testBit 11 = false →
       (f.ty = 2 → o.wins.find? (fun w => w.seq = f.seq) = some w →
         exec (.ackFrame p rid frame) s = .next (ackWin (meter h o.ctx 9 1) n o w (min f.len w.len))) ∧
       (f.ty = 3 → o.stage ≠ .ended → o.area = some a → o.ending = none → o.status = none → o.haltSeq = none → o.job = none →
         statusEnds a f.code f.len (f.flags.testBit 12) (decide (o.seqCmd = 1)) false = some c →
         Gives (.statusFrame p rid frame) s fun t => ∃ x e, opAt t n = some x ∧ x.ending = some e ∧
           e.fsc = c.1 ∧ e.detail = c.2 ∧ e.devstat = f.code ∧ x.status = some f.seq) ∧
       (f.ty = 6 → o.stage = .running → o.ending = none → f.code = 1 →
         exec (.resync p rid frame) s = .next (setOp h n { o with resync := false }))) ∧
     (checkFrame s p.val rid f = .ok → f.ty = 5 → f.flags.testBit 7 = false → f.flags.testBit 11 = false →
       ((pathAt s p.val).st = .up →
         exec (.heartbeat p rid frame) s =
           .next (beat (if (pathAt s p.val).sinceBeat ≤ 20 then (pathAt s p.val).beats + 1 else 1))) ∧
       ((pathAt s p.val).st = .init → f.flags.testBit 8 = true → pathLinked s p.val = true →
         exec (.heartbeat p rid frame) s = .next (resumeWaiting (updPath
           (beat (if (pathAt s p.val).sinceBeat ≤ 20 then (pathAt s p.val).beats + 1 else 1)) p.val fun x =>
             { x with st := .up, segMax := min 3 (f.aux / 2 ^ 60), serves := f.aux % 2 ^ 32 }) p.val))) ∧
     (checkFrame s p.val rid f = .bad → (pathAt s p.val).bad < 4 →
       exec (.inboundFrameDiscard p rid frame) s =
         .next (updPath s p.val fun x => { x with bad := x.bad + 1, resyncDue := true })) ∧
     (checkFrame s p.val rid f = .spoof →
       exec (.inboundFrameDiscard p rid frame) s =
         .next (onceEvent (bump s (pciePage (p.val / 64)) 0x7C0) (p.val % 64)
           { page := pciePage (p.val / 64), code := 0x2125 }))) ∧
  (∀ (s : State) (p : Fin 256) (k : Fin 65536) (off : Fin 4096) (c : Fin 32) (rid : BitVec 16) (len n : Nat)
     (data : List Byte) (o : Op) (w : Win) (die : Fin 2) (index : Nat) (e : JEntry),
     let addr := BitVec.ofNat 64 (0x8000000000000000 + p.val * 0x100000000 + k.val * 0x1000 + off.val)
     let port : Fin 4 := ⟨p.val / 64, by omega⟩
     (portWaits s port = false → bit (pathCfg s p.val) 63 = true → pathRid s p.val = rid →
       findWin s p.val k.val off.val len = some (n, o, w) → o.job = none →
       (w.toStorage = true → w.skip = false → exec (.adapterDma port rid addr true len data) s =
         .next (agentWrite s (w.phys + off.val) (data.take len) (.port port))) ∧
       (w.toStorage = true → w.skip = true → exec (.adapterDma port rid addr true len data) s = .next s) ∧
       (w.toStorage = false → anyPoison s (w.phys + off.val) len = false →
         exec (.adapterDma port rid addr false len data) s =
           .next (freshen (emit (.dmaData port.val rid.toNat (curBytes s (w.phys + off.val) len)) s))) ∧
       (w.toStorage = false → exec (.adapterDma port rid addr true len data) s =
         .next (blockDma s port.val rid p.val k.val true true))) ∧
     (portWaits s port = false → findWin s p.val k.val off.val len = none → bit (pathCfg s p.val) 63 = true → pathRid s p.val = rid →
       exec (.adapterDma port rid addr true len data) s = .next (blockDma s port.val rid p.val k.val true true)) ∧
     ((pathAt s p.val).st = .up → (∀ e ∈ s.chan.ops, e.2.path ≠ p.val) →
       exec (.pathFailed p .linkDown) s =
         .next (logEvent (updPath s p.val fun x =>
             { x with st := .failed, beats := 0, sinceBeat := 0, bad := 0, resyncDue := false })
           { page := pciePage (p.val / 64), code := 0x2123, sub := p.val % 64 })) ∧
     ((cpAt s c.val).role = .active → (cpAt s c.val).stops = [] →
       exec (.cpStop c) s =
         .next (updCp (logEvent (bump s (cpPage c.val) 0x7C0) { page := cpPage c.val, code := 0x2121 }) c.val fun x =>
           { x with role := .restarting, stops := [s.time.transit.toNat], heir := some c.val })) ∧
     ((cpAt s c.val).role = .restarting → (∀ e ∈ s.chan.ops, e.2.cp ≠ c.val) →
       exec (.cpTakeoverComplete c) s = .next (updCp s c.val fun x => { x with role := .active, heir := none })) ∧
     (Tab.look s.chan.jrn (jrnKey die.val index) = some e →
       exec (.journalEntryError die index true false) s =
         .next (logEvent (bump s (journalPage die.val 0) 0x7C0)
           { page := journalPage die.val 0, code := 0x2126, sub := index, detail := e.serial.toNat, owner := some e.ctx })))

/-! ### Engines and the key store (14) -/

/-- R340 to R343, R346: the owner's doorbells, the reading of a descriptor, and the record of an ended job. -/
def Obligations.JobQueues : Prop :=
  ∀ (s : State) (ctx : Fin 129) (die : Fin 2) (q : Fin 64) (v : Word) (pa j : Nat) (x : Job) (e : JobEnd),
    let k := die.val * 64 + q.val
    let y := jqAt s k
    (jqOwner s k = ctx.val → isReleased s 2 k = false →
      exec (.jqTail ctx die q v) s = .next (updJq s k fun y => { y with tail := v.toNat % 65536 % jqSlots y }) ∧
      (y.en = false → exec (.jqBase ctx die q v) s =
        .next (updJq s k fun y => { y with base := v &&& 0x000FFFFFFFFFFF80 })) ∧
      (y.en = false → bit v 31 = true → exec (.jqCtl ctx die q v) s =
        .next (updJq s k fun y => { y with
          en := true, head := 0, tail := 0, size := min 12 (field v 16 4), isc := field v 28 3 }))) ∧
    (jqOwner s k ≠ ctx.val → exec (.jqTail ctx die q v) s = .next (queueSpoof s k)) ∧
    (s.mode.quiesce = false → s.eng.next[die] = q.val → y.en = true → y.head ≠ y.tail → jqTaken s k = [] →
      ctxRange s (jqOwner s k) (y.base.toNat + 128 * y.head) 128 = some [(pa, 128)] →
      Gives (.descriptorDispatch die) s fun t => (jqAt t k).head = (y.head + 1) % jqSlots y ∧
        t.eng.nextJob = s.eng.nextJob + 1 ∧ t.eng.next[die] = (q.val + 1) % 64 ∧
        ∃ z, Tab.look t.eng.jobs s.eng.nextJob = some z ∧ z.desc = curBytes s pa 128 ∧ z.ctx = jqOwner s k) ∧
    (s.mode.quiesce = false → Tab.look s.eng.jobs j = some x → x.ended = some e → x.inline = none →
      canRecord s x e = true →
      Gives (.jobComplete j) s fun t => Tab.look t.eng.jobs j = none ∧ (x.flag 7 = true → (jqAt t x.q).notify = true))

/-- R348, R355, R358: a stream in one job ends done where what it gives fits, with 33h where it does not, and a
decompression with a status of its own where its source is not well-formed. -/
def Obligations.CompressionJobs : Prop :=
  ∀ (s : State) (j : Nat) (x : Job) (dict src : List Byte) (k : KeySlot), x.flag 6 = true → x.flag 5 = true →
    x.stateAt = 0 → srcBytes s x x.src x.srcLen 1 = .ok src → srcBytes s x x.aux x.auxLen 3 = .ok dict →
    (∀ n, n ≤ x.dstLen → ∃ l, dstRuns s x x.dst n 2 = .ok l) →
    let packs := fun (_ : State) (e : JobEnd) => e.status = 1 ∧ e.consumed = x.srcLen ∧ e.produced ≤ x.dstLen ∨
      e.status = 0x33 ∧ e.produced = 0 ∧ e.stores = []
    let unpacks := fun (t : State) (e : JobEnd) => packs t e ∨ (e.status = 0x30 ∨ e.status = 0x31 ∨ e.status = 0x32) ∧
      e.consumed ≤ x.srcLen ∧ e.produced ≤ x.dstLen
    (JobRuns s j x 1 → x.auxLen = 0 → JobEnds (.deflateCompress j) s j x packs) ∧
    (JobRuns s j x 2 → x.auxLen = 0 → JobEnds (.deflateDecompress j) s j x unpacks) ∧
    (JobRuns s j x 3 → x.auxLen ≤ 262144 → JobEnds (.zstandardCompress j) s j x packs) ∧
    (JobRuns s j x 4 → x.auxLen ≤ 262144 → JobEnds (.zstandardDecompress j) s j x unpacks) ∧
    (JobRuns s j x 0x50 → x.dstLen < 2 ^ 32 → needKey s x x.key [1, 2] uEnc = .ok k → JobEnds (.compressThenEncrypt j) s j x packs) ∧
    (JobRuns s j x 0x51 → needKey s x x.key [1, 2] uDec = .ok k → JobEnds (.decryptThenDecompress j) s j x fun _ e =>
      e.status ∈ [1, 0x30, 0x31, 0x32] ∧ e.consumed ≤ x.srcLen ∧ e.produced ≤ x.dstLen ∨
      e.status ∈ [0x33, 0x40] ∧ e.produced = 0 ∧ ∀ w ∈ e.stores, ∀ b ∈ w.2, b = 0)

/-- R347, R349, R354: a cipher in one job stores as many bytes as it reads, an authenticated one with a tag; a tag that
does not match leaves only zeros; a digest has its function's length; and random bytes fill their destination. -/
def Obligations.CipherJobs : Prop :=
  ∀ (s : State) (j : Nat) (x : Job) (src aad : List Byte) (k : KeySlot) (l : List (Nat × Nat)), x.flag 6 = true →
    x.flag 5 = true → srcBytes s x x.src x.srcLen 1 = .ok src →
    let whole := fun (tag : Nat) (_ : State) (e : JobEnd) =>
      e.status = 1 ∧ e.consumed = x.srcLen ∧ e.produced = x.srcLen ∧ e.result.length = tag
    (x.srcLen ≤ x.dstLen → x.srcLen < 2 ^ 32 → dstRuns s x x.dst x.srcLen 2 = .ok l →
      (srcBytes s x x.aux x.auxLen 3 = .ok aad →
        (JobRuns s j x 0x10 → needKey s x x.key [1, 2] uEnc = .ok k → JobEnds (.aesGcmEncrypt j) s j x (whole 16)) ∧
        (JobRuns s j x 0x11 → needKey s x x.key [1, 2] uDec = .ok k → JobEnds (.aesGcmDecrypt j) s j x fun _ e =>
          e.status = 1 ∧ e.produced = x.srcLen ∨
          e.status = 0x40 ∧ e.produced = 0 ∧ ∀ w ∈ e.stores, ∀ b ∈ w.2, b = 0)) ∧
      (xtsLen x = true →
        (JobRuns s j x 0x12 → needKey s x x.key [3, 4] uEnc = .ok k → JobEnds (.aesXtsEncrypt j) s j x (whole 0)) ∧
        (JobRuns s j x 0x13 → needKey s x x.key [3, 4] uDec = .ok k → JobEnds (.aesXtsDecrypt j) s j x (whole 0))) ∧
      (JobRuns s j x 0x14 → needKey s x x.key [1, 2] (uEnc + uDec) = .ok k → JobEnds (.aesCtr j) s j x (whole 0))) ∧
    (let n := digestLen (x.param % 16)
     n ≤ x.dstLen → dstRuns s x x.dst n 2 = .ok l →
      (JobRuns s j x 0x20 → JobEnds (.hash j) s j x fun _ e =>
        e.status = 1 ∧ e.consumed = x.srcLen ∧ e.produced = n) ∧
      (JobRuns s j x 0x21 → needKey s x x.key [5] (uSign + uVerify) = .ok k → JobEnds (.hmac j) s j x fun _ e =>
        e.status = 1 ∧ e.consumed = x.srcLen ∧ e.produced = n)) ∧
    (JobRuns s j x 0x40 → 1 ≤ x.dstLen → x.dstLen ≤ 65536 → (vget s.eng.drbg Drbg.reset x.drbg).ok = true →
      dstRuns s x x.dst x.dstLen 2 = .ok l →
      JobEnds (.randomBytes j) s j x fun _ e => e.status = 1 ∧ e.consumed = 0 ∧ e.produced = x.dstLen)

/-- R347, R354, R363: a signature has its key's length, a verification stores nothing and ends done or with 41h, and
an encapsulation and its opening end done; those of the lattice schemes not in Compatibility operating. R350 to R354:
a key function loads an empty slot of its context with the type and usage its job gives and a generation other than
the slot's last, and an erased slot is empty; a wrapped key and a public key go to memory. -/
def Obligations.KeyJobs : Prop :=
  (∀ (s : State) (j : Nat) (x : Job) (src c : List Byte) (k : KeySlot) (l m : List (Nat × Nat)) (sig : List Byte),
     srcBytes s x x.src x.srcLen 1 = .ok src → (vget s.eng.drbg Drbg.reset x.drbg).ok = true →
     s.mode.mode ≠ .compat →
     let hashed := x.param.testBit 0 = true → x.srcLen = if k.ty = 9 then 32 else 48
     let signs := fun (_ : State) (e : JobEnd) => e.status = 1 ∧ e.consumed = x.srcLen ∧ e.produced = sigLen k.ty
     let verifies := fun (_ : State) (e : JobEnd) => (e.status = 1 ∨ e.status = 0x41) ∧ e.produced = 0 ∧ e.stores = []
     (sigLen k.ty ≤ x.dstLen → dstRuns s x x.dst (sigLen k.ty) 2 = .ok l →
       (JobRuns s j x 0x30 → needKey s x x.key [8] uSign = .ok k → JobEnds (.ed25519Sign j) s j x signs) ∧
       (JobRuns s j x 0x32 → needKey s x x.key [9, 0xA] uSign = .ok k → hashed →
         JobEnds (.ecdsaSign j) s j x signs) ∧
       (JobRuns s j x 0x34 → needKey s x x.key [0xB] uSign = .ok k → srcBytes s x x.aux (x.param % 256) 3 = .ok c →
         JobEnds (.mlDsaSign j) s j x signs)) ∧
     (x.flag 2 = false →
       (srcBytes s x x.aux (sigLen k.ty) 3 = .ok sig →
         (JobRuns s j x 0x31 → needKey s x x.key [8] uVerify = .ok k → JobEnds (.ed25519Verify j) s j x verifies) ∧
         (JobRuns s j x 0x33 → needKey s x x.key [9, 0xA] uVerify = .ok k → hashed → JobEnds (.ecdsaVerify j) s j x verifies)) ∧
       (srcBytes s x x.dst (sigLen k.ty) 2 = .ok sig → srcBytes s x x.aux (x.param % 256) 3 = .ok c →
         JobRuns s j x 0x35 → needKey s x x.key [0xB] uVerify = .ok k → JobEnds (.mlDsaVerify j) s j x verifies) ∧
       (needKey s x x.key [0xC] uKem = .ok k → x.key2 = 0 →
         (JobRuns s j x 0x36 → 1120 ≤ x.dstLen → dstRuns s x x.dst 1088 2 = .ok l →
           dstRuns s x (x.dst + 1088) 32 2 = .ok m →
           JobEnds (.mlKemEncapsulate j) s j x fun _ e => e.status = 1 ∧ e.consumed = 0) ∧
         (JobRuns s j x 0x37 → x.srcLen = 1088 → 32 ≤ x.dstLen → dstRuns s x x.dst 32 2 = .ok l →
           JobEnds (.mlKemDecapsulate j) s j x fun _ e => e.status = 1 ∧ e.consumed = 1088 ∧ e.produced = 32)))) ∧
  (∀ (s : State) (j n slot : Nat) (x : Job) (sec : List Byte) (k key : KeySlot) (l : List (Nat × Nat)),
     let takes := fun (t : State) => ∃ v, Tab.look t.eng.keys slot = some v ∧ v.ty = x.param % 256 ∧
       v.usage.toNat = x.param / 256 % 256 ∧ genAt t slot ≠ genAt s slot
     (loadParam s x = .ok n → targetSlot s x = .ok slot →
       (JobRuns s j x 0x60 → x.srcLen = n → srcBytes s x x.src n 1 = .ok sec →
         JobEnds (.importKey j) s j x fun t e => e.status = 1 ∧ e.consumed = n ∧ takes t ∧
           (Tab.look t.eng.keys slot).map (·.secret) = some sec) ∧
       (JobRuns s j x 0x61 → x.srcLen = n + 8 → needKey s x x.key [1, 2] uUnwrap = .ok k →
         srcBytes s x x.src (n + 8) 1 = .ok sec →
         JobEnds (.unwrap j) s j x fun t e => e.status = 1 ∧ takes t ∨ e.status = 0x40 ∧ t.eng.keys = s.eng.keys) ∧
       (JobRuns s j x 0x63 → (vget s.eng.drbg Drbg.reset x.drbg).ok = true →
         JobEnds (.generate j) s j x fun t e => e.status = 1 ∧ takes t)) ∧
     (JobRuns s j x 0x62 → needKey s x x.key [1, 2] uWrap = .ok k → useKey s x x.key2 = .ok (slot, key) →
       compatType s key.ty = false → key.usage.getLsbD 1 = true → key.secret.length + 8 ≤ x.dstLen →
       dstRuns s x x.dst (key.secret.length + 8) 2 = .ok l →
       JobEnds (.wrap j) s j x fun t e => e.status = 1 ∧ e.produced = key.secret.length + 8 ∧ t.eng.keys = s.eng.keys) ∧
     (JobRuns s j x 0x64 → needKey s x x.key [8, 9, 0xA, 0xB, 0xC] 0 = .ok k → publicLen k.ty ≤ x.dstLen →
       dstRuns s x x.dst (publicLen k.ty) 2 = .ok l →
       JobEnds (.publicKey j) s j x fun _ e => e.status = 1 ∧ e.produced = publicLen k.ty) ∧
     (JobRuns s j x 0x65 → useKey s x x.key2 = .ok (slot, key) →
       JobEnds (.erase j) s j x fun t e => e.status = 1 ∧ Tab.look t.eng.keys slot = none ∧ genAt t slot ≠ genAt s slot))

/-- R350, R354, R360: an engine that stops restarts and from its third stop in a second is failed; a generator is
seeded again, halts and recovers; and a slot whose two copies are lost is erased. -/
def Obligations.EngineFaults : Prop :=
  ∀ (s : State) (e : Fin 8) (d : Fin 2) (slot : Fin 8192),
    let now := s.time.transit.toNat
    let stopped := fun (x : Eng) => logEvent (bump { s with eng := { s.eng with zips := s.eng.zips.set e x } }
      (zipPage e.val) 0x7D8) { page := zipPage e.val, code := 0x2141 }
    let cell := fun (x : Drbg) => { s with eng := { s.eng with drbg := s.eng.drbg.set d x } }
    ((zipAt s e.val).failed = false → (∀ j ∈ s.eng.jobs, j.2.zip ≠ some e.val) →
      ((zipAt s e.val).stops = [] →
        exec (.engineError false e) s = .next (stopped { failed := false, restarting := true, stops := [now] })) ∧
      ((zipAt s e.val).stops = [now, now] →
        exec (.engineError false e) s =
          .next (logEvent (stopped { failed := true, restarting := false, stops := [now, now, now] })
            { page := zipPage e.val, code := 0x2142 }))) ∧
    (s.eng.drbg[d].ok = true → s.eng.drbg[d].ticks ≥ 1000 ∨ s.eng.drbg[d].requests ≥ 2 ^ 20 →
      exec (.drbgReseed d) s = .next (cell { s.eng.drbg[d] with requests := 0, ticks := 0 })) ∧
    exec (.entropyHealthFail d) s =
      .next (logEvent (cell { s.eng.drbg[d] with ok := false, healthFail := true })
        { page := keystorePage d.val, code := 0x2143 }) ∧
    (s.eng.drbg[d].healthFail = true →
      exec (.drbgRecovery d) s =
        .next (logEvent (cell { ok := true, healthFail := false, requests := 0, ticks := 0 })
          { page := keystorePage d.val, code := 0x0144 })) ∧
    Gives (.keySlotError slot true true) s (fun t => Tab.look t.eng.keys slot.val = none) ∧
    exec (.keySlotError slot true false) s =
      .next (logEvent (bump s (keystorePage 0) 0x7C0)
        { page := keystorePage 0, code := 0x2145, owner := some (keyOwner s slot.val) })

/-! ### Partitions (15, 19) -/

/-- R375, R376, R459, R461: an instance is released where its partition holds it and nothing uses it, with the result in
the register of the command; it is reclaimed; a partition reset leaves its processors waiting with registers of zero;
and START begins the first processor at the start PSW. -/
def Obligations.PartitionCommands : Prop :=
  ∀ (s : State) (m : Master) (part : Fin 128) (kind ix : Nat), MayCommand s m (partPage part.val) →
    let arg := BitVec.ofNat 24 (kind * 2 ^ 20 + ix)
    let result := fun (t : State) (r : Nat) =>
      setCell t (regKey (partPage part.val) 0x0A0) (BitVec.ofNat 64 (r * 2 ^ 24 + ix))
    (kind < 16 → ix < 2 ^ 20 → kindOk kind ix = true →
      (holds s part.val kind ix = false → exec (.release m part arg) s = .next (result s 2)) ∧
      (holds s part.val kind ix = true → busy s part.val kind ix = true →
        exec (.release m part arg) s = .next (result s 1)) ∧
      (holds s part.val kind ix = true → busy s part.val kind ix = false →
        Gives (.release m part arg) s fun t => relKey part.val kind ix ∈ t.released ∧
          cell t (regKey (partPage part.val) 0x0A0) = BitVec.ofNat 64 ix) ∧
      (holds s part.val kind ix = true →
        exec (.reclaim m part arg) s =
          .next { s with released := s.released.filter fun k => k != relKey part.val kind ix })) ∧
    ((partAt s part.val).exists_ = true →
      (resetRuns s part.val = false →
        Gives (.partitionReset m part) s fun t => (partAt t part.val).resetting = true ∧
          ∀ l ∈ lpsOf s part.val, (lpAt t l).run = .waiting ∧ ∀ i, gOf t l i = 0) ∧
      ((partAt s part.val).resetting = true → resetRuns s part.val = false →
        cellField s (partPage part.val) 0x0B8 62 2 ≤ 1 → s.mode.mode ≠ .init → s.mode.mode ≠ .load →
        Gives (.start m part) s fun t => (partAt t part.val).resetting = false ∧
          ∀ l ls, lpsOf s part.val = l :: ls → (lpAt t l).run = .running ∧
            (archOf t l).pswa = cell s (regKey (partPage part.val) 0x0B0) &&& 0xFFFFFFFFFFFFFFFC))

/-! ### Memory channels (16) -/

/-- R398, R399, R400, R404, R405, R407: a row closes, a refresh is postponed at most eight times, heat is seen and gone,
Sweep moves on, a parity alert is retried sixteen times in a tick, and drift is followed by single steps. -/
def Obligations.ChannelsRun : Prop :=
  ∀ (s t : State) (ch : Fin 16) (rank : Fin 8) (sub busy : Bool) (bank : Fin 32) (lane : Fin 5) (temps : List Nat)
    (dir : Int) (l : Lane), (mcAt s ch.val).st = .running →
    let x := mcAt s ch.val
    let p := Tab.read (fun _ => 0) x.postponed rank.val
    let put := fun (n : Nat) => updMc s ch.val fun m =>
      { m with postponed := Tab.write (fun _ => 0) m.postponed rank.val n }
    let step : Int := max (-1) (min 1 dir)
    let drift := fun (d : Int) => if d.natAbs > 16 then 0 else d
    let close := fun (e : Nat × Bank) =>
      if e.1 = bankKey rank.val sub.toNat bank.val then (e.1, { e.2 with opened := none }) else e
    exec (.rowCloseTimeout ch rank sub bank) s =
      .next (updMc s ch.val fun m => { m with banks := m.banks.map close }) ∧
    (rank.val < ranksOf x →
      (8 ≤ p → exec (.refreshDue ch rank busy) s = .next (bump (closeRank (put 0) ch.val rank.val) (mcPage ch.val) 0x7CC)) ∧
      (p < 8 → exec (.refreshDue ch rank true) s = .next (put (p + 1))) ∧
      (p < 8 → exec (.refreshDue ch rank false) s = .next (closeRank (put (p - 1)) ch.val rank.val))) ∧
    ((∃ n ∈ temps, 85 < n) → x.hot = false →
      Gives (.dimmTemperatureRead ch temps) s fun t => (mcAt t ch.val).hot = true) ∧
    ((∀ n ∈ temps, n ≤ 83) →
      exec (.dimmTemperatureRead ch temps) s = .next (updMc s ch.val fun m => { m with hot := false })) ∧
    (spend s .sweep [(resDram ch.val, 1)] = (t, true) → lineAtLocal t ch.val x.cursor ∉ s.poison →
      x.cursor + 1 < qGib s * 4194304 →
      Gives (.sweepRead ch []) s fun v => (mcAt v ch.val).cursor = x.cursor + 1 ∧ v.mem = s.mem ∧ v.poison = s.poison) ∧
    (x.retries < 16 → Gives (.caParityAlert ch) s fun t =>
      (mcAt t ch.val).retries = x.retries + 1 ∧ (mcAt t ch.val).st = .running) ∧
    (16 ≤ x.retries → Gives (.caParityAlert ch) s fun t => (mcAt t ch.val).st = .failed) ∧
    (let k := rank.val * 16 + sub.toNat * 8 + lane.val
     rank.val < ranksOf x → Tab.look x.lanes k = some l →
      ((lane = 0 → spend s .cal [(resDram ch.val, 4)] = (t, true)) →
        Gives (.calibrationCheck ch rank sub lane .readWindow dir) s fun v =>
          Tab.look (mcAt v ch.val).lanes k = some { l with rdDrift := drift (l.rdDrift + step) }) ∧
      ((lane = 0 → spend s .cal [(resDram ch.val, 2)] = (t, true)) →
        Gives (.calibrationCheck ch rank sub lane .writeTiming dir) s fun v =>
          Tab.look (mcAt v ch.val).lanes k = some { l with wrDrift := drift (l.wrDrift + step) }))

/-! ### Modes (19, 20) -/

/-- R449 to R458: the start of the package, phase by phase, up to the mode it runs programs in and the first processor
at its start address. -/
def Obligations.PackageStarts : Prop :=
  ∀ (s t : State) (m : Master) (inp : PhaseIn) (c : Coupling) (r : Nat),
    let init := s.mode.mode = .init ∧ s.mode.stoppedAt = false ∧ s.err.degKeeper = false
    let mode := fun (f : Mode → Mode) => { s with mode := f s.mode }
    (MayCommand s m keeperPage → s.mode.transition = .none →
      (s.mode.mode = .standby → m ≠ .manager → feedGood s = true → s.feed.vsbOk = true → s.feed.trip = false →
        s.mode.pkgResetLow = false →
        Gives (.powerOn m) s fun t => t.mode.mode = .init ∧ t.mode.phase = 1 ∧ t.mode.transition = .powerOn ∧
          t.feed.active.isSome = true) ∧
      (s.mode.mode = .init → s.mode.phase = 2 ∨ s.mode.stoppedAt = true → s.pen.holder = some m →
        strikeOrdered s = false → s.tap.used = false →
        exec (.proceed m) s =
          .next (mode fun x => { x with phase := 3, result := 0, stoppedAt := false, heard := [] })) ∧
      (let b := removeStatus s (iplSch s)
       running s = true → (lpAt s lp0).run = .waiting →
        startOp b (iplSch b) (newOp mgrCtx (bootBase b) 0 0 none true) = (t, 0) →
        exec (.ipl m) s = .next { t with mode := { t.mode with ipl := .first (iplSch b) (bootBase b) } })) ∧
    (init →
      (s.mode.phase = 1 → s.mode.warmResetLow = false → s.mode.warm = false →
        Gives (.initialisationPhaseComplete inp) s fun t => t.mode.phase = 2 ∧ t.mode.transition = .none ∧
          ∀ p : Fin 48, (pairAt s p).role = .active → (pairAt t p).powered = true) ∧
      (s.mode.phase = 3 → (∀ d ∈ inp.spds, d.readable = true) → populationFault s inp.spds = none →
        Gives (.initialisationPhaseComplete inp) s fun t => t.mode.phase = 4 ∧ t.mode.stoppedAt = false) ∧
      (s.mode.phase = 4 → inp.badLanes = [] → inp.badLinks = [] →
        Gives (.initialisationPhaseComplete inp) s fun t => t.mode.phase = 5 ∧ t.dirty = [] ∧ t.txns = [] ∧
          ∀ ch : Fin 16, (mcAt t ch.val).st = .running ∨ (mcAt t ch.val).st = .unpopulated) ∧
      (s.mode.phase = 5 →
        (others s ≠ [] → couplingFault s c = none →
          exec (.couplingExchange c) s = .next (mode fun x => { x with heard := c :: s.mode.heard })) ∧
        (others s ≠ [] → couplingFault s c = some r →
          Gives (.couplingExchange c) s fun t => t.mode.result = r ∧ t.mode.stoppedAt = true) ∧
        (allHeard s = false →
          Gives .couplingTimeout s fun t => t.mode.result = 0x22 ∧ t.mode.stoppedAt = true) ∧
        (allHeard s = true → isSlave s = false →
          exec (.initialisationPhaseComplete inp) s =
            .next (mode fun x => { x with phase := 6, coupled := others s }))) ∧
      (s.mode.phase = 6 → s.mode.clear = none →
        Gives (.initialisationPhaseComplete inp) s fun t => t.mode.mode = .load ∧ t.mem = s.mem ∧
          t.mode.phase = if slotVerified s (currentSlot s) then 0x11 else 0x10)) ∧
    (s.mode.mode = .load → slotVerified s (currentSlot s) = true → s.mode.result ≠ 0x31 → s.err.degKeeper = false →
      (compat s = false → cellBit s keeperPage 0x148 31 = true → cellBit s keeperPage 0x148 30 = false →
        Gives (.loadComplete true) s fun t => t.mode.mode = .operating ∧ t.mode.result = 0 ∧
          (lpAt t lp0).run = .running ∧ privOf (archOf t lp0).psws = 2 ∧
          (archOf t lp0).pswa = cell s (regKey keeperPage 0x150) &&& 0xFFFFFFFFFFFFFFFC) ∧
      (compat s = false → Gives (.loadComplete false) s fun t => t.mode.mode = .load ∧ t.mode.result = 0x31))

/-- R448, R462 to R464, R467 to R469, R508: the commands and pins that stop the package, hold its memory or reset it. A cold
reset, by command or pin, leaves it in Standby with its fuses and TOD value; SERVICE_STOP and RESUME leave its mode and
come back to it; HOLD of a package that is alone puts its memory into self-refresh once every processor has stopped and
drained, of one that is not, once the others have announced their flush or the wait for them has ended; a warm reset
drains first, then starts Initialisation again with its processors waiting. -/
def Obligations.PackageStops : Prop :=
  ∀ (s : State) (m : Master) (pkg : Fin 4) (lowNs : Nat) (acts : Bool),
    let mode := fun (f : Mode → Mode) => { s with mode := f s.mode }
    (MayCommand s m keeperPage →
      (m ≠ .manager → s.mode.mode ≠ .off → s.mode.mode ≠ .standby → s.feed.vsbOk = true →
        Gives (.coldReset m) s fun t => t.mode.mode = .standby ∧ t.fuses = s.fuses ∧ t.pending = s.pending ∧
          t.drafts = [] ∧ t.time.seconds = s.time.seconds ∧ t.time.steps = s.time.steps ∧
          ∀ e ∈ t.mem, localPkg s e.1 = false) ∧
      (s.mode.transition = .none → m ≠ .manager → running s = true →
        Gives (.serviceStop m) s fun t => t.mode.back = s.mode.mode ∧ t.mem = s.mem ∧
          (t.mode.mode = .serviceStop ∨ t.mode.transition = .serviceStop) ∧
          (s.strike.st = .committed ∨ (∃ p : Fin 48, (pairAt s p).role = .active ∧ (pairAt s p).lp.isSome = true ∧
            (pairAt s p).haltDone = false) → t.mode.transition = .serviceStop) ∧
          (s.strike.st ≠ .committed → ∀ p l : Fin 48, (pairAt s p).role = .active →
            (pairAt s p).retrying = false → (pairAt s p).lp = some l → (∀ q ≠ p, (pairAt s q).lp ≠ some l) →
            atBoundary s l = true → (pairAt t p).role = .halted)) ∧
      (s.mode.transition = .none → m ≠ .manager → s.mode.mode = .serviceStop →
        Gives (.resume m) s fun t => t.mode.mode = s.mode.back ∧ ∀ p : Fin 48,
          (pairAt s p).role = .halted → (pairAt s p).haltReq = false → (pairAt t p).role = .active) ∧
      (s.mode.transition = .none → m ≠ .manager → running s = true ∨ s.mode.mode = .serviceStop → others s = [] →
        let held := mode fun x => { x with transition := .hold, announced := false }
        let stopped := holdStop (releasePen held)
        (s.strike.st = .committed → exec (.hold m) s = .next held) ∧
        (s.strike.st ≠ .committed → allDrained stopped = false → exec (.hold m) s = .next stopped) ∧
        (s.strike.st ≠ .committed → allDrained stopped = true →
          Gives (.hold m) s fun t => t.mode.mode = .hold ∧ t.dirty = [] ∧ t.fuses = s.fuses ∧
            ∀ ch : Fin 16, (mcAt t ch.val).st ≠ .running)) ∧
      (warmAccepted s = true →
        (s.strike.st = .committed → s.mode.mode ≠ .checkstop →
          exec (.warmReset m) s = .next (mode fun x => { x with transition := .warm, warmDrained := false })) ∧
        (s.strike.st ≠ .committed ∨ s.mode.mode = .checkstop → Gives (.warmReset m) s fun t =>
          t.mode.transition = .warm ∧ t.mode.warmDrained = true ∧ t.pen.holder = none))) ∧
    (s.mode.transition = .warm → s.mode.warmDrained = true → s.mode.mode = .checkstop ∨ allDrained s = true →
      Gives .warmResetWritebackComplete s fun t => t.mode.mode = .init ∧ t.dirty = [] ∧ t.txns = [] ∧
        (t.mode.phase = if s.mode.warmResetLow then 1 else if cellBit s keeperPage 0x148 29 then 3 else 2) ∧
        ∀ l ∈ allLps s, (lpAt t l).run = .waiting) ∧
    (pkg.val ∈ others s →
      (s.mode.transition ≠ .hold → exec (.holdFlushAnnouncement pkg) s =
        .next (mode fun x => { x with flushed := pkg.val :: s.mode.flushed.filter (· ≠ pkg.val) })) ∧
      (s.mode.transition = .hold → s.mode.announced = true → (∀ p ∈ others s, p = pkg.val ∨ p ∈ s.mode.flushed) →
        Gives (.holdFlushAnnouncement pkg) s fun t => t.mode.mode = .hold ∧ t.mode.clear = some (holdMask s))) ∧
    (s.mode.transition = .hold → s.mode.announced = true →
      Gives .holdAnnouncementTimeout s fun t => t.mode.mode = .hold ∧ t.mode.clear = some 0) ∧
    (lowNs < 9980 → exec (.pkgResetN lowNs acts) s = .next s ∧ exec (.warmResetN lowNs acts) s = .next s) ∧
    (10020 ≤ lowNs →
      (keeperRuns s = true → s.feed.vsbOk = true → Gives (.pkgResetN lowNs acts) s fun t =>
        t.mode.mode = .standby ∧ t.mode.pkgResetLow = true ∧ t.fuses = s.fuses ∧ t.pending = s.pending ∧
        t.drafts = [] ∧ t.time.seconds = s.time.seconds ∧ t.time.steps = s.time.steps) ∧
      (warmAccepted s = false →
        exec (.warmResetN lowNs acts) s = .next (mode fun x => { x with warmResetLow := true })) ∧
      (warmAccepted s = true → keeperRuns s = true →
        Gives (.warmResetN lowNs acts) s fun t => t.mode.transition = .warm ∧ t.mode.warmResetLow = true)) ∧
    exec .pkgResetNRelease s = .next (mode fun x => { x with pkgResetLow := false }) ∧
    exec .warmResetNRelease s = .next (mode fun x => { x with warmResetLow := false })

/-- R8, R426, R427, R484, R487, R492: what takes the package out of its mode from outside. A lost die and an error of class 4
checkstop it, with the first cause latched, every processor stopped and what DRAM holds kept; the checkstop of a coupled
package does so in broadcast mode (with 80A5h, the model's code, log 115) and fences that package in directory mode. A
lost copy of the Keeper is reported. The standby supply comes and goes, both feeds are lost, with Off where the standby
supply is lost too, and a die trips on its heat: the fuses outlive all of it. -/
def Obligations.PackageLosses : Prop :=
  ∀ (s : State) (b : Bool) (die : Fin 6) (copy : Fin 3) (pkg : Fin 4) (page : BitVec 19) (code : BitVec 16),
    (dieOn s die.val = true → s.mode.mode ≠ .checkstop → s.err.stopCode = 0 →
      Gives (.dieLoss die) s fun t => t.mode.mode = .checkstop ∧ t.err.stopCode = 0x8177 ∧
        t.err.stopPage = errlogPage die.val ∧ t.dirty = [] ∧ t.mem = s.mem ∧ ∀ l : Fin 48, (lpAt t l).run = .stopped) ∧
    (dieOn s die.val = false → exec (.dieLoss die) s = .next s) ∧
    (classOf code.toNat = 4 → pagePresent page.toNat = true → dieOn s (pageDie page.toNat) = true →
      s.mode.mode ≠ .checkstop → s.err.stopCode = 0 →
      Gives (.checkstop (.page page) code) s fun t => t.mode.mode = .checkstop ∧ t.err.stopCode = code.toNat ∧
        t.err.stopPage = page.toNat ∧ t.dirty = [] ∧ t.mem = s.mem ∧ ∀ l : Fin 48, (lpAt t l).run = .stopped) ∧
    (pkg.val ≠ pkgId s → s.mode.coupled.contains pkg.val = true → s.fenced.contains pkg.val = false →
      s.mode.mode ≠ .checkstop → s.mode.transition ≠ .warm →
      (dirMode s = true → Gives (.checkstop (.package pkg) code) s fun t =>
        pkg.val ∈ t.fenced ∧ t.mode = s.mode) ∧
      (dirMode s = false → s.err.stopCode = 0 → Gives (.checkstop (.package pkg) code) s fun t =>
        t.mode.mode = .checkstop ∧ t.err.stopCode = 0x80A5 ∧ t.dirty = [] ∧ t.mem = s.mem)) ∧
    exec (.keeperCopyOutvoted copy) s = .next (logEvent s { page := keeperPage, code := 0x0171, sub := copy.val }) ∧
    (s.mode.mode = .off →
      Gives .vsbApplied s fun t => t.mode.mode = .standby ∧ t.feed.vsbOk = true ∧ t.fuses = s.fuses) ∧
    (s.mode.mode ≠ .off → exec .vsbApplied s = .next { s with feed := { s.feed with vsbOk := true } }) ∧
    (s.feed.active.isSome = true → exec .vsbLost s = .next { s with feed := { s.feed with vsbOk := false } }) ∧
    (s.feed.active = none → Gives .vsbLost s fun t => t.mode.mode = .off ∧ t.fuses = s.fuses ∧ t.pending = s.pending ∧
      t.feed.vsbOk = false ∧ t.feed.trip = s.feed.trip) ∧
    (s.feed.active = some b → 2 ≤ failVotes s (feedOf s b) → keeperBad (feedOf s !b) = true →
      Gives .bothFeedsLost s fun t => t.feed.active = none ∧ t.fuses = s.fuses ∧ t.drafts = [] ∧
        t.mode.mode = if s.feed.vsbOk then .standby else .off) ∧
    (keeperRuns s = true → s.feed.active = some b → s.feed.vsbOk = true → (∃ d : Fin 7, 10 ≤ s.feed.hot[d]) →
      Gives .thermalTrip s fun t => t.mode.mode = .standby ∧ t.feed.active = none ∧ t.feed.trip = true ∧
        t.fuses = s.fuses)

/-! ### The control store (18) -/

/-- R434 to R444: an image comes in word by word and is verified; the fuses move only up; an error in the store is
corrected, or falls on its pair or channel processor; and an update goes through the pairs, then the channel
processors. The next microaddress of a sequencer is what COND makes of NEXT, within its store. -/
def Obligations.ControlStoreWorks : Prop :=
  ∀ (s : State) (m : Master) (v x : Word) (slot : Fin 2) (k : Fin 4) (word : BitVec 16) (dom : Domain) (d : Nat)
    (p q : Fin 48) (cp : Fin 32) (c h : Nat) (die : Fin 2),
    let cs := fun (f : ControlStore → ControlStore) => { s with cs := f s.cs }
    let cur := currentSlot s
    let ix := cell s (regKey (csPage 6) 0x040)
    (writable s m (csPage 6) = true → slotInUse s (field ix 31 1) = false → s.cs.busy = none →
      Gives (.imgData m true v) s fun t => slotVerified t (field ix 31 1) = false ∧
        Tab.read (fun _ => (0 : Word)) t.cs.words (field ix 31 1 * 65536 + field ix 0 16) = v ∧
        field (cell t (regKey (csPage 6) 0x040)) 0 16 = (field ix 0 16 + 1) % 65536) ∧
    (portLost s m = false → readService s m (csPage 6 * 4096 + 0x048) 8 = .value x →
      exec (.imgData m false v) s = .next (emit (.reply m x) (readEffect s m (csPage 6 * 4096 + 0x048) 8))) ∧
    (MayCommand s m (csPage 6) →
      (s.cs.busy = none → Gives (.startVerification m slot) s fun t => t.cs.busy = some slot ∧ t.cs.words = s.cs.words) ∧
      (slotVerified s cur = true → (∀ w ∈ runImages s, field (slotHdr s cur) 16 16 ≤ field w 16 16) →
        Gives (.advance m) s fun t => t.fuses = { s.fuses with svn := max s.fuses.svn (field (slotHdr s cur) 16 16) } ∧
          t.regs = s.regs) ∧
      (slotVerified s cur = false →
        exec (.revokeKeyPair m k) s =
          .next { s with fuses := { s.fuses with revoked := s.fuses.revoked ||| 1 <<< k.val } })) ∧
    (s.cs.busy = some slot → keeperRuns s = true →
      Gives .verificationComplete s fun t => t.cs.busy = none ∧
        slotVerified t slot.val = decide (imageVerdict s slot.val = 1) ∧
        slotHdr t slot.val = (if imageVerdict s slot.val = 1 then
          BitVec.ofNat 64 (imgVal s slot.val 8 4 * 2 ^ 32 + imgVal s slot.val 12 2 * 65536 + 1)
          else slotHdr s slot.val)) ∧
    (domDie dom = some d → exec (.controlStoreError dom true) s =
      .next (logEvent (bump s (csPage d) 0x7C0) { page := csPage d, code := 0x0181 })) ∧
    exec (.controlStoreError (.pair p) false) s = exec (.mismatch p .parity 0 0) s ∧
    exec (.controlStoreError (.cp cp) false) s = exec (.cpStop cp) s ∧
    exec (.imageSlotError slot word true false) s = .next s ∧
    (∃ w : Word, exec (.imageSlotError slot word true true) s = .next { taken s with cs := { s.cs with
      words := Tab.write (fun _ => (0 : Word)) s.cs.words (slot.val * 65536 + word.toNat) w } }) ∧
    (updEnabled s = true → running s = true → s.err.degKeeper = false →
      (s.rotation = none → s.cs.gap = 0 → s.mode.quiesce = false →
        oldest s ((oldPairs s).filter (rotatable s)) = some p →
        bestFor s p (all48.filter fun q => (pairAt s q).role = .dormant && !(pairAt s q).failed) = some q →
        wearBudget s p = true →
        Gives .updateRotation s fun t => t.rotation = some ⟨p, q, .powering, 0, true, false⟩ ∧ t.cs.updating = true ∧
          (pairAt t q).role = .preparing) ∧
      (oldPairs s = [] → (oldCps s).find? (fun c => c / 16 = die.val) = some c →
        ((List.range 32).filter fun c => (cpAt s c).role = .spare).find? (fun c => c / 16 = die.val) = some h →
        Gives (.cpUpdateHandover die) s fun t => (cpAt t h).role = .active ∧ (cpAt t c).role = .spare ∧
          (cpAt t h).image = cpImage (currentImage s) ∧ ∀ e ∈ t.chan.ops, e.2.cp ≠ c)) ∧
    (s.cs.updating = true → 1000000 ≤ s.cs.still → exec .updateNoProgress s =
      .next (logEvent (cs fun x => { x with still := 0 }) { page := csPage 6, code := 0x2185 })) ∧
    (∀ (kd : StoreKind) (uc : UConds) (sq : Seq), kd ≠ .rom →
      let mw := microword s kd slot.val (sq.addr.toNat % kd.micro)
      let next := unext (nanoword s kd slot.val ((unano mw).toNat % kd.nano))
      let follows := (nextAddr s kd slot.val uc sq).toNat
      (ucond mw = 0 → follows = (sq.addr.toNat + 1) % kd.micro) ∧
      (ucond mw = 1 → follows = next.toNat % kd.micro) ∧
      (ucond mw = 2 → follows = (next.toNat ||| uc.zero.toNat) % kd.micro) ∧
      (ucond mw = 0xB → follows = (next.toNat ||| uc.lenClass.toNat) % kd.micro) ∧
      (ucond mw = 0xD → follows = (next.toNat ||| uc.opcode.toNat * 8) % kd.micro) ∧
      (ucond mw = 0xF → follows = sq.link.toNat % kd.micro))

/-! ### Power feeds (20) -/

/-- R479 to R483, R492, R495: votes against a feed and for it, the switchover, the repair and the chatter of its status
input, the commands of the feed page, and the guardband. -/
def Obligations.FeedsWork : Prop :=
  ∀ (s : State) (m : Master) (b level : Bool) (mon : Fin 3) (heldNs : Nat) (die : Fin 4), keeperRuns s = true →
    let x := feedOf s b
    let worse := { x with bad := x.bad.set mon true }
    let better := { x with bad := x.bad.set mon false }
    (s.feed.active = some b → 2 ≤ failVotes s worse → keeperBad (feedOf s !b) = false →
      Gives (.feedOutOfRange b mon) s fun t =>
        t.feed.active = some !b ∧ (feedOf t b).st = .failed ∧ (feedOf t !b).st = .active) ∧
    (s.feed.active = some !b → failVotes s (feedOf s !b) < 2 →
      (x.st = .standby → 2 ≤ failVotes s worse →
        Gives (.feedOutOfRange b mon) s fun t => (feedOf t b).st = .failed ∧ t.feed.active = some !b) ∧
      (x.st = .failed → inRange s better = true →
        Gives (.feedInRange b mon) s fun t => (feedOf t b).st = .repairing ∧ (feedOf t b).repair = 0 ∧
          t.feed.active = some !b)) ∧
    (x.pg ≠ level → Gives (.feedStatusChange b level heldNs) s fun t =>
      (feedOf t b).pg = level ∧ (feedOf t b).changes = x.changes + 1 ∧ (feedOf t b).quiet = 0 ∧
      (feedOf t b).chat = (x.chat || decide (x.changes + 1 > 8))) ∧
    (x.st = .repairing → 100000 ≤ x.repair → inRange s x = true →
      Gives (.feedRepaired b) s fun t => (feedOf t b).st = .standby ∧ t.err.degFeed = false) ∧
    (x.chat = true → 1000 ≤ x.quiet →
      Gives (.chatterEnd b) s fun t => (feedOf t b).chat = false ∧ (feedOf t b).pgBad = !x.pg) ∧
    (MayCommand s m feedPage →
      (s.feed.active = some b → (feedOf s !b).st = .standby → s.feed.trip = false →
        Gives (.swap m) s fun t => t.feed.active = some !b ∧ (feedOf t b).st = .standby ∧ (feedOf t !b).st = .active) ∧
      exec (.clearTrip m) s = .next { s with feed := { s.feed with trip := false } }) ∧
    (let v := s.feed.vgb[die]
     exec (.agingCheck die false) s = .next s ∧
     (v < 8 → Gives (.agingCheck die true) s fun t => t.feed.vgb[die] = v + 1) ∧
     (8 ≤ v → exec (.agingCheck die true) s = .next (feedEvent s 0x21AA 0)))

/-! ### The whole machine -/

/-- R464, R60, R63, R503, R508: after reset the package is in Standby with nothing waiting, no Pen held, no draft, no
Strike, its memory listing nothing, and no processor running. Its signals say so: STBY_OK is high, PKG_PG low, and every
DRESET_N low. -/
def Obligations.ResetState : Prop :=
  State.reset.mode.mode = .standby ∧ State.reset.pending = [] ∧ State.reset.pen.holder = none ∧
  State.reset.drafts = [] ∧ State.reset.strike.st = .idle ∧ State.reset.proof.code = 0 ∧ State.reset.mem = [] ∧
  Memory.wf State.reset.mem ∧ (∀ lp : Fin 48, lpReady State.reset lp = false) ∧ stbyOk State.reset = some true ∧
  pkgPg State.reset = false ∧ ∀ ch : Fin 16, dresetN State.reset ch = false

/-- R260 to R262: the end of an instruction changes no register, no byte of memory, nothing of another processor and no
byte that the processor loads (of a line whose newest data another package holds, none that its own stores give: what
else it reads there is free, log 46), whether its interval closes or not. Its stores move from the gated to the released
part in their order. -/
def Obligations.EndOfInstruction : Prop :=
  ∀ (v : State) (lp q : Fin 48) (f : Form) (a : Nat), f.perform = false →
    let t := finish v lp f
    let entries := fun (x : Lp) => (x.released ++ x.gated).map fun e => (e.ty, e.blk, e.bytes, e.ctx)
    let own := fun (x : Lp) => (gateByte x.gated a).orElse fun _ => (gateByte x.released a).orElse fun _ =>
      gateByte x.owning a
    archOf t lp = archOf v lp ∧ t.mem = v.mem ∧ t.dirty = v.dirty ∧ t.regs = v.regs ∧ t.time = v.time ∧
    t.out = v.out ∧ t.fuses = v.fuses ∧ (q ≠ lp → lpAt t q = lpAt v q) ∧ entries (lpAt t lp) = entries (lpAt v lp) ∧
    own (lpAt t lp) = own (lpAt v lp) ∧
    (visible v (lineOf a) = true → lpByte t (lpAt t lp) a = lpByte v (lpAt v lp) a)

/-- R154, R156, R262: bytes stored into Normal memory are what the processor then loads, every other byte it loads is as
before, and memory itself does not change while they are gated. -/
def Obligations.StoresForward : Prop :=
  ∀ (v w : State) (lp : Fin 48) (pa : Nat) (bs : List Byte), Stores v lp [⟨pa, bs.length, .normal⟩] bs w →
    ((lpAt v lp).gated.map (·.blk)).Nodup →
    (∀ e ∈ (lpAt v lp).gated, pa / 64 ≤ e.blk → e.blk ≤ (pa + bs.length) / 64 → e.ty = .normal ∧ e.ctx = lpCtx v lp) →
    (∀ j < bs.length, lpByte w (lpAt w lp) (pa + j) = bs.getD j 0) ∧
    (∀ a, a < pa ∨ pa + bs.length ≤ a → lpByte w (lpAt w lp) a = lpByte v (lpAt v lp) a) ∧
    w.mem = v.mem ∧ archOf w lp = archOf v lp ∧ ∀ q, q ≠ lp → lpAt w q = lpAt v q

/-- Every step keeps memory in its canonical form. -/
def Obligations.MemoryKeepsItsForm : Prop :=
  ∀ s t : State, Memory.wf s.mem → step s = .next t → Memory.wf t.mem

/-- R433, R439: no step lowers the security version number in the fuses, brings back a revoked key pair or changes the
part: neither a command nor a loss of power nor a reset. -/
def Obligations.FusesOnlyRise : Prop :=
  ∀ s t : State, step s = .next t →
    t.fuses.part = s.fuses.part ∧ s.fuses.svn ≤ t.fuses.svn ∧
    ∀ k, s.fuses.revoked.getLsbD k = true → t.fuses.revoked.getLsbD k = true
end

