-- ==== Sys2Proof/Laws/State.lean ====
section
/-! SUPPORT. What each update of a processor, a pair or a register cell leaves in every field of the state. -/

namespace Sys2Proof.Machine

/-! ### Processors and pairs -/

@[simp] theorem lpAt_setLp (s : State) (lp : Fin 48) (x : Lp) : lpAt (setLp s lp x) lp = x := by
  simp [lpAt, setLp]

theorem lpAt_setLp_ne (s : State) {lp i : Fin 48} (x : Lp) (h : i ≠ lp) : lpAt (setLp s lp x) i = lpAt s i := by
  have : (lp : Nat) ≠ i := fun e => h (Fin.ext e.symm)
  simp [lpAt, setLp, this]

@[simp] theorem setLp_setLp (s : State) (lp : Fin 48) (x y : Lp) : setLp (setLp s lp x) lp y = setLp s lp y := by
  simp [setLp]

@[simp] theorem updLp_updLp (s : State) (lp : Fin 48) (f g : Lp → Lp) :
    updLp (updLp s lp f) lp g = updLp s lp fun x => g (f x) := by simp [updLp]

@[simp] theorem lpAt_updLp (s : State) (lp : Fin 48) (f : Lp → Lp) : lpAt (updLp s lp f) lp = f (lpAt s lp) := by
  simp [updLp]

theorem lpAt_updLp_ne (s : State) {lp i : Fin 48} (f : Lp → Lp) (h : i ≠ lp) :
    lpAt (updLp s lp f) i = lpAt s i := lpAt_setLp_ne s _ h

@[simp] theorem updLp_pending (s : State) (lp : Fin 48) (f : Lp → Lp) : (updLp s lp f).pending = s.pending := rfl
@[simp] theorem updLp_freeCtr (s : State) (lp : Fin 48) (f : Lp → Lp) : (updLp s lp f).freeCtr = s.freeCtr := rfl
@[simp] theorem updLp_out (s : State) (lp : Fin 48) (f : Lp → Lp) : (updLp s lp f).out = s.out := rfl
@[simp] theorem updLp_fuses (s : State) (lp : Fin 48) (f : Lp → Lp) : (updLp s lp f).fuses = s.fuses := rfl
@[simp] theorem updLp_time (s : State) (lp : Fin 48) (f : Lp → Lp) : (updLp s lp f).time = s.time := rfl
@[simp] theorem updLp_bud (s : State) (lp : Fin 48) (f : Lp → Lp) : (updLp s lp f).bud = s.bud := rfl
@[simp] theorem updLp_alm (s : State) (lp : Fin 48) (f : Lp → Lp) : (updLp s lp f).alm = s.alm := rfl
@[simp] theorem updLp_lanes (s : State) (lp : Fin 48) (f : Lp → Lp) : (updLp s lp f).lanes = s.lanes := rfl
@[simp] theorem updLp_regs (s : State) (lp : Fin 48) (f : Lp → Lp) : (updLp s lp f).regs = s.regs := rfl
@[simp] theorem updLp_drafts (s : State) (lp : Fin 48) (f : Lp → Lp) : (updLp s lp f).drafts = s.drafts := rfl
@[simp] theorem updLp_cmds (s : State) (lp : Fin 48) (f : Lp → Lp) : (updLp s lp f).cmds = s.cmds := rfl
@[simp] theorem updLp_pen (s : State) (lp : Fin 48) (f : Lp → Lp) : (updLp s lp f).pen = s.pen := rfl
@[simp] theorem updLp_proof (s : State) (lp : Fin 48) (f : Lp → Lp) : (updLp s lp f).proof = s.proof := rfl
@[simp] theorem updLp_strike (s : State) (lp : Fin 48) (f : Lp → Lp) : (updLp s lp f).strike = s.strike := rfl
@[simp] theorem updLp_sideA (s : State) (lp : Fin 48) (f : Lp → Lp) : (updLp s lp f).sideA = s.sideA := rfl
@[simp] theorem updLp_sideB (s : State) (lp : Fin 48) (f : Lp → Lp) : (updLp s lp f).sideB = s.sideB := rfl
@[simp] theorem updLp_err (s : State) (lp : Fin 48) (f : Lp → Lp) : (updLp s lp f).err = s.err := rfl
@[simp] theorem updLp_pairs (s : State) (lp : Fin 48) (f : Lp → Lp) : (updLp s lp f).pairs = s.pairs := rfl
@[simp] theorem updLp_sparings (s : State) (lp : Fin 48) (f : Lp → Lp) : (updLp s lp f).sparings = s.sparings := rfl
@[simp] theorem updLp_rotation (s : State) (lp : Fin 48) (f : Lp → Lp) : (updLp s lp f).rotation = s.rotation := rfl
@[simp] theorem updLp_rotAge (s : State) (lp : Fin 48) (f : Lp → Lp) : (updLp s lp f).rotAge = s.rotAge := rfl
@[simp] theorem updLp_rotRetry (s : State) (lp : Fin 48) (f : Lp → Lp) : (updLp s lp f).rotRetry = s.rotRetry := rfl
@[simp] theorem updLp_rotAgain (s : State) (lp : Fin 48) (f : Lp → Lp) : (updLp s lp f).rotAgain = s.rotAgain := rfl
@[simp] theorem updLp_mem (s : State) (lp : Fin 48) (f : Lp → Lp) : (updLp s lp f).mem = s.mem := rfl
@[simp] theorem updLp_scrambled (s : State) (lp : Fin 48) (f : Lp → Lp) : (updLp s lp f).scrambled = s.scrambled := rfl
@[simp] theorem updLp_dirty (s : State) (lp : Fin 48) (f : Lp → Lp) : (updLp s lp f).dirty = s.dirty := rfl
@[simp] theorem updLp_poison (s : State) (lp : Fin 48) (f : Lp → Lp) : (updLp s lp f).poison = s.poison := rfl
@[simp] theorem updLp_l3 (s : State) (lp : Fin 48) (f : Lp → Lp) : (updLp s lp f).l3 = s.l3 := rfl
@[simp] theorem updLp_lfsr3 (s : State) (lp : Fin 48) (f : Lp → Lp) : (updLp s lp f).lfsr3 = s.lfsr3 := rfl
@[simp] theorem updLp_txns (s : State) (lp : Fin 48) (f : Lp → Lp) : (updLp s lp f).txns = s.txns := rfl
@[simp] theorem updLp_slices (s : State) (lp : Fin 48) (f : Lp → Lp) : (updLp s lp f).slices = s.slices := rfl
@[simp] theorem updLp_dir (s : State) (lp : Fin 48) (f : Lp → Lp) : (updLp s lp f).dir = s.dir := rfl
@[simp] theorem updLp_burin (s : State) (lp : Fin 48) (f : Lp → Lp) : (updLp s lp f).burin = s.burin := rfl
@[simp] theorem updLp_links (s : State) (lp : Fin 48) (f : Lp → Lp) : (updLp s lp f).links = s.links := rfl
@[simp] theorem updLp_fenced (s : State) (lp : Fin 48) (f : Lp → Lp) : (updLp s lp f).fenced = s.fenced := rfl
@[simp] theorem updLp_funcs (s : State) (lp : Fin 48) (f : Lp → Lp) : (updLp s lp f).funcs = s.funcs := rfl
@[simp] theorem updLp_msixQ (s : State) (lp : Fin 48) (f : Lp → Lp) : (updLp s lp f).msixQ = s.msixQ := rfl
@[simp] theorem updLp_ioCache (s : State) (lp : Fin 48) (f : Lp → Lp) : (updLp s lp f).ioCache = s.ioCache := rfl
@[simp] theorem updLp_portHeld (s : State) (lp : Fin 48) (f : Lp → Lp) : (updLp s lp f).portHeld = s.portHeld := rfl
@[simp] theorem updLp_parts (s : State) (lp : Fin 48) (f : Lp → Lp) : (updLp s lp f).parts = s.parts := rfl
@[simp] theorem updLp_released (s : State) (lp : Fin 48) (f : Lp → Lp) : (updLp s lp f).released = s.released := rfl
@[simp] theorem updLp_presLast (s : State) (lp : Fin 48) (f : Lp → Lp) : (updLp s lp f).presLast = s.presLast := rfl
@[simp] theorem updLp_offers (s : State) (lp : Fin 48) (f : Lp → Lp) : (updLp s lp f).offers = s.offers := rfl
@[simp] theorem updLp_onceTick (s : State) (lp : Fin 48) (f : Lp → Lp) : (updLp s lp f).onceTick = s.onceTick := rfl
@[simp] theorem updLp_mode (s : State) (lp : Fin 48) (f : Lp → Lp) : (updLp s lp f).mode = s.mode := rfl
@[simp] theorem updLp_chan (s : State) (lp : Fin 48) (f : Lp → Lp) : (updLp s lp f).chan = s.chan := rfl
@[simp] theorem updLp_eng (s : State) (lp : Fin 48) (f : Lp → Lp) : (updLp s lp f).eng = s.eng := rfl
@[simp] theorem updLp_mcs (s : State) (lp : Fin 48) (f : Lp → Lp) : (updLp s lp f).mcs = s.mcs := rfl
@[simp] theorem updLp_cs (s : State) (lp : Fin 48) (f : Lp → Lp) : (updLp s lp f).cs = s.cs := rfl
@[simp] theorem updLp_feed (s : State) (lp : Fin 48) (f : Lp → Lp) : (updLp s lp f).feed = s.feed := rfl
@[simp] theorem updLp_tap (s : State) (lp : Fin 48) (f : Lp → Lp) : (updLp s lp f).tap = s.tap := rfl

@[simp] theorem updPair_pending (s : State) (p : Fin 48) (f : Pair → Pair) : (updPair s p f).pending = s.pending := rfl
@[simp] theorem updPair_freeCtr (s : State) (p : Fin 48) (f : Pair → Pair) : (updPair s p f).freeCtr = s.freeCtr := rfl
@[simp] theorem updPair_out (s : State) (p : Fin 48) (f : Pair → Pair) : (updPair s p f).out = s.out := rfl
@[simp] theorem updPair_fuses (s : State) (p : Fin 48) (f : Pair → Pair) : (updPair s p f).fuses = s.fuses := rfl
@[simp] theorem updPair_time (s : State) (p : Fin 48) (f : Pair → Pair) : (updPair s p f).time = s.time := rfl
@[simp] theorem updPair_bud (s : State) (p : Fin 48) (f : Pair → Pair) : (updPair s p f).bud = s.bud := rfl
@[simp] theorem updPair_alm (s : State) (p : Fin 48) (f : Pair → Pair) : (updPair s p f).alm = s.alm := rfl
@[simp] theorem updPair_lanes (s : State) (p : Fin 48) (f : Pair → Pair) : (updPair s p f).lanes = s.lanes := rfl
@[simp] theorem updPair_regs (s : State) (p : Fin 48) (f : Pair → Pair) : (updPair s p f).regs = s.regs := rfl
@[simp] theorem updPair_drafts (s : State) (p : Fin 48) (f : Pair → Pair) : (updPair s p f).drafts = s.drafts := rfl
@[simp] theorem updPair_cmds (s : State) (p : Fin 48) (f : Pair → Pair) : (updPair s p f).cmds = s.cmds := rfl
@[simp] theorem updPair_pen (s : State) (p : Fin 48) (f : Pair → Pair) : (updPair s p f).pen = s.pen := rfl
@[simp] theorem updPair_proof (s : State) (p : Fin 48) (f : Pair → Pair) : (updPair s p f).proof = s.proof := rfl
@[simp] theorem updPair_strike (s : State) (p : Fin 48) (f : Pair → Pair) : (updPair s p f).strike = s.strike := rfl
@[simp] theorem updPair_sideA (s : State) (p : Fin 48) (f : Pair → Pair) : (updPair s p f).sideA = s.sideA := rfl
@[simp] theorem updPair_sideB (s : State) (p : Fin 48) (f : Pair → Pair) : (updPair s p f).sideB = s.sideB := rfl
@[simp] theorem updPair_err (s : State) (p : Fin 48) (f : Pair → Pair) : (updPair s p f).err = s.err := rfl
@[simp] theorem updPair_lps (s : State) (p : Fin 48) (f : Pair → Pair) : (updPair s p f).lps = s.lps := rfl
@[simp] theorem updPair_sparings (s : State) (p : Fin 48) (f : Pair → Pair) : (updPair s p f).sparings = s.sparings := rfl
@[simp] theorem updPair_rotation (s : State) (p : Fin 48) (f : Pair → Pair) : (updPair s p f).rotation = s.rotation := rfl
@[simp] theorem updPair_rotAge (s : State) (p : Fin 48) (f : Pair → Pair) : (updPair s p f).rotAge = s.rotAge := rfl
@[simp] theorem updPair_rotRetry (s : State) (p : Fin 48) (f : Pair → Pair) : (updPair s p f).rotRetry = s.rotRetry := rfl
@[simp] theorem updPair_rotAgain (s : State) (p : Fin 48) (f : Pair → Pair) : (updPair s p f).rotAgain = s.rotAgain := rfl
@[simp] theorem updPair_mem (s : State) (p : Fin 48) (f : Pair → Pair) : (updPair s p f).mem = s.mem := rfl
@[simp] theorem updPair_scrambled (s : State) (p : Fin 48) (f : Pair → Pair) : (updPair s p f).scrambled = s.scrambled := rfl
@[simp] theorem updPair_dirty (s : State) (p : Fin 48) (f : Pair → Pair) : (updPair s p f).dirty = s.dirty := rfl
@[simp] theorem updPair_poison (s : State) (p : Fin 48) (f : Pair → Pair) : (updPair s p f).poison = s.poison := rfl
@[simp] theorem updPair_l3 (s : State) (p : Fin 48) (f : Pair → Pair) : (updPair s p f).l3 = s.l3 := rfl
@[simp] theorem updPair_lfsr3 (s : State) (p : Fin 48) (f : Pair → Pair) : (updPair s p f).lfsr3 = s.lfsr3 := rfl
@[simp] theorem updPair_txns (s : State) (p : Fin 48) (f : Pair → Pair) : (updPair s p f).txns = s.txns := rfl
@[simp] theorem updPair_slices (s : State) (p : Fin 48) (f : Pair → Pair) : (updPair s p f).slices = s.slices := rfl
@[simp] theorem updPair_dir (s : State) (p : Fin 48) (f : Pair → Pair) : (updPair s p f).dir = s.dir := rfl
@[simp] theorem updPair_burin (s : State) (p : Fin 48) (f : Pair → Pair) : (updPair s p f).burin = s.burin := rfl
@[simp] theorem updPair_links (s : State) (p : Fin 48) (f : Pair → Pair) : (updPair s p f).links = s.links := rfl
@[simp] theorem updPair_fenced (s : State) (p : Fin 48) (f : Pair → Pair) : (updPair s p f).fenced = s.fenced := rfl
@[simp] theorem updPair_funcs (s : State) (p : Fin 48) (f : Pair → Pair) : (updPair s p f).funcs = s.funcs := rfl
@[simp] theorem updPair_msixQ (s : State) (p : Fin 48) (f : Pair → Pair) : (updPair s p f).msixQ = s.msixQ := rfl
@[simp] theorem updPair_ioCache (s : State) (p : Fin 48) (f : Pair → Pair) : (updPair s p f).ioCache = s.ioCache := rfl
@[simp] theorem updPair_portHeld (s : State) (p : Fin 48) (f : Pair → Pair) : (updPair s p f).portHeld = s.portHeld := rfl
@[simp] theorem updPair_parts (s : State) (p : Fin 48) (f : Pair → Pair) : (updPair s p f).parts = s.parts := rfl
@[simp] theorem updPair_released (s : State) (p : Fin 48) (f : Pair → Pair) : (updPair s p f).released = s.released := rfl
@[simp] theorem updPair_presLast (s : State) (p : Fin 48) (f : Pair → Pair) : (updPair s p f).presLast = s.presLast := rfl
@[simp] theorem updPair_offers (s : State) (p : Fin 48) (f : Pair → Pair) : (updPair s p f).offers = s.offers := rfl
@[simp] theorem updPair_onceTick (s : State) (p : Fin 48) (f : Pair → Pair) : (updPair s p f).onceTick = s.onceTick := rfl
@[simp] theorem updPair_mode (s : State) (p : Fin 48) (f : Pair → Pair) : (updPair s p f).mode = s.mode := rfl
@[simp] theorem updPair_chan (s : State) (p : Fin 48) (f : Pair → Pair) : (updPair s p f).chan = s.chan := rfl
@[simp] theorem updPair_eng (s : State) (p : Fin 48) (f : Pair → Pair) : (updPair s p f).eng = s.eng := rfl
@[simp] theorem updPair_mcs (s : State) (p : Fin 48) (f : Pair → Pair) : (updPair s p f).mcs = s.mcs := rfl
@[simp] theorem updPair_cs (s : State) (p : Fin 48) (f : Pair → Pair) : (updPair s p f).cs = s.cs := rfl
@[simp] theorem updPair_feed (s : State) (p : Fin 48) (f : Pair → Pair) : (updPair s p f).feed = s.feed := rfl
@[simp] theorem updPair_tap (s : State) (p : Fin 48) (f : Pair → Pair) : (updPair s p f).tap = s.tap := rfl

@[simp] theorem setCell_pending (s : State) (k : Nat) (v : Word) : (setCell s k v).pending = s.pending := rfl
@[simp] theorem setCell_freeCtr (s : State) (k : Nat) (v : Word) : (setCell s k v).freeCtr = s.freeCtr := rfl
@[simp] theorem setCell_out (s : State) (k : Nat) (v : Word) : (setCell s k v).out = s.out := rfl
@[simp] theorem setCell_fuses (s : State) (k : Nat) (v : Word) : (setCell s k v).fuses = s.fuses := rfl
@[simp] theorem setCell_time (s : State) (k : Nat) (v : Word) : (setCell s k v).time = s.time := rfl
@[simp] theorem setCell_bud (s : State) (k : Nat) (v : Word) : (setCell s k v).bud = s.bud := rfl
@[simp] theorem setCell_alm (s : State) (k : Nat) (v : Word) : (setCell s k v).alm = s.alm := rfl
@[simp] theorem setCell_lanes (s : State) (k : Nat) (v : Word) : (setCell s k v).lanes = s.lanes := rfl
@[simp] theorem setCell_drafts (s : State) (k : Nat) (v : Word) : (setCell s k v).drafts = s.drafts := rfl
@[simp] theorem setCell_cmds (s : State) (k : Nat) (v : Word) : (setCell s k v).cmds = s.cmds := rfl
@[simp] theorem setCell_pen (s : State) (k : Nat) (v : Word) : (setCell s k v).pen = s.pen := rfl
@[simp] theorem setCell_proof (s : State) (k : Nat) (v : Word) : (setCell s k v).proof = s.proof := rfl
@[simp] theorem setCell_strike (s : State) (k : Nat) (v : Word) : (setCell s k v).strike = s.strike := rfl
@[simp] theorem setCell_sideA (s : State) (k : Nat) (v : Word) : (setCell s k v).sideA = s.sideA := rfl
@[simp] theorem setCell_sideB (s : State) (k : Nat) (v : Word) : (setCell s k v).sideB = s.sideB := rfl
@[simp] theorem setCell_err (s : State) (k : Nat) (v : Word) : (setCell s k v).err = s.err := rfl
@[simp] theorem setCell_lps (s : State) (k : Nat) (v : Word) : (setCell s k v).lps = s.lps := rfl
@[simp] theorem setCell_pairs (s : State) (k : Nat) (v : Word) : (setCell s k v).pairs = s.pairs := rfl
@[simp] theorem setCell_sparings (s : State) (k : Nat) (v : Word) : (setCell s k v).sparings = s.sparings := rfl
@[simp] theorem setCell_rotation (s : State) (k : Nat) (v : Word) : (setCell s k v).rotation = s.rotation := rfl
@[simp] theorem setCell_rotAge (s : State) (k : Nat) (v : Word) : (setCell s k v).rotAge = s.rotAge := rfl
@[simp] theorem setCell_rotRetry (s : State) (k : Nat) (v : Word) : (setCell s k v).rotRetry = s.rotRetry := rfl
@[simp] theorem setCell_rotAgain (s : State) (k : Nat) (v : Word) : (setCell s k v).rotAgain = s.rotAgain := rfl
@[simp] theorem setCell_mem (s : State) (k : Nat) (v : Word) : (setCell s k v).mem = s.mem := rfl
@[simp] theorem setCell_scrambled (s : State) (k : Nat) (v : Word) : (setCell s k v).scrambled = s.scrambled := rfl
@[simp] theorem setCell_dirty (s : State) (k : Nat) (v : Word) : (setCell s k v).dirty = s.dirty := rfl
@[simp] theorem setCell_poison (s : State) (k : Nat) (v : Word) : (setCell s k v).poison = s.poison := rfl
@[simp] theorem setCell_l3 (s : State) (k : Nat) (v : Word) : (setCell s k v).l3 = s.l3 := rfl
@[simp] theorem setCell_lfsr3 (s : State) (k : Nat) (v : Word) : (setCell s k v).lfsr3 = s.lfsr3 := rfl
@[simp] theorem setCell_txns (s : State) (k : Nat) (v : Word) : (setCell s k v).txns = s.txns := rfl
@[simp] theorem setCell_slices (s : State) (k : Nat) (v : Word) : (setCell s k v).slices = s.slices := rfl
@[simp] theorem setCell_dir (s : State) (k : Nat) (v : Word) : (setCell s k v).dir = s.dir := rfl
@[simp] theorem setCell_burin (s : State) (k : Nat) (v : Word) : (setCell s k v).burin = s.burin := rfl
@[simp] theorem setCell_links (s : State) (k : Nat) (v : Word) : (setCell s k v).links = s.links := rfl
@[simp] theorem setCell_fenced (s : State) (k : Nat) (v : Word) : (setCell s k v).fenced = s.fenced := rfl
@[simp] theorem setCell_funcs (s : State) (k : Nat) (v : Word) : (setCell s k v).funcs = s.funcs := rfl
@[simp] theorem setCell_msixQ (s : State) (k : Nat) (v : Word) : (setCell s k v).msixQ = s.msixQ := rfl
@[simp] theorem setCell_ioCache (s : State) (k : Nat) (v : Word) : (setCell s k v).ioCache = s.ioCache := rfl
@[simp] theorem setCell_portHeld (s : State) (k : Nat) (v : Word) : (setCell s k v).portHeld = s.portHeld := rfl
@[simp] theorem setCell_parts (s : State) (k : Nat) (v : Word) : (setCell s k v).parts = s.parts := rfl
@[simp] theorem setCell_released (s : State) (k : Nat) (v : Word) : (setCell s k v).released = s.released := rfl
@[simp] theorem setCell_presLast (s : State) (k : Nat) (v : Word) : (setCell s k v).presLast = s.presLast := rfl
@[simp] theorem setCell_offers (s : State) (k : Nat) (v : Word) : (setCell s k v).offers = s.offers := rfl
@[simp] theorem setCell_onceTick (s : State) (k : Nat) (v : Word) : (setCell s k v).onceTick = s.onceTick := rfl
@[simp] theorem setCell_mode (s : State) (k : Nat) (v : Word) : (setCell s k v).mode = s.mode := rfl
@[simp] theorem setCell_chan (s : State) (k : Nat) (v : Word) : (setCell s k v).chan = s.chan := rfl
@[simp] theorem setCell_eng (s : State) (k : Nat) (v : Word) : (setCell s k v).eng = s.eng := rfl
@[simp] theorem setCell_mcs (s : State) (k : Nat) (v : Word) : (setCell s k v).mcs = s.mcs := rfl
@[simp] theorem setCell_cs (s : State) (k : Nat) (v : Word) : (setCell s k v).cs = s.cs := rfl
@[simp] theorem setCell_feed (s : State) (k : Nat) (v : Word) : (setCell s k v).feed = s.feed := rfl
@[simp] theorem setCell_tap (s : State) (k : Nat) (v : Word) : (setCell s k v).tap = s.tap := rfl

@[simp] theorem emit_pending (o : Output) (s : State) : (emit o s).pending = s.pending := rfl
@[simp] theorem emit_freeCtr (o : Output) (s : State) : (emit o s).freeCtr = s.freeCtr := rfl
@[simp] theorem emit_fuses (o : Output) (s : State) : (emit o s).fuses = s.fuses := rfl
@[simp] theorem emit_time (o : Output) (s : State) : (emit o s).time = s.time := rfl
@[simp] theorem emit_bud (o : Output) (s : State) : (emit o s).bud = s.bud := rfl
@[simp] theorem emit_alm (o : Output) (s : State) : (emit o s).alm = s.alm := rfl
@[simp] theorem emit_lanes (o : Output) (s : State) : (emit o s).lanes = s.lanes := rfl
@[simp] theorem emit_regs (o : Output) (s : State) : (emit o s).regs = s.regs := rfl
@[simp] theorem emit_drafts (o : Output) (s : State) : (emit o s).drafts = s.drafts := rfl
@[simp] theorem emit_cmds (o : Output) (s : State) : (emit o s).cmds = s.cmds := rfl
@[simp] theorem emit_pen (o : Output) (s : State) : (emit o s).pen = s.pen := rfl
@[simp] theorem emit_proof (o : Output) (s : State) : (emit o s).proof = s.proof := rfl
@[simp] theorem emit_strike (o : Output) (s : State) : (emit o s).strike = s.strike := rfl
@[simp] theorem emit_sideA (o : Output) (s : State) : (emit o s).sideA = s.sideA := rfl
@[simp] theorem emit_sideB (o : Output) (s : State) : (emit o s).sideB = s.sideB := rfl
@[simp] theorem emit_err (o : Output) (s : State) : (emit o s).err = s.err := rfl
@[simp] theorem emit_lps (o : Output) (s : State) : (emit o s).lps = s.lps := rfl
@[simp] theorem emit_pairs (o : Output) (s : State) : (emit o s).pairs = s.pairs := rfl
@[simp] theorem emit_sparings (o : Output) (s : State) : (emit o s).sparings = s.sparings := rfl
@[simp] theorem emit_rotation (o : Output) (s : State) : (emit o s).rotation = s.rotation := rfl
@[simp] theorem emit_rotAge (o : Output) (s : State) : (emit o s).rotAge = s.rotAge := rfl
@[simp] theorem emit_rotRetry (o : Output) (s : State) : (emit o s).rotRetry = s.rotRetry := rfl
@[simp] theorem emit_rotAgain (o : Output) (s : State) : (emit o s).rotAgain = s.rotAgain := rfl
@[simp] theorem emit_mem (o : Output) (s : State) : (emit o s).mem = s.mem := rfl
@[simp] theorem emit_scrambled (o : Output) (s : State) : (emit o s).scrambled = s.scrambled := rfl
@[simp] theorem emit_dirty (o : Output) (s : State) : (emit o s).dirty = s.dirty := rfl
@[simp] theorem emit_poison (o : Output) (s : State) : (emit o s).poison = s.poison := rfl
@[simp] theorem emit_l3 (o : Output) (s : State) : (emit o s).l3 = s.l3 := rfl
@[simp] theorem emit_lfsr3 (o : Output) (s : State) : (emit o s).lfsr3 = s.lfsr3 := rfl
@[simp] theorem emit_txns (o : Output) (s : State) : (emit o s).txns = s.txns := rfl
@[simp] theorem emit_slices (o : Output) (s : State) : (emit o s).slices = s.slices := rfl
@[simp] theorem emit_dir (o : Output) (s : State) : (emit o s).dir = s.dir := rfl
@[simp] theorem emit_burin (o : Output) (s : State) : (emit o s).burin = s.burin := rfl
@[simp] theorem emit_links (o : Output) (s : State) : (emit o s).links = s.links := rfl
@[simp] theorem emit_fenced (o : Output) (s : State) : (emit o s).fenced = s.fenced := rfl
@[simp] theorem emit_funcs (o : Output) (s : State) : (emit o s).funcs = s.funcs := rfl
@[simp] theorem emit_msixQ (o : Output) (s : State) : (emit o s).msixQ = s.msixQ := rfl
@[simp] theorem emit_ioCache (o : Output) (s : State) : (emit o s).ioCache = s.ioCache := rfl
@[simp] theorem emit_portHeld (o : Output) (s : State) : (emit o s).portHeld = s.portHeld := rfl
@[simp] theorem emit_parts (o : Output) (s : State) : (emit o s).parts = s.parts := rfl
@[simp] theorem emit_released (o : Output) (s : State) : (emit o s).released = s.released := rfl
@[simp] theorem emit_presLast (o : Output) (s : State) : (emit o s).presLast = s.presLast := rfl
@[simp] theorem emit_offers (o : Output) (s : State) : (emit o s).offers = s.offers := rfl
@[simp] theorem emit_onceTick (o : Output) (s : State) : (emit o s).onceTick = s.onceTick := rfl
@[simp] theorem emit_mode (o : Output) (s : State) : (emit o s).mode = s.mode := rfl
@[simp] theorem emit_chan (o : Output) (s : State) : (emit o s).chan = s.chan := rfl
@[simp] theorem emit_eng (o : Output) (s : State) : (emit o s).eng = s.eng := rfl
@[simp] theorem emit_mcs (o : Output) (s : State) : (emit o s).mcs = s.mcs := rfl
@[simp] theorem emit_cs (o : Output) (s : State) : (emit o s).cs = s.cs := rfl
@[simp] theorem emit_feed (o : Output) (s : State) : (emit o s).feed = s.feed := rfl
@[simp] theorem emit_tap (o : Output) (s : State) : (emit o s).tap = s.tap := rfl

@[simp] theorem taken_pending (s : State) (n : Nat) : (taken s n).pending = s.pending := rfl
@[simp] theorem taken_out (s : State) (n : Nat) : (taken s n).out = s.out := rfl
@[simp] theorem taken_fuses (s : State) (n : Nat) : (taken s n).fuses = s.fuses := rfl
@[simp] theorem taken_time (s : State) (n : Nat) : (taken s n).time = s.time := rfl
@[simp] theorem taken_bud (s : State) (n : Nat) : (taken s n).bud = s.bud := rfl
@[simp] theorem taken_alm (s : State) (n : Nat) : (taken s n).alm = s.alm := rfl
@[simp] theorem taken_lanes (s : State) (n : Nat) : (taken s n).lanes = s.lanes := rfl
@[simp] theorem taken_regs (s : State) (n : Nat) : (taken s n).regs = s.regs := rfl
@[simp] theorem taken_drafts (s : State) (n : Nat) : (taken s n).drafts = s.drafts := rfl
@[simp] theorem taken_cmds (s : State) (n : Nat) : (taken s n).cmds = s.cmds := rfl
@[simp] theorem taken_pen (s : State) (n : Nat) : (taken s n).pen = s.pen := rfl
@[simp] theorem taken_proof (s : State) (n : Nat) : (taken s n).proof = s.proof := rfl
@[simp] theorem taken_strike (s : State) (n : Nat) : (taken s n).strike = s.strike := rfl
@[simp] theorem taken_sideA (s : State) (n : Nat) : (taken s n).sideA = s.sideA := rfl
@[simp] theorem taken_sideB (s : State) (n : Nat) : (taken s n).sideB = s.sideB := rfl
@[simp] theorem taken_err (s : State) (n : Nat) : (taken s n).err = s.err := rfl
@[simp] theorem taken_lps (s : State) (n : Nat) : (taken s n).lps = s.lps := rfl
@[simp] theorem taken_pairs (s : State) (n : Nat) : (taken s n).pairs = s.pairs := rfl
@[simp] theorem taken_sparings (s : State) (n : Nat) : (taken s n).sparings = s.sparings := rfl
@[simp] theorem taken_rotation (s : State) (n : Nat) : (taken s n).rotation = s.rotation := rfl
@[simp] theorem taken_rotAge (s : State) (n : Nat) : (taken s n).rotAge = s.rotAge := rfl
@[simp] theorem taken_rotRetry (s : State) (n : Nat) : (taken s n).rotRetry = s.rotRetry := rfl
@[simp] theorem taken_rotAgain (s : State) (n : Nat) : (taken s n).rotAgain = s.rotAgain := rfl
@[simp] theorem taken_mem (s : State) (n : Nat) : (taken s n).mem = s.mem := rfl
@[simp] theorem taken_scrambled (s : State) (n : Nat) : (taken s n).scrambled = s.scrambled := rfl
@[simp] theorem taken_dirty (s : State) (n : Nat) : (taken s n).dirty = s.dirty := rfl
@[simp] theorem taken_poison (s : State) (n : Nat) : (taken s n).poison = s.poison := rfl
@[simp] theorem taken_l3 (s : State) (n : Nat) : (taken s n).l3 = s.l3 := rfl
@[simp] theorem taken_lfsr3 (s : State) (n : Nat) : (taken s n).lfsr3 = s.lfsr3 := rfl
@[simp] theorem taken_txns (s : State) (n : Nat) : (taken s n).txns = s.txns := rfl
@[simp] theorem taken_slices (s : State) (n : Nat) : (taken s n).slices = s.slices := rfl
@[simp] theorem taken_dir (s : State) (n : Nat) : (taken s n).dir = s.dir := rfl
@[simp] theorem taken_burin (s : State) (n : Nat) : (taken s n).burin = s.burin := rfl
@[simp] theorem taken_links (s : State) (n : Nat) : (taken s n).links = s.links := rfl
@[simp] theorem taken_fenced (s : State) (n : Nat) : (taken s n).fenced = s.fenced := rfl
@[simp] theorem taken_funcs (s : State) (n : Nat) : (taken s n).funcs = s.funcs := rfl
@[simp] theorem taken_msixQ (s : State) (n : Nat) : (taken s n).msixQ = s.msixQ := rfl
@[simp] theorem taken_ioCache (s : State) (n : Nat) : (taken s n).ioCache = s.ioCache := rfl
@[simp] theorem taken_portHeld (s : State) (n : Nat) : (taken s n).portHeld = s.portHeld := rfl
@[simp] theorem taken_parts (s : State) (n : Nat) : (taken s n).parts = s.parts := rfl
@[simp] theorem taken_released (s : State) (n : Nat) : (taken s n).released = s.released := rfl
@[simp] theorem taken_presLast (s : State) (n : Nat) : (taken s n).presLast = s.presLast := rfl
@[simp] theorem taken_offers (s : State) (n : Nat) : (taken s n).offers = s.offers := rfl
@[simp] theorem taken_onceTick (s : State) (n : Nat) : (taken s n).onceTick = s.onceTick := rfl
@[simp] theorem taken_mode (s : State) (n : Nat) : (taken s n).mode = s.mode := rfl
@[simp] theorem taken_chan (s : State) (n : Nat) : (taken s n).chan = s.chan := rfl
@[simp] theorem taken_eng (s : State) (n : Nat) : (taken s n).eng = s.eng := rfl
@[simp] theorem taken_mcs (s : State) (n : Nat) : (taken s n).mcs = s.mcs := rfl
@[simp] theorem taken_cs (s : State) (n : Nat) : (taken s n).cs = s.cs := rfl
@[simp] theorem taken_feed (s : State) (n : Nat) : (taken s n).feed = s.feed := rfl
@[simp] theorem taken_tap (s : State) (n : Nat) : (taken s n).tap = s.tap := rfl


/-! ### Registers -/

/-- G0 reads as zero (R78). -/
@[simp] theorem getG_zero (a : Arch) : a.getG 0 = 0 := rfl

/-- A write of G0 is discarded (R78). -/
@[simp] theorem setG_zero (a : Arch) (v : Word) : a.setG 0 v = a := rfl

theorem getG_setG (a : Arch) (i j : Fin 32) (v : Word) :
    (a.setG i v).getG j = if j = i ∧ i ≠ 0 then v else a.getG j := by
  by_cases hi : i = 0
  · simp [Arch.setG, hi]
  · by_cases hj : j = i
    · subst hj; simp [Arch.setG, Arch.getG, hi]
    · have : (i : Nat) ≠ j := fun e => hj (Fin.ext e.symm)
      simp [Arch.setG, Arch.getG, hi, hj, this]

@[simp] theorem setG_pswa (a : Arch) (i : Fin 32) (v : Word) : (a.setG i v).pswa = a.pswa := by
  unfold Arch.setG; split <;> rfl
@[simp] theorem setG_psws (a : Arch) (i : Fin 32) (v : Word) : (a.setG i v).psws = a.psws := by
  unfold Arch.setG; split <;> rfl
@[simp] theorem setG_fpc (a : Arch) (i : Fin 32) (v : Word) : (a.setG i v).fpc = a.fpc := by
  unfold Arch.setG; split <;> rfl
@[simp] theorem setG_f (a : Arch) (i : Fin 32) (v : Word) : (a.setG i v).f = a.f := by
  unfold Arch.setG; split <;> rfl
@[simp] theorem setG_c (a : Arch) (i : Fin 32) (v : Word) : (a.setG i v).c = a.c := by
  unfold Arch.setG; split <;> rfl
@[simp] theorem setF_g (a : Arch) (i : Fin 32) (v : Quad) : (a.setF i v).g = a.g := rfl
@[simp] theorem setF_c (a : Arch) (i : Fin 32) (v : Quad) : (a.setF i v).c = a.c := rfl
@[simp] theorem setF_pswa (a : Arch) (i : Fin 32) (v : Quad) : (a.setF i v).pswa = a.pswa := rfl
@[simp] theorem setF_psws (a : Arch) (i : Fin 32) (v : Quad) : (a.setF i v).psws = a.psws := rfl

end Sys2Proof.Machine
end

