-- ==== Sys2Proof/Laws/Run.lean ====
section
/-! SUPPORT. How the pieces of an instruction run, one after the other: what each answers from a state, and what an
instruction leaves that begins and whose body ends. -/

namespace Sys2Proof.Machine

/-! ### The monad of bodies -/

@[simp] theorem run_pure (x : α) (s : State) : (pure x : Run α) s = .ok x s := rfl

@[simp] theorem run_throw (e : Stop) (s : State) : (throw e : Run α) s = .error e s := rfl

theorem run_bind (m : Run α) (f : α → Run β) (s : State) :
    (m >>= f) s = match m s with | .ok x t => f x t | .error e t => .error e t := by
  show EStateM.bind m f s = _
  unfold EStateM.bind
  cases m s <;> rfl

theorem run_bind_ok {m : Run α} {f : α → Run β} {s t : State} {x : α} (h : m s = .ok x t) : (m >>= f) s = f x t := by
  rw [run_bind, h]

theorem run_bind_error {m : Run α} {f : α → Run β} {s t : State} {e : Stop} (h : m s = .error e t) :
    (m >>= f) s = .error e t := by
  rw [run_bind, h]

@[simp] theorem run_get (s : State) : (get : Run State) s = .ok s s := rfl

@[simp] theorem run_set (t s : State) : (set t : Run PUnit) s = .ok ⟨⟩ t := rfl

@[simp] theorem run_modify (f : State → State) (s : State) : (modify f : Run PUnit) s = .ok ⟨⟩ (f s) := rfl

/-! ### Registers -/

@[simp] theorem run_getArch (lp : Fin 48) (s : State) : getArch lp s = .ok (lpAt s lp).arch s := rfl

@[simp] theorem run_readG (lp : Fin 48) (i : Fin 32) (s : State) : readG lp i s = .ok ((lpAt s lp).arch.getG i) s := rfl

@[simp] theorem run_modArch (lp : Fin 48) (f : Arch → Arch) (s : State) :
    modArch lp f s = .ok ⟨⟩ (updLp s lp fun x => { x with arch := f x.arch }) := rfl

@[simp] theorem run_writeG (lp : Fin 48) (i : Fin 32) (v : Word) (s : State) :
    writeG lp i v s = .ok ⟨⟩ (updLp s lp fun x => { x with arch := x.arch.setG i v }) := rfl

@[simp] theorem run_advance (lp : Fin 48) (n : Nat) (s : State) :
    advance lp n s = .ok ⟨⟩ (updLp s lp fun x =>
      { x with arch := { x.arch with pswa := x.arch.pswa + BitVec.ofNat 64 n } }) := rfl

/-! ### Checks -/

@[simp] theorem run_specIf (b : Bool) (r : Nat) (s : State) :
    specIf b r s = if b then .error (.exc { code := 3, reason := r, addr := 0 }) s else .ok () s := by
  cases b <;> rfl

@[simp] theorem run_specAt (va : Word) (b : Bool) (r : Nat) (s : State) :
    specAt va b r s = if b then .error (.exc { code := 3, reason := r, addr := va }) s else .ok () s := by
  cases b <;> rfl

@[simp] theorem run_unused (l : List (Fin 32)) (s : State) :
    unused l s = if l.any fun i => decide (i ≠ 0) then .error (.exc { code := 3, reason := 0, addr := 0 }) s
      else .ok () s := by
  simp [unused]

@[simp] theorem run_needPriv (lp : Fin 48) (p : Nat) (s : State) :
    needPriv lp p s = if privOf (lpAt s lp).arch.psws < p then .error (.exc { code := 2, reason := 0, addr := 0 }) s
      else .ok ⟨⟩ s := by
  unfold needPriv
  rw [run_bind_ok (run_getArch lp s)]
  split <;> rfl

/-! ### A whole instruction -/

/-- A processor's instruction address moved past an instruction. -/
theorem whole_fetched {lp : Fin 48} {f : Form} {body : Run Unit} {t u : State} (h : fetchInstr lp f.len t = .ok () u) :
    whole lp f body t = body (updLp u lp fun x =>
      { x with arch := { x.arch with pswa := x.arch.pswa + BitVec.ofNat 64 f.len } }) := by
  rw [whole, run_bind_ok h, run_bind_ok (run_advance ..)]

/-- An instruction that begins, is fetched, and whose body ends: the next state is what `finish` makes of what the
body leaves. -/
theorem runInstr_ok {lp : Fin 48} {f : Form} {body : Run Unit} {s t u v : State} (hr : lpReady s lp = true)
    (hp : prepare s lp f.before = some t) (hf : fetchInstr lp f.len t = .ok () u)
    (hb : body (updLp u lp fun x =>
      { x with arch := { x.arch with pswa := x.arch.pswa + BitVec.ofNat 64 f.len } }) = .ok () v) :
    runInstr lp f body s = .next (finish v lp f) := by
  simp [runInstr, hr, hp, whole_fetched hf, hb, settle]

/-- An instruction whose body raises a nullifying exception enters it, where the interval can close. -/
theorem runInstr_exc {lp : Fin 48} {f : Form} {body : Run Unit} {s t u v : State} {e : Exc} (hr : lpReady s lp = true)
    (hp : prepare s lp f.before = some t) (hf : fetchInstr lp f.len t = .ok () u)
    (hb : body (updLp u lp fun x =>
      { x with arch := { x.arch with pswa := x.arch.pswa + BitVec.ofNat 64 f.len } }) = .error (.exc e) v)
    (hc : closeRoom (lpAt t lp) = true) :
    runInstr lp f body s = .next (endStep (enterExc (nullified f t v lp) lp f.ilc e) lp) := by
  simp [runInstr, hr, hp, whole_fetched hf, hb, settle, hc]

/-- An instruction whose body ends in a completing exception enters it with the state the body leaves. -/
theorem runInstr_done {lp : Fin 48} {f : Form} {body : Run Unit} {s t u v : State} {e : Exc} (hr : lpReady s lp = true)
    (hp : prepare s lp f.before = some t) (hf : fetchInstr lp f.len t = .ok () u)
    (hb : body (updLp u lp fun x =>
      { x with arch := { x.arch with pswa := x.arch.pswa + BitVec.ofNat 64 f.len } }) = .error (.done e) v)
    (hc : closeRoom (lpAt v lp) = true) :
    runInstr lp f body s = .next (endStep (enterExc v lp f.ilc e) lp) := by
  simp [runInstr, hr, hp, whole_fetched hf, hb, settle, hc]

/-- A processor that cannot run an instruction does nothing. -/
theorem runInstr_not_ready {lp : Fin 48} {f : Form} {body : Run Unit} {s : State} (hr : lpReady s lp = false) :
    runInstr lp f body s = .next s := by
  simp [runInstr, hr]

/-- Every instruction command answers a next state. -/
theorem runInstr_next (lp : Fin 48) (f : Form) (body : Run Unit) (s : State) : ∃ t, runInstr lp f body s = .next t := by
  unfold runInstr
  split
  · exact ⟨_, rfl⟩
  · split
    · exact ⟨_, rfl⟩
    · split
      · split <;> exact ⟨_, rfl⟩
      · exact ⟨_, rfl⟩

end Sys2Proof.Machine
end

