-- ==== Sys2Proof/Laws/Instr.lean ====
section
/-! SUPPORT. What an instruction that begins answers, and what the shapes of bodies over registers do. -/

namespace Sys2Proof.Machine

/-! ### Registers besides the one written -/

@[simp] theorem getG_pswa (a : Arch) (p : Word) (i : Fin 32) : ({ a with pswa := p } : Arch).getG i = a.getG i := rfl
@[simp] theorem getF_pswa (a : Arch) (p : Word) (i : Fin 32) : ({ a with pswa := p } : Arch).getF i = a.getF i := rfl
@[simp] theorem getG_fpc (a : Arch) (p : BitVec 32) (i : Fin 32) : ({ a with fpc := p } : Arch).getG i = a.getG i := rfl

theorem setG_pswa_comm (a : Arch) (i : Fin 32) (v p : Word) :
    ({ a with pswa := p } : Arch).setG i v = { a.setG i v with pswa := p } := by
  unfold Arch.setG; split <;> rfl

/-! ### Answers -/

theorem begins_ok {lp : Fin 48} {f : Form} {body : Run Unit} {s u v : State} (h : Begins s lp f u)
    (hb : body (advanced u lp f.len) = .ok () v) : runInstr lp f body s = .next (finish v lp f) := by
  obtain ⟨hr, t, hp, hf⟩ := h
  exact runInstr_ok hr hp hf hb

theorem begins_regs {lp : Fin 48} {f : Form} {body : Run Unit} {s u : State} {g : Arch → Arch} (h : Begins s lp f u)
    (hb : body (advanced u lp f.len) = .ok () (withRegs (advanced u lp f.len) lp g)) :
    runInstr lp f body s = regsAnswer u lp f g := begins_ok h hb

@[simp] theorem arch_advanced (u : State) (lp : Fin 48) (n : Nat) :
    (lpAt (advanced u lp n) lp).arch = { (lpAt u lp).arch with pswa := (lpAt u lp).arch.pswa + BitVec.ofNat 64 n } := by
  simp [advanced]

@[simp] theorem gOf_advanced (u : State) (lp : Fin 48) (n : Nat) (i : Fin 32) :
    gOf (advanced u lp n) lp i = gOf u lp i := by simp [gOf]

@[simp] theorem mode_advanced (u : State) (lp : Fin 48) (n : Nat) : (advanced u lp n).mode = u.mode := rfl

@[simp] theorem time_advanced (u : State) (lp : Fin 48) (n : Nat) : (advanced u lp n).time = u.time := rfl

@[simp] theorem run_modArch_regs (lp : Fin 48) (g : Arch → Arch) (s : State) :
    modArch lp g s = .ok ⟨⟩ (withRegs s lp g) := rfl

theorem withRegs_withRegs (s : State) (lp : Fin 48) (f g : Arch → Arch) :
    withRegs (withRegs s lp f) lp g = withRegs s lp fun r => g (f r) := by
  simp [withRegs]

@[simp] theorem arch_withRegs (s : State) (lp : Fin 48) (g : Arch → Arch) :
    (lpAt (withRegs s lp g) lp).arch = g (lpAt s lp).arch := by simp [withRegs]

/-- A test between two computations runs the one it picks. -/
theorem run_ite (c : Prop) [Decidable c] (m n : Run α) (s : State) : (if c then m else n) s = if c then m s else n s := by
  split <;> rfl

/-! ### Shapes -/

theorem binary_run (f : Word → Word → Word) (lp : Fin 48) (d a b : Fin 32) (s : State) :
    binary f lp d a b 0 s = .ok () (withRegs s lp fun r => r.setG d (f (gOf s lp a) (gOf s lp b))) := by
  simp [binary, run_bind, withRegs, gOf]

theorem unary_run (f : Word → Word) (lp : Fin 48) (d a : Fin 32) (s : State) :
    unary f lp d a 0 0 s = .ok () (withRegs s lp fun r => r.setG d (f (gOf s lp a))) := by
  simp [unary, run_bind, withRegs, gOf]

theorem immediate_run (f : Word → BitVec 16 → Word) (lp : Fin 48) (d a : Fin 32) (i : BitVec 16) (s : State) :
    immediate f lp d a i s = .ok () (withRegs s lp fun r => r.setG d (f (gOf s lp a) i)) := by
  simp [immediate, run_bind, withRegs, gOf]

/-- A form of two results writes D, then C. -/
theorem twoResults_run (f : Word → Word → Word → Word × Word) (lp : Fin 48) (d a b c : Fin 32) (s : State)
    (h : d ≠ c ∨ d = 0) :
    twoResults f lp d a b c s = .ok () (withRegs s lp fun r =>
      (r.setG d (f (gOf s lp a) (gOf s lp b) (gOf s lp c)).1).setG c (f (gOf s lp a) (gOf s lp b) (gOf s lp c)).2) := by
  have : (d = c && decide (d ≠ 0)) = false := by rcases h with h | h <;> simp [h]
  simp only [twoResults, run_bind, run_specIf, this, Bool.false_eq_true, if_false, run_readG, run_writeG, withRegs,
    gOf, updLp_updLp]

/-- A wide product goes to an even register and the next. -/
theorem wideProduct_run (f : Word → Word → Quad) (lp : Fin 48) (d a b : Fin 32) (s : State) (h : d.val % 2 = 0) :
    wideProduct f lp d a b 0 s = .ok () (withRegs s lp fun r =>
      (r.setG d ((f (gOf s lp a) (gOf s lp b) >>> 64).setWidth 64)).setG (nextReg d)
        ((f (gOf s lp a) (gOf s lp b)).setWidth 64)) := by
  have : decide (d.val % 2 = 1) = false := by simp [h]
  have z : ([0].any fun i : Fin 32 => decide (i ≠ 0)) = false := rfl
  simp only [wideProduct, run_bind, run_unused, z, run_specIf, this, Bool.false_eq_true, if_false, run_readG,
    run_writeG, withRegs, gOf, updLp_updLp]

end Sys2Proof.Machine
end

