-- ==== Sys2Proof/Laws/Memory.lean ====
section
/-! SUPPORT. Sparse tables and memory: a read after a write, the other places, and the canonical form. -/

namespace Sys2Proof.Machine

/-! ### Tables -/

theorem look_del (m : Tab α) (k j : Nat) : Tab.look (Tab.del m k) j = if j = k then none else Tab.look m j := by
  induction m with
  | nil => simp [Tab.del, Tab.look]
  | cons e m ih =>
    obtain ⟨i, v⟩ := e
    by_cases h : i = k
    · subst h
      have : Tab.del ((i, v) :: m) i = Tab.del m i := by simp [Tab.del]
      rw [this, ih]
      by_cases hj : j = i
      · simp [hj]
      · simp [hj, Tab.look, Ne.symm hj]
    · have : Tab.del ((i, v) :: m) k = (i, v) :: Tab.del m k := by simp [Tab.del, h]
      rw [this, Tab.look, ih, Tab.look]
      by_cases hj : j = k
      · subst hj; simp [h]
      · simp [hj]

theorem look_ins (m : Tab α) (k j : Nat) (v : α) (h : Tab.look m k = none) :
    Tab.look (Tab.ins m k v) j = if j = k then some v else Tab.look m j := by
  induction m with
  | nil => simp [Tab.ins, Tab.look, eq_comm (a := k)]
  | cons e m ih =>
    obtain ⟨i, w⟩ := e
    have hi : i ≠ k := by rintro rfl; simp [Tab.look] at h
    have hm : Tab.look m k = none := by simpa [Tab.look, hi] using h
    unfold Tab.ins
    split
    · rw [Tab.look]
      by_cases hj : j = k
      · simp [hj]
      · simp [hj, Ne.symm hj]
    · rw [Tab.look, ih hm, Tab.look]
      by_cases hij : i = j
      · subst hij; simp [hi]
      · simp [hij]

theorem look_put (m : Tab α) (k j : Nat) (v : α) :
    Tab.look (Tab.put m k v) j = if j = k then some v else Tab.look m j := by
  unfold Tab.put
  rw [look_ins _ _ _ _ (by simp [look_del]), look_del]
  split <;> rfl

@[simp] theorem look_put_self (m : Tab α) (k : Nat) (v : α) : Tab.look (Tab.put m k v) k = some v := by
  simp [look_put]

/-- A table reads at the key written what was written, and elsewhere as before. -/
theorem read_write [DecidableEq α] (d : Nat → α) (m : Tab α) (k j : Nat) (v : α) :
    Tab.read d (Tab.write d m k v) j = if j = k then v else Tab.read d m j := by
  unfold Tab.read Tab.write
  by_cases hv : v = d k
  · rw [if_pos hv, look_del]
    by_cases hj : j = k
    · subst hj; simp [hv]
    · simp [hj]
  · rw [if_neg hv, look_put]
    split <;> rfl

@[simp] theorem read_write_self [DecidableEq α] (d : Nat → α) (m : Tab α) (k : Nat) (v : α) :
    Tab.read d (Tab.write d m k v) k = v := by simp [read_write]

/-! ### The canonical form -/

theorem rising_iff (m : Tab α) : Tab.rising m = true ↔ m.Pairwise fun a b => a.1 < b.1 := by
  induction m with
  | nil => simp [Tab.rising]
  | cons a m ih =>
    cases m with
    | nil => simp [Tab.rising]
    | cons b m =>
      rw [Tab.rising, Bool.and_eq_true, ih, decide_eq_true_iff]
      constructor
      · intro h
        refine List.pairwise_cons.2 ⟨fun c hc => ?_, h.2⟩
        rcases List.mem_cons.1 hc with rfl | hc
        · exact h.1
        · exact Nat.lt_trans h.1 ((List.pairwise_cons.1 h.2).1 c hc)
      · intro h
        have h' := List.pairwise_cons.1 h
        exact ⟨h'.1 b List.mem_cons_self, h'.2⟩

theorem wf_iff [DecidableEq α] (d : Nat → α) (m : Tab α) :
    Tab.wf d m = true ↔ (m.Pairwise fun a b => a.1 < b.1) ∧ ∀ e ∈ m, e.2 ≠ d e.1 := by
  simp [Tab.wf, rising_iff]

theorem wf_filter [DecidableEq α] {d : Nat → α} {m : Tab α} (p : Nat × α → Bool) (h : Tab.wf d m = true) :
    Tab.wf d (m.filter p) = true := by
  rw [wf_iff] at h ⊢
  exact ⟨h.1.filter p, fun e he => h.2 e ((List.mem_filter.1 he).1)⟩

theorem mem_ins {m : Tab α} {k : Nat} {v : α} {e : Nat × α} (h : e ∈ Tab.ins m k v) : e = (k, v) ∨ e ∈ m := by
  induction m with
  | nil => simpa [Tab.ins] using h
  | cons a m ih =>
    unfold Tab.ins at h
    split at h
    · simpa using h
    · rcases List.mem_cons.1 h with rfl | h
      · simp
      · rcases ih h with rfl | h <;> simp [*]

theorem rising_ins {m : Tab α} {k : Nat} {v : α} (h : m.Pairwise fun a b => a.1 < b.1) (hk : ∀ e ∈ m, e.1 ≠ k) :
    (Tab.ins m k v).Pairwise fun a b => a.1 < b.1 := by
  induction m with
  | nil => simp [Tab.ins]
  | cons a m ih =>
    have ha := List.pairwise_cons.1 h
    unfold Tab.ins
    split
    · rename_i hlt
      refine List.pairwise_cons.2 ⟨?_, h⟩
      intro e he
      rcases List.mem_cons.1 he with rfl | he
      · exact hlt
      · exact Nat.lt_trans hlt (ha.1 e he)
    · rename_i hlt
      refine List.pairwise_cons.2 ⟨?_, ih ha.2 fun e he => hk e (List.mem_cons_of_mem _ he)⟩
      intro e he
      rcases mem_ins he with rfl | he
      · have := hk a List.mem_cons_self
        show a.1 < k
        omega
      · exact ha.1 e he

/-- A write keeps the canonical form. -/
theorem wf_write [DecidableEq α] {d : Nat → α} {m : Tab α} (k : Nat) (v : α) (h : Tab.wf d m = true) :
    Tab.wf d (Tab.write d m k v) = true := by
  unfold Tab.write
  split
  · exact wf_filter _ h
  · rename_i hv
    have h' := (wf_iff d _).1 (wf_filter (fun e => e.1 != k) h)
    refine (wf_iff d _).2 ⟨rising_ins h'.1 ?_, ?_⟩
    · intro e he
      simpa using (List.mem_filter.1 he).2
    · intro e he
      rcases mem_ins he with rfl | he
      · exact hv
      · exact h'.2 e he

/-! ### Memory -/

theorem reset_memory_wf : Memory.wf State.reset.mem := by decide

/-- The form is kept by a byte put in memory. -/
theorem memPut_wf {s : State} (a : Nat) (b : Byte) (h : Memory.wf s.mem) : Memory.wf (memPut s a b).mem := by
  unfold memPut
  split
  · exact h
  · exact wf_write _ _ h

theorem memWrite_wf {s : State} (a : Nat) (bs : List Byte) (h : Memory.wf s.mem) : Memory.wf (memWrite s a bs).mem := by
  induction bs generalizing s a with
  | nil => exact h
  | cons b bs ih => exact ih _ (memPut_wf a b h)

theorem memPuts_wf {s : State} (l : List (Nat × Byte)) (h : Memory.wf s.mem) :
    Memory.wf (l.foldl (fun s e => memPut s e.1 e.2) s).mem := by
  induction l generalizing s with
  | nil => exact h
  | cons e l ih => exact ih (memPut_wf e.1 e.2 h)

theorem writeBack_wf {s : State} (line : Nat) (h : Memory.wf s.mem) : Memory.wf (writeBack s line).mem :=
  memPuts_wf _ h

theorem keepMemory_wf {s : State} (dram : Bool) (h : Memory.wf s.mem) : Memory.wf (keepMemory s dram) :=
  wf_filter _ h

theorem clearDram_wf {s : State} (keep : BitVec 8) (h : Memory.wf s.mem) : Memory.wf (clearDram s keep).mem :=
  wf_filter _ h

theorem dropRange_wf {s : State} (a n : Nat) (h : Memory.wf s.mem) : Memory.wf (dropRange s a n).mem := wf_filter _ h

/-- Memory under new package numbers is built up write by write. -/
theorem rekeyPkg_wf {s : State} (a b : Nat) (h : Memory.wf s.mem) : Memory.wf (rekeyPkg s a b).mem := by
  have key : ∀ (l : Memory) (t : Memory), Memory.wf t →
      Memory.wf (l.foldl (fun (t : Memory) e => Tab.write memDefault t (swapPkg a b e.1) e.2) t) := by
    intro l
    induction l with
    | nil => exact fun t h => h
    | cons e l ih => exact fun t h => ih _ (wf_write _ _ h)
  unfold rekeyPkg
  split
  · exact h
  · exact key s.mem [] (by decide)

/-- A byte put in memory is what is read there, where its channel works; every other byte is as before. -/
theorem memByte_memPut (s : State) (a c : Nat) (b : Byte) (h : failedChannel s (lineOf a) = false) :
    memByte (memPut s a b) c = if c = a then b else memByte s c := by
  have hm : memByte (memPut s a b) c = Tab.read memDefault (Tab.write memDefault s.mem a (b ^^^ memMask s a)) c ^^^ memMask s c := by
    simp [memByte, memPut, h, memMask]
  rw [hm, read_write]
  by_cases hc : c = a
  · subst hc
    rw [if_pos rfl, if_pos rfl, BitVec.xor_assoc, BitVec.xor_self, BitVec.xor_zero]
  · simp [hc, memByte]

theorem memByte_memPut_ne (s : State) {a c : Nat} (b : Byte) (h : c ≠ a) : memByte (memPut s a b) c = memByte s c := by
  by_cases hf : failedChannel s (lineOf a) = false
  · rw [memByte_memPut s a c b hf, if_neg h]
  · have : failedChannel s (lineOf a) = true := by simpa using hf
    simp [memPut, this]

/-- Bytes outside those written are as before. -/
theorem memByte_memWrite_out (s : State) (a c : Nat) (bs : List Byte) (h : c < a ∨ a + bs.length ≤ c) :
    memByte (memWrite s a bs) c = memByte s c := by
  induction bs generalizing s a with
  | nil => rfl
  | cons b bs ih =>
    have hl : (b :: bs).length = bs.length + 1 := rfl
    rw [memWrite, ih _ _ (by omega), memByte_memPut_ne _ _ (by omega)]

/-- Nothing but memory changes. -/
theorem memPut_fuses (s : State) (a : Nat) (b : Byte) : (memPut s a b).fuses = s.fuses := by
  unfold memPut; split <;> rfl

end Sys2Proof.Machine
end

