-- ==== Sys2Proof/Tests/States.lean ====
section
/-! SUPPORT. Small states that the tests start from, and how a test shows that an instruction begins and that its
pieces run. -/

namespace Sys2Proof.Tests

-- One test at a time: the kernel evaluates each, and none waits in a thread of its own.
set_option Elab.async false

open Sys2Proof.Machine

/-! ### States -/

/-- The SPD of a channel with two modules of four ranks. -/
def spd16 (c : Fin 16) : Spd :=
  { channel := c, readable := true, dimms := 2, ranksPerDimm := 4, dense32 := true, gibPerDimm := 256, rated := 8000 }

/-- The package after reset, brought to mode Operating with its memory channels running, and with the address hash
salt of zero that may have been drawn. -/
def upState : State :=
  { State.reset with
    mode := { State.reset.mode with mode := .operating },
    regs := [(regKey mapPage 0x048, 0)],
    mcs := Vector.ofFn fun (c : Fin 16) => { Mc.reset with st := .running, spd := some (spd16 c) } }

/-- Logical processor 0 runs on pair 0 in Manager state at 200000h with translation off. -/
def op : State :=
  let s := updPair upState 0 fun p => { p with lp := some 0, powered := true }
  updLp s 0 fun x => { x with run := .running, arch :=
    { x.arch with psws := 0x8000000000000000, pswa := 0x200000, c := x.arch.c.set 16 0x80 } }

/-- General registers of processor 0. -/
def withG (s : State) (l : List (Fin 32 × Word)) : State :=
  updLp s 0 fun x => { x with arch := { x.arch with g := l.foldl (fun g e => g.set e.1 e.2) x.arch.g } }

/-- Floating registers of processor 0. -/
def withF (s : State) (l : List (Fin 32 × Quad)) : State :=
  updLp s 0 fun x => { x with arch := { x.arch with f := l.foldl (fun g e => g.set e.1 e.2) x.arch.f } }

/-- A doubleword in memory. -/
def w8 (s : State) (a v : Nat) : State := memWrite s a (beBytes 8 v)

/-- Translation on: one page of 2 MiB at 200000h, at its own address, open to everyone. -/
def te : State :=
  let s := w8 (w8 (w8 (w8 op 0x100000 0x101039) 0x101000 0x102039) 0x102000 0x103039) 0x103008 0x2000FB
  updLp s 0 fun x => { x with arch := { x.arch with psws := 0x9000000000000000, c := x.arch.c.set 0 0x100000 } }

/-- Subchannel 5 of path 3 is bound and enabled, in the manager context. -/
def io : State :=
  let s := setCell (setCell (setCell (setCell op (regKey (cssPage 0) 0x110 5) 0x8000000000000000)
    (regKey (cssPage 0) 0x118 5) 0x80) (regKey (cssPage 0) 0x108 5) 0x0300000000000000) (regKey (cssPage 0) 0x11C 5) 0x80000000
  updPath (updSch s 5 fun x => { x with enabled := true, lpm := 0x80, lastSlot := some 0 }) 3 fun x => { x with st := .up }

/-- The status of an operation that is over. -/
def osw0 : Osw :=
  { parm := 7, final := true, progressLost := false, haltLate := false, fsc := 1, detail := 0, devstat := 3, residual := 4,
    cwaddr := 0x500, serial := 9, path := some 3, paths := 1 }

/-- Port A holds the Pen. -/
def penA : State := { op with pen := { op.pen with holder := some .portA, lease := 10 } }

/-- The numbers 1, 2, … as bytes. -/
def bytesUp (n : Nat) : List Byte := (List.range n).map fun i => BitVec.ofNat 8 (i + 1)

/-! ### Pieces of an instruction -/

/-- What an instruction begins with, where it begins. -/
def begunO (s : State) (lp : Fin 48) (f : Form) : Option State :=
  if lpReady s lp then
    match prepare s lp f.before with
    | some t => match fetchInstr lp f.len t with | .ok _ u => some u | .error _ _ => none
    | none => none
  else none

/-- The state an instruction begins with. -/
def begun (s : State) (lp : Fin 48) (f : Form) : State := (begunO s lp f).getD s

theorem begins_of {s : State} {lp : Fin 48} {f : Form} (h : (begunO s lp f).isSome = true) :
    Begins s lp f (begun s lp f) := by
  unfold begun
  unfold begunO at h ⊢
  split at h
  · rename_i hr
    refine ⟨hr, ?_⟩
    rw [if_pos hr]
    cases hp : prepare s lp f.before with
    | none => simp [hp] at h
    | some t =>
      refine ⟨t, rfl, ?_⟩
      simp only [hp] at h ⊢
      cases hf : fetchInstr lp f.len t with
      | ok a u => rfl
      | error e u => simp [hf] at h
  · simp at h

/-- The state a piece leaves. -/
def left {α : Type} (r : EStateM.Result Stop State α) : State :=
  match r with
  | .ok _ t => t
  | .error _ t => t

/-- A piece ends, with a value. -/
def endsWith {α : Type} [DecidableEq α] (r : EStateM.Result Stop State α) (x : α) : Bool :=
  match r with
  | .ok y _ => decide (y = x)
  | .error _ _ => false

theorem ok_of {α : Type} [DecidableEq α] {r : EStateM.Result Stop State α} {x : α} (h : endsWith r x = true) :
    r = .ok x (left r) := by
  cases r with
  | ok y t => simp [endsWith] at h; simp [left, h]
  | error e t => simp [endsWith] at h

/-- The state an instruction's words are fetched in. -/
def prep (s : State) (lp : Fin 48) (before : Bool) : State := (prepare s lp before).getD s

theorem prep_of {s : State} {lp : Fin 48} {b : Bool} (h : (prepare s lp b).isSome = true) :
    prepare s lp b = some (prep s lp b) := by
  unfold prep
  cases hp : prepare s lp b with
  | none => simp [hp] at h
  | some t => rfl

/-- The state an instruction's words are fetched into. -/
def fetched (s : State) (lp : Fin 48) (before : Bool) (n : Nat) : State := left (fetchInstr lp n (prep s lp before))

/-- A check ends, with a value. -/
def answers {ε α : Type} [DecidableEq α] (r : Except ε α) (x : α) : Bool :=
  match r with
  | .ok y => decide (y = x)
  | .error _ => false

theorem except_of {ε α : Type} [DecidableEq α] {r : Except ε α} {x : α} (h : answers r x = true) : r = .ok x := by
  cases r with
  | ok y => simp [answers] at h; rw [h]
  | error e => simp [answers] at h

/-- Something is there. -/
theorem some_of {α : Type} {o : Option α} (h : o.isSome = true) : ∃ x, o = some x := Option.isSome_iff_exists.mp h

/-- A piece that reads bytes and leaves the state as it is. -/
theorem reads_of {v : State} {lp : Fin 48} {va : Word} {l : List Piece} {bs : List Byte}
    (h : endsWith (readPieces lp va l v) bs = true) : Reads v lp va l bs := by
  have hl : left (readPieces lp va l v) = v := by
    revert h
    unfold readPieces
    rw [run_bind_ok (run_get v)]
    dsimp only
    split
    · cases l.find? fun p => !visible v (lineOf p.pa) && lostHome v (lineOf p.pa) <;>
        exact fun h => Bool.noConfusion (show false = true from h)
    · exact fun _ => rfl
  rw [Reads, ok_of h, hl]

/-- A load reaches its bytes. -/
theorem loads_of {u : State} {lp : Fin 48} {va : Word} {n : Nat} {b : Bool} {bs : List Byte} (l : List Piece)
    (h : endsWith (operand lp .load va n b (advanced u lp 4)) l = true) (hl : allNormal l = true)
    (hr : endsWith (readPieces lp va l (left (operand lp .load va n b (advanced u lp 4)))) bs = true)
    (hn : bs.length = n) : Loads u lp va n b bs (left (operand lp .load va n b (advanced u lp 4))) :=
  ⟨l, ⟨ok_of h, hl⟩, reads_of hr, hn⟩

/-- A store reaches its bytes and enters the gate. -/
theorem saves_of {u : State} {lp : Fin 48} {va : Word} {n : Nat} {b : Bool} {value : Nat} (l : List Piece)
    (h : endsWith (operand lp .store va n b (advanced u lp 4)) l = true) (hl : allNormal l = true)
    (hs : endsWith (storePieces lp l (beBytes n value) (left (operand lp .store va n b (advanced u lp 4)))) ⟨⟩ = true) :
    ∃ w, Saves u lp va n b value w :=
  ⟨_, l, _, ⟨ok_of h, hl⟩, ok_of hs⟩

/-- Two operands in storage pass their pre-test and are read. -/
theorem both_of {u : State} {lp : Fin 48} {x y : XOp} {p q : List Piece} {bs cs : List Byte}
    (h : endsWith (pretest2 lp x y (advanced u lp 8)) (p, q) = true)
    (hb : endsWith (readPieces lp x.va p (left (pretest2 lp x y (advanced u lp 8)))) bs = true)
    (hc : endsWith (readPieces lp y.va q (left (pretest2 lp x y (advanced u lp 8)))) cs = true) :
    Both u lp x y p q bs cs (left (pretest2 lp x y (advanced u lp 8))) :=
  ⟨ok_of h, reads_of hb, reads_of hc⟩

end Sys2Proof.Tests
end

