-- ==== Sys2Proof/WellFormed.lean ====
section
/-! DEFINITION. Well-formed commands: operands a sender can produce. Commands that are not well-formed have
a meaning too, but no sender forms them. -/

namespace Sys2Proof

/-- The logical processor a command of the instruction set is executed by. -/
def Instr.lp? : Instr → Option (Fin 48)
  | .add lp _ _ _ _ => some lp
  | .sub lp _ _ _ _ => some lp
  | .addc lp _ _ _ _ => some lp
  | .subc lp _ _ _ _ => some lp
  | .and lp _ _ _ _ => some lp
  | .or lp _ _ _ _ => some lp
  | .xor lp _ _ _ _ => some lp
  | .andn lp _ _ _ _ => some lp
  | .orn lp _ _ _ _ => some lp
  | .xnor lp _ _ _ _ => some lp
  | .sll lp _ _ _ _ => some lp
  | .srl lp _ _ _ _ => some lp
  | .sra lp _ _ _ _ => some lp
  | .rol lp _ _ _ _ => some lp
  | .clz lp _ _ _ _ => some lp
  | .ctz lp _ _ _ _ => some lp
  | .popc lp _ _ _ _ => some lp
  | .extb lp _ _ _ _ => some lp
  | .exth lp _ _ _ _ => some lp
  | .extw lp _ _ _ _ => some lp
  | .cmpeq lp _ _ _ _ => some lp
  | .cmpne lp _ _ _ _ => some lp
  | .cmplt lp _ _ _ _ => some lp
  | .cmpltu lp _ _ _ _ => some lp
  | .cmple lp _ _ _ _ => some lp
  | .cmpleu lp _ _ _ _ => some lp
  | .sel lp _ _ _ _ => some lp
  | .dadj lp _ _ _ _ => some lp
  | .mul lp _ _ _ _ => some lp
  | .mulwu lp _ _ _ _ => some lp
  | .mulws lp _ _ _ _ => some lp
  | .mulq lp _ _ _ _ => some lp
  | .divs lp _ _ _ _ => some lp
  | .divu lp _ _ _ _ => some lp
  | .jr lp _ _ _ _ => some lp
  | .lbu lp _ _ _ => some lp
  | .lbs lp _ _ _ => some lp
  | .lhu lp _ _ _ => some lp
  | .lhs lp _ _ _ => some lp
  | .lwu lp _ _ _ => some lp
  | .lws lp _ _ _ => some lp
  | .ld lp _ _ _ => some lp
  | .ldup lp _ _ _ => some lp
  | .stb lp _ _ _ => some lp
  | .sth lp _ _ _ => some lp
  | .stw lp _ _ _ => some lp
  | .std lp _ _ _ => some lp
  | .stdup lp _ _ _ => some lp
  | .lfs lp _ _ _ => some lp
  | .lfd lp _ _ _ => some lp
  | .lfq lp _ _ _ => some lp
  | .stfs lp _ _ _ => some lp
  | .stfd lp _ _ _ => some lp
  | .stfq lp _ _ _ => some lp
  | .ldua lp _ _ _ => some lp
  | .stua lp _ _ _ => some lp
  | .addi lp _ _ _ => some lp
  | .addis lp _ _ _ => some lp
  | .andi lp _ _ _ => some lp
  | .ori lp _ _ _ => some lp
  | .xori lp _ _ _ => some lp
  | .cmpeqi lp _ _ _ => some lp
  | .cmplti lp _ _ _ => some lp
  | .cmpltui lp _ _ _ => some lp
  | .shi lp _ _ _ => some lp
  | .bz lp _ _ => some lp
  | .bnz lp _ _ => some lp
  | .bal lp _ _ => some lp
  | .fenceL lp _ _ _ _ => some lp
  | .fenceS lp _ _ _ _ => some lp
  | .fenceA lp _ _ _ _ => some lp
  | .rdtod lp _ _ _ _ _ => some lp
  | .rdtick lp _ _ _ _ => some lp
  | .mfc lp _ _ _ _ => some lp
  | .mtc lp _ _ _ _ => some lp
  | .rfe lp _ _ _ _ => some lp
  | .mcall lp _ _ _ _ => some lp
  | .svc lp _ _ _ => some lp
  | .repI lp _ _ _ => some lp
  | .repN lp _ _ _ => some lp
  | .smov lp _ _ _ _ _ _ _ => some lp
  | .scmp lp _ _ _ _ _ _ _ => some lp
  | .sxor lp _ _ _ _ _ _ _ => some lp
  | .dadd lp _ _ _ _ _ _ _ => some lp
  | .dsub lp _ _ _ _ _ _ _ => some lp
  | .dmul lp _ _ _ _ _ _ _ => some lp
  | .ddiv lp _ _ _ _ _ _ _ => some lp
  | .dcmp lp _ _ _ _ _ _ _ => some lp
  | .dshr lp _ _ _ _ _ _ _ => some lp
  | .dcopy lp _ _ _ _ _ _ _ => some lp
  | .dztp lp _ _ _ _ _ _ _ => some lp
  | .dptz lp _ _ _ _ _ _ _ => some lp
  | .dtob lp _ _ _ _ _ _ _ => some lp
  | .dfrb lp _ _ _ _ _ _ _ => some lp
  | .faddD lp _ _ _ _ => some lp
  | .faddQ lp _ _ _ _ => some lp
  | .fsubD lp _ _ _ _ => some lp
  | .fsubQ lp _ _ _ _ => some lp
  | .fmulD lp _ _ _ _ => some lp
  | .fmulQ lp _ _ _ _ => some lp
  | .fdivD lp _ _ _ _ => some lp
  | .fdivQ lp _ _ _ _ => some lp
  | .fsqrtD lp _ _ _ _ => some lp
  | .fsqrtQ lp _ _ _ _ => some lp
  | .fmaD lp _ _ _ _ => some lp
  | .fmaQ lp _ _ _ _ => some lp
  | .fmsD lp _ _ _ _ => some lp
  | .fmsQ lp _ _ _ _ => some lp
  | .fcmpeq lp _ _ _ _ _ => some lp
  | .fcmplt lp _ _ _ _ _ => some lp
  | .fcmple lp _ _ _ _ _ => some lp
  | .fcmpun lp _ _ _ _ _ => some lp
  | .fmin lp _ _ _ _ _ => some lp
  | .fmax lp _ _ _ _ _ => some lp
  | .fmvf lp _ _ _ _ => some lp
  | .fmvgh lp _ _ _ _ => some lp
  | .fmvgl lp _ _ _ _ => some lp
  | .fneg lp _ _ _ _ => some lp
  | .fabs lp _ _ _ _ => some lp
  | .fcpysgn lp _ _ _ _ => some lp
  | .fmov lp _ _ _ _ => some lp
  | .fcvt lp _ _ _ _ _ => some lp
  | .fcvti lp _ _ _ _ _ => some lp
  | .fcvtu lp _ _ _ _ _ => some lp
  | .fcvtf lp _ _ _ _ _ => some lp
  | .fcvtfu lp _ _ _ _ _ => some lp
  | .ftopd lp _ _ _ _ _ => some lp
  | .ffrpd lp _ _ _ _ _ => some lp
  | .mffpc lp _ _ _ _ => some lp
  | .mtfpc lp _ _ _ _ => some lp
  | .ldrsv lp _ _ _ _ => some lp
  | .stcnd lp _ _ _ _ => some lp
  | .cswp lp _ _ _ _ => some lp
  | .fadd lp _ _ _ _ => some lp
  | .ccln lp _ _ _ _ => some lp
  | .cinv lp _ _ _ _ => some lp
  | .ccli lp _ _ _ _ => some lp
  | .crange lp _ _ _ _ => some lp
  | .crstat lp _ _ _ _ => some lp
  | .tlbiVa lp _ _ _ _ => some lp
  | .tlbiAsid lp _ _ _ _ => some lp
  | .tlbiPart lp _ _ _ _ => some lp
  | .iostart lp _ _ _ _ => some lp
  | .iohalt lp _ _ _ _ => some lp
  | .ioclear lp _ _ _ _ => some lp
  | .iotest lp _ _ _ _ => some lp
  | .iostore lp _ _ _ _ => some lp
  | .iomodify lp _ _ _ _ => some lp
  | .unassignedOpcode lp _ => some lp
  | _ => none

/-- Each element of a list is listed once. -/
def noRepeats [DecidableEq α] : List α → Bool
  | [] => true
  | x :: l => !l.contains x && noRepeats l

/-- The TYPE of a 64-byte frame, its second byte (Table 13-1). -/
def frameType (frame : BitVec 512) : Nat := frame.toNat / 2 ^ 496 % 256

/-- Whether a command is well-formed. -/
def Instr.wf : Instr → Bool
  | .transitTick i => i.echo.length = 6 && i.temps.length = 7
  | .penTake c => !c.isEmpty && noRepeats c
  | .repI lp _ _ b => b.lp? = some lp
  | .repN lp _ _ b => b.lp? = some lp
  | .postedWrite _ _ _ _ d => !d.isEmpty
  | .dmaRequest _ _ _ _ w n d => decide (0 < n) && (d.length = if w then n else 0)
  | .adapterDma _ _ _ w n d => decide (0 < n) && (d.length = if w then n else 0)
  | .rds w _ => w.allocates
  | .rdo w _ => w.allocates
  | .upg w _ => w.allocates
  | .evc w _ => w.allocates
  | .wbm w _ => w.allocates
  | .wrl _ _ d _ => d.length = 256
  | .wrp _ _ o d c _ => !d.isEmpty && decide (o + d.length ≤ 256) &&
      match c with | some e => e.length = 8 | none => true
  | .mrd _ b => noRepeats b
  | .sweepRead _ b => noRepeats b
  | .dimmTemperatureRead _ t => !t.isEmpty
  | .pcieLinkUp _ _ _ _ r => noRepeats (r.map (·.1))
  | .ackFrame _ _ f => frameType f = 2
  | .statusFrame _ _ f => frameType f = 3
  | .heartbeat _ _ f => frameType f = 5
  | .resync _ _ f => frameType f = 6
  | _ => true

end Sys2Proof
end

