-- ==== Sys2Proof/Tests/Slice0.lean ====
section
/-! SUPPORT. Tests of the model: an ill-formed command for every check of well-formedness, and single steps whose
results are written in the specification's tables and examples. -/

namespace Sys2Proof.Tests

-- One test at a time: the kernel evaluates each, and none waits in a thread of its own.
set_option Elab.async false

open Sys2Proof.Machine

/-! ### Well-formed commands -/

/-- A tick's inputs: the echoes and the temperatures of some dies. -/
def tin (echo : List Int) (temps : List Nat) : TickIn :=
  { echo := echo, temps := temps, mv := 0, pwr := 0 }

theorem test_wf_tick : Instr.wf (.transitTick (tin (List.replicate 6 0) (List.replicate 7 30))) = true := by decide
theorem test_wf_tick_echo : Instr.wf (.transitTick (tin (List.replicate 5 0) (List.replicate 7 30))) = false := by decide
theorem test_wf_tick_temps : Instr.wf (.transitTick (tin (List.replicate 6 0) (List.replicate 6 30))) = false := by decide
theorem test_wf_pen_take_empty : Instr.wf (.penTake []) = false := by decide
theorem test_wf_pen_take_twice : Instr.wf (.penTake [.portA, .portA]) = false := by decide
theorem test_wf_rep_i : Instr.wf (.repI 0 2 0 (.addi 0 3 3 1)) = true := by decide
theorem test_wf_rep_i_other : Instr.wf (.repI 0 2 0 (.addi 1 3 3 1)) = false := by decide
theorem test_wf_rep_n_other : Instr.wf (.repN 0 2 0 (.penRelease .portA)) = false := by decide
theorem test_wf_posted_write : Instr.wf (.postedWrite 0 5 none 0 []) = false := by decide
theorem test_wf_dma_request_none : Instr.wf (.dmaRequest 0 5 none 0 false 0 []) = false := by decide
theorem test_wf_dma_request_data : Instr.wf (.dmaRequest 0 5 none 0 true 2 [1]) = false := by decide
theorem test_wf_adapter_dma_none : Instr.wf (.adapterDma 0 5 0 true 0 []) = false := by decide
theorem test_wf_adapter_dma_data : Instr.wf (.adapterDma 0 5 0 false 2 [1]) = false := by decide
theorem test_wf_rds : Instr.wf (.rds (.cp 0) 5) = false := by decide
theorem test_wf_rdo : Instr.wf (.rdo (.port 0) 5) = false := by decide
theorem test_wf_upg : Instr.wf (.upg (.zip 0) 5) = false := by decide
theorem test_wf_evc : Instr.wf (.evc (.crypt 0) 5) = false := by decide
theorem test_wf_wbm : Instr.wf (.wbm (.almanac 0) 5) = false := by decide
theorem test_wf_wrl : Instr.wf (.wrl (.cp 0) 5 (List.replicate 255 0) false) = false := by decide +kernel
theorem test_wf_wrp_none : Instr.wf (.wrp (.cp 0) 5 0 [] none false) = false := by decide
theorem test_wf_wrp_beyond : Instr.wf (.wrp (.cp 0) 5 255 [1, 2] none false) = false := by decide
theorem test_wf_wrp_compare : Instr.wf (.wrp (.cp 0) 5 0 [1] (some [1]) false) = false := by decide
theorem test_wf_mrd : Instr.wf (.mrd 5 [3, 3]) = false := by decide
theorem test_wf_sweep_read : Instr.wf (.sweepRead 5 [9, 2, 9]) = false := by decide
theorem test_wf_dimm_temperature : Instr.wf (.dimmTemperatureRead 5 []) = false := by decide
theorem test_wf_pcie_link_up : Instr.wf (.pcieLinkUp 0 0 3 16 [(5, []), (6, []), (5, [])]) = false := by decide
theorem test_wf_ack_frame : Instr.wf (.ackFrame 0 5 (3 <<< 496)) = false := by decide +kernel
theorem test_wf_status_frame : Instr.wf (.statusFrame 0 5 (2 <<< 496)) = false := by decide +kernel
theorem test_wf_heartbeat : Instr.wf (.heartbeat 0 5 (6 <<< 496)) = false := by decide +kernel
theorem test_wf_resync : Instr.wf (.resync 0 5 (5 <<< 496)) = false := by decide +kernel

/-! ### Single steps -/

/-- A step with one command waiting answers a next state that passes a check. -/
def after (c : Instr) (s : State) (p : State → Bool) : Bool :=
  match step { s with pending := [c] } with
  | .next t => p t
  | _ => false

/-- Example 4-1, its second line: FFFF_FFFF_FFFF_FFFFh + 1 + 0 gives G15 = 0 and G16 = 1. -/
theorem test_addc_carry : after (.addc 0 15 7 11 16) (withG op [(7, 0xFFFFFFFFFFFFFFFF), (11, 1)])
    (fun t => gOf t 0 15 = 0 ∧ gOf t 0 16 = 1 ∧ (archOf t 0).pswa = 0x200004) = true := by decide +kernel

/-- Example 4-1, its fourth line: 1 + 0 + 1 gives G13 = 2 and G16 = 0. -/
theorem test_addc_takes_carry : after (.addc 0 13 5 9 16) (withG op [(5, 1), (16, 1)])
    (fun t => gOf t 0 13 = 2 ∧ gOf t 0 16 = 0) = true := by decide +kernel

/-- Example 5-1: 1000 + 9999999999999998 + 1 in sixteen digits. -/
theorem test_dadj : after (.dadj 0 5 2 8 10) (withG op [(2, 0x1000), (8, 0x9999999999999998), (10, 1)])
    (fun t => gOf t 0 5 = 0x999 ∧ gOf t 0 10 = 1) = true := by decide +kernel

/-- What a processor loads from consecutive addresses. -/
def loaded (t : State) (a n : Nat) : List Byte := (List.range n).map fun i => lpByte t (lpAt t 0) (a + i)

/-- Example 5-2 and Table 5-4: −12250 shifted two digits right, half away from zero, is −123. -/
theorem test_dshr_half_away : after (.dshr 0 5 2 0x10 6 0 7 0)
    (withG (memWrite op 0x300000 [0x12, 0x25, 0x0D]) [(6, 0x300000), (7, 0xFFFFFFFFFFFFFFFE)])
    (fun t => loaded t 0x300000 3 = [0x00, 0x12, 0x3D] ∧ gOf t 0 5 = 0) = true := by decide +kernel

/-- Table 5-4: −00049 truncated by the same shift is a positive zero (R113). -/
theorem test_dshr_truncates : after (.dshr 0 5 2 0 6 0 7 0)
    (withG (memWrite op 0x300000 [0x00, 0x04, 0x9D]) [(6, 0x300000), (7, 0xFFFFFFFFFFFFFFFE)])
    (fun t => loaded t 0x300000 3 = [0x00, 0x00, 0x0C]) = true := by decide +kernel

/-- Example 5-3: forty nines times −99. -/
theorem test_dmul_forty_digits : after (.dmul 0 0 21 1 4 0 4 32)
    (withG (memWrite (memWrite op 0x300000 ([0x00, 0x09] ++ List.replicate 19 0x99 ++ [0x9C])) 0x300020 [0x09, 0x9D])
      [(4, 0x300000)])
    (fun t => loaded t 0x300000 22 = [0x09, 0x89] ++ List.replicate 18 0x99 ++ [0x90, 0x1D]) = true := by decide +kernel

/-- Table 6-5 at RNE: the largest finite binary64 plus itself is +∞ with O and X. -/
theorem test_fadd_overflow : after (.faddD 0 3 1 1 0) (withF op [(1, 0x7FEFFFFFFFFFFFFF0000000000000000)])
    (fun t => (archOf t 0).getF 3 = 0x7FF00000000000000000000000000000 ∧ (archOf t 0).fpc = 0x05) = true := by
  decide +kernel

/-- Table 6-5 at RUP: the largest finite value minus the smallest subnormal is the largest, with X. -/
theorem test_fsub_rounds_up : after (.fsubD 0 3 1 2 0)
    (updLp (withF op [(1, 0x7FEFFFFFFFFFFFFF0000000000000000), (2, 0x00000000000000010000000000000000)]) 0 fun x =>
      { x with arch := { x.arch with fpc := 0x20000 } })
    (fun t => (archOf t 0).getF 3 = 0x7FEFFFFFFFFFFFFF0000000000000000 ∧ field (archOf t 0).fpc 0 5 = 0x01) = true := by
  decide +kernel

/-- R20: at the first tick after a whole second the fraction word is 0000_A7C5_8000_0000h. -/
theorem test_fraction_word : BitVec.ofNat 64 (todFrac 160000) = 0x0000A7C580000000 := by decide +kernel

/-- R20: a tick in the last 10 µs of a second carries into the seconds. -/
theorem test_transit_tick : after (.transitTick (tin (List.replicate 6 0) (List.replicate 7 30)))
    { State.reset with time := { State.reset.time with steps := 15999840000, seconds := 7 } }
    (fun t => t.time.transit = 1 ∧ t.time.steps = 0 ∧ t.time.seconds = 8) = true := by decide +kernel

/-- R63: PEN_TAKE of a free Pen gives it, with a lease of 1,000 ticks. -/
theorem test_pen_take : after (.penTake [.portB]) op
    (fun t => t.pen.holder = some .portB ∧ t.pen.lease = 1000) = true := by decide +kernel

/-- A step on an empty queue changes nothing but what the sequencers of the control stores are at: in this state no
store is loaded. -/
theorem test_idle : (match step op with
    | .next t => t.pending.isEmpty && t.time.transit == 0 && t.freeCtr == op.freeCtr
    | _ => false) = true := by
  decide +kernel

/-- Table 18-4: a COND of Fh takes the link register, and one of 0 the next word of the store (R434). -/
theorem test_next_address :
    nextRaw (UConds.free 0) 0xF 5 0x123 7 = 0x123 ∧ nextRaw (UConds.free 0) 0x0 5 0x123 7 = 6 ∧
    nextRaw (UConds.free 1) 0x2 5 0x123 6 = 7 := by decide

end Sys2Proof.Tests
end

