-- ==== Sys2Proof/Tests/WitnessCoherence.lean ====
section
/-! SUPPORT. Concrete states and operands that meet the hypotheses of the statements about released stores, functions,
caches, coherence and its links. -/

namespace Sys2Proof.Tests

-- One test at a time: the kernel evaluates each, and none waits in a thread of its own.
set_option Elab.async false

open Sys2Proof.Machine

/-! ### StoresLeave, DeviceAccesses -/

/-- An entry of eight bytes. -/
def ge (ty : MemType) (a : Nat) : GateEntry :=
  { ty := ty, blk := a / 64, bytes := (List.range 8).map fun i => (a + i, BitVec.ofNat 8 (i + 17)), ctx := 128,
    grp := 1 }

/-- A line in a pair's L2. -/
def wL2 (s : State) (p : Fin 48) (line : Nat) (st : CohSt) : State :=
  updPair s p fun x =>
    { x with l2 := Tab.put x.l2 line { st := st, way := 0, leaving := false, wbm := false, acked := false } }

theorem witness_StoresLeave_close :
    let s := updLp op 0 fun x => { x with icount := 256, gated := [ge .normal 0x500040] }
    mayClose s 0 = true ∧ closeRoom (lpAt s 0) = true ∧ (lpAt s 0).icount ≥ 256 := by decide +kernel

theorem witness_StoresLeave_drain :
    let s := fun (ty : MemType) (a : Nat) => updLp op 0 fun x => { x with released := [ge ty a] }
    let n := wL2 (s .normal 0x500000) 0 0x5000 .m
    (lpAt n 0).released = [ge .normal 0x500000] ∧ (lpAt n 0).wait = .none ∧ pairOf n 0 = some 0 ∧
      l2State n 0 ((ge .normal 0x500000).blk / 4) = some .m ∧
      (∀ w ∈ (lpAt n 0).owning, w.blk / 4 ≠ (ge .normal 0x500000).blk / 4) ∧
      farScratch n ((ge .normal 0x500000).blk / 4) = false ∧
      l2State (s .normal 0x500000) 0 ((ge .normal 0x500000).blk / 4) = none ∧
      (lpAt (s .uncached 0x500000) 0).released = [ge .uncached 0x500000] ∧
      homeHere (s .uncached 0x500000) ((ge .uncached 0x500000).blk / 4) = true ∧
      blocked (s .uncached 0x500000) ((ge .uncached 0x500000).blk / 4) = false ∧
      homeHere (s .uncached (2 ^ 50)) ((ge .uncached (2 ^ 50)).blk / 4) = false ∧
      (lpAt (s .device 0x200000000000) 0).released = [ge .device 0x200000000000] := by decide +kernel

/-- A processor of partition 3 that signals itself. -/
def sSig : State := setCell (updLp op 0 fun x =>
  { x with arch := { x.arch with psws := 0x4000000000000000, c := x.arch.c.set 16 3 } }) (regKey (partPage 3) 0x048) 1

theorem witness_StoresLeave_signal : (0 : Word) = BitVec.ofNat 64 (pkgId sSig * 2 ^ 14 + 0) ∧ 0 < lpCount sSig ∧
    lpOwner sSig 0 = lpCtx sSig 0 ∧ 3 = lpCtx sSig 0 ∧ (lpAt sSig 0).run ≠ .waiting ∧ 2 ≠ lpCtx sSig 0 ∧
    lpCtx sSig 0 < 128 := by decide +kernel

/-- The function with Requester ID 5 behind port 0. -/
def fn (f : Func → Func) : State := updFunc op 0 5 f

/-- A Device store on its way to the port. -/
def toPort0 (s : State) : State := updLp s 0 fun x => { x with toPort := [ge .device 0x200000000000] }

theorem witness_DeviceAccesses_store :
    let up := toPort0 (fn fun f => { f with up := true, credit := 1 })
    let no := toPort0 (fn fun f => { f with up := true, credit := 0 })
    let co := toPort0 (fn fun f => { f with up := true, contained := true })
    let g := fun (s : State) => funcAt s 0 5
    (lpAt up 0).toPort = [ge .device 0x200000000000] ∧
      (ge .device 0x200000000000).bytes = (0x200000000000, 17) :: (ge .device 0x200000000000).bytes.drop 1 ∧
      portOf 0x200000000000 = 0 ∧ (lpAt up 0).wait = .none ∧ (g up).up = true ∧ (g up).contained = false ∧
      (g up).containing = false ∧ (g up).held = [] ∧ 0 < (g up).credit ∧ (g no).up = true ∧ (g no).credit = 0 ∧
      (g co).contained = true := by decide +kernel

theorem witness_DeviceAccesses_credit :
    let t := fn fun f => { f with up := true, held := [⟨0x200000000000, [1, 2], none, 128, 0⟩] }
    let c := fn fun f => { f with containing := true, held := [] }
    let h := fn fun f => { f with containing := true, held := [⟨0x200000000000, [1, 2], none, 128, 0⟩] }
    (funcAt t 0 5).up = true ∧ (funcAt t 0 5).contained = false ∧ (funcAt t 0 5).held ≠ [] ∧
      (funcAt c 0 5).containing = true ∧ (funcAt c 0 5).held = [] ∧ (funcAt h 0 5).containing = true ∧
      (funcAt h 0 5).held = [⟨0x200000000000, [1, 2], none, 128, 0⟩] := by decide +kernel

/-- A Device load of four bytes. -/
def dl (n : Nat) (issued : Option (BitVec 16)) : DevLoad :=
  { dst := .g 3 true, size := n, addr := 0x200000000000, va := 0x200000000000, got := [], upd := none, rep := none,
    issued := issued, whole := false }

theorem witness_DeviceAccesses_load :
    let s := fun (l : DevLoad) => updLp (fn fun f => { f with up := true, credit := 3 }) 0 fun x => { x with wait := .load l }
    (lpAt (s (dl 4 none)) 0).wait = .load (dl 4 none) ∧ (dl 4 none).issued = none ∧
      deviceBehind (lpAt (s (dl 4 none)) 0) = false ∧ localPkg (s (dl 4 none)) (dl 4 none).addr = true ∧
      (∀ w ∈ (funcAt (s (dl 4 none)) (portOf (dl 4 none).addr) 5).held, w.lp ≠ some 0) ∧
      localPkg op (2 ^ 50 + 0x200000000000) = false ∧ lostHome op (lineOf (2 ^ 50 + 0x200000000000)) = false ∧
      (funcAt (s (dl 4 none)) (portOf (dl 4 none).addr) 5).contained = false ∧
      (funcAt (s (dl 4 none)) (portOf (dl 4 none).addr) 5).up = true ∧
      (∀ n ∈ [1, 8], (lpAt (s (dl n (some 5))) 0).wait = .load (dl n (some 5)) ∧ (dl n (some 5)).issued = some 5 ∧
        (dl n (some 5)).got = [] ∧ (dl n (some 5)).rep = none ∧ (dl n (some 5)).upd = none ∧ 1 ≤ (dl n (some 5)).size ∧
        (dl n (some 5)).size ≤ 8 ∧ closeRoom (lpAt (s (dl n (some 5))) 0) = true) := by decide +kernel

/-! ### FunctionTraffic -/

/-- The function is bound to partition 3 and reaches 500000h through both its translations. -/
def sFun : State :=
  let s := setCell (setCell (setCell (setCell (fn fun f => { f with up := true, credit := 3, msixLeft := 2 })
    (regKey (pciePage 0) 0x700 0) 0x81800005) (regKey mapPage 0x108 0) 0x8003000000000000)
    (regKey (partPage 3) 0x080) 0x40000) (regKey (pciePage 0) 0x100) 0x100001
  let g := 0x40000000
  w8 (w8 (w8 (w8 (w8 (w8 s 0x40000 0x8000000040000000) 0x100050 0xC030000000003000) (g + 0x3000) 0x4039)
    (g + 0x4000) 0x5039) (g + 0x5000) 0x6039) (g + 0x6010) 0x4000FB

theorem witness_FunctionTraffic_link : cellBit op (pciePage 0) 0x040 29 = false ∧ 0 < subLinks op 0 ∧
    (0 : BitVec 3).toNat ≤ cellField op (pciePage 0) 0x040 26 3 ∧ laneCount op 0 16 = true ∧ (funcAt sFun 0 5).up = true ∧
    (funcAt sFun 0 5).held = [] := by decide +kernel

theorem witness_FunctionTraffic_reads : (funcAt sFun 0 5).up = true ∧ (funcAt sFun 0 5).contained = false ∧
    sFun.mode.quiesce = false ∧ portWaits sFun 0 = false ∧
    (match ioRuns sFun 0 5 none 0x500000 false 8 with | .ok (t, runs) => !poisonRuns t runs | .error _ => false) = true ∧
    (match ioRuns sFun 0 5 none 0x500000 true 3 with | .ok _ => true | .error _ => false) = true ∧
    (0x500000 : Word) ≠ 0xA000000000000000 := by decide +kernel

theorem witness_FunctionTraffic_refused :
    (match ioRuns sFun 0 5 none 0xF00000500000 false 8 with | .ok _ => none | .error c => some c) = some 3 := by
  decide +kernel

/-- The last message number. -/
theorem witness_FunctionTraffic_message : pathBound sFun 0 5 = false ∧ bindOf sFun 0 5 = some 0 ∧
    (2047 : BitVec 32).toNat < 2048 ∧ (funcAt sFun 0 5).coalesced = false ∧ (funcAt sFun 0 5).msixLeft ≠ 0 ∧
    (sFun.msixQ.filter fun m => m.ctx = bindCtx sFun 0 0).length < 4096 := by decide +kernel

/-! ### CoherenceRequests, CoherenceSnoops -/

theorem homeFree_of {s : State} {r : Req} (h : homeHere s r.line = true) (a : (txnAt s r.line).isNone = true)
    (b : (Tab.look s.slices (homeSlice s r.line)).isNone = true) (c : buffersUsed s (homeSlice s r.line) < 64)
    (d : wayShort s r = false) : HomeFree s r :=
  ⟨h, Option.isNone_iff_eq_none.mp a, Option.isNone_iff_eq_none.mp b, c, d⟩

def rq (k : ReqKind) (who : Agent) (line : Nat) : Req := ⟨k, who, line, [], none, false⟩

/-- A pair of the same die holds the line in M: it moves to the pair that asks. -/
theorem witness_CoherenceRequests_local :
    let s := wL2 op 1 0x5000 .m
    mayRequest s 0 0x5000 = true ∧ l2State s 0 0x5000 = none ∧ holderOn s 0 0x5000 [.m] = some 1 ∧
      (l2Place (l2Drop s 1 0x5000) 0 0x5000 .m).isSome = true ∧ heldOn s 0 0x5000 (some 0) = false ∧
      (l2Place (dieRemove s 0 0x5000 (some 0)) 0 0x5000 .m).isSome = true := by decide +kernel

theorem witness_CoherenceRequests_home : mayRequest op 0 0x5000 = true ∧ l2State op 0 0x5000 = none ∧
    (∀ l ∈ [[CohSt.m], [.l, .e], [.e], [.l]], holderOn op 0 0x5000 l = none) ∧
    (∀ l ∈ [[CohSt.l, .e], [.e], [.l]], l3HolderOn op 0 0x5000 l = false) ∧ heldOn op 0 0x5000 (some 0) = false ∧
    HomeFree op (rq .rdS (.pair 0) 0x5000) ∧ HomeFree op (rq .rdO (.pair 0) 0x5000) :=
  ⟨by decide +kernel, by decide +kernel, by decide +kernel, by decide +kernel, by decide +kernel,
   homeFree_of (by decide +kernel) (by decide +kernel) (by decide +kernel) (by decide +kernel) (by decide +kernel),
   homeFree_of (by decide +kernel) (by decide +kernel) (by decide +kernel) (by decide +kernel) (by decide +kernel)⟩

theorem witness_CoherenceRequests_upgrade :
    let s := wL2 (wL2 op 0 0x5000 .s) 1 0x5000 .l
    mayRequest s 0 0x5000 = true ∧ (l2State s 0 0x5000 = some .l ∨ l2State s 0 0x5000 = some .s) ∧
      heldOn s 0 0x5000 (some 0) = false := by decide +kernel

theorem witness_CoherenceRequests_upgrade_home : HomeFree (wL2 op 0 0x5000 .s) (rq .upg (.pair 0) 0x5000) :=
  homeFree_of (by decide +kernel) (by decide +kernel) (by decide +kernel) (by decide +kernel) (by decide +kernel)

/-- A channel processor reads a line, writes one whole and writes up to the last byte of one. -/
theorem witness_CoherenceRequests_agents : (regionOf op (0x5000 * 256)).isStorage = true ∧
    HomeFree op (rq .rdNA (.cp 3) 0x5000) ∧ (List.replicate 256 (0 : Byte)).length = 256 ∧
    HomeFree op ⟨.wrL, .cp 3, 0x5000, reqBytes (0x5000 * 256) (List.replicate 256 0), none, false⟩ ∧
    250 + (List.replicate 6 (0 : Byte)).length ≤ 256 ∧
    HomeFree op ⟨.wrP, .cp 3, 0x5000, reqBytes (0x5000 * 256 + 250) (List.replicate 6 0), none, false⟩ :=
  ⟨by decide +kernel,
   homeFree_of (by decide +kernel) (by decide +kernel) (by decide +kernel) (by decide +kernel) (by decide +kernel),
   by decide +kernel,
   homeFree_of (by decide +kernel) (by decide +kernel) (by decide +kernel) (by decide +kernel) (by decide +kernel),
   by decide +kernel,
   homeFree_of (by decide +kernel) (by decide +kernel) (by decide +kernel) (by decide +kernel) (by decide +kernel)⟩

/-- A die of another package of the complex asks: the last of package 1. -/
theorem witness_CoherenceRequests_remote :
    let s := { op with mode := { op.mode with coupled := [1] } }
    let who := Agent.remote 7
    (∀ d, who = .remote d → d.val / 4 ≠ pkgId s ∧ s.mode.coupled.contains (d.val / 4) = true ∧
      s.fenced.contains (d.val / 4) = false) ∧ HomeFree s (rq .rdNA who 0x5000) := by
  refine ⟨fun d h => ?_, homeFree_of (by decide +kernel) (by decide +kernel) (by decide +kernel) (by decide +kernel)
    (by decide +kernel)⟩
  obtain rfl : (7 : Fin 16) = d := by injection h
  decide +kernel

/-- A transaction at line 5000h. -/
def txn (k : ReqKind) (who : Agent) (f : Txn → Txn) : Txn :=
  f { req := rq k who 0x5000, waitFor := [], shared := false, supplied := false, fromM := false, crossing := [],
      crossed := [], parkedWbm := none, parkedEvc := [], mrd := false, mgo := false, sent := false, poisoned := false }

def wTx (s : State) (x : Txn) : State := { s with txns := Tab.put s.txns 0x5000 x }

theorem witness_CoherenceSnoops_answers :
    let x := txn .rdS (.pair 0) fun x => { x with waitFor := [1, 2] }
    let y := txn .rdO (.pair 0) fun x => { x with waitFor := [1, 2] }
    let z := txn .rdNA (.cp 0) fun x => { x with waitFor := [1, 2] }
    let s := wTx op x
    let t := wTx { op with l3 := Tab.put op.l3 (1 * 2 ^ 44 + 0x5000) { st := .l, way := 0 } } y
    let u := wTx (wL2 op 12 0x5000 .e) z
    homeHere s 0x5000 = true ∧ txnAt s 0x5000 = some x ∧ 1 / 4 = pkgId s ∧ 1 ∈ x.waitFor ∧ x.supplied = false ∧
      x.req.kind = .rdS ∧ dieState s 1 0x5000 = none ∧ leavingPairs s (pkgId s * 4 + 1) 0x5000 = [] ∧
      txnAt t 0x5000 = some y ∧ y.req.kind = .rdO ∧ dieState t 1 0x5000 = some .l ∧ heldOn t 1 0x5000 none = false ∧
      txnAt u 0x5000 = some z ∧ z.req.kind = .rdNA ∧ dieState u 1 0x5000 = some .e := by decide +kernel

/-- A die that holds the line under a reservation's hold. -/
theorem witness_CoherenceSnoops_held :
    let y := txn .rdO (.pair 12) fun x => { x with waitFor := [0, 2] }
    let s := wTx (updLp (wL2 op 0 0x5000 .e) 0 fun x => { x with resHold := true, reservation := some 0x5000 }) y
    txnAt s 0x5000 = some y ∧ 0 ∈ y.waitFor ∧ y.req.kind = .rdO ∧ dieState s 0 0x5000 ≠ none ∧
      heldOn s 0 0x5000 none = true := by decide +kernel

/-- A line on its way out of pair 12. -/
def sOut (wbm : Bool) : State := updPair op 12 fun x =>
  { x with l2 := Tab.put x.l2 0x5000 { st := .m, way := 0, leaving := true, wbm := wbm, acked := false } }

theorem witness_CoherenceSnoops_crossed :
    let y := txn .rdO (.pair 0) fun x => { x with waitFor := [1, 2], crossing := [1, 3] }
    let s := wTx op y
    let far := txn .rdO (.pair 0) fun x => { x with waitFor := [6] }
    txnAt s 0x5000 = some y ∧ 1 ∈ y.crossing ∧ y.parkedWbm ≠ some 1 ∧ 1 ∉ y.parkedEvc ∧
      txnAt (wTx op far) 0x5000 = some far ∧ 6 / 4 ≠ pkgId (wTx op far) ∧ 6 ∈ far.waitFor := by decide +kernel

theorem witness_CoherenceSnoops_evictions :
    let l := fun (b : Bool) => ({ st := .m, way := 0, leaving := true, wbm := b, acked := false } : L2Line)
    let x := txn .rdO (.pair 0) id
    (∀ b, l2Find (sOut b) 12 0x5000 = some (l b)) ∧ (∀ b, (l b).leaving = true ∧ (l b).acked = false ∧ (l b).wbm = b) ∧
      (∀ b, txnAt (sOut b) 0x5000 = none) ∧ pairDie (sOut true) 12 / 4 = pkgId (sOut true) ∧
      (∀ b, txnAt (wTx (sOut b) x) 0x5000 = some x) ∧ pairDie (sOut true) 12 ∉ x.crossed ∧
      pairDie (sOut true) 12 ∉ x.parkedEvc ∧ x.parkedWbm = none := by decide +kernel

/-! ### CoherenceData, CoherenceEdges -/

def miss (k : ReqKind) (f : Miss → Miss) : Miss := f ⟨k, 0, none, false, false, false, false⟩

def wMiss (s : State) (line : Nat) (m : Miss) : State :=
  updPair s 0 fun y => { y with misses := Tab.put y.misses line m }

theorem witness_CoherenceData_memory :
    let a := txn .rdS (.pair 0) id
    let b := txn .rdO (.pair 0) fun x => { x with mrd := true }
    let c := txn .rdO (.pair 0) fun x => { x with mrd := true, supplied := true }
    (txnAt (wTx op a) 0x5000 = some a ∧ a.req.kind.reads = true ∧ a.mrd = false) ∧
    (txnAt (wTx op b) 0x5000 = some b ∧ b.answered = true ∧ b.supplied = false ∧ b.mrd = true ∧ b.sent = false ∧
      b.mgo = false ∧ b.req.kind = .rdO ∧ b.req.who = .pair 0) ∧
    (txnAt (wTx op c) 0x5000 = some c ∧ c.mrd = true ∧ c.supplied = true ∧ c.mgo = false) := by decide +kernel

theorem witness_CoherenceData_write :
    let bs := List.replicate 256 (7 : Byte)
    let x := { txn .wrL (.cp 0) id with req := ⟨.wrL, .cp 0, 0x5000, reqBytes (0x5000 * 256) bs, none, false⟩ }
    let s := wTx op x
    homeHere s 0x5000 = true ∧ txnAt s 0x5000 = some x ∧ x.req.kind = .wrL ∧ x.answered = true ∧
      x.req.data = reqBytes (0x5000 * 256) bs ∧ bs.length = 256 ∧ x.parkedWbm = none ∧ x.parkedEvc = [] ∧
      s.slices.isEmpty = true ∧ failedChannel s 0x5000 = false ∧ x.req.who ≠ .remote 0 := by decide +kernel

theorem witness_CoherenceData_fill :
    let x := txn .rdO (.pair 0) fun x => { x with sent := true }
    let m := miss .rdO id
    let s := wMiss (updPair (wTx op x) 0 fun y => { y with lp := none }) 0x5000 m
    txnAt s 0x5000 = some x ∧ missAt s 0 0x5000 = some m ∧ m.filled = false ∧ x.req.who = .pair 0 ∧ x.sent = true ∧
      x.req.kind = .rdO ∧ x.fromM = false ∧ x.poisoned = false ∧ (pairAt s 0).lp = none ∧
      (l2Place s 0 0x5000 .e).isSome = true := by decide +kernel

theorem witness_CoherenceData_compack :
    let x := txn .rdS (.pair 0) fun x => { x with sent := true }
    let m := miss .rdS fun m => { m with filled := true }
    let s := wMiss (wTx op x) 0x5000 m
    txnAt s 0x5000 = some x ∧ missAt s 0 0x5000 = some m ∧ m.filled = true ∧ x.req.who = .pair 0 ∧ x.sent = true ∧
      x.req.kind = .rdS ∧ x.parkedWbm = none ∧ x.parkedEvc = [] ∧ s.slices.isEmpty = true := by decide +kernel

theorem witness_CoherenceData_ack :
    let l : L2Line := { st := .m, way := 0, leaving := true, wbm := true, acked := true }
    let s := updPair op 0 fun x => { x with l2 := Tab.put x.l2 0x5000 l }
    homeHere s 0x5000 = true ∧ l2Find s 0 0x5000 = some l ∧ missAt s 0 0x5000 = none ∧ l.leaving = true ∧
      l.acked = true := by decide +kernel

theorem witness_CoherenceEdges_retry :
    let a := miss .rdS fun m => { m with refused := true, ticket := some 3 }
    let b := miss .rdS fun m => { m with backoff := true, ticket := some 3 }
    let s := wMiss op 0x5000 a
    let t := wMiss op 0x5000 b
    missAt s 0 0x5000 = some a ∧ a.filled = false ∧ homeHere s 0x5000 = true ∧ a.backoff = false ∧ a.refused = true ∧
      (Tab.look s.slices (homeSlice s 0x5000)).isNone = true ∧ missAt t 0 0x5000 = some b ∧ b.filled = false ∧
      b.backoff = true := by decide +kernel

/-- Directory mode. -/
def dm : State := setCell op (regKey mapPage 0x0C0) 0x80000000

theorem witness_CoherenceEdges_directory :
    let e := fun (l : List Nat) => (⟨true, false, l⟩ : DirEntry)
    let s := fun (l : List Nat) => { dm with dir := [(0x5000, e l)] }
    dirMode (s []) = true ∧ Tab.look (s []).dir 0x5000 = some (e []) ∧ txnAt (s []) 0x5000 = none ∧ (e []).ovf = false ∧
      Tab.look (s [2]).dir 0x5000 = some (e [2]) ∧ 2 / 4 = pkgId (s [2]) ∧ pkgId (s [2]) ∉ (s [2]).fenced ∧
      (spend (s [2]) .dir (msgCost (homeSlice (s [2]) 0x5000 / 24) 2 ++ msgCost 2 (homeSlice (s [2]) 0x5000 / 24))).2 =
        true := by decide +kernel

theorem witness_CoherenceEdges_timeouts :
    let x := txn .wrL (.cp 3) id
    let y := txn .rdO (.pair 0) fun x => { x with waitFor := [1, 2], crossing := [1] }
    let m := miss .rdS id
    let r := { wMiss op (2 ^ 42 + 0x5000) m with fenced := [1] }
    txnAt (wTx op x) 0x5000 = some x ∧ x.req.who = .cp 3 ∧ x.req.kind = .wrL ∧ txnAt (wTx dm y) 0x5000 = some y ∧
      y.req.kind.holds = true ∧ y.waitFor ≠ [] ∧ y.req.who = .pair 0 ∧ homeHere r (2 ^ 42 + 0x5000) = false ∧
      linePkg (2 ^ 42 + 0x5000) ∈ r.fenced ∧ missAt r 0 (2 ^ 42 + 0x5000) = some m ∧ m.kind = .rdS := by decide +kernel

/-! ### CachesWork, LinksWork -/

/-- The Burin of die 1 at work. -/
def bu (f : Burin → Burin) : State :=
  updBurin op 1 fun b => f { b with busy := true, start := 0x500000, len := 0x1000, owner := some 0, op := 1 }

theorem witness_CachesWork_burin :
    let a := bu fun b => { b with cursor := 2047 }
    let c := bu fun b => { b with cancelled := true }
    let d := bu fun b => { b with cursor := 2048 }
    (burinAt a 1).busy = true ∧ (burinAt a 1).paused = false ∧ a.mode.quiesce = false ∧ (burinAt a 1).cancelled = false ∧
      (burinAt a 1).cursor < 2048 ∧ (burinAt c 1).cancelled = true ∧ (burinAt d 1).busy = true ∧
      2048 ≤ (burinAt d 1).cursor ∧ burinLeaving d 1 = false ∧
      (∀ o ∈ [1, 2, 3], burinFull (bu fun b => { b with cursor := 0, op := o }) 1 = false) := by decide +kernel

theorem witness_CachesWork_lines :
    let s := wL2 op 13 0x5000 .e
    let f := setCell op (regKey (clusterPage 0) 0x040) 0x80000000
    ((l2Find s 13 0x5000).map fun x => x.leaving) = some false ∧ leavingCount s 13 < 32 ∧ txnAt s 0x5000 = none ∧
      missAt s 13 0x5000 = none ∧ l2State s 13 0x5000 = some .e ∧ pairOf f 0 = some 0 ∧ lpReady f 0 = true ∧
      bit (cell f (regKey (clusterPage 0) 0x040)) 31 = true ∧ (pairAt f 0).streams = [] := by decide +kernel

/-- A stream of three misses that requests one line ahead into the L2 alone. -/
theorem witness_CachesWork_stream :
    let x : Stream := { region := 0x500, line := 0x5000, stride := 1, misses := 3, store := false }
    let s := updPair (setCell op (regKey (clusterPage 0) 0x040) 0x80000100) 0 fun y => { y with streams := [x] }
    let ctl := cell s (regKey (clusterPage 0) 0x040)
    ((pairAt s 0).streams.find? fun t => t.line = 0x5000 && t.store = false && decide (t.misses ≥ 3)) = some x ∧
      ((pairAt s 0).streams.find? fun t => t.line = 0x5000 && t.store = true && decide (t.misses ≥ 3)) = none ∧
      field ctl 8 5 = 1 ∧ field ctl 0 3 = 0 := by decide +kernel

/-- A leaf that is neither accessed nor dirty, and a store through it. -/
def sLeaf : State := w8 te 0x103010 0x40003B

theorem witness_CachesWork_update : lpReady sLeaf 0 = true ∧ bit (archOf sLeaf 0).psws 60 = true ∧
    canonical 0x400008 = true ∧
    (match walkOrNone 0 0x400008 .store false true false sLeaf with
     | .ok k t => (swapEntry t k.leafAt 0x40003B (0x40003B ||| adBits .store)).2
     | .error _ _ => false) = true ∧ (0x40003B : Word) ||| adBits .store ≠ 0x40003B := by decide +kernel

/-- A link that is up, with two flits to replay. -/
def lk (f : Link → Link) : State :=
  updLink op 1 fun k => f { k with up := true, rxSeq := 7, replayBuf := [⟨9, "Ack", 3, 4, 0, [], false⟩, ⟨10, "Ack", 3, 4, 0, [], false⟩] }

theorem witness_LinksWork :
    let r := lk fun k => { k with retraining := true, replayBuf := [], failedRetrains := 1 }
    flitsFlow (linkAt (lk id) 1) = true ∧ (List.replicate 240 (5 : Byte)).length = 240 ∧
      7 * 2 ^ 36 + 9 * 2 ^ 24 < 2 ^ 48 ∧ (7 * 2 ^ 36 + 9 * 2 ^ 24) / 2 ^ 36 = (linkAt (lk id) 1).rxSeq.toNat ∧
      8 * 2 ^ 36 / 2 ^ 36 ≠ (linkAt (lk id) 1).rxSeq.toNat ∧
      ((linkAt (lk id) 1).replayBuf.findIdx? fun e => e.seq = 10) = some 1 ∧
      (linkAt r 1).retraining = true ∧ 200 ≤ 200 ∧ (linkAt r 1).replayBuf = [] ∧ (linkAt r 1).failedRetrains < 2 ∧
      (linkAt (lk id) 1).up = true ∧ (linkAt (lk id) 1).failed = false := by decide +kernel

/-- No package is reached by the link, as at reset, whatever the number asked for. -/
theorem witness_LinksWork_route : ∀ q, linkTo (lk id) q ≠ some 1 := by
  intro q
  have h : cell (lk id) (regKey mapPage 0x0C8) = 0 := by decide +kernel
  simp [linkTo, cellField, h, field]

theorem witness_LinksWork_departure :
    let s := { dm with mode := { op.mode with coupled := [2, 1] } }
    (1 : Fin 4).val ≠ pkgId s ∧ (1 : Fin 4).val ∈ s.mode.coupled ∧ s.mode.transition ≠ .warm ∧ dirMode s = true ∧
      1 ∉ s.fenced ∧ s.txns.isEmpty = true ∧ s.slices.isEmpty = true := by decide +kernel

end Sys2Proof.Tests
end

