-- ==== Sys2Proof/Tests/WitnessEngines.lean ====
section
/-! SUPPORT. Concrete states and operands that meet the hypotheses of the statements about the engines and the key
store. -/

namespace Sys2Proof.Tests

-- One test at a time: the kernel evaluates each, and none waits in a thread of its own.
set_option Elab.async false

open Sys2Proof.Machine

/-! ### JobQueues -/

/-- The manager context owns its memory. -/
def engS : State := setCell io (regKey mapPage 0x108 0) 0x8000000000000000

/-- Descriptor of one job: source at 600000h, destination at 610000h, auxiliary operand at 620000h, flags FIRST and
LAST. -/
def job (func param srcLen dstLen key key2 auxLen : Nat) : Job :=
  { q := 3, at_ := 0x700000, ctx := 128, zip := some 1, crypt := some 2, inline := none, ended := none,
    desc := [1, BitVec.ofNat 8 func, 0x60, 0] ++ beBytes 4 param ++ beBytes 8 0x600000 ++ beBytes 4 srcLen ++
      beBytes 4 dstLen ++ beBytes 8 0x610000 ++ beBytes 8 key ++ beBytes 8 key2 ++ beBytes 8 0x620000 ++
      beBytes 4 auxLen ++ List.replicate 68 0 }

/-- The job holds its engines; slots 9 to 15 hold a key of each kind. -/
def js (x : Job) : State :=
  { engS with eng := { engS.eng with
      jobs := [(4, x)],
      keys := [(9, ⟨1, 0xFF, List.replicate 32 5⟩), (10, ⟨3, 0xFF, []⟩), (11, ⟨5, 0xFF, []⟩), (12, ⟨8, 0xFF, []⟩),
               (13, ⟨9, 0xFF, []⟩), (14, ⟨0xB, 0xFF, []⟩), (15, ⟨0xC, 0xFF, []⟩)],
      gens := (List.range 20).map fun i => (i, 77), drbg := Vector.replicate 2 ⟨true, false, 0, 0⟩ } }

/-- The handle of a slot. -/
def kh (n : Nat) : Nat := 77 * 2 ^ 32 + n

theorem witness_JobQueues :
    let e : JobEnd := ⟨1, 0, 16, 3, [], [(0x610000, [1, 2, 3])]⟩
    let x := { job 1 0 16 16 0 0 0 with ended := some e }
    let d := { updJq engS 3 (fun y => { y with en := true, tail := 2, base := 0x700000 }) with
      eng := { (updJq engS 3 (fun y => { y with en := true, tail := 2, base := 0x700000 })).eng with next := #v[3, 0] } }
    jqOwner engS 3 = 128 ∧ isReleased engS 2 3 = false ∧ (jqAt engS 3).en = false ∧ bit (0x80000000 : Word) 31 = true ∧
      jqOwner engS 3 ≠ 3 ∧ d.mode.quiesce = false ∧ d.eng.next[(0 : Fin 2)] = 3 ∧ (jqAt d 3).en = true ∧
      (jqAt d 3).head ≠ (jqAt d 3).tail ∧ jqTaken d 3 = [] ∧
      ctxRange d (jqOwner d 3) ((jqAt d 3).base.toNat + 128 * (jqAt d 3).head) 128 = some [(0x700000, 128)] ∧
      (js x).mode.quiesce = false ∧ Tab.look (js x).eng.jobs 4 = some x ∧ x.ended = some e ∧ x.inline = none ∧
      canRecord (js x) x e = true := by decide +kernel

/-! ### CompressionJobs, CipherJobs -/

/-- A job runs with the function it names. -/
def runs (x : Job) (func : Nat) : Bool :=
  decide (Tab.look (js x).eng.jobs 4 = some x) && decide (x.func = func) && (x.zip.isSome || x.crypt.isSome) &&
    x.ended.isNone && x.inline.isNone && !(js x).mode.quiesce && answers (jobForm x) ()

theorem runs_of {x : Job} {func : Nat} (h : runs x func = true) : JobRuns (js x) 4 x func := by
  simp only [runs, Bool.and_eq_true, decide_eq_true_eq, Bool.not_eq_true', Option.isNone_iff_eq_none] at h
  obtain ⟨⟨⟨⟨⟨⟨a, b⟩, c⟩, d⟩, e⟩, f⟩, g⟩ := h
  exact ⟨a, b, c, d, e, f, except_of g⟩

/-- A destination of any length up to its own. -/
def fits (x : Job) : Bool := (List.range (x.dstLen + 1)).all fun n => (ctxRange (js x) x.ctx x.dst n).isSome

theorem fits_of {x : Job} (h : fits x = true) : ∀ n, n ≤ x.dstLen → ∃ l, dstRuns (js x) x x.dst n 2 = .ok l := by
  intro n hn
  have h := List.all_eq_true.mp h n (List.mem_range.mpr (by omega))
  obtain ⟨l, hl⟩ := some_of h
  exact ⟨l, by simp [dstRuns, hl]⟩

/-- A stream of 16 bytes with the function. -/
def stream (f key : Nat) : Job := job f (if f = 1 ∨ f = 3 ∨ f = 0x50 ∨ f = 0x51 then 1 else 0) 16 8 key 0 0

theorem witness_CompressionJobs : (∀ f ∈ [1, 2, 3, 4, 0x50, 0x51], (stream f (kh 9)).flag 6 = true ∧
    (stream f (kh 9)).flag 5 = true ∧ (stream f (kh 9)).stateAt = 0 ∧ (stream f (kh 9)).dstLen < 2 ^ 32 ∧
    answers (srcBytes (js (stream f (kh 9))) (stream f (kh 9)) 0x600000 16 1) (List.replicate 16 0) = true ∧
    answers (srcBytes (js (stream f (kh 9))) (stream f (kh 9)) 0x620000 0 3) [] = true ∧ (stream f (kh 9)).auxLen = 0 ∧
    fits (stream f (kh 9)) = true ∧ runs (stream f (kh 9)) f = true) := by decide +kernel

theorem witness_CompressionJobs_keys :
    answers (needKey (js (stream 0x50 (kh 9))) (stream 0x50 (kh 9)) (kh 9) [1, 2] uEnc)
      ⟨1, 0xFF, List.replicate 32 5⟩ = true ∧
    answers (needKey (js (stream 0x51 (kh 9))) (stream 0x51 (kh 9)) (kh 9) [1, 2] uDec)
      ⟨1, 0xFF, List.replicate 32 5⟩ = true := by decide +kernel

/-- A cipher over 16 bytes: the function, its parameter, and the key's slot. -/
def cipher (f param slot : Nat) : Job := job f param 16 64 (kh slot) 0 0

/-- The key that a cipher needs is there. -/
def keyed (x : Job) (types : List Nat) (usage : Nat) : Bool :=
  match needKey (js x) x x.key types usage with
  | .ok _ => true
  | .error _ => false

theorem witness_CipherJobs : (∀ p ∈ [(0x10, 0, 9), (0x11, 0, 9), (0x12, 2, 10), (0x13, 2, 10), (0x14, 0, 9)],
      runs (cipher p.1 p.2.1 p.2.2) p.1 = true ∧ (cipher p.1 p.2.1 p.2.2).srcLen ≤ (cipher p.1 p.2.1 p.2.2).dstLen ∧
      (cipher p.1 p.2.1 p.2.2).srcLen < 2 ^ 32 ∧
      answers (srcBytes (js (cipher p.1 p.2.1 p.2.2)) (cipher p.1 p.2.1 p.2.2) 0x600000 16 1) (List.replicate 16 0) =
        true ∧
      answers (dstRuns (js (cipher p.1 p.2.1 p.2.2)) (cipher p.1 p.2.1 p.2.2) 0x610000 16 2) [(0x610000, 16)] = true) ∧
    keyed (cipher 0x10 0 9) [1, 2] uEnc = true ∧ keyed (cipher 0x11 0 9) [1, 2] uDec = true ∧
    keyed (cipher 0x12 2 10) [3, 4] uEnc = true ∧ keyed (cipher 0x13 2 10) [3, 4] uDec = true ∧
    xtsLen (cipher 0x12 2 10) = true ∧ xtsLen (cipher 0x13 2 10) = true ∧
    keyed (cipher 0x14 0 9) [1, 2] (uEnc + uDec) = true := by decide +kernel

theorem witness_CipherJobs_digests : (∀ p ∈ [(0x20, 0), (0x21, 11)],
      runs (cipher p.1 0 p.2) p.1 = true ∧ digestLen ((cipher p.1 0 p.2).param % 16) = 32 ∧
      32 ≤ (cipher p.1 0 p.2).dstLen ∧
      answers (dstRuns (js (cipher p.1 0 p.2)) (cipher p.1 0 p.2) 0x610000 32 2) [(0x610000, 32)] = true) ∧
    keyed (cipher 0x21 0 11) [5] (uSign + uVerify) = true := by decide +kernel

/-- The shortest destination of random bytes, and the longest. -/
theorem witness_CipherJobs_random : ∀ n ∈ [1, 65536], runs (job 0x40 0 0 n 0 0 0) 0x40 = true ∧
    1 ≤ (job 0x40 0 0 n 0 0 0).dstLen ∧ (job 0x40 0 0 n 0 0 0).dstLen ≤ 65536 ∧
    (vget (js (job 0x40 0 0 n 0 0 0)).eng.drbg Drbg.reset 0).ok = true ∧
    answers (dstRuns (js (job 0x40 0 0 n 0 0 0)) (job 0x40 0 0 n 0 0 0) 0x610000 n 2) [(0x610000, n)] = true := by
  decide +kernel

/-! ### KeyJobs -/

theorem witness_KeyJobs_sign : ∀ p ∈ [(0x30, 12, 64, [8]), (0x32, 13, 64, [9, 0xA]), (0x34, 14, 3309, [0xB])],
    let x := job p.1 0 16 3309 (kh p.2.1) 0 0
    runs x p.1 = true ∧ keyed x p.2.2.2 uSign = true ∧ x.param = 0 ∧
      answers (srcBytes (js x) x 0x600000 16 1) (List.replicate 16 0) = true ∧
      (vget (js x).eng.drbg Drbg.reset 0).ok = true ∧ (js x).mode.mode ≠ .compat ∧ p.2.2.1 ≤ x.dstLen ∧
      ((Tab.look (js x).eng.keys p.2.1).map fun k => sigLen k.ty) = some p.2.2.1 ∧
      answers (dstRuns (js x) x 0x610000 p.2.2.1 2) [(0x610000, p.2.2.1)] = true ∧
      answers (srcBytes (js x) x 0x620000 (x.param % 256) 3) [] = true := by decide +kernel

theorem witness_KeyJobs_verify : (∀ p ∈ [(0x31, 12, [8]), (0x33, 13, [9, 0xA])],
      let x := job p.1 0 16 0 (kh p.2.1) 0 64
      runs x p.1 = true ∧ keyed x p.2.2 uVerify = true ∧ x.flag 2 = false ∧ x.param = 0 ∧
        answers (srcBytes (js x) x 0x620000 64 3) (List.replicate 64 0) = true) ∧
    (let x := job 0x35 0 16 3309 (kh 14) 0 0
     runs x 0x35 = true ∧ keyed x [0xB] uVerify = true ∧ x.flag 2 = false ∧
       answers (srcBytes (js x) x 0x610000 3309 2) (List.replicate 3309 0) = true) := by decide +kernel

theorem witness_KeyJobs_kem :
    let x := job 0x36 0 0 1120 (kh 15) 0 0
    let y := job 0x37 0 1088 32 (kh 15) 0 0
    runs x 0x36 = true ∧ keyed x [0xC] uKem = true ∧ x.key2 = 0 ∧ x.flag 2 = false ∧ 1120 ≤ x.dstLen ∧
      answers (srcBytes (js x) x 0x600000 0 1) [] = true ∧
      answers (dstRuns (js x) x 0x610000 1088 2) [(0x610000, 1088)] = true ∧
      answers (dstRuns (js x) x (0x610000 + 1088) 32 2) [(0x610000 + 1088, 32)] = true ∧ runs y 0x37 = true ∧
      keyed y [0xC] uKem = true ∧ y.key2 = 0 ∧ y.srcLen = 1088 ∧ 32 ≤ y.dstLen ∧
      answers (srcBytes (js y) y 0x600000 1088 1) (List.replicate 1088 0) = true ∧
      answers (dstRuns (js y) y 0x610000 32 2) [(0x610000, 32)] = true := by decide +kernel

/-- Slot 20 is empty: a key of 16 bytes is imported, unwrapped and generated there. -/
theorem witness_KeyJobs_load :
    let a := job 0x60 0xFF01 16 0 0 20 0
    let b := job 0x61 0xFF01 24 0 (kh 9) 20 0
    let c := job 0x63 0xFF01 0 0 0 20 0
    (runs a 0x60 = true ∧ answers (loadParam (js a) a) 16 = true ∧ answers (targetSlot (js a) a) 20 = true ∧
      a.srcLen = 16 ∧ answers (srcBytes (js a) a 0x600000 16 1) (List.replicate 16 0) = true) ∧
    (runs b 0x61 = true ∧ answers (loadParam (js b) b) 16 = true ∧ answers (targetSlot (js b) b) 20 = true ∧
      b.srcLen = 16 + 8 ∧ keyed b [1, 2] uUnwrap = true ∧
      answers (srcBytes (js b) b 0x600000 24 1) (List.replicate 24 0) = true) ∧
    (runs c 0x63 = true ∧ answers (loadParam (js c) c) 16 = true ∧ answers (targetSlot (js c) c) 20 = true ∧
      (vget (js c).eng.drbg Drbg.reset 0).ok = true) := by decide +kernel

theorem witness_KeyJobs_rest :
    let a := job 0x62 0 0 100 (kh 9) (kh 9) 0
    let b := job 0x64 0 0 4000 (kh 12) 0 0
    let c := job 0x65 0 0 0 0 (kh 9) 0
    let k : KeySlot := ⟨1, 0xFF, List.replicate 32 5⟩
    (runs a 0x62 = true ∧ keyed a [1, 2] uWrap = true ∧ answers (useKey (js a) a a.key2) (9, k) = true ∧
      compatType (js a) k.ty = false ∧ k.usage.getLsbD 1 = true ∧ k.secret.length + 8 ≤ a.dstLen ∧
      answers (dstRuns (js a) a 0x610000 40 2) [(0x610000, 40)] = true) ∧
    (runs b 0x64 = true ∧ keyed b [8, 9, 0xA, 0xB, 0xC] 0 = true ∧ publicLen 8 ≤ b.dstLen ∧
      answers (dstRuns (js b) b 0x610000 (publicLen 8) 2) [(0x610000, publicLen 8)] = true) ∧
    (runs c 0x65 = true ∧ answers (useKey (js c) c c.key2) (9, k) = true) := by decide +kernel

/-! ### EngineFaults -/

theorem witness_EngineFaults :
    let s := { engS with eng := { engS.eng with
      zips := engS.eng.zips.set 3 { failed := false, restarting := false, stops := [0, 0] },
      drbg := #v[⟨true, false, 0, 1000⟩, ⟨false, true, 0, 0⟩] } }
    (zipAt engS 3).failed = false ∧ (∀ j ∈ engS.eng.jobs, j.2.zip ≠ some 3) ∧ (zipAt engS 3).stops = [] ∧
      (zipAt s 3).stops = [s.time.transit.toNat, s.time.transit.toNat] ∧ (zipAt s 3).failed = false ∧
      s.eng.drbg[(0 : Fin 2)].ok = true ∧ s.eng.drbg[(0 : Fin 2)].ticks ≥ 1000 ∧
      s.eng.drbg[(1 : Fin 2)].healthFail = true := by decide +kernel

end Sys2Proof.Tests
end

