-- ==== Sys2Proof/Tests/WitnessIntegers.lean ====
section
/-! SUPPORT. Concrete states and operands that meet the hypotheses of the statements about integer instructions,
loads and stores, control, repeats, strings and decimal. -/

namespace Sys2Proof.Tests

-- One test at a time: the kernel evaluates each, and none waits in a thread of its own.
set_option Elab.async false

open Sys2Proof.Machine

/-! ### IntegerOfTwo, IntegerOfOne, IntegerOfMore, Branches -/

def sInt : State := withG op [(1, 0xFFFFFFFFFFFFFFF0), (2, 0x123), (4, 0x9999999999999999)]

def uInt : State := begun sInt 0 {}

theorem begins_sInt : Begins sInt 0 {} uInt := begins_of (by decide +kernel)

theorem witness_IntegerOfTwo : Begins sInt 0 {} uInt ∧ gOf uInt 0 1 = 0xFFFFFFFFFFFFFFF0 := ⟨begins_sInt, by decide +kernel⟩

/-- The last immediate that SHI takes, and the first that it refuses. -/
theorem witness_IntegerOfOne : Begins sInt 0 {} uInt ∧ (255 : BitVec 16).toNat < 256 := ⟨begins_sInt, by decide⟩

theorem witness_IntegerOfOne_refused : 256 ≤ (256 : BitVec 16).toNat ∧ lpReady sInt 0 = true ∧
    prepare sInt 0 false = some (prep sInt 0 false) ∧
    fetchInstr 0 4 (prep sInt 0 false) = .ok () (fetched sInt 0 false 4) ∧
    closeRoom (lpAt (prep sInt 0 false) 0) = true :=
  ⟨by decide, by decide +kernel, prep_of (by decide +kernel), ok_of (by decide +kernel), by decide +kernel⟩

/-- Two results in one register where that is G0, wide results in the last pair and the last quad. -/
theorem witness_IntegerOfMore : Begins sInt 0 {} uInt ∧ ((0 : Fin 32) ≠ 0 ∨ (0 : Fin 32) = 0) ∧ (30 : Fin 32).val % 2 = 0 ∧
    (4 : Fin 32).val % 2 = 0 ∧ (8 : Fin 32).val % 2 = 0 ∧ (28 : Fin 32).val % 4 = 0 ∧
    (28 : Fin 32).val / 4 ≠ (4 : Fin 32).val / 4 ∧ (28 : Fin 32).val / 4 ≠ (8 : Fin 32).val / 4 :=
  ⟨begins_sInt, by decide, by decide, by decide, by decide, by decide, by decide, by decide⟩

/-- The target of JR is a word. -/
theorem witness_Branches : Begins sInt 0 {} uInt ∧ (gOf uInt 0 1).toNat % 4 = 0 := ⟨begins_sInt, by decide +kernel⟩

/-! ### LoadsComplete, StoresComplete -/

/-- Bytes at the end of a page and beyond it. -/
def sMem : State := withG (memWrite op 0x1FFFFF (bytesUp 16)) [(5, 0x1122334455667788), (6, 0x200000)]

def uMem : State := begun sMem 0 {}

theorem begins_sMem : Begins sMem 0 {} uMem := begins_of (by decide +kernel)

/-- Bytes loaded at the effective address of displacement −1 leave this. -/
def loadLeft (n : Nat) : State := left (operand 0 .load 0x1FFFFF n false (advanced uMem 0 4))

theorem address_sMem : gOf uMem 0 6 + (0xFFFF : BitVec 16).signExtend 64 = 0x1FFFFF := by decide +kernel

theorem witness_LoadsComplete_byte : Loads uMem 0 0x1FFFFF 1 false [1] (loadLeft 1) :=
  loads_of [⟨0x1FFFFF, 1, .normal⟩] (by decide +kernel) (by decide +kernel) (by decide +kernel) (by decide +kernel)

theorem witness_LoadsComplete_half : Loads uMem 0 0x1FFFFF 2 false [1, 2] (loadLeft 2) :=
  loads_of [⟨0x1FFFFF, 1, .normal⟩, ⟨0x200000, 1, .normal⟩] (by decide +kernel) (by decide +kernel) (by decide +kernel)
    (by decide +kernel)

theorem witness_LoadsComplete_word : Loads uMem 0 0x1FFFFF 4 false (bytesUp 4) (loadLeft 4) :=
  loads_of [⟨0x1FFFFF, 1, .normal⟩, ⟨0x200000, 3, .normal⟩] (by decide +kernel) (by decide +kernel) (by decide +kernel)
    (by decide +kernel)

theorem witness_LoadsComplete_double : Loads uMem 0 0x1FFFFF 8 false (bytesUp 8) (loadLeft 8) ∧ (6 : Fin 32) ≠ 5 ∧
    (6 : Fin 32) ≠ 0 :=
  ⟨loads_of [⟨0x1FFFFF, 1, .normal⟩, ⟨0x200000, 7, .normal⟩] (by decide +kernel) (by decide +kernel) (by decide +kernel)
    (by decide +kernel), by decide, by decide⟩

theorem witness_LoadsComplete_quad : Loads uMem 0 0x1FFFFF 16 false (bytesUp 16) (loadLeft 16) ∧
    uMem.mode.mode ≠ .compat :=
  ⟨loads_of [⟨0x1FFFFF, 1, .normal⟩, ⟨0x200000, 15, .normal⟩] (by decide +kernel) (by decide +kernel) (by decide +kernel)
    (by decide +kernel), by decide +kernel⟩

/-- With translation on, as a User access. -/
def sUser : State := withG te [(6, 0x200000)]

def uUser : State := begun sUser 0 {}

theorem witness_LoadsComplete_user : Begins sUser 0 {} uUser ∧
    Loads uUser 0 0x200010 8 true (List.replicate 8 0) (left (operand 0 .load 0x200010 8 true (advanced uUser 0 4))) ∧
    1 ≤ privOf (archOf uUser 0).psws ∧ bit (archOf uUser 0).psws 60 = true :=
  ⟨begins_of (by decide +kernel), loads_of [⟨0x200010, 8, .normal⟩] (by decide +kernel) (by decide +kernel)
    (by decide +kernel) (by decide +kernel), by decide +kernel, by decide +kernel⟩

theorem witness_StoresComplete_byte : ∃ w, Saves uMem 0 0x1FFFFF 1 false (gOf uMem 0 5).toNat w :=
  saves_of [⟨0x1FFFFF, 1, .normal⟩] (by decide +kernel) (by decide +kernel) (by decide +kernel)

theorem witness_StoresComplete_half : ∃ w, Saves uMem 0 0x1FFFFF 2 false (gOf uMem 0 5).toNat w :=
  saves_of [⟨0x1FFFFF, 1, .normal⟩, ⟨0x200000, 1, .normal⟩] (by decide +kernel) (by decide +kernel) (by decide +kernel)

theorem witness_StoresComplete_word : (∃ w, Saves uMem 0 0x1FFFFF 4 false (gOf uMem 0 5).toNat w) ∧
    ∃ w, Saves uMem 0 0x1FFFFF 4 false (((archOf uMem 0).getF 5).toNat / 2 ^ 96) w :=
  ⟨saves_of [⟨0x1FFFFF, 1, .normal⟩, ⟨0x200000, 3, .normal⟩] (by decide +kernel) (by decide +kernel) (by decide +kernel),
   saves_of [⟨0x1FFFFF, 1, .normal⟩, ⟨0x200000, 3, .normal⟩] (by decide +kernel) (by decide +kernel) (by decide +kernel)⟩

theorem witness_StoresComplete_double : (∃ w, Saves uMem 0 0x1FFFFF 8 false (gOf uMem 0 5).toNat w) ∧
    ∃ w, Saves uMem 0 0x1FFFFF 8 false (((archOf uMem 0).getF 5).toNat / 2 ^ 64) w :=
  ⟨saves_of [⟨0x1FFFFF, 1, .normal⟩, ⟨0x200000, 7, .normal⟩] (by decide +kernel) (by decide +kernel) (by decide +kernel),
   saves_of [⟨0x1FFFFF, 1, .normal⟩, ⟨0x200000, 7, .normal⟩] (by decide +kernel) (by decide +kernel) (by decide +kernel)⟩

theorem witness_StoresComplete_quad : ∃ w, Saves uMem 0 0x1FFFFF 16 false ((archOf uMem 0).getF 5).toNat w :=
  saves_of [⟨0x1FFFFF, 1, .normal⟩, ⟨0x200000, 15, .normal⟩] (by decide +kernel) (by decide +kernel) (by decide +kernel)

theorem witness_StoresComplete_user : ∃ w, Saves uUser 0 0x200010 8 true (gOf uUser 0 5).toNat w :=
  saves_of [⟨0x200010, 8, .normal⟩] (by decide +kernel) (by decide +kernel) (by decide +kernel)

/-! ### ControlCompletes, CallsEnter, ProgramExceptions -/

/-- Saved PSWs that a return may take: User state from Manager state. -/
def sCtl : State := updLp (withG op [(1, 0x12345)]) 0 fun x =>
  { x with arch := { x.arch with c := (x.arch.c.set 19 0x300).set 20 0x8000000000000000 } }

def uCtl : State := begun sCtl 0 .serial

theorem begins_sCtl : Begins sCtl 0 .serial uCtl := begins_of (by decide +kernel)

theorem witness_ControlCompletes_time : Begins sInt 0 {} uInt ∧ (30 : Fin 32).val % 2 = 0 := ⟨begins_sInt, by decide⟩

theorem witness_ControlCompletes_fences : Begins sCtl 0 .serial uCtl ∧ storesDone (advanced uCtl 0 4) 0 = true :=
  ⟨begins_sCtl, by decide +kernel⟩

/-- The first and the last control register, the one that is read only, and one that takes any value. -/
theorem witness_ControlCompletes_control : Begins sCtl 0 .serial uCtl ∧
    (∀ c ∈ ([0, 13, 27] : List (Fin 32)), c ≠ 14 ∧ c ≠ 15 ∧ c.val < 28 ∧
      (if c.val < 16 then 1 else 2) ≤ privOf (archOf uCtl 0).psws) ∧
    refusesC (advanced uCtl 0 4) 0 3 (gOf uCtl 0 1) = none :=
  ⟨begins_sCtl, by decide +kernel, by decide +kernel⟩

theorem witness_ControlCompletes_return : Begins sCtl 0 .serial uCtl ∧ privOf (archOf uCtl 0).psws = 2 ∧
    privOf (archOf uCtl 0).c[20] = 2 := ⟨begins_sCtl, by decide +kernel, by decide +kernel⟩

/-- SVC and MCALL by the processor, and a word whose opcode no instruction has. -/
theorem witness_CallsEnter : lpReady sCtl 0 = true ∧ prepare sCtl 0 true = some (prep sCtl 0 true) ∧
    fetchInstr 0 4 (prep sCtl 0 true) = .ok () (fetched sCtl 0 true 4) ∧
    closeRoom (lpAt (fetched sCtl 0 true 4) 0) = true ∧ 1 ≤ privOf (archOf (fetched sCtl 0 true 4) 0).psws :=
  ⟨by decide +kernel, prep_of (by decide +kernel), ok_of (by decide +kernel), by decide +kernel, by decide +kernel⟩

theorem witness_CallsEnter_unassigned : prepare sCtl 0 false = some (prep sCtl 0 false) ∧
    assignedWord 0 = false ∧ assignedWord 0xFFFFFFFF = false ∧
    fetchInstr 0 4 (prep sCtl 0 false) = .ok () (fetched sCtl 0 false 4) ∧
    fetchInstr 0 8 (prep sCtl 0 false) = .ok () (fetched sCtl 0 false 8) ∧
    closeRoom (lpAt (prep sCtl 0 false) 0) = true :=
  ⟨prep_of (by decide +kernel), by decide +kernel, by decide +kernel, ok_of (by decide +kernel), ok_of (by decide +kernel),
   by decide +kernel⟩

/-- The processor in User state of partition 3, whose zone table is at 40000h. -/
def sGuest : State :=
  updLp (w8 (setCell op (regKey mapPage 0x108 0) 0x8003000000000000) 0x40000 0x8000000040000000) 0 fun x =>
    { x with arch := { x.arch with psws := 0, c := (x.arch.c.set 16 3).set 17 0x40000 } }

theorem witness_ProgramExceptions_privilege : lpReady sGuest 0 = true ∧
    prepare sGuest 0 true = some (prep sGuest 0 true) ∧
    fetchInstr 0 4 (prep sGuest 0 true) = .ok () (fetched sGuest 0 true 4) ∧
    privOf (archOf (fetched sGuest 0 true 4) 0).psws < 1 ∧ closeRoom (lpAt (prep sGuest 0 true) 0) = true :=
  ⟨by decide +kernel, prep_of (by decide +kernel), ok_of (by decide +kernel), by decide +kernel, by decide +kernel⟩

/-- Compatibility operating. -/
def sCompat : State := { op with mode := { op.mode with mode := .compat } }

theorem witness_ProgramExceptions_compat : (repBody 0 (.addi 0 3 3 1)).atomic = false ∧ lpReady sCompat 0 = true ∧
    (∀ b, prepare sCompat 0 b = some (prep sCompat 0 b)) ∧
    fetchInstr 0 8 (prep sCompat 0 false) = .ok () (fetched sCompat 0 false 8) ∧
    fetchInstr 0 4 (prep sCompat 0 false) = .ok () (fetched sCompat 0 false 4) ∧
    (fetched sCompat 0 false 4).mode.mode = .compat ∧ (fetched sCompat 0 false 8).mode.mode = .compat ∧
    closeRoom (lpAt (prep sCompat 0 false) 0) = true :=
  ⟨by decide +kernel, by decide +kernel, fun b => prep_of (by cases b <;> decide +kernel), ok_of (by decide +kernel),
   ok_of (by decide +kernel), by decide +kernel, by decide +kernel, by decide +kernel⟩

theorem witness_ProgramExceptions_unused : (1 : Fin 32) ≠ 0 ∧ lpReady sInt 0 = true ∧
    prepare sInt 0 false = some (prep sInt 0 false) ∧
    fetchInstr 0 4 (prep sInt 0 false) = .ok () (fetched sInt 0 false 4) ∧ closeRoom (lpAt (prep sInt 0 false) 0) = true :=
  ⟨by decide, by decide +kernel, prep_of (by decide +kernel), ok_of (by decide +kernel), by decide +kernel⟩

/-! ### RepeatPrefix -/

def repI : Form := { len := 8, rep := true }

def repN : Form := { repI with before := true, after := true }

/-- A count of 64, which one REP.N performs whole. -/
def sRep : State := withG op [(2, 64), (3, 10)]

theorem witness_RepeatPrefix : (2 : Fin 32) ≠ 0 ∧ (3 : Fin 32) ≠ 2 ∧ Begins sRep 0 repI (begun sRep 0 repI) ∧
    (begun sRep 0 repI).mode.mode ≠ .compat :=
  ⟨by decide, by decide, begins_of (by decide +kernel), by decide +kernel⟩

theorem witness_RepeatPrefix_all : Begins sRep 0 repN (begun sRep 0 repN) ∧ (lpAt (begun sRep 0 repN) 0).repN = none ∧
    (gOf (begun sRep 0 repN) 0 2).toNat ≤ 64 :=
  ⟨begins_of (by decide +kernel), by decide +kernel, by decide +kernel⟩

/-! ### StringsComplete, DecimalCompletes -/

/-- Two fields: the first three bytes of an overlap and packed numbers. -/
def sDec : State :=
  withG (memWrite (memWrite op 0x300000 [0x12, 0x34, 0x5C]) 0x400000 [0x01, 0x2D]) [(6, 0x300000), (7, 0x400000)]

def uDec : State := begun sDec 0 xForm

theorem begins_sDec : Begins sDec 0 xForm uDec := begins_of (by decide +kernel)

/-- The two operands of an instruction at the addresses of the two fields. -/
def op1 (n : Nat) (acc : Access) : XOp := ⟨0x300000, n, acc⟩
def op2 (n : Nat) (acc : Access) : XOp := ⟨0x400000, n, acc⟩
def here (a n : Nat) : List Piece := [⟨a, n, .normal⟩]
def pre2 (x y : XOp) : State := left (pretest2 0 x y (advanced uDec 0 8))

theorem witness_StringsComplete_compare : Begins sDec 0 xForm uDec ∧
    Both uDec 0 (op1 2 .load) (op2 2 .load) (here 0x300000 2) (here 0x400000 2) [0x12, 0x34] [0x01, 0x2D]
      (pre2 (op1 2 .load) (op2 2 .load)) :=
  ⟨begins_sDec, both_of (by decide +kernel) (by decide +kernel) (by decide +kernel)⟩

theorem witness_StringsComplete_move :
    Both uDec 0 (op1 2 .store) (op2 2 .load) (here 0x300000 2) (here 0x400000 2) [0x12, 0x34] [0x01, 0x2D]
      (pre2 (op1 2 .store) (op2 2 .load)) ∧
    ∃ w, Stores (pre2 (op1 2 .store) (op2 2 .load)) 0 (here 0x300000 2)
      (byteWise (fun _ y => y) (lpByte (pre2 (op1 2 .store) (op2 2 .load)) (lpAt (pre2 (op1 2 .store) (op2 2 .load)) 0))
        ((pieceAddrs (here 0x300000 2)).zip (pieceAddrs (here 0x400000 2))) []) w :=
  ⟨both_of (by decide +kernel) (by decide +kernel) (by decide +kernel), _, ok_of (by decide +kernel)⟩

/-- Two packed operands, their sum stored. -/
theorem witness_DecimalCompletes_packed : Begins sDec 0 xForm uDec ∧ uDec.mode.mode ≠ .compat ∧
    Both uDec 0 (op1 3 .store) (op2 2 .load) (here 0x300000 3) (here 0x400000 2) [0x12, 0x34, 0x5C] [0x01, 0x2D]
      (pre2 (op1 3 .store) (op2 2 .load)) ∧
    parseDec .packed [0x12, 0x34, 0x5C] = .ok 12345 ∧ parseDec .packed [0x01, 0x2D] = .ok (-12) ∧
    (∃ w, Stores (pre2 (op1 3 .store) (op2 2 .load)) 0 (here 0x300000 3) (storeDec .packed 12333 3) w) ∧
    decOverflows .packed 12333 3 = false :=
  ⟨begins_sDec, by decide +kernel, both_of (by decide +kernel) (by decide +kernel) (by decide +kernel),
   except_of (by decide +kernel), except_of (by decide +kernel), ⟨_, ok_of (by decide +kernel)⟩, by decide +kernel⟩

/-- A binary field of eight bytes and a packed one. -/
theorem witness_DecimalCompletes_binary : 8 ∈ [8, 16, 32, 64] ∧
    Both uDec 0 (op1 8 .store) (op2 2 .load) (here 0x300000 8) (here 0x400000 2) [0x12, 0x34, 0x5C, 0, 0, 0, 0, 0]
      [0x01, 0x2D] (pre2 (op1 8 .store) (op2 2 .load)) ∧
    (∃ w, Stores (pre2 (op1 8 .store) (op2 2 .load)) 0 (here 0x300000 8) (beBytes 8 (BitVec.ofInt 64 (-12)).toNat) w) ∧
    Both uDec 0 (op1 3 .store) (op2 8 .load) (here 0x300000 3) (here 0x400000 8) [0x12, 0x34, 0x5C]
      [0x01, 0x2D, 0, 0, 0, 0, 0, 0] (pre2 (op1 3 .store) (op2 8 .load)) :=
  ⟨by decide, both_of (by decide +kernel) (by decide +kernel) (by decide +kernel), ⟨_, ok_of (by decide +kernel)⟩,
   both_of (by decide +kernel) (by decide +kernel) (by decide +kernel)⟩

theorem witness_DecimalCompletes_zoned : parseDec .zoned [0x31, 0x32, 0xC3] = .ok 123 := except_of (by decide +kernel)

theorem witness_DecimalCompletes_divide :
    Both uDec 0 (op1 3 .store) (op2 2 .store) (here 0x300000 3) (here 0x400000 2) [0x12, 0x34, 0x5C] [0x01, 0x2D]
      (pre2 (op1 3 .store) (op2 2 .store)) ∧ (-12 : Int) ≠ 0 ∧
    ∃ w w', Stores (pre2 (op1 3 .store) (op2 2 .store)) 0 (here 0x300000 3) (storeDec .packed (-1028) 3) w ∧
      Stores w 0 (here 0x400000 2) (storeDec .packed 9 2) w' :=
  ⟨both_of (by decide +kernel) (by decide +kernel) (by decide +kernel), by decide, _, _, ok_of (by decide +kernel),
   ok_of (by decide +kernel)⟩

theorem witness_DecimalCompletes_compare :
    Both uDec 0 (op1 3 .load) (op2 2 .load) (here 0x300000 3) (here 0x400000 2) [0x12, 0x34, 0x5C] [0x01, 0x2D]
      (pre2 (op1 3 .load) (op2 2 .load)) := both_of (by decide +kernel) (by decide +kernel) (by decide +kernel)

theorem witness_DecimalCompletes_shift :
    pretest 0 (op1 3 .store) (advanced uDec 0 8) = .ok (here 0x300000 3) (left (pretest 0 (op1 3 .store) (advanced uDec 0 8))) ∧
    Reads (left (pretest 0 (op1 3 .store) (advanced uDec 0 8))) 0 0x300000 (here 0x300000 3) [0x12, 0x34, 0x5C] ∧
    (0x30 : BitVec 8).toNat / 16 ≤ 3 ∧ (0x30 : BitVec 8).toNat % 16 = 0 :=
  ⟨ok_of (by decide +kernel), reads_of (by decide +kernel), by decide, by decide⟩

theorem witness_DecimalCompletes_digits : Begins sInt 0 {} uInt ∧ regDigits (gOf uInt 0 4) = some 9999999999999999 ∧
    regDigits (gOf uInt 0 2) = some 123 := ⟨begins_sInt, by decide +kernel, by decide +kernel⟩

end Sys2Proof.Tests
end

