-- ==== Sys2Proof/Tests/WitnessModes.lean ====
section
/-! SUPPORT. Concrete states and operands that meet the hypotheses of the statements about partitions, modes, the control
store, power feeds and the gate of stores. -/

namespace Sys2Proof.Tests

-- One test at a time: the kernel evaluates each, and none waits in a thread of its own.
set_option Elab.async false

open Sys2Proof.Machine

/-! ### PartitionCommands -/

theorem mayCommand_of {s : State} {m : Master} {p : Nat} (h : writable s m p = true)
    (c : Tab.read (fun _ => (0 : Word)) s.cmds p = 0) : MayCommand s m p := ⟨h, c⟩

/-- Partition 3 exists, with logical processor 0 and a start address. -/
def sPart (resetting : Bool) : State :=
  updPart (setCell (setCell (setCell op (regKey (partPage 3) 0x048) 1) (regKey (partPage 3) 0x0B0) 0x4567)
    (regKey (partPage 3) 0x040) 0x80000000) 3 fun x => { x with exists_ := true, resetting := resetting }

/-- A granule that partition 3 does not hold, one that it holds, and a job queue in use. -/
theorem witness_PartitionCommands_release :
    let h := setCell op (regKey mapPage 0x108 0) 0x0300000000000000
    let b := updJq (setCell op (regKey (partPage 3) 0x058) 8) 3 fun y => { y with en := true, tail := 3 }
    MayCommand op .portA (partPage 3) ∧ kindOk 5 0 = true ∧ holds op 3 5 0 = false ∧ MayCommand h .portA (partPage 3) ∧
      holds h 3 5 0 = true ∧ busy h 3 5 0 = false ∧ MayCommand b .portA (partPage 3) ∧ kindOk 2 3 = true ∧
      holds b 3 2 3 = true ∧ busy b 3 2 3 = true :=
  ⟨mayCommand_of (by decide +kernel) (by decide +kernel), by decide +kernel, by decide +kernel,
   mayCommand_of (by decide +kernel) (by decide +kernel), by decide +kernel, by decide +kernel,
   mayCommand_of (by decide +kernel) (by decide +kernel), by decide +kernel, by decide +kernel, by decide +kernel⟩

theorem witness_PartitionCommands_reset : MayCommand (sPart false) .portA (partPage 3) ∧
    (partAt (sPart false) 3).exists_ = true ∧ resetRuns (sPart false) 3 = false ∧ (partAt (sPart true) 3).exists_ = true ∧
    (partAt (sPart true) 3).resetting = true ∧ resetRuns (sPart true) 3 = false ∧
    cellField (sPart true) (partPage 3) 0x0B8 62 2 ≤ 1 ∧ (sPart true).mode.mode ≠ .init ∧
    (sPart true).mode.mode ≠ .load ∧ lpsOf (sPart true) 3 = 0 :: (lpsOf (sPart true) 3).drop 1 :=
  ⟨mayCommand_of (by decide +kernel) (by decide +kernel), by decide +kernel, by decide +kernel, by decide +kernel,
   by decide +kernel, by decide +kernel, by decide +kernel, by decide +kernel, by decide +kernel, by decide +kernel⟩

/-! ### PackageStarts -/

/-- Both feeds good in Standby. -/
def sby : State :=
  let f := State.reset.feed
  { State.reset with feed := { f with
      vsbOk := true, a := { f.a with st := .standby, bad := #v[false, false, false], pg := true },
      b := { f.b with st := .standby } } }

/-- Initialisation at a phase. -/
def ini (n : Nat) : State :=
  { State.reset with mode := { State.reset.mode with mode := .init, phase := n }, regs := [(regKey mapPage 0x048, 0)] }

/-- Phase 3 finds every channel with the same modules. -/
def pin0 : PhaseIn := { spds := (List.finRange 16).map spd16, badLanes := [], badLinks := [], clTrained := [], clAsym := [], slaveTod := none }

theorem witness_PackageStarts_commands :
    let p := { ini 2 with pen := { op.pen with holder := some .portA } }
    (writable sby .portA keeperPage = true ∧ Tab.read (fun _ => (0 : Word)) sby.cmds keeperPage = 0 ∧
      sby.mode.transition = .none ∧ sby.mode.mode = .standby ∧ feedGood sby = true ∧ sby.feed.vsbOk = true ∧
      sby.feed.trip = false ∧ sby.mode.pkgResetLow = false) ∧
    (writable p .portA keeperPage = true ∧ p.mode.transition = .none ∧ p.mode.mode = .init ∧ p.mode.phase = 2 ∧
      p.pen.holder = some .portA ∧ strikeOrdered p = false ∧ p.tap.used = false) := by decide +kernel

/-- The channel that IPL boots from is subchannel 5. -/
theorem witness_PackageStarts_ipl :
    let s := updLp (setCell (setCell io (regKey keeperPage 0x148) 5) (regKey mapPage 0x108 0) 0x8000000000000000) 0 fun x =>
      { x with run := .waiting }
    let b := removeStatus s (iplSch s)
    writable s .portA keeperPage = true ∧ s.mode.transition = .none ∧ running s = true ∧ (lpAt s lp0).run = .waiting ∧
      (startOp b (iplSch b) (newOp mgrCtx (bootBase b) 0 0 none true)).2 = 0 := by decide +kernel

/-- The package is one of two. -/
def multi : State := setCell (ini 5) (regKey mapPage 0x0C0) 0x30000

/-- What the other package says: it agrees, or differs in directory mode. -/
def cpl (directory : Bool) : Coupling :=
  { pkg := 1, present := 3, directory := directory, salt := 0, slave := true, reaches := true }

theorem witness_PackageStarts_phases :
    (∀ n ∈ [1, 3, 4, 5, 6], (ini n).mode.mode = .init ∧ (ini n).mode.stoppedAt = false ∧ (ini n).err.degKeeper = false ∧
      (ini n).mode.phase = n) ∧
    (ini 1).mode.warmResetLow = false ∧ (ini 1).mode.warm = false ∧ (∀ d ∈ pin0.spds, d.readable = true) ∧
    populationFault (ini 3) pin0.spds = none ∧ pin0.badLanes = [] ∧ pin0.badLinks = [] ∧ allHeard (ini 5) = true ∧
    isSlave (ini 5) = false ∧ (ini 6).mode.clear = none ∧ others multi ≠ [] ∧ multi.mode.phase = 5 ∧
    allHeard multi = false := by decide +kernel

theorem witness_PackageStarts_coupling :
    couplingFault multi (cpl false) = none ∧ (couplingFault multi (cpl true)).isSome = true := by decide +kernel

/-- Load with a verified image, and a start address. -/
def sLoad : State :=
  setCell (setCell { op with mode := { op.mode with mode := .load, phase := 0x10 }, cs := { op.cs with ver0 := true } }
    (regKey keeperPage 0x148) 0x80000000) (regKey keeperPage 0x150) 0x12345

theorem witness_PackageStarts_load : sLoad.mode.mode = .load ∧ slotVerified sLoad (currentSlot sLoad) = true ∧
    compat sLoad = false ∧ sLoad.mode.result ≠ 0x31 ∧ sLoad.err.degKeeper = false ∧ cellBit sLoad keeperPage 0x148 31 = true ∧ cellBit sLoad keeperPage 0x148 30 = false := by
  decide +kernel

/-! ### PackageStops, PackageLosses -/

/-- The pair of processor 0 runs it, or is halted. -/
def halted0 : State :=
  { updPair op 0 (fun x => { x with role := .halted }) with mode := { op.mode with mode := .serviceStop, back := .operating } }

theorem witness_PackageStops_commands :
    let c := { op with strike := { op.strike with st := .committed } }
    let k := { c with mode := { op.mode with mode := .checkstop } }
    writable op .portA keeperPage = true ∧ Tab.read (fun _ => (0 : Word)) op.cmds keeperPage = 0 ∧
      Master.portA ≠ .manager ∧ op.mode.mode ≠ .off ∧ op.mode.mode ≠ .standby ∧ op.mode.transition = .none ∧
      op.feed.vsbOk = true ∧ running op = true ∧ op.strike.st ≠ .committed ∧ warmAccepted op = true ∧ (pairAt op 0).role = .active ∧
      (pairAt op 0).lp = some 0 ∧ (pairAt op 0).haltDone = false ∧ (pairAt op 0).retrying = false ∧
      (∀ q ≠ 0, (pairAt op q).lp ≠ some 0) ∧ atBoundary op 0 = true ∧
      writable halted0 .portA keeperPage = true ∧ halted0.mode.transition = .none ∧
      halted0.mode.mode = .serviceStop ∧ (pairAt halted0 0).role = .halted ∧ (pairAt halted0 0).haltReq = false ∧
      writable c .portA keeperPage = true ∧ running c = true ∧ warmAccepted c = true ∧ c.strike.st = .committed ∧
      c.mode.mode ≠ .checkstop ∧ writable k .portA keeperPage = true ∧ warmAccepted k = true ∧
      k.mode.mode = .checkstop := by decide +kernel

/-- HOLD of a package that is alone: every processor stops at once, or one still waits at a fence. -/
theorem witness_PackageStops_hold :
    let held := fun (s : State) =>
      holdStop (releasePen { s with mode := { s.mode with transition := .hold, announced := false } })
    let w := updLp op 0 fun x => { x with wait := .fence .s }
    others op = [] ∧ running op = true ∧ allDrained (held op) = true ∧ others w = [] ∧ running w = true ∧
      allDrained (held w) = false := by decide +kernel

/-- The other package of two. -/
theorem witness_PackageStops_transitions :
    let w := { op with mode := { op.mode with transition := .warm, warmDrained := true, mode := .checkstop } }
    let d := { (allLps op).foldl stopLp op with mode := { op.mode with transition := .warm, warmDrained := true } }
    let n := setCell op (regKey mapPage 0x0C0) 0x30000
    let a := { n with mode := { n.mode with coupled := [1] } }
    let b := { n with mode := { n.mode with transition := .hold, announced := true, coupled := [1] } }
    w.mode.transition = .warm ∧ w.mode.warmDrained = true ∧ w.mode.mode = .checkstop ∧ d.mode.transition = .warm ∧
      d.mode.warmDrained = true ∧ allDrained d = true ∧ 1 ∈ others a ∧ a.mode.transition ≠ .hold ∧
      b.mode.transition = .hold ∧ b.mode.announced = true ∧ (∀ p ∈ others b, p = 1 ∨ p ∈ b.mode.flushed) ∧
      1 ∈ others b := by decide +kernel

/-- The longest pulse that is no reset, and the shortest that is one. -/
theorem witness_PackageStops_pins : 9979 < 9980 ∧ 10020 ≤ 10020 ∧ keeperRuns op = true ∧ op.feed.vsbOk = true ∧ warmAccepted op = true ∧
    warmAccepted sby = false := by decide +kernel

theorem witness_PackageLosses_errors :
    op.mode.mode ≠ .checkstop ∧ op.err.stopCode = 0 ∧ dieOn op 2 = true ∧ dieOn sby 2 = false ∧ classOf 0x8100 = 4 ∧
      pagePresent (mcPage 2) = true ∧ dieOn op (pageDie (mcPage 2)) = true := by decide +kernel

/-- The other package of two checkstops, in directory mode and in broadcast mode. -/
theorem witness_PackageLosses_other :
    let a := { op with mode := { op.mode with coupled := [1] } }
    let d := { setCell op (regKey mapPage 0x0C0) 0x80000000 with mode := a.mode }
    (∀ s ∈ [a, d], (1 : Fin 4).val ≠ pkgId s ∧ s.mode.coupled.contains 1 = true ∧ s.fenced.contains 1 = false ∧
      s.mode.mode ≠ .checkstop ∧ s.mode.transition ≠ .warm ∧ s.err.stopCode = 0) ∧ dirMode a = false ∧
      dirMode d = true := by decide +kernel

theorem witness_PackageLosses_power :
    let f := op.feed
    let b := { op with feed := { f with
      active := some true, b := { f.b with bad := #v[true, true, false] }, a := { f.a with bad := #v[true, true, true] } } }
    let h := { op with feed := { f with active := some false, hot := f.hot.set 2 10 } }
    let n := { op with feed := { f with active := none } }
    let o := { op with mode := { op.mode with mode := .off } }
    o.mode.mode = .off ∧ op.mode.mode ≠ .off ∧ b.feed.active.isSome = true ∧ n.feed.active = none ∧
      b.feed.active = some true ∧ 2 ≤ failVotes b (feedOf b true) ∧ keeperBad (feedOf b false) = true ∧
      keeperRuns h = true ∧ h.feed.active = some false ∧ h.feed.vsbOk = true ∧ ∃ d : Fin 7, 10 ≤ h.feed.hot[d] := by decide +kernel

/-! ### ControlStoreWorks -/

/-- A verified image of version 7 in slot 0. -/
def csS : State := { op with cs := { op.cs with ver0 := true, hdr0 := 0x0000000500070001, ver1 := false } }

/-- The last word of slot 1 is written next. -/
theorem witness_ControlStoreWorks_words :
    let s := setCell op (regKey (csPage 6) 0x040) 0x8000FFFF
    writable s .portA (csPage 6) = true ∧ portLost s .portA = false ∧ slotInUse s (field (cell s (regKey (csPage 6) 0x040)) 31 1) = false ∧
      s.cs.busy = none ∧ (match readService s .portA (csPage 6 * 4096 + 0x048) 8 with
      | .value _ => true
      | _ => false) = true := by decide +kernel

theorem witness_ControlStoreWorks_commands : writable csS .portA (csPage 6) = true ∧
    Tab.read (fun _ => (0 : Word)) csS.cmds (csPage 6) = 0 ∧ csS.cs.busy = none ∧
    slotVerified csS (currentSlot csS) = true ∧
    ((runImages csS).all fun w => decide (field (slotHdr csS (currentSlot csS)) 16 16 ≤ field w 16 16)) = true ∧
    slotVerified op (currentSlot op) = false := by decide +kernel

/-- An empty slot fails its form. That a slot passes rests on keys and signatures, which the model leaves free. -/
theorem witness_ControlStoreWorks_verify :
    let s := { csS with cs := { csS.cs with busy := some 1 } }
    keeperRuns s = true ∧ s.cs.busy = some 1 ∧ imageVerdict s 1 ≠ 1 ∧ domDie (.pair 3) = some 0 := by decide +kernel

/-- Microwords of each of the conditions named, and the last word of a store, after which its first follows. -/
theorem witness_ControlStoreWorks_sequencer :
    let s := { csS with cs := { csS.cs with words := [(0, 0x4352545300010001), (32, 0x0100000000000500),
      (33, 0x0000800000000000), (160, 0x10002000B000D000), (161, 0xF000000000000000)] } }
    StoreKind.core ≠ .rom ∧ StoreKind.cp ≠ .rom ∧ 0x3FFF + 1 = StoreKind.core.micro ∧
      ([0, 1, 2, 3, 4, 0x3FFF].map fun a => ucond (microword s .core 0 a)) = [1, 2, 0xB, 0xD, 0xF, 0] := by decide +kernel

/-- Updates are enabled, with a pair that runs an older image and with none. -/
def sUpd : State :=
  { setCell (setCell op (regKey (csPage 6) 0x084) 0x80000000) (regKey keeperPage 0x0C0) 0x80000001 with
    cs := { op.cs with ver0 := true, hdr0 := 0x0000000500070001, updating := true, still := 1000000 } }

theorem witness_ControlStoreWorks_update : updEnabled sUpd = true ∧ running sUpd = true ∧ sUpd.err.degKeeper = false ∧ sUpd.rotation = none ∧
    sUpd.cs.gap = 0 ∧ sUpd.mode.quiesce = false ∧ oldest sUpd ((oldPairs sUpd).filter (rotatable sUpd)) = some 0 ∧
    (bestFor sUpd 0 (all48.filter fun q => (pairAt sUpd q).role = .dormant && !(pairAt sUpd q).failed)).isSome = true ∧
    wearBudget sUpd 0 = true ∧ sUpd.cs.updating = true ∧ 1000000 ≤ sUpd.cs.still := by decide +kernel

theorem witness_ControlStoreWorks_channels :
    let s := { sUpd with pairs := sUpd.pairs.map fun x => { x with image := currentImage sUpd } }
    updEnabled s = true ∧ running s = true ∧ s.err.degKeeper = false ∧ oldPairs s = [] ∧
      ((oldCps s).find? fun c => c / 16 = 0).isSome = true ∧
      (((List.range 32).filter fun c => (cpAt s c).role = .spare).find? fun c => c / 16 = 0).isSome = true := by
  decide +kernel

/-! ### FeedsWork -/

/-- Two feeds in given states, the first otherwise as well. -/
def fd (a b : FeedSt) (act : Option Bool) (f : FeedIn → FeedIn) : State :=
  let f0 : FeedIn := { op.feed.a with bad := #v[false, false, false], pg := true }
  { op with feed := { op.feed with active := act, a := f { f0 with st := a }, b := { f0 with st := b } } }

theorem witness_FeedsWork_votes :
    let w := fun (x : FeedIn) => { x with bad := x.bad.set 1 true }
    let g := fun (x : FeedIn) => { x with bad := x.bad.set 2 false }
    let one := fun (x : FeedIn) => { x with bad := #v[true, false, false] }
    let sw := fd .active .standby (some false) one
    let sb := fd .standby .active (some true) one
    let fl := fd .failed .active (some true) fun x => { x with bad := #v[false, false, true] }
    keeperRuns sw = true ∧ keeperRuns sb = true ∧ keeperRuns fl = true ∧ sw.feed.active = some false ∧ 2 ≤ failVotes sw (w (feedOf sw false)) ∧ keeperBad (feedOf sw true) = false ∧
      sb.feed.active = some true ∧ failVotes sb (feedOf sb true) < 2 ∧ (feedOf sb false).st = .standby ∧
      2 ≤ failVotes sb (w (feedOf sb false)) ∧ fl.feed.active = some true ∧ failVotes fl (feedOf fl true) < 2 ∧
      (feedOf fl false).st = .failed ∧ inRange fl (g (feedOf fl false)) = true := by decide +kernel

theorem witness_FeedsWork_repair :
    let r := fd .repairing .active (some true) fun x => { x with repair := 100000, chat := true, quiet := 1000 }
    let k := fd .active .standby (some false) id
    keeperRuns r = true ∧ keeperRuns k = true ∧ (feedOf r false).pg ≠ false ∧ (feedOf r false).st = .repairing ∧ 100000 ≤ (feedOf r false).repair ∧
      inRange r (feedOf r false) = true ∧ (feedOf r false).chat = true ∧ 1000 ≤ (feedOf r false).quiet ∧
      writable k .portA feedPage = true ∧ Tab.read (fun _ => (0 : Word)) k.cmds feedPage = 0 ∧
      k.feed.active = some false ∧ (feedOf k true).st = .standby ∧ k.feed.trip = false := by decide +kernel

/-- The last step of the guardband, and its end. -/
theorem witness_FeedsWork_guardband :
    let s := { op with feed := { op.feed with vgb := #v[7, 8, 0, 0] } }
    keeperRuns s = true ∧ s.feed.vgb[(0 : Fin 4)] < 8 ∧ 8 ≤ s.feed.vgb[(1 : Fin 4)] := by decide +kernel

/-! ### MemoryKeepsItsForm, FusesOnlyRise -/

/-- A step answers a next state. -/
def steps (s : State) : Bool :=
  match step s with
  | .next _ => true
  | _ => false

theorem next_of {s : State} (h : steps s = true) : ∃ t, step s = .next t := by
  unfold steps at h
  split at h
  · exact ⟨_, by assumption⟩
  · simp at h

/-- A released store of a processor whose line is not cached is written to memory. -/
theorem witness_MemoryKeepsItsForm :
    let e : GateEntry := ⟨.uncached, 0x14000, [(0x500007, 3)], 128, 0⟩
    let s := { updLp (w8 op 0x500000 7) 0 (fun x => { x with released := [e] }) with pending := [.releasedEntryDrain 0] }
    Memory.wf s.mem ∧ s.mem ≠ [] ∧ ∃ t, step s = .next t :=
  ⟨by decide +kernel, by decide +kernel, next_of (by decide +kernel)⟩

/-- A key pair is revoked beside one that is revoked already. -/
theorem witness_FusesOnlyRise :
    let s := { op with fuses := { op.fuses with revoked := 1 }, pending := [.revokeKeyPair .portA 2] }
    s.fuses.revoked.getLsbD 0 = true ∧ ∃ t, step s = .next t := ⟨by decide +kernel, next_of (by decide +kernel)⟩

/-! ### EndOfInstruction, StoresForward -/

theorem witness_EndOfInstruction : ({} : Form).perform = false := rfl

/-- Bytes that end in the block after that of an entry already gated. -/
def sGate : State := updLp op 0 fun x => { x with gated := [⟨.normal, 0x14000, [(0x500007, 3)], 128, 0⟩] }

theorem witness_StoresForward :
    (∃ w, Stores sGate 0 [⟨0x50003F, ([1, 2] : List Byte).length, .normal⟩] [1, 2] w) ∧
    ((lpAt sGate 0).gated.map (·.blk)).Nodup ∧
    ∀ e ∈ (lpAt sGate 0).gated, 0x50003F / 64 ≤ e.blk → e.blk ≤ (0x50003F + ([1, 2] : List Byte).length) / 64 →
      e.ty = .normal ∧ e.ctx = lpCtx sGate 0 :=
  ⟨⟨_, ok_of (by decide +kernel)⟩, by decide +kernel, by decide +kernel⟩

end Sys2Proof.Tests
end

