-- ==== Sys2Proof/Tests/WitnessPairs.lean ====
section
/-! SUPPORT. Concrete states and operands that meet the hypotheses of the statements about core pairs, interruptions,
the channel subsystem and memory channels. -/

namespace Sys2Proof.Tests

-- One test at a time: the kernel evaluates each, and none waits in a thread of its own.
set_option Elab.async false

open Sys2Proof.Machine

/-! ### Mismatches, PairsMove -/

/-- Pair 0 otherwise. -/
def pr (f : Pair → Pair) : State := updPair op 0 f

theorem witness_Mismatches :
    let a := pr id
    let b := pr fun x => { x with cleanSince := false }
    let c := pr fun x => { x with retrying := true }
    (pairAt a 0).lp = some 0 ∧ (pairAt a 0).role = .active ∧ (pairAt a 0).cleanSince = true ∧
      inWindow a (pairAt a 0).window = [] ∧ (pairAt b 0).cleanSince = false ∧ b.rotation = none ∧
      bestFor b 0 (spares b) = some 5 ∧ (5 : Fin 48) ≠ 0 ∧ (pairAt c 0).retrying = true := by decide +kernel

theorem witness_PairsMove_sparing :
    let s := fun (x : Sparing) => { pr (fun x => { x with role := .leaving }) with sparings := [x] }
    let a := { updPair op 5 (fun x => { x with role := .preparing }) with sparings := [⟨0, 5, false, false, false⟩] }
    let b := s ⟨0, 5, false, true, false⟩
    let c := s ⟨0, 5, true, true, false⟩
    let d := s ⟨0, 5, true, true, true⟩
    a.sparings = [⟨0, 5, false, false, false⟩] ∧ a.rotation = none ∧ (pairAt a 5).role = .preparing ∧
      (pairAt a 5).powered = false ∧
      b.sparings = [⟨0, 5, false, true, false⟩] ∧ (pairAt b 0).lp = some 0 ∧
      gateEmpty (lpAt (drainStorage b 0) 0) = true ∧ c.sparings = [⟨0, 5, true, true, false⟩] ∧
      c.rotation = none ∧ d.sparings = [⟨0, 5, true, true, true⟩] ∧ (0 : Fin 48) ≠ 5 ∧ (pairAt d 0).lp = some 0 ∧
      (pairAt d 0).haltReq = false ∧ d.mode.quiesce = false := by decide +kernel

/-- A rotation at the end of its period, retried, and asked for. -/
theorem witness_PairsMove_rotation :
    let a := { setCell op (regKey keeperPage 0x0C0) 0x80000001 with rotAge := 8640000000 }
    let b := { a with rotRetry := some 0 }
    running a = true ∧ a.rotation = none ∧ oldest a (all48.filter (rotatable a)) = some 0 ∧
      (bestFor a 0 (all48.filter fun q => (pairAt a q).role = .dormant && !(pairAt a q).failed)).isSome = true ∧
      wearBudget a 0 = true ∧ cellBit a keeperPage 0x0C0 31 = true ∧ a.rotRetry = none ∧
      cellField a keeperPage 0x0C0 0 9 * 8640000000 ≤ a.rotAge ∧ b.rotRetry = some 0 ∧ b.rotAgain = none ∧
      (0 : BitVec 24).getLsbD 8 = false ∧ writable a .portA keeperPage = true ∧
      (Tab.look a.cmds keeperPage).isNone = true := by decide +kernel

theorem witness_PairsMove_stages :
    let r := fun (st : RotStage) => (⟨0, 6, st, 0, false, false⟩ : Rotation)
    let a := { op with rotation := some (r .cleaning) }
    let b := { op with rotation := some (r .switchDue) }
    let c := { pr (fun x => { x with role := .leaving }) with rotation := some (r .copied) }
    a.rotation = some (r .cleaning) ∧ (dirtyLines a 0).length ≤ 4096 ∧ b.rotation = some (r .switchDue) ∧
      (pairAt b 0).lp = some 0 ∧ b.mode.quiesce = false ∧ rotatable b 0 = true ∧ atBoundary b 0 = true ∧
      (pairAt b 0).retrying = false ∧ gateEmpty (lpAt (drainStorage (closeInterval b 0) 0) 0) = true ∧
      running b = true ∧ c.rotation = some (r .copied) ∧ c.mode.quiesce = false ∧ (pairAt c 0).lp = some 0 ∧
      (pairAt c 0).haltReq = false ∧ (0 : Fin 48) ≠ 6 := by decide +kernel

theorem witness_PairsMove_halt :
    let w := updLp op 0 fun x => { x with wait := .fence .s }
    let h := pr fun x => { x with role := .halted, haltReq := true }
    let k := pr fun x => { x with role := .stopped }
    (pairAt op 0).lp = some 0 ∧ writable op .portB (pairPage 0) = true ∧ (pairAt op 0).role = .active ∧
      (pairAt op 0).retrying = false ∧ atBoundary op 0 = true ∧ atBoundary w 0 = false ∧ (pairAt h 0).role = .halted ∧
      storesDone h 0 = true ∧ h.mode.transition ≠ .serviceStop ∧ h.mode.mode ≠ .serviceStop ∧
      (pairAt k 0).role = .stopped ∧ (Tab.look k.cmds (pairPage 0)).isNone = true := by decide +kernel

/-! ### InterruptionsEnter -/

/-- Processor 0 with a status word. -/
def ps (v : Word) (s : State) : State := updLp s 0 fun x => { x with arch := { x.arch with psws := v } }

/-- A machine check that is presented to processor 0. -/
def ck0 : Check := { ctx := 128, lp := some 0, seq := 5, cls := 2, held := false, ready := true }

/-- A subchannel with status, its interruption offered to processor 0. -/
def sOff : State :=
  { updLp (ps 0x8800000000000000 (updSch io 5 fun x => { x with status := some osw0, isc := 2 })) 0 (fun x =>
      { x with arch := { x.arch with c := x.arch.c.set 12 0x4 } }) with offers := [⟨.sch 5, 128, 2, 0, false⟩] }

theorem witness_InterruptionsEnter_check :
    let s := { updLp (ps 0x8200000000000000 op) 0 (fun x => { x with lines := [.check 5] }) with
      err := { op.err with checks := [ck0] } }
    checkFor s 0 = some ck0 := by decide +kernel

theorem witness_InterruptionsEnter_external :
    let p := updLp op 0 fun x => { x with partChanged := some 3 }
    let t := { updLp (ps 0x8400000000000000 op) 0 (fun x => { x with arch := { x.arch with c := x.arch.c.set 7 9 }, lines := [.tick] }) with
      time := { op.time with transit := 9 } }
    let g := updLp (ps 0x8400000000000000 op) 0 fun x => { x with signal := true, lines := [.signal] }
    (canTake p 0 = true ∧ checkFor p 0 = none ∧ (lpAt p 0).partChanged = some 3) ∧
    (canTake t 0 = true ∧ checkFor t 0 = none ∧ (lpAt t 0).partChanged = none ∧ extEnabled t 0 = true ∧
      intCtx t 0 = some 128 ∧ tickShown t 0 = true) ∧
    (canTake g 0 = true ∧ checkFor g 0 = none ∧ extEnabled g 0 = true ∧ intCtx g 0 = some 128 ∧ tickShown g 0 = false ∧
      signalShown g 0 = true) := by decide +kernel

theorem witness_InterruptionsEnter_io : canTake sOff 0 = true ∧ checkFor sOff 0 = none ∧
    (lpAt sOff 0).partChanged = none ∧ extEnabled sOff 0 = false ∧ ioFor sOff 0 = some ⟨.sch 5, 128, 2, 0, false⟩ := by
  decide +kernel

theorem witness_InterruptionsEnter_offers :
    let s := { sOff with offers := [] }
    s.mode.quiesce = false ∧ pendingIo s = [(.sch 5, 128, 2)] ∧ (pairAt s 0).lp = some 0 ∧
      nextLp s (.sch 5) 128 2 = some 0 ∧ pendingIo sOff = [(.sch 5, 128, 2)] ∧
      offerEnabled sOff 0 (.sch 5) 128 2 = true := by decide +kernel

/-- A record for the ring of partition 3. -/
def evRec0 : EvRec :=
  { code := 5, subunit := 1, page := keeperPage, transit := 3, owner := some 3, sync := false, held := false,
    absorbed := false, ovf := false, lp := none, kind := .none, addr := 0, detail := 0, count := 1, route := 1 }

theorem witness_InterruptionsEnter_ring :
    let s := { op with err := { op.err with ringWait := [⟨3, 7, evRec0⟩] } }
    let t := { setCell op (regKey (errlogPage 4) 0x048 3) 0x8000000000600000 with err := s.err }
    keeperRuns s = true ∧ keeperRuns t = true ∧ s.err.ringWait = [⟨3, 7, evRec0⟩] ∧ bit (cell s (regKey (errlogPage 4) 0x048 3)) 63 = false ∧
      t.err.ringWait = [⟨3, 7, evRec0⟩] ∧ bit (cell t (regKey (errlogPage 4) 0x048 3)) 63 = true ∧
      canWriteAll t [(0x600000 + 64 * 7, 64)] = true := by decide +kernel

/-! ### ChannelPrograms, ChannelHardware -/

/-- The partition of subchannel 5 owns its memory, and path 3 is bound to a function. -/
def ioc : State :=
  setCell (setCell io (regKey mapPage 0x108 0) 0x8000000000000000) (regKey (pciePage 0) 0x230) 0x8000000500000000

/-- An operation that runs at 500000h. -/
def o0 (f : Op → Op) : Op :=
  f { newOp 128 0x500000 7 0x80 none false with stage := .running, serial := 7, path := 3, pathsUsed := [3], index := 4 }

/-- Subchannel 5 runs an operation. -/
def ws (o : Op) : State :=
  let s := updSch ioc 5 fun x => { x with func := .start, serial := some 7 }
  { s with chan := { s.chan with
      ops := [(5, o)], cps := Vector.replicate 32 { role := .active, stops := [], heir := none, image := 0, seq := Seq.reset } } }

/-- A Command Word in memory. -/
def cwm (s : State) (cmd flags count addr : Nat) : State :=
  memWrite s 0x500000 (beBytes 1 cmd ++ beBytes 1 flags ++ beBytes 2 0 ++ beBytes 4 count ++ beBytes 8 addr)

/-- A Command Word that is right, and one that is not. -/
theorem witness_ChannelPrograms_fetch :
    let o := o0 id
    let s := cwm (ws o) 0x11 0 16 0x600000
    let t := cwm (ws o) 0x15 0 16 0x600000
    let u := (inlineAssign s 5 o).1
    let v := (inlineAssign t 5 o).1
    opAt s 5 = some o ∧ (cpAt s o.cp).role = .active ∧ (cpAt t o.cp).role = .active ∧ o.fetchDue = true ∧ o.ending = none ∧ o.halt = false ∧ o.cancel = none ∧ o.stage = .running ∧
      o.resync = false ∧ o.ipl = false ∧ (inlineAssign s 5 o).2 = false ∧ opDram u o.ctx o.cwaddr 16 = some 0x500000 ∧
      anyPoison u 0x500000 16 = false ∧ cwFault u 0x500000 o (readCw u 0x500000) = 0 ∧ opAt t 5 = some o ∧
      opDram v o.ctx o.cwaddr 16 = some 0x500000 ∧ anyPoison v 0x500000 16 = false ∧
      cwFault v 0x500000 o (readCw v 0x500000) ≠ 0 := by decide +kernel

theorem witness_ChannelPrograms_endings :
    let a := o0 fun o => { o with ending := some osw0 }
    let b := o0 fun o => { o with stage := .waiting, waited := cellField ioc (cssPage 0) 0x040 0 12 * 100000 }
    let c := o0 fun o => { o with cancel := some (8, 1), cancelSeq := some 3 }
    opAt (ws a) 5 = some a ∧ a.ending = some osw0 ∧ (ws a).mode.ipl = .none ∧ inlineReady (ws a) a = true ∧ opAt (ws b) 5 = some b ∧
      b.ending = none ∧ b.stage = .waiting ∧ b.sentFirst = false ∧
      cellField (ws b) (cssPage 0) 0x040 0 12 * 100000 ≤ b.waited ∧ opAt (ws c) 5 = some c ∧ c.ending = none ∧
      c.cancel = some (8, 1) ∧ c.cancelSeq.isSome = true := by decide +kernel

/-- A frame of path 3's adapter. -/
def fr (ty seq flags code len aux : Nat) : BitVec 512 :=
  BitVec.ofNat 512 (beVal (frameBytes ty 3 0x80 5 7 seq (flags + 0x8000) code len 0 aux))

/-- A window of sixteen bytes at 600000h. -/
def win0 : Win :=
  { seq := 2, slot := some 1, len := 16, off := 0, phys := 0x600000, toStorage := true, skip := false, last := false,
    cmd := 0x11, acked := false }

def area0 : Area := { at_ := 0x500000, cw := ⟨0x11, false, false, false, false, false, false, 16, 0x600000⟩, start := 0 }

/-- An operation with a window in flight, and one whose data have all been carried. -/
def oWin (w : Win) : Op :=
  o0 fun o => { o with wins := [w], areas := [area0], granted := 16, sentFirst := true, seq := 3, seqCmd := 1 }

def oEnd : Op :=
  o0 fun o => { o with areas := [area0], granted := 16, carried := 16, sentFirst := true, seq := 3, seqCmd := 1 }

theorem witness_ChannelHardware_ack :
    let f := readFrame (fr 2 2 0 0 16 0)
    portWaits (ws (oWin win0)) 0 = false ∧ checkFrame (ws (oWin win0)) 3 5 f = .ok ∧ f.ty = 2 ∧ opAt (ws (oWin win0)) (f.sch % 262144) = some (oWin win0) ∧
      (cpAt (ws (oWin win0)) (oWin win0).cp).role = .active ∧ f.flags.testBit 11 = false ∧
      (oWin win0).wins.find? (fun w => w.seq = f.seq) = some win0 := by decide +kernel

theorem witness_ChannelHardware_status :
    let f := readFrame (fr 3 2 0 0 16 0)
    let g := readFrame (fr 6 2 0 1 8 0)
    portWaits (ws oEnd) 0 = false ∧ checkFrame (ws oEnd) 3 5 f = .ok ∧ f.ty = 3 ∧ opAt (ws oEnd) (f.sch % 262144) = some oEnd ∧ oEnd.stage = .running ∧
      oEnd.area = some area0 ∧ oEnd.ending = none ∧ oEnd.status = none ∧ oEnd.haltSeq = none ∧ oEnd.job = none ∧
      (statusEnds area0 f.code f.len (f.flags.testBit 12) (decide (oEnd.seqCmd = 1)) false).isSome = true ∧
      checkFrame (ws oEnd) 3 5 g = .ok ∧ g.ty = 6 ∧ g.code = 1 ∧ g.flags.testBit 11 = false := by decide +kernel

theorem witness_ChannelHardware_heartbeat :
    let f := readFrame (fr 5 2 0 1 8 0)
    let g := readFrame (fr 5 2 0x100 1 8 (2 * 2 ^ 60 + 77))
    let l := updFunc (setCell (ws oEnd) (regKey (pciePage 0) 0x048) 0xB0) 0 5 fun x => { x with up := true }
    let s := updPath l 3 fun x => { x with st := .init, sinceBeat := 25, beats := 4 }
    portWaits s 0 = false ∧ pathLinked s 3 = true ∧ checkFrame (ws oEnd) 3 5 f = .ok ∧ f.ty = 5 ∧ f.flags.testBit 7 = false ∧ f.flags.testBit 11 = false ∧
      (pathAt (ws oEnd) 3).st = .up ∧ checkFrame s 3 5 g = .ok ∧ g.ty = 5 ∧ g.flags.testBit 7 = false ∧
      g.flags.testBit 11 = false ∧ (pathAt s 3).st = .init ∧ g.flags.testBit 8 = true := by decide +kernel

/-- A frame of zeros, and a right one from another function. -/
theorem witness_ChannelHardware_discard : checkFrame (ws oEnd) 3 5 (readFrame 0) = .bad ∧ (pathAt (ws oEnd) 3).bad < 4 ∧
    checkFrame (ws oEnd) 3 6 (readFrame (fr 3 2 0 4 8 0)) = .spoof := by decide +kernel

/-- The window from its first byte and to its last, and beyond. -/
theorem witness_ChannelHardware_windows :
    let w := { win0 with skip := true }
    let r := { win0 with toStorage := false }
    let found := fun (s : State) (off len : Nat) => (findWin s 3 1 off len).map fun x => (x.1, x.2.2)
    portWaits (ws (oWin win0)) 0 = false ∧ bit (pathCfg (ws (oWin win0)) 3) 63 = true ∧ pathRid (ws (oWin win0)) 3 = 5 ∧
      found (ws (oWin win0)) 0 16 = some (5, win0) ∧ found (ws (oWin win0)) 15 1 = some (5, win0) ∧
      found (ws (oWin win0)) 15 2 = none ∧ (oWin win0).job = none ∧ win0.toStorage = true ∧ win0.skip = false ∧
      found (ws (oWin w)) 4 8 = some (5, w) ∧ w.toStorage = true ∧ w.skip = true ∧
      found (ws (oWin r)) 4 8 = some (5, r) ∧ r.toStorage = false ∧
      anyPoison (ws (oWin r)) (r.phys + 4) 8 = false := by decide +kernel

def jrn0 : JEntry := ⟨1, 2, 3, 4, 5, 6, 7, 8, false, false, none, false, 0, 0, 0, 0, none, 0⟩

theorem witness_ChannelHardware_recovery :
    let s := { ws oEnd with chan := { (ws oEnd).chan with ops := [], jrn := [(jrnKey 0 4, jrn0)] } }
    let r := updCp s 3 fun x => { x with role := .restarting }
    (pathAt s 3).st = .up ∧ (∀ e ∈ s.chan.ops, e.2.path ≠ 3) ∧ (cpAt s 3).role = .active ∧ (cpAt s 3).stops = [] ∧
      (cpAt r 3).role = .restarting ∧ (∀ e ∈ r.chan.ops, e.2.cp ≠ 3) ∧
      Tab.look s.chan.jrn (jrnKey 0 4) = some jrn0 := by decide +kernel

/-! ### ChannelsRun -/

theorem witness_ChannelsRun :
    let l : Lane := ⟨10, 10, 16, -16⟩
    let s := fun (p r : Nat) => updMc op 2 fun m => { m with postponed := [(1, p)], retries := r, lanes := [(16, l)] }
    (mcAt (s 8 15) 2).st = .running ∧ 1 < ranksOf (mcAt (s 8 15) 2) ∧
      8 ≤ Tab.read (fun _ => 0) (mcAt (s 8 15) 2).postponed 1 ∧
      Tab.read (fun _ => 0) (mcAt (s 7 15) 2).postponed 1 < 8 ∧ (∃ n ∈ [80, 86], 85 < n) ∧
      (mcAt (s 8 15) 2).hot = false ∧ (∀ n ∈ [80, 83], n ≤ 83) ∧ (mcAt (s 8 15) 2).retries < 16 ∧
      16 ≤ (mcAt (s 8 16) 2).retries ∧ (spend (s 8 15) .sweep [(resDram 2, 1)]).2 = true ∧
      lineAtLocal (spend (s 8 15) .sweep [(resDram 2, 1)]).1 2 (mcAt (s 8 15) 2).cursor ∉ (s 8 15).poison ∧
      (mcAt (s 8 15) 2).cursor + 1 < qGib (s 8 15) * 4194304 ∧ Tab.look (mcAt (s 8 15) 2).lanes 16 = some l ∧
      (spend (s 8 15) .cal [(resDram 2, 4)]).2 = true ∧ (spend (s 8 15) .cal [(resDram 2, 2)]).2 = true := by decide +kernel

end Sys2Proof.Tests
end

