-- ==== Sys2Proof/Tests/WitnessService.lean ====
section
/-! SUPPORT. Concrete states and operands that meet the hypotheses of the statements about time, the service space, the
Pen, Proof and Strike. -/

namespace Sys2Proof.Tests

-- One test at a time: the kernel evaluates each, and none waits in a thread of its own.
set_option Elab.async false

open Sys2Proof.Machine

/-! ### TimeInputs, TimeEvents, TickAdvances -/

/-- A state with another time. -/
def tm (f : Time → Time) : State := { op with time := f op.time }

/-- An input whose last edge was at a step. -/
def pin (l : Option Nat) (run out : Nat) (q : Bool) : PpsIn := { last := l, run := run, outliers := out, qualified := q }

theorem witness_TimeInputs_first : keeperRuns op = true ∧ 50 ≤ 50 ∧ op.time.src ≠ ppsCode false ∧
    (ppsAt op false).last = none := by decide +kernel

/-- The earliest and the latest second edge that qualify. -/
theorem witness_TimeInputs_second :
    let s := tm fun t => { t with seconds := 100, ppsA := pin (some 1584000016005) 9 0 false }
    let r := tm fun t => { t with seconds := 100, ppsB := pin (some 1583999984005) 8 0 false }
    s.time.loop ≠ .locked ∧ (ppsAt s false).last = some 1584000016005 ∧
      1584000016005 + 15999984000 ≤ instant s 5 ∧ instant s 5 ≤ 1584000016005 + 16000016000 ∧
      (ppsAt r true).last = some 1583999984005 ∧ 1583999984005 + 15999984000 ≤ instant r 5 ∧
      instant r 5 ≤ 1583999984005 + 16000016000 := by decide +kernel

/-- An edge a step too early, and outliers of a locked loop at the first prediction error that counts. -/
theorem witness_TimeInputs_filter :
    let e := tm fun t => { t with seconds := 100, ppsA := pin (some 1592000000006) 9 0 false }
    let o := fun n => tm fun t => { t with seconds := 100, loop := .locked, src := 1, ppsA := pin (some 1584000016006) 9 n true }
    (ppsAt e false).last = some 1592000000006 ∧ instant e 5 < 1592000000006 + 8000000000 ∧
      1584000016006 + 8000000000 ≤ instant (o 1) 5 ∧ (o 1).time.loop = .locked ∧
      offPrediction 1584000016006 (instant (o 1) 5) > 16000 ∧ (ppsAt (o 1) false).outliers < 2 ∧
      (ppsAt (o 2) false).outliers = 2 ∧ (o 2).time.src = ppsCode false := by decide +kernel

/-- An input lost exactly 1.5 s after its edge: one that is not used, one with another to go to, and one without. -/
theorem witness_TimeInputs_loss :
    let l := fun (src : Nat) (q : Bool) => tm fun t => { t with
      seconds := 101, steps := 8000000000, src := src, loop := .locked, ppsA := pin (some 1600000000005) 9 1 true,
      ppsB := pin none 0 0 q }
    let s := fun (n : Nat) (q : Bool) => setCell (l n q) (regKey todPage 0x060) (if q then 0x20000000 else 0)
    keeperRuns (s 1 true) = true ∧ (ppsAt (s 1 true) false).qualified = true ∧
      1600000000005 + 24000000000 ≤ instant (s 1 true) 5 ∧ (s 2 true).time.src ≠ ppsCode false ∧
      (s 1 true).time.src = ppsCode false ∧ todAuto (s 1 true) = true ∧ (ppsAt (s 1 true) true).qualified = true ∧
      todAuto (s 1 false) = false := by decide +kernel

theorem witness_TimeInputs_reacquire :
    let s := tm fun t => { t with loop := .acquiring, lostLock := true, freqHist := [5, 7, -3] }
    s.time.loop = .acquiring ∧ s.time.lostLock = true ∧ s.time.freqHist ≠ [] := by decide +kernel

theorem witness_TimeInputs_code :
    let s := tm fun t => { t with src := 1, ppsA := pin (some 1600000000000) 9 1 true }
    (if s.time.src = 1 then s.time.ppsA.last else if s.time.src = 2 then s.time.ppsB.last else none) =
        some 1600000000000 ∧ 100 ≤ 100 ∧ 900 ≤ 900 ∧ running s = true ∧
      (0x65 : Word).toNat = (1600000000000 + 24000000000) / 16000000000 ∧
      (0x66 : Word).toNat ≠ (1600000000000 + 24000000000) / 16000000000 ∧
      ({ s with mode := { s.mode with mode := .init } } : State).mode.mode = .init := by decide +kernel

theorem witness_TimeInputs_output :
    let s := fun n => setCell (tm fun t => { t with src := 1, loop := .locked, steps := n, ppsOut := true })
      (regKey todPage 0x060) 0xFFFFFFFF
    ∀ n ∈ [1600000000, 8000000000], tcoEnabled (s n) = true ∧ (s n).time.ppsOut = true ∧ (s n).time.tcSent = false ∧
      1600000000 ≤ (s n).time.steps ∧ (s n).time.steps ≤ 8000000000 := by decide +kernel

theorem witness_TimeInputs_slave :
    let s := { setCell (tm fun t => { t with src := 3 }) (regKey todPage 0x064) 0x80000000 with
      links := Vector.replicate 4 { Link.reset with up := true } }
    isSlave op = false ∧ keeperRuns s = true ∧ isSlave s = true ∧ s.time.src = 3 ∧ (0 : Fin 4).val = timeLink s ∧
      (vget s.links Link.reset 0).up = true ∧ (vget s.links Link.reset 0).failed = false := by decide +kernel

/-- The oscillator there and lost, the Keeper's die, a lane with a spare left and without, and an imbalance. -/
theorem witness_TimeEvents :
    let s : State := { op with
      time := { op.time with oscLost := true }, lanes := [(11, 2)],
      bud := { op.bud with run := [(2 * 1024 + 7, 1000000)] } }
    keeperRuns op = true ∧ op.time.oscLost = false ∧ s.time.oscLost = true ∧ op.mode.mode ≠ .off ∧
      op.err.degKeeper = false ∧ dieOn s (linkEnds 5).1 = true ∧ Tab.read (fun _ => 0) s.lanes 10 < 2 ∧
      Tab.read (fun _ => 0) s.lanes 11 ≥ 2 ∧ s.mode.mode ≠ .checkstop ∧ s.err.stopCode = 0 ∧
      2 * 1024 + 7 ∉ s.bud.raised ∧ 1000000 ≤ Tab.read (fun _ => 0) s.bud.run (2 * 1024 + 7) := by decide +kernel

def almRec : AlmRecord := { transit := 5, sec := 6, frac := 7, seq := 8, type := 1, lines := 2, body := [1, 2, 3] }

/-- A record waits at the end of its ring. -/
def sAlm : State := setCell (setCell (setCell (updAlm op 2 fun x => { x with waiting := [almRec] })
  (regKey (almPage 2) 0x048) 0x500000) (regKey (almPage 2) 0x050) 0x100000) (regKey (almPage 2) 0x058) 0xFFF00

theorem witness_TimeEvents_record : dieOn sAlm 2 = true ∧ (almAt sAlm 2).waiting = almRec :: [] ∧
    canWriteAll sAlm [(0x500000 + 0xFFF00, 256 * 2)] = true ∧ (spend sAlm .tel (almCost sAlm 2 (0x500000 + 0xFFF00) 2)).2 = true := by decide +kernel

/-- A tick inside a second, and the last of one. -/
theorem witness_TickAdvances :
    let s := tm fun t => { t with steps := 15999840000 }
    op.mode.mode ≠ .off ∧ op.mode.transition ≠ .hold ∧ op.strike.st ≠ .committed ∧ op.strike.st ≠ .armed ∧ op.cs.updating = false ∧
      op.portHeld = [] ∧ ¬op.time.steps + 160000 ≥ 16000000000 ∧ s.time.steps + 160000 ≥ 16000000000 := by decide +kernel

/-! ### RegisterWrites, PortsAndSideband -/

def of31 (p off : Nat) : BitVec 31 := BitVec.ofNat 31 (p * 4096 + off)

/-- Registers of each type, the one of a page's first word and the one of its last configured one, a draft with the Pen
and without, and pages that a master may not write. -/
theorem witness_RegisterWrites :
    (writable penA .portA todPage = true ∧ ((regAt todPage 0x060).map fun x => (match x.1.ty with | .st _ => true | _ => false,
      x.1.bytes)) = some (true, 4) ∧ draftOpen penA .portA = true ∧ draftOpen penA .portB = false) ∧
    (writable penA .portB (mcPage 2) = true ∧
      ((regAt (mcPage 2) 0x058).map fun x => (decide (x.1.ty = .lv), x.1.bytes)) = some (true, 4) ∧
      pageType (mcPage 2) ∉ [0x01, 0x08, 0x11, 0x38, 0x3C] ∧
      ((regAt (mcPage 2) 0x7C4).map fun x => (decide (x.1.ty = .w1c), x.1.bytes)) = some (true, 4) ∧
      ((regAt (mcPage 2) 0x000).map fun x => (decide (x.1.ty = .ro), x.1.bytes)) = some (true, 4)) ∧
    writable penA .manager 100 = false ∧ Tab.look penA.cmds (mcPage 2) = none := by decide +kernel

/-- A page that is there, one that is not, the event queue's last reachable pointer, and the sideband's first and last
words. -/
theorem witness_PortsAndSideband :
    let s : State := { op with
      sideA := { ptr := some (1 * 4096 + 0x14C), reads := 15 }, sideB := { ptr := none, reads := 16 },
      err := { op.err with wp := 256 } }
    portLost s .portA = false ∧ reaches .portA todPage = true ∧ dieOn s (pageDie todPage) = true ∧ todPage ≠ csPage 6 ∧
      reaches .portB 100 = false ∧ s.mode.mode ≠ .off ∧ s.err.degKeeper = false ∧ (s.err.wp - 0).toNat ≤ 256 ∧
      (1 ≤ (3 : Byte).toNat ∧ (3 : Byte).toNat ≤ 3 ∧ ((0x0F : Byte).toNat * 256 + (0xFC : Byte).toNat) % 4 = 0 ∧
        (0x0F : Byte).toNat * 256 + (0xFC : Byte).toNat < 4096) ∧
      ([1, 2] : List Byte).length ≠ 3 ∧ s.sideA.reads < 16 ∧ (1 * 4096 + 0x14C) % 8 = 4 ∧
      (match readService (setSide s false { s.sideA with reads := 16 }) .portA (pageIx 6 1 0 * 4096 + 0x14C) 4 with
       | .value _ => true | _ => false) = true ∧ 16 ≤ s.sideB.reads := by decide +kernel

/-- A sideband that has no pointer yet. -/
theorem witness_PortsAndSideband_none : op.sideB.ptr = none ∧ op.sideB.reads < 16 := by decide +kernel

/-- The test port in Operating and in phase CONFIG. -/
theorem witness_PortsAndSideband_test :
    let s := { op with mode := { op.mode with mode := .init, phase := 2 } }
    op.mode.mode ≠ .off ∧ s.mode.mode ≠ .off ∧ s.mode.mode = .init ∧ s.mode.phase = 2 := by decide +kernel

/-! ### PenMoves, ProofRuns, StrikeRuns -/

/-- A free Pen, one held, its last tick, and a port that may not write. -/
theorem witness_PenMoves :
    let w := { penA with pen := { penA.pen with lease := 0 } }
    let h := { op with pen := { op.pen with history := [.portA] } }
    let d := { op with mode := { op.mode with mode := .off } }
    writable op .portA keeperPage = true ∧ op.pen.holder = none ∧ writable h .portB keeperPage = true ∧
      h.pen.holder = none ∧ Master.portB ∈ [Master.portA, .portB] ∧ Master.portB ∉ h.pen.history ∧
      writable penA .portA keeperPage = true ∧ penA.pen.holder = some .portA ∧
      writable penA .portB keeperPage = true ∧ Master.portA ≠ .portB ∧ Master.portB ≠ .manager ∧
      w.pen.holder = some .portA ∧ w.pen.lease = 0 ∧ writable d .portA keeperPage = false := by decide +kernel

/-- A Proof that may start, one at work over a draft that passes, and over one that fails a check. -/
theorem witness_ProofRuns :
    let p := fun (k : Nat) (v : Word) => { penA with proof := { penA.proof with busy := true }, drafts := [(k, v)] }
    let good := p (regKey todPage 0x060) 0x20000000
    let bad := p (regKey (cssPage 0) 0x118 5) 0xC0
    writable penA .portA keeperPage = true ∧ penA.pen.holder = some .portA ∧ penA.proof.busy = false ∧
      penA.pen.holder ≠ some .portB ∧ good.proof.busy = true ∧ (∀ e ∈ good.drafts, checkReg good e.1 = []) ∧
      (match checkReg bad (regKey (cssPage 0) 0x118 5) with
       | [] => false
       | c :: rest => rest.all fun x => decide (codeRank c ≤ codeRank x)) = true := by decide +kernel

/-- A Strike state with another record. -/
def stk (f : Strike → Strike) : State := { penA with strike := f penA.strike, proof := { penA.proof with code := 1 } }

/-- A Strike at the earliest tick that it may have, and at the last. -/
theorem witness_StrikeRuns_order :
    let s := fun n => { setCell (stk id) (regKey keeperPage 0x060) n with drafts := [(regKey todPage 0x060, 0x20000000)] }
    let lo := s (BitVec.ofNat 64 (earliest (stk id) 17999))
    let hi := s 100000
    (∀ t ∈ [lo, hi], writable t .portA keeperPage = true ∧ t.pen.holder = some .portA ∧ strikeOrdered t = false ∧
      t.proof.code = 1 ∧ earliest t 17999 ≤ (cell t (regKey keeperPage 0x060)).toNat ∧
      (cell t (regKey keeperPage 0x060)).toNat ≤ t.time.transit.toNat + 100000 ∧ t.time.deviating = [] ∧
      strikeMode t = true ∧ initDirty t = false) ∧
    penA.proof.code ≠ 1 ∧ strikeOrdered penA = false ∧ penA.pen.holder ≠ some .portB := by decide +kernel

/-- A Strike armed, with acknowledgements to come and without, a Quiesce to enter, a commitment, and a Quiesce. -/
theorem witness_StrikeRuns_armed :
    let a := stk fun x => { x with st := .armed, waitAcks := [6, 3], target := 1 }
    let b := stk fun x => { x with st := .armed, waitAcks := [], target := 1 }
    let q := stk fun x => { x with st := .armed, waitAcks := [3], target := 10, cls := .quiesce }
    let e := { stk (fun x => { x with st := .armed, waitAcks := [], target := 1, cls := .quiesce }) with
      mode := { op.mode with quiesce := true, quiet := quiesceUnits op } }
    let c := stk fun x => { x with st := .committed }
    let d := { stk id with mode := { op.mode with quiesce := true } }
    a.strike.st = .armed ∧ writable a .portA keeperPage = true ∧ a.pen.holder = some .portA ∧
      a.time.transit.toNat + 1 = a.strike.target.toNat ∧ a.strike.waitAcks ≠ [] ∧ b.strike.waitAcks = [] ∧
      b.strike.cls ≠ .quiesce ∧ allQuiet e = true ∧ e.strike.cls = .quiesce ∧ e.mode.mode ≠ .checkstop ∧ q.strike.cls = .quiesce ∧ q.time.transit.toNat + 10 = q.strike.target.toNat ∧
      q.mode.quiesce = false ∧ c.strike.st = .committed ∧ d.mode.quiesce = true ∧ strikeOrdered d = false ∧
      5 ∉ d.mode.quiet ∧ (∀ p : Fin 48, pairPage p.val ≠ 5) ∧ ∀ i < 4, burinPage i ≠ 5 := by decide +kernel

end Sys2Proof.Tests
end

