-- ==== Sys2Proof/Tests/WitnessStorage.lean ====
section
/-! SUPPORT. Concrete states and operands that meet the hypotheses of the statements about floating point, atomics,
maintenance and the I/O instructions. -/

namespace Sys2Proof.Tests

-- One test at a time: the kernel evaluates each, and none waits in a thread of its own.
set_option Elab.async false

open Sys2Proof.Machine

/-! ### FloatArithmetic, FloatCompareAndMove, FloatConversions, FloatRoundsExactly -/

/-- 1.5 and −2.5 in binary64 and binary128, and general registers with a packed pair. -/
def sFlt : State := withG (withF op [(1, 0x3FF80000000000000000000000000000), (2, 0xC0040000000000000000000000000000),
  (5, 0x3FFF8000000000000000000000000000)]) [(1, 0x71F1F), (2, 0), (3, 0x123D), (7, 0xD), (9, 0x41F1F)]

def uFlt : State := begun sFlt 0 {}

theorem begins_sFlt : Begins sFlt 0 {} uFlt := begins_of (by decide +kernel)

/-- No trap is enabled, so no condition of any result is. -/
theorem witness_FloatArithmetic : Begins sFlt 0 {} uFlt ∧ uFlt.mode.mode ≠ .compat ∧
    ∀ r : Nat × Conds, r.2 &&& field (archOf uFlt 0).fpc 8 5 = 0 :=
  ⟨begins_sFlt, by decide +kernel, fun r => by
    rw [show field (archOf uFlt 0).fpc 8 5 = 0 by decide +kernel]; simp⟩

/-- MTFPC with every bit that it takes and the last rounding mode. -/
theorem witness_FloatCompareAndMove : Begins sFlt 0 {} uFlt ∧ uFlt.mode.mode ≠ .compat ∧
    field (archOf uFlt 0).fpc 12 1 = 0 ∧ gOf uFlt 0 9 &&& ~~~0x71F1F = 0 ∧ field (gOf uFlt 0 9) 16 3 ≤ 4 :=
  ⟨begins_sFlt, by decide +kernel, by decide +kernel, by decide +kernel, by decide +kernel⟩

/-- A packed pair of each kind: a number, and a negative zero. -/
theorem witness_FloatConversions : Begins sFlt 0 {} uFlt ∧ uFlt.mode.mode ≠ .compat ∧ (5 : Fin 32).val ≤ 5 ∧
    (30 : Fin 32).val % 2 = 0 ∧ unpackPair (gOf uFlt 0 2) (gOf uFlt 0 3) = some (true, 123) ∧
    unpackPair (gOf uFlt 0 6) (gOf uFlt 0 7) = some (true, 0) ∧ unpackPair 0 0xC = some (false, 0) :=
  ⟨begins_sFlt, by decide +kernel, by decide, by decide, by decide +kernel, by decide +kernel, by decide +kernel⟩

/-- The smallest subnormal of binary32, a negative zero and the largest binary64 value. -/
theorem witness_FloatRoundsExactly : fpDecode fmtS 1 = .fin false 1 (-149) ∧
    fpDecode fmtD 0x8000000000000000 = .fin true 0 (-1074) ∧
    fpDecode fmtD 0x7FEFFFFFFFFFFFFF = .fin false 0x1FFFFFFFFFFFFF 971 := by decide +kernel

/-! ### AtomicsComplete -/

/-- A doubleword of 55h at 300000h; G1 points to it, G2 holds another value and G3 the same. -/
def sAtom : State := withG (w8 op 0x300000 0x55) [(1, 0x300000), (2, 0x77), (3, 0x55)]

/-- The same, with the doubleword reserved. -/
def sRes : State := updLp sAtom 0 fun x => { x with reservation := some 0x3000, resHold := true }

/-- Where a translated doubleword lies. -/
def dword : List Piece := [⟨0x300000, 8, .normal⟩]

def ldV : State := left (translate 0 0x300000 .load false false (advanced (begun sAtom 0 {}) 0 4))
def stV (s : State) : State := left (translate 0 0x300000 .store false false (advanced (begun s 0 .atom) 0 4))
def ownW (s : State) : State := left (ownLine 0 0x3000 (stV s))

theorem witness_AtomicsComplete_load : (1 : Fin 32).val ≤ 1 ∧ (gOf (begun sAtom 0 {}) 0 1).toNat % 8 = 0 ∧
    Begins sAtom 0 {} (begun sAtom 0 {}) ∧
    translate 0 0x300000 .load false false (advanced (begun sAtom 0 {}) 0 4) = .ok (0x300000, .normal) ldV ∧
    (∃ w, (pairOf ldV 0).bind (fun p => readCopy ldV p 0x3000) = some w) ∧
    Reads (((pairOf ldV 0).bind fun p => readCopy ldV p 0x3000).getD ldV) 0 0x300000 dword (beBytes 8 0x55) :=
  ⟨by decide, by decide +kernel, begins_of (by decide +kernel), ok_of (by decide +kernel), some_of (by decide +kernel),
   reads_of (by decide +kernel)⟩

/-- Without a reservation STCND stores nothing; CSWP compares unequal with G2 and equal with G3. -/
theorem witness_AtomicsComplete_free : Begins sAtom 0 .atom (begun sAtom 0 .atom) ∧
    translate 0 0x300000 .store false false (advanced (begun sAtom 0 .atom) 0 4) = .ok (0x300000, .normal) (stV sAtom) ∧
    (lpAt (stV sAtom) 0).reservation ≠ some (lineOf 0x300000) ∧
    ownLine 0 (lineOf 0x300000) (stV sAtom) = .ok ⟨⟩ (ownW sAtom) ∧
    Reads (ownW sAtom) 0 0x300000 dword (beBytes 8 0x55) ∧
    BitVec.ofNat 64 (beVal (beBytes 8 0x55)) ≠ gOf (ownW sAtom) 0 2 ∧
    BitVec.ofNat 64 (beVal (beBytes 8 0x55)) = gOf (ownW sAtom) 0 3 ∧
    (∃ y, Stores (ownW sAtom) 0 dword (beBytes 8 (gOf (ownW sAtom) 0 2).toNat) y) ∧
    ∃ y, Stores (ownW sAtom) 0 dword (beBytes 8 (0x55 + gOf (ownW sAtom) 0 2).toNat) y :=
  ⟨begins_of (by decide +kernel), ok_of (by decide +kernel), by decide +kernel, ok_of (by decide +kernel),
   reads_of (by decide +kernel), by decide +kernel, by decide +kernel, ⟨_, ok_of (by decide +kernel)⟩,
   _, ok_of (by decide +kernel)⟩

theorem witness_AtomicsComplete_reserved : Begins sRes 0 .atom (begun sRes 0 .atom) ∧
    translate 0 0x300000 .store false false (advanced (begun sRes 0 .atom) 0 4) = .ok (0x300000, .normal) (stV sRes) ∧
    ownLine 0 (lineOf 0x300000) (stV sRes) = .ok ⟨⟩ (ownW sRes) ∧
    (lpAt (stV sRes) 0).reservation = some (lineOf 0x300000) ∧
    (lpAt (ownW sRes) 0).reservation = some (lineOf 0x300000) ∧
    ∃ y, Stores (ownW sRes) 0 dword (beBytes 8 (gOf (ownW sRes) 0 2).toNat) y :=
  ⟨begins_of (by decide +kernel), ok_of (by decide +kernel), ok_of (by decide +kernel), by decide +kernel,
   by decide +kernel, _, ok_of (by decide +kernel)⟩

/-! ### MaintenanceCompletes -/

/-- A range of 1000h bytes at 300000h, and a partition number at the end of its range. -/
def sMnt : State := withG op [(1, 0x300000), (2, 0x1000), (5, 0x80)]

def uMnt : State := begun sMnt 0 .serial

theorem begins_sMnt : Begins sMnt 0 .serial uMnt := begins_of (by decide +kernel)

def mntV : State := left (translate 0 0x300000 .load false false (advanced uMnt 0 4))

theorem witness_MaintenanceCompletes_line : Begins sMnt 0 .serial uMnt ∧ privOf (archOf uMnt 0).psws = 2 ∧
    pairOf uMnt 0 = some 0 ∧ gOf uMnt 0 1 = 0x300000 ∧
    translate 0 0x300000 .load false false (advanced uMnt 0 4) = .ok (0x300000, .normal) mntV ∧ storesDone mntV 0 = true ∧
    maintWaits mntV (lineOf 0x300000) = false :=
  ⟨begins_sMnt, by decide +kernel, by decide +kernel, by decide +kernel, ok_of (by decide +kernel), by decide +kernel,
   by decide +kernel⟩

/-- By set and way, with a line in the last set and way of the L2; and by address where the operation needs W. -/
theorem witness_MaintenanceCompletes_way :
    let s := updPair op 0 fun x => { x with l2 := [(2047, { st := .m, way := 15, leaving := false, wbm := false, acked := false })] }
    let u := begun (withG s [(1, 0x7FFF)]) 0 .serial
    let now := advanced u 0 4
    (begunO (withG s [(1, 0x7FFF)]) 0 .serial).isSome = true ∧ storesDone now 0 = true ∧ gOf u 0 1 < 0x8000 ∧
    (((pairAt now 0).l2.find? fun e => decide (e.1 % 2048 = 0x7FFF / 16) && decide (e.2.way = 0x7FFF % 16)).map
      fun x => x.2.leaving) = some false ∧ (0x3F7 % 16 ≤ 7 ∧ 0x3F7 / 16 ≤ 63) ∧
    endsWith (translate 0 0x300000 .load false true now) (0x300000, .normal) = true := by decide +kernel

/-- Nothing uses a removed entry of the TLBs: of every kind of removal, the last partition's too. -/
theorem witness_MaintenanceCompletes_tlbi : ∀ k ∈ [TlbiKind.va false, .va true, .asid, .part], ∀ c ∈ [128, 0],
    let t := tlbiAll (advanced uMnt 0 4) k 0x300000 0 c
    stillUsed t c (closesNow t) = false := by decide +kernel

theorem rangeCheck_sMnt : rangeCheck 0 0x300000 0x1000 (advanced uMnt 0 4) = .ok 0x300000 (advanced uMnt 0 4) := by
  unfold rangeCheck
  rw [run_bind_ok (run_get _)]
  dsimp only
  rw [if_pos (show privOf (lpAt (advanced uMnt 0 4) 0).arch.psws = 2 by decide +kernel),
    if_pos (show 0x1000 ≤ 2 ^ 40 ∧ BitVec.toNat (0x300000 : Word) < 2 ^ 52 ∧
      oneRegion (advanced uMnt 0 4) (BitVec.toNat (0x300000 : Word)) 0x1000 = true by decide +kernel)]
  rfl

/-- Ranges on dies 0 and 3 and the one of the processor's own die, and the last partition number. -/
theorem witness_MaintenanceCompletes_rest : storesDone (advanced uMnt 0 4) 0 = true ∧
    (∀ c ∈ ([0, 16] : List (Fin 32)), c.val % 4 = 0 ∧ c.val / 4 ≤ 4) ∧
    (∀ c ∈ ([1, 19] : List (Fin 32)), c.val % 4 ≠ 0 ∧ c.val / 4 ≤ 4) ∧ (gOf uMnt 0 1).toNat % 256 = 0 ∧
    (gOf uMnt 0 2).toNat % 256 = 0 ∧ (gOf uMnt 0 2).toNat ≠ 0 ∧ (1 : Fin 32).val ≤ 1 ∧
    (gOf uMnt 0 5).toNat % 256 ≤ 128 := by decide +kernel

/-! ### IoInstructionsComplete -/

/-- A start block of 32 bytes, and a block of 16 that changes the subchannel. -/
def startBlk : List Byte := [0, 0, 0, 0, 0, 0, 0, 9, 0, 0, 0, 0, 0, 0x40, 0, 0x10, 0, 0x80] ++ List.replicate 14 0
def modBlk : List Byte := [0x80, 3, 0x80] ++ List.replicate 13 0
def sIo (b : List Byte) : State := withG (memWrite io 0x300000 b) [(1, 5), (2, 0x300000)]
def uIo (b : List Byte) : State := begun (sIo b) 0 .serial
def ioV (b : List Byte) (acc : Access) : State := left (translate 0 0x300000 acc false false (advanced (uIo b) 0 4))
def ioW (s : State) : State := (performAll s 0).getD s

theorem performAll_of {s : State} (h : (performAll s 0).isSome = true) : performAll s 0 = some (ioW s) := by
  unfold ioW
  cases hp : performAll s 0 with
  | none => simp [hp] at h
  | some t => rfl

theorem witness_IoInstructionsComplete_start : Begins (sIo startBlk) 0 .serial (uIo startBlk) ∧
    1 ≤ privOf (archOf (uIo startBlk) 0).psws ∧ (gOf (uIo startBlk) 0 1).toNat < 2 ^ 20 ∧
    (gOf (uIo startBlk) 0 1).toNat / 2 ^ 18 = pkgId (ioW (ioV startBlk .load)) ∧
    (gOf (uIo startBlk) 0 2).toNat % 32 = 0 ∧
    translate 0 0x300000 .load false false (advanced (uIo startBlk) 0 4) = .ok (0x300000, .normal) (ioV startBlk .load) ∧
    readPieces 0 0x300000 [⟨0x300000, 32, .normal⟩] (ioV startBlk .load) = .ok startBlk (ioV startBlk .load) ∧
    startBlockBad startBlk = false ∧ performAll (ioV startBlk .load) 0 = some (ioW (ioV startBlk .load)) :=
  ⟨begins_of (by decide +kernel), by decide +kernel, by decide +kernel, by decide +kernel, by decide +kernel,
   ok_of (by decide +kernel), reads_of (by decide +kernel), by decide +kernel, performAll_of (by decide +kernel)⟩

theorem witness_IoInstructionsComplete_halt :
    performAll (advanced (uIo startBlk) 0 4) 0 = some (ioW (advanced (uIo startBlk) 0 4)) :=
  performAll_of (by decide +kernel)

theorem witness_IoInstructionsComplete_modify : Begins (sIo modBlk) 0 .serial (uIo modBlk) ∧
    translate 0 0x300000 .load false false (advanced (uIo modBlk) 0 4) = .ok (0x300000, .normal) (ioV modBlk .load) ∧
    readPieces 0 0x300000 [⟨0x300000, 16, .normal⟩] (ioV modBlk .load) = .ok modBlk (ioV modBlk .load) ∧
    modifyBlockBad modBlk = false ∧ performAll (ioV modBlk .load) 0 = some (ioW (ioV modBlk .load)) :=
  ⟨begins_of (by decide +kernel), ok_of (by decide +kernel), reads_of (by decide +kernel), by decide +kernel,
   performAll_of (by decide +kernel)⟩

/-- Where a record of 64 and of 32 bytes is stored: a subchannel that operates without status. -/
theorem witness_IoInstructionsComplete_store : (gOf (uIo modBlk) 0 2).toNat % 64 = 0 ∧
    translate 0 0x300000 .store false false (advanced (uIo modBlk) 0 4) = .ok (0x300000, .normal) (ioV modBlk .store) ∧
    performAll (ioV modBlk .store) 0 = some (ioW (ioV modBlk .store)) ∧
    (homeHere (ioW (ioV modBlk .store)) (lineOf 0x300000) && blocked (ioW (ioV modBlk .store)) (lineOf 0x300000)) = false ∧
    operational (ioW (ioV modBlk .store)) mgrCtx 5 = true ∧ (schAt (ioW (ioV modBlk .store)) 5).status = none :=
  ⟨by decide +kernel, ok_of (by decide +kernel), performAll_of (by decide +kernel), by decide +kernel, by decide +kernel,
   by decide +kernel⟩

/-- A subchannel with status, and one that is not operational. -/
theorem witness_IoInstructionsComplete_status :
    let s := updSch (sIo modBlk) 5 fun x => { x with status := some osw0 }
    let v := left (translate 0 0x300000 .store false false (advanced (begun s 0 .serial) 0 4))
    (begunO s 0 .serial).isSome = true ∧ (performAll v 0).isSome = true ∧ operational (ioW v) mgrCtx 5 = true ∧
      (schAt (ioW v) 5).status = some osw0 ∧ operational (ioW v) mgrCtx 6 = false := by decide +kernel

end Sys2Proof.Tests
end

/-! The family of 04_instruction_set.md: general registers, and the integer instructions of one source and of
format I. First what an exception leaves in the registers, then what the counts and shifts compute, then the statements. -/

namespace Sys2Proof.Machine

/-! ### Registers through the entry of an exception -/

@[simp] theorem lpAt_updPair (s : State) (p : Fin 48) (f : Pair → Pair) (lp : Fin 48) :
    lpAt (updPair s p f) lp = lpAt s lp := rfl

@[simp] theorem lpAt_markClean (s : State) (lp i : Fin 48) : lpAt (markClean s lp) i = lpAt s i := by
  unfold markClean; split <;> rfl

@[simp] theorem archOf_closeInterval (s : State) (lp : Fin 48) : archOf (closeInterval s lp) lp = archOf s lp := by
  simp [archOf, closeInterval, closeLp]

@[simp] theorem archOf_endStep (s : State) (lp i : Fin 48) : archOf (endStep s lp) i = archOf s i := by
  unfold endStep; split <;> rfl

@[simp] theorem archOf_enter (s : State) (lp : Fin 48) (mgr mce : Bool) (vec : Nat) (cw addr : Word) :
    archOf (enter s lp mgr mce vec cw addr) lp = entryArch (archOf s lp) mgr mce vec cw addr := by
  rw [enter, archOf_closeInterval]; simp [archOf]

@[simp] theorem archOf_ilcTaken (s : State) (first : Bool) (lp : Fin 48) :
    archOf (ilcTaken s first) lp = archOf s lp := by
  unfold ilcTaken; split <;> rfl

theorem archOf_enterExc (s : State) (lp : Fin 48) (ilc : Nat) (e : Exc) :
    archOf (enterExc s lp ilc e) lp = entryArch (archOf s lp) (toManager (archOf s lp) e) false 0
      (codeWord e.reason (ilcNow s e.first (if e.long then 2 else ilc)) e.code) e.addr := by
  rw [enterExc, archOf_enter, archOf_ilcTaken]; rfl

/-- A nullified instruction that is not repeated leaves its registers as they were (R90). -/
theorem archOf_nullified {f : Form} (hf : f.rep = false) (old new : State) (lp : Fin 48) :
    archOf (nullified f old new lp) lp = archOf old lp := by
  simp [archOf, nullified, undone, hf]

/-- The specification exception goes to Manager state from Manager state, or where C23 directs code 3 there (R92). -/
theorem toManager_spec (a : Arch) (r : Nat) (addr : Word) :
    toManager a { code := 3, reason := r, addr := addr } = (decide (privOf a.psws = 2) || bit a.c[23] 3) := by
  simp [toManager]

/-- An instruction of 4 bytes whose body raises the specification exception enters it with its address register zero
and the registers from before its fetch. -/
theorem runInstr_spec {lp : Fin 48} {body : Run Unit} {s t u v : State} {r : Nat} (hr : lpReady s lp = true)
    (hp : prepare s lp false = some t) (hf : fetchInstr lp 4 t = .ok () u) (hc : closeRoom (lpAt t lp) = true)
    (hb : body (advanced u lp 4) = .error (.exc { code := 3, reason := r, addr := 0 }) v) :
    ∃ y, runInstr lp {} body s = .next y ∧ archOf y lp =
      entryArch (archOf t lp) (decide (privOf (archOf t lp).psws = 2) || bit (archOf t lp).c[23] 3) false 0
        (codeWord r 1 3) 0 := by
  refine ⟨_, runInstr_exc (f := {}) hr hp hf hb hc, ?_⟩
  rw [archOf_endStep, archOf_enterExc, archOf_nullified rfl, toManager_spec]
  rfl

/-! ### Counts of bits -/

/-- What `leading` counts: the bits below n from the top, up to the first one bit. -/
theorem leading_spec (a : Word) (n k : Nat) : ∃ m, leading a n k = k + m ∧ m ≤ n ∧
    (∀ j < m, a.getLsbD (n - 1 - j) = false) ∧ (m < n → a.getLsbD (n - 1 - m) = true) := by
  induction n generalizing k with
  | zero => exact ⟨0, rfl, Nat.le_refl 0, by simp, by simp⟩
  | succ n ih =>
    by_cases hb : a.getLsbD n = true
    · exact ⟨0, by simp [leading, bit, hb], by omega, by simp, fun _ => by simpa using hb⟩
    · obtain ⟨m, hm, hle, hzero, hone⟩ := ih (k + 1)
      refine ⟨m + 1, by simp [leading, bit, hb, hm]; omega, by omega, fun j hj => ?_, fun hlt => ?_⟩
      · cases j with
        | zero => simpa using hb
        | succ j => rw [show n + 1 - 1 - (j + 1) = n - 1 - j by omega]; exact hzero j (by omega)
      · rw [show n + 1 - 1 - (m + 1) = n - 1 - m by omega]; exact hone (by omega)

/-- What `trailing` counts: the bits from k up, to the first one bit or to n of them. -/
theorem trailing_spec (a : Word) (n k : Nat) : ∃ m, trailing a n k = k + m ∧ m ≤ n ∧
    (∀ j < m, a.getLsbD (k + j) = false) ∧ (m < n → a.getLsbD (k + m) = true) := by
  induction n generalizing k with
  | zero => exact ⟨0, rfl, Nat.le_refl 0, by simp, by simp⟩
  | succ n ih =>
    by_cases hb : a.getLsbD k = true
    · exact ⟨0, by simp [trailing, bit, hb], by omega, by simp, fun _ => hb⟩
    · obtain ⟨m, hm, hle, hzero, hone⟩ := ih (k + 1)
      refine ⟨m + 1, by simp [trailing, bit, hb, hm]; omega, by omega, fun j hj => ?_, fun hlt => ?_⟩
      · cases j with
        | zero => simpa using hb
        | succ j => rw [show k + (j + 1) = k + 1 + j by omega]; exact hzero j (by omega)
      · rw [show k + (m + 1) = k + 1 + m by omega]; exact hone (by omega)

theorem ones_eq_countP (a : Word) (n : Nat) : ones a n = (List.range n).countP fun k => a.getLsbD k := by
  induction n with
  | zero => rfl
  | succ n ih =>
    rw [ones, ih, List.range_succ, List.countP_append, List.countP_singleton, Nat.add_comm]; rfl

/-! ### Immediates -/

theorem boolWord_decide (p : Prop) [Decidable p] : boolWord (decide p) = if p then 1 else 0 := by
  simp [boolWord]

theorem slt_signExtend_imm (x : Word) (i : BitVec 16) : x.slt (i.signExtend 64) = decide (x.toInt < i.toInt) := by
  rw [BitVec.slt_eq_decide, BitVec.toInt_signExtend_of_le (by decide)]

theorem ult_setWidth_imm (x : Word) (i : BitVec 16) : x.ult (i.setWidth 64) = decide (x.toNat < i.toNat) := by
  rw [BitVec.ult_eq_decide, BitVec.toNat_setWidth_of_le (by decide)]

theorem field_low_six (i : BitVec 16) : field i 0 6 = i.toNat % 64 := by simp [field]

theorem field_shift_kind {i : BitVec 16} (hi : i.toNat < 256) : field i 6 2 = i.toNat / 64 := by
  simp only [field, Nat.shiftRight_eq_div_pow]; omega

/-- Bits 15:8 of an immediate are zero below 256 only. -/
theorem field_high_ne_zero (i : BitVec 16) : field i 8 8 ≠ 0 ↔ 256 ≤ i.toNat := by
  have := i.isLt
  simp only [field, Nat.shiftRight_eq_div_pow]; omega

/-- The amount of SHI, given to a shift as a word. -/
theorem toNat_shift_amount (i : BitVec 16) : (BitVec.ofNat 64 (field i 0 6)).toNat % 64 = i.toNat % 64 := by
  rw [field_low_six, BitVec.toNat_ofNat]; omega

theorem shiftImm_eq (x : Word) {i : BitVec 16} (hi : i.toNat < 256) : shiftImm x i =
    match i.toNat / 64 with
    | 0 => x <<< (i.toNat % 64)
    | 1 => x >>> (i.toNat % 64)
    | 2 => x.sshiftRight (i.toNat % 64)
    | _ => x.rotateLeft (i.toNat % 64) := by
  rw [← field_shift_kind hi, ← toNat_shift_amount i]; rfl

/-! ### Instructions of these shapes -/

section
variable {lp : Fin 48} {s u : State} (h : Begins s lp {} u)
include h

theorem unary_answer (f : Word → Word) (d a : Fin 32) :
    runInstr lp {} (unary f lp d a 0 0) s = regsAnswer u lp {} fun r => r.setG d (f (gOf u lp a)) :=
  begins_regs h (by rw [unary_run, gOf_advanced])

/-- An instruction of format I answers with what its function gives of GA and IMM. -/
theorem immediate_answer {f : Word → BitVec 16 → Word} (d a : Fin 32) {i : BitVec 16} {v : Word}
    (hv : f (gOf u lp a) i = v) :
    runInstr lp {} (immediate f lp d a i) s = regsAnswer u lp {} fun r => r.setG d v :=
  begins_regs h (by rw [immediate_run, gOf_advanced, hv])

theorem clz_answer (d a : Fin 32) : ∃ n : Nat,
    exec (.clz lp d a 0 0) s = regsAnswer u lp {} (fun r => r.setG d (BitVec.ofNat 64 n)) ∧ n ≤ 64 ∧
      (∀ k < n, (gOf u lp a).getLsbD (63 - k) = false) ∧ (n < 64 → (gOf u lp a).getLsbD (63 - n) = true) := by
  obtain ⟨n, hn, hspec⟩ := leading_spec (gOf u lp a) 64 0
  refine ⟨n, ?_, hspec⟩
  rw [← Nat.zero_add n, ← hn]
  exact unary_answer h clz d a

theorem ctz_answer (d a : Fin 32) : ∃ n : Nat,
    exec (.ctz lp d a 0 0) s = regsAnswer u lp {} (fun r => r.setG d (BitVec.ofNat 64 n)) ∧ n ≤ 64 ∧
      (∀ k < n, (gOf u lp a).getLsbD k = false) ∧ (n < 64 → (gOf u lp a).getLsbD n = true) := by
  obtain ⟨n, hn, hspec⟩ := trailing_spec (gOf u lp a) 64 0
  simp only [Nat.zero_add] at hn hspec
  refine ⟨n, ?_, hspec⟩
  rw [← hn]
  exact unary_answer h ctz d a

theorem popc_answer (d a : Fin 32) : exec (.popc lp d a 0 0) s = regsAnswer u lp {} fun r =>
    r.setG d (BitVec.ofNat 64 ((List.range 64).countP fun k => (gOf u lp a).getLsbD k)) := by
  rw [← ones_eq_countP]
  exact unary_answer h popc d a

theorem sel_answer (d a b c : Fin 32) : exec (.sel lp d a b c) s =
    regsAnswer u lp {} fun r => r.setG d (if gOf u lp c ≠ 0 then gOf u lp a else gOf u lp b) := by
  refine begins_regs (body := selBody lp d a b c) h ?_
  simp only [selBody, run_bind, run_readG, run_writeG, arch_advanced, getG_pswa]
  rfl

/-- SHI with an immediate of its 8 bits shifts (Table 4-7). -/
theorem shi_answer (d a : Fin 32) {i : BitVec 16} {v : Word} (hi : i.toNat < 256) (hv : shiftImm (gOf u lp a) i = v) :
    exec (.shi lp d a i) s = regsAnswer u lp {} fun r => r.setG d v := by
  have hres : decide (field i 8 8 ≠ 0) = false := by
    rw [decide_eq_false_iff_not, field_high_ne_zero]; omega
  refine begins_regs (body := shiBody lp d a i) h ?_
  rw [shiBody, run_bind, run_specIf, hres]
  simp only [Bool.false_eq_true, if_false, immediate_run, gOf_advanced, hv]

end

/-- SHI with a reserved bit of its immediate set raises the specification exception (R94). -/
theorem shiBody_reserved (lp : Fin 48) (d a : Fin 32) {i : BitVec 16} (hi : 256 ≤ i.toNat) (s : State) :
    shiBody lp d a i s = .error (.exc { code := 3, reason := 0, addr := 0 }) s := by
  refine run_bind_error ?_
  rw [run_specIf, decide_eq_true ((field_high_ne_zero i).mpr hi), if_pos rfl]

/-! ### The statements -/

/-- Settles O2, by the rule of a read after a write of a general register. -/
theorem generalRegisters : Obligations.GeneralRegisters :=
  ⟨getG_zero, setG_zero, fun a i v hi => by simp [getG_setG, hi], fun a i j v hj => by simp [getG_setG, hj]⟩

/-- Settles O4: each instruction is one of the shapes of bodies, with the function its table names; SHI with a reserved
bit raises its exception before it reads a register. -/
theorem integerOfOne : Obligations.IntegerOfOne := by
  refine ⟨fun lp d a b c s u h => ?_, fun lp d a i s u h => ?_, fun lp d a i s t u hi hr hp hf hc => ?_⟩
  · exact ⟨clz_answer h d a, ctz_answer h d a, popc_answer h d a, unary_answer h _ d a, unary_answer h _ d a,
      unary_answer h _ d a, sel_answer h d a b c⟩
  · exact ⟨immediate_answer h d a rfl, immediate_answer h d a rfl, immediate_answer h d a rfl,
      immediate_answer h d a rfl, immediate_answer h d a rfl, immediate_answer h d a (boolWord_decide _),
      immediate_answer h d a (by rw [slt_signExtend_imm, boolWord_decide]),
      immediate_answer h d a (by rw [ult_setWidth_imm, boolWord_decide]),
      fun hi => shi_answer h d a hi (shiftImm_eq _ hi)⟩
  · exact runInstr_spec hr hp hf hc (shiBody_reserved lp d a hi _)

end Sys2Proof.Machine

/-! Statements of the family `other`: the queue, the integer instructions of two sources, carry chains, wide products
and divisions, and the branches. -/

namespace Sys2Proof.Machine
-- Proofs one after the other: side by side they take more memory than the check allows.
set_option Elab.async false

/-- Settles O1: both halves are what `step` does with its queue. -/
theorem stepRunsFrontCommand : Obligations.StepRunsFrontCommand :=
  ⟨fun _ _ _ => rfl, fun s h => by rw [step, h]⟩

/-! ### Instructions over registers -/

theorem high_half (p : Quad) : (p >>> 64).setWidth 64 = p.extractLsb' 64 64 := by
  apply BitVec.eq_of_toNat_eq
  simp

@[simp] theorem updLp_same (s : State) (lp : Fin 48) : (updLp s lp fun x => x) = s := by simp [updLp, setLp, lpAt]

@[simp] theorem withRegs_same (s : State) (lp : Fin 48) : (withRegs s lp fun r => r) = s := updLp_same s lp

theorem branchTo_run (lp : Fin 48) (a : Word) (s : State) :
    branchTo lp a s = .ok ⟨⟩ (withRegs s lp fun r => { r with pswa := a }) := rfl

/-- A displacement counts from the branch itself (R96). -/
theorem branchTarget_eq (pc : Word) (disp : BitVec 21) :
    branchTarget (pc + BitVec.ofNat 64 4) disp = pc + disp.signExtend 64 <<< 2 := by
  simp [branchTarget, BitVec.add_sub_cancel]

section
variable {lp : Fin 48} {s u : State} (h : Begins s lp {} u)
include h

theorem binary_answer {f : Word → Word → Word} (d a b : Fin 32) {v : Word} (hv : f (gOf u lp a) (gOf u lp b) = v) :
    runInstr lp {} (binary f lp d a b 0) s = regsAnswer u lp {} fun r => r.setG d v :=
  begins_regs h (by rw [binary_run, gOf_advanced, gOf_advanced, hv])

theorem twoResults_answer {f : Word → Word → Word → Word × Word} {d a b c : Fin 32} (hd : d ≠ c ∨ d = 0) {v w : Word}
    (hv : f (gOf u lp a) (gOf u lp b) (gOf u lp c) = (v, w)) :
    runInstr lp {} (twoResults f lp d a b c) s = regsAnswer u lp {} fun r => (r.setG d v).setG c w :=
  begins_regs h (by rw [twoResults_run _ _ _ _ _ _ _ hd, gOf_advanced, gOf_advanced, gOf_advanced, hv])

theorem wideProduct_answer {f : Word → Word → Quad} {d : Fin 32} (a b : Fin 32) (hd : d.val % 2 = 0) {p : Quad}
    (hp : f (gOf u lp a) (gOf u lp b) = p) :
    runInstr lp {} (wideProduct f lp d a b 0) s =
      regsAnswer u lp {} fun r => (r.setG d (p.extractLsb' 64 64)).setG (d + 1) (p.setWidth 64) :=
  begins_regs h (by
    rw [wideProduct_run _ _ _ _ _ _ hd, gOf_advanced, gOf_advanced, hp, high_half]
    rfl)

theorem branchIf_answer {test : Word → Bool} {t : Fin 32} {disp : BitVec 21} {g : Arch → Arch}
    (hg : ∀ r, g r = if test (gOf u lp t) then { r with pswa := (archOf u lp).pswa + disp.signExtend 64 <<< 2 } else r) :
    runInstr lp {} (branchIf test lp t disp) s = regsAnswer u lp {} g := by
  obtain rfl := funext hg
  refine begins_regs h ?_
  rw [branchIf, run_bind_ok (run_getArch ..), arch_advanced, getG_pswa, branchTarget_eq]
  change (if test (gOf u lp t) then _ else _ : Run Unit) _ = _
  rw [run_ite]
  split
  · rw [branchTo_run]; rfl
  · rw [withRegs_same]; rfl

end

/-! ### Results of the functions -/

theorem boolWord_not_decide (p : Prop) [Decidable p] : boolWord (decide ¬p) = if p then 0 else 1 := by
  by_cases hp : p <;> simp [boolWord, hp]

theorem addCarry_eq (x y z : Word) : addCarry x y z =
    (x + y + BitVec.ofNat 64 (z.toNat % 2), if x.toNat + y.toNat + z.toNat % 2 < 2 ^ 64 then 0 else 1) := by
  refine Prod.ext ?_ ?_
  · apply BitVec.eq_of_toNat_eq
    simp [addCarry]
  · rw [← boolWord_not_decide]
    simp only [addCarry, Nat.not_lt, ge_iff_le]

theorem subBorrow_eq (x y z : Word) : subBorrow x y z =
    (x - y - BitVec.ofNat 64 (z.toNat % 2), if x.toNat < y.toNat + z.toNat % 2 then 1 else 0) := by
  rw [subBorrow, boolWord_decide]

/-- The product of two words, as a number of 128 bits. -/
theorem mul_setWidth_quad (x y : Word) : x.setWidth 128 * y.setWidth 128 = BitVec.ofNat 128 (x.toNat * y.toNat) := by
  apply BitVec.eq_of_toNat_eq
  rw [BitVec.toNat_mul, BitVec.toNat_setWidth_of_le (by decide), BitVec.toNat_setWidth_of_le (by decide),
    BitVec.toNat_ofNat]

theorem mul_signExtend_quad (x y : Word) :
    x.signExtend 128 * y.signExtend 128 = BitVec.ofInt 128 (x.toInt * y.toInt) := by
  apply BitVec.eq_of_toInt_eq
  rw [BitVec.toInt_mul, BitVec.toInt_signExtend_of_le (by decide), BitVec.toInt_signExtend_of_le (by decide),
    BitVec.toInt_ofInt]

/-- A register of a group of four is none of a pair in another group. -/
theorem group_ne_pair : ∀ d a : Fin 32, a.val % 2 = 0 → d.val % 4 = 0 → d.val / 4 ≠ a.val / 4 →
    ∀ i ∈ [d, nextReg d, nextReg d 2, nextReg d 3], i ≠ a ∧ i ≠ nextReg a := by decide

section
variable {lp : Fin 48} {s u : State}

theorem mulq_answer {d a b : Fin 32} (h : Begins s lp {} u) (ha : a.val % 2 = 0) (hb : b.val % 2 = 0)
    (hd : d.val % 4 = 0) (hda : d.val / 4 ≠ a.val / 4) (hdb : d.val / 4 ≠ b.val / 4) {p : Nat}
    (hp : ((gOf u lp a).toNat * 2 ^ 64 + (gOf u lp (a + 1)).toNat) *
      ((gOf u lp b).toNat * 2 ^ 64 + (gOf u lp (b + 1)).toNat) = p) :
    exec (.mulq lp d a b 0) s = regsAnswer u lp {} fun r =>
      (((r.setG d (BitVec.ofNat 64 (p / 2 ^ 192))).setG (d + 1) (BitVec.ofNat 64 (p / 2 ^ 128))).setG (d + 2)
        (BitVec.ofNat 64 (p / 2 ^ 64))).setG (d + 3) (BitVec.ofNat 64 p) := by
  refine begins_regs (body := mulqBody lp d a b 0) h ?_
  have hreg : ([0].any fun i : Fin 32 => decide (i ≠ 0)) = false := rfl
  have heven : (decide (a.val % 2 = 1) || decide (b.val % 2 = 1) || decide (d.val % 4 ≠ 0)) = false := by
    simp [ha, hb, hd]
  have hfree : ([d, nextReg d, nextReg d 2, nextReg d 3].any fun i =>
      [a, nextReg a, b, nextReg b].contains i) = false := by
    rw [List.any_eq_false]
    intro i hi
    obtain ⟨ha, ha'⟩ := group_ne_pair d a ha hd hda i hi
    obtain ⟨hb, hb'⟩ := group_ne_pair d b hb hd hdb i hi
    simp [ha, ha', hb, hb']
  simp only [mulqBody, run_bind, run_unused, hreg, run_specIf, heven, hfree, Bool.false_eq_true, if_false, run_readG]
  change _ = EStateM.Result.ok () (withRegs _ _ _)
  simp only [run_writeG, arch_advanced, getG_pswa, withRegs, updLp_updLp]
  subst hp
  rfl

end

/-! ### The statements -/

/-- Settles O3: each instruction is the shape of two sources with the function Table 4-6 names. -/
theorem integerOfTwo : Obligations.IntegerOfTwo := by
  intro lp d a b s u h
  exact ⟨binary_answer h d a b rfl, binary_answer h d a b rfl, binary_answer h d a b rfl, binary_answer h d a b rfl,
    binary_answer h d a b rfl, binary_answer h d a b rfl, binary_answer h d a b rfl, binary_answer h d a b rfl,
    binary_answer h d a b rfl, binary_answer h d a b rfl, binary_answer h d a b rfl, binary_answer h d a b rfl,
    binary_answer h d a b rfl, binary_answer h d a b (boolWord_decide _), binary_answer h d a b (boolWord_not_decide _),
    binary_answer h d a b (by rw [BitVec.slt_eq_decide, boolWord_decide]),
    binary_answer h d a b (by rw [BitVec.ult_eq_decide, boolWord_decide]),
    binary_answer h d a b (by rw [BitVec.sle_eq_decide, boolWord_decide]),
    binary_answer h d a b (by rw [BitVec.ule_eq_decide, boolWord_decide])⟩

/-- Settles O5: the forms of two results and the wide products are shapes of bodies, and the values of their functions are
those of R98 to R102. -/
theorem integerOfMore : Obligations.IntegerOfMore := by
  intro lp d a b c s u h
  refine ⟨fun hd => ⟨twoResults_answer h hd (addCarry_eq ..), twoResults_answer h hd (subBorrow_eq ..), ?_, ?_⟩,
    fun hd => ⟨wideProduct_answer h a b hd (mul_setWidth_quad ..), wideProduct_answer h a b hd (mul_signExtend_quad ..)⟩,
    fun ha hb hd hda hdb => mulq_answer h ha hb hd hda hdb rfl⟩
  · split
    next hz => exact twoResults_answer h hd (if_pos hz)
    next hz => exact twoResults_answer h hd (if_neg hz)
  · split
    next hz => exact twoResults_answer h hd (if_pos hz)
    next hz => exact twoResults_answer h hd (if_neg hz)

section
variable {lp : Fin 48} {s u : State}

theorem bal_answer (h : Begins s lp {} u) (t : Fin 32) (disp : BitVec 21) :
    exec (.bal lp t disp) s = regsAnswer u lp {} fun r =>
      { r.setG t ((archOf u lp).pswa + 4) with pswa := (archOf u lp).pswa + disp.signExtend 64 <<< 2 } := by
  refine begins_regs (body := balBody lp t disp) h ?_
  simp only [balBody, run_bind, run_getArch, run_writeG, branchTo_run, arch_advanced, branchTarget_eq]
  simp [withRegs, archOf]

/-- JR to an aligned address. -/
theorem jr_answer (h : Begins s lp {} u) (d a : Fin 32) (ha : (gOf u lp a).toNat % 4 = 0) :
    exec (.jr lp d a 0 0) s = regsAnswer u lp {} fun r =>
      { r.setG d ((archOf u lp).pswa + 4) with pswa := gOf u lp a } := by
  refine begins_regs (body := jrBody lp d a 0 0) h ?_
  have hreg : ([0, 0].any fun i : Fin 32 => decide (i ≠ 0)) = false := rfl
  have hal : ((lpAt u lp).arch.getG a).toNat % 4 = 0 := ha
  simp only [jrBody, run_bind, run_unused, hreg, run_getArch, run_specIf, arch_advanced, getG_pswa, hal,
    ne_eq, not_true, decide_false, Bool.false_eq_true, if_false, run_writeG, branchTo_run, withRegs, updLp_updLp]
  rfl

end

/-- Settles O6: a branch reads its own address, past which the processor already stands, and writes the next one. -/
theorem branches : Obligations.Branches := by
  intro lp t d a disp s u h
  exact ⟨branchIf_answer h fun r => by simp, branchIf_answer h fun r => by simp, bal_answer h t disp, jr_answer h d a⟩

/-- No processor runs after reset. -/
theorem lpReady_reset (lp : Fin 48) : lpReady State.reset lp = false := by
  have : lpAt State.reset lp = Lp.reset := Vector.getElem_replicate ..
  have hrun : Lp.reset.run ≠ .running := by decide
  simp [lpReady, this, hrun]

/-- Settles O56: the fields of the reset state, read off one by one. -/
theorem resetState : Obligations.ResetState := by
  unfold Obligations.ResetState
  exact ⟨rfl, rfl, rfl, rfl, rfl, rfl, rfl, rfl, lpReady_reset, rfl, rfl, fun _ => rfl⟩

end Sys2Proof.Machine

namespace Sys2Proof.Machine
-- Proofs one after the other: side by side they take more memory than the check allows.
set_option Elab.async false
/-! ### What no step undoes

Memory keeps its canonical form, the part stays, the fused SVN does not fall and a revoked key pair stays revoked: one
relation between states, `Evolves`, for O59 and O60. First the relation, then one lemma for each function of the model
that gives a state: what it makes of a state that evolved has evolved. Only the writes of memory (`memPut`, `clearDram`,
`dropRange`, `rekeyPkg`, `keepMemory`, the filter of `warmDies`) and the two commands of the fuses have a reason of their
own; every other function is put together from those before it. -/

variable {lp : Fin 48} {s₀ s t u : State}

/-- What no step undoes: memory in its canonical form, and the fuses. -/
structure Evolves (s t : State) : Prop where
  mem : Memory.wf s.mem → Memory.wf t.mem
  part : t.fuses.part = s.fuses.part
  svn : s.fuses.svn ≤ t.fuses.svn
  revoked : ∀ k, s.fuses.revoked.getLsbD k = true → t.fuses.revoked.getLsbD k = true

namespace Evolves

theorem refl (s : State) : Evolves s s := ⟨id, rfl, Nat.le_refl _, fun _ => id⟩

theorem trans (h : Evolves s t) (k : Evolves t u) : Evolves s u :=
  ⟨k.mem ∘ h.mem, k.part.trans h.part, Nat.le_trans h.svn k.svn, fun i => k.revoked i ∘ h.revoked i⟩

/-- A state with the memory and the fuses of one that evolves. -/
theorem same (h : Evolves s₀ s) (hm : t.mem = s.mem) (hf : t.fuses = s.fuses) : Evolves s₀ t :=
  ⟨fun w => hm ▸ h.mem w, hf ▸ h.part, hf ▸ h.svn, hf ▸ h.revoked⟩

theorem ite {c : Prop} [Decidable c] (ht : Evolves s₀ t) (hu : Evolves s₀ u) : Evolves s₀ (if c then t else u) := by
  split <;> assumption

/-- A state whose memory is in canonical form where that of `s` is, with the fuses of `s`. -/
theorem keep (h : Evolves s₀ s) (hm : Memory.wf s.mem → Memory.wf t.mem) (hf : t.fuses = s.fuses) : Evolves s₀ t :=
  ⟨hm ∘ h.mem, hf ▸ h.part, hf ▸ h.svn, hf ▸ h.revoked⟩

theorem fst {x : State × α} (e : x = (t, a)) (h : Evolves s₀ x.1) : Evolves s₀ t := by rwa [e] at h

end Evolves

theorem foldl_evolves {f : State → α → State} (hf : ∀ s x, Evolves s₀ s → Evolves s₀ (f s x)) {l : List α}
    (h : Evolves s₀ s) : Evolves s₀ (l.foldl f s) := by
  induction l generalizing s with
  | nil => exact h
  | cons x l ih => exact ih (hf s x h)

/-- A value that may be missing, with one in its place. -/
theorem getD_evolves {o : Option State} (ho : ∀ {t}, o = some t → Evolves s₀ t) (h : Evolves s₀ s) :
    Evolves s₀ (o.getD s) := by
  cases o with
  | none => exact h
  | some t => exact ho rfl

/-- A loop that carries more than the state. -/
theorem foldl_fst_evolves {f : State × β → α → State × β} (hf : ∀ a x, Evolves s₀ a.1 → Evolves s₀ (f a x).1) {l : List α}
    {a : State × β} (h : Evolves s₀ a.1) : Evolves s₀ (l.foldl f a).1 := by
  induction l generalizing a with
  | nil => exact h
  | cons x l ih => exact ih (hf a x h)

/-- A check and what follows it succeed where both do. -/
theorem checked_bind_ok {m : Checked α} {f : α → Checked β} {r : β} :
    (m >>= f) = .ok r ↔ ∃ a, m = .ok a ∧ f a = .ok r := by
  cases m <;> simp [bind, Except.bind]

/-- A check that succeeds with a state has one that evolves. -/
def ChecksEvolve (s₀ : State) (m : Checked (State × β)) : Prop := ∀ r, m = .ok r → Evolves s₀ r.1

namespace ChecksEvolve

theorem ok {r : State × β} (h : Evolves s₀ r.1) : ChecksEvolve s₀ (.ok r) := fun _ e => by cases e; exact h

theorem bind {m : Checked α} {f : α → Checked (State × β)} (hf : ∀ a, ChecksEvolve s₀ (f a)) :
    ChecksEvolve s₀ (m >>= f) := fun r e => by
  obtain ⟨a, -, e⟩ := checked_bind_ok.mp e
  exact hf a r e

theorem ite {c : Prop} [Decidable c] {m n : Checked (State × β)} (hm : ChecksEvolve s₀ m) (hn : ChecksEvolve s₀ n) :
    ChecksEvolve s₀ (if c then m else n) := by
  split <;> assumption

end ChecksEvolve

/-- The state in which a computation ends, completed or stopped, evolves. -/
def Ends (s₀ : State) : EStateM.Result Stop State α → Prop
  | .ok _ t => Evolves s₀ t
  | .error _ t => Evolves s₀ t

theorem setCell_evolves (h : Evolves s₀ s) : Evolves s₀ (setCell s k v) := h.same rfl rfl

theorem bump_evolves (h : Evolves s₀ s) : Evolves s₀ (bump s p off n idx) := setCell_evolves h

theorem bump64_evolves (h : Evolves s₀ s) : Evolves s₀ (bump64 s p off n) := setCell_evolves h

theorem taken_evolves (h : Evolves s₀ s) (n : Nat := 1) : Evolves s₀ (taken s n) := h.same rfl rfl

theorem emit_evolves (h : Evolves s₀ s) : Evolves s₀ (emit o s) := h.same rfl rfl

theorem setLp_evolves (h : Evolves s₀ s) : Evolves s₀ (setLp s lp x) := h.same rfl rfl

theorem updLp_evolves (h : Evolves s₀ s) : Evolves s₀ (updLp s lp f) := setLp_evolves h

theorem setPair_evolves (h : Evolves s₀ s) : Evolves s₀ (setPair s p x) := h.same rfl rfl

theorem updPair_evolves (h : Evolves s₀ s) : Evolves s₀ (updPair s p f) := setPair_evolves h

theorem memPut_evolves (h : Evolves s₀ s) : Evolves s₀ (memPut s a b) := h.keep (memPut_wf a b) (memPut_fuses s a b)

theorem memWrite_evolves (h : Evolves s₀ s) : Evolves s₀ (memWrite s a bs) := by
  induction bs generalizing s a with
  | nil => exact h
  | cons b bs ih => exact ih (memPut_evolves h)

theorem freshen_evolves (h : Evolves s₀ s) : Evolves s₀ (freshen s) := .ite h (taken_evolves h)

theorem setPoison_evolves (h : Evolves s₀ s) : Evolves s₀ (setPoison s line p) := h.same rfl rfl

theorem writeBack_evolves (h : Evolves s₀ s) : Evolves s₀ (writeBack s line) :=
  foldl_evolves (fun _ _ h => memPut_evolves h) (h.same rfl rfl)

theorem discardDirty_evolves (h : Evolves s₀ s) : Evolves s₀ (discardDirty s line) := h.same rfl rfl

theorem latch_evolves (h : Evolves s₀ s) : Evolves s₀ (latch s e') :=
  .ite (setCell_evolves h) (.ite (setCell_evolves h) (setCell_evolves h))

theorem deliverCtx_evolves (h : Evolves s₀ s) : Evolves s₀ (deliverCtx s ctx r') := h.same rfl rfl

theorem enterEvq_evolves (h : Evolves s₀ s) : Evolves s₀ (enterEvq s r') := .ite (bump_evolves h) (h.same rfl rfl)

theorem formRecord_evolves (h : Evolves s₀ s) : Evolves s₀ (formRecord s e') := by
  grind [formRecord, Evolves.same, deliverCtx_evolves, enterEvq_evolves]

theorem report_evolves (h : Evolves s₀ s) : Evolves s₀ (report s e') :=
  .ite (formRecord_evolves (latch_evolves (formRecord_evolves h))) (formRecord_evolves h)

theorem logEvent_evolves (h : Evolves s₀ s) : Evolves s₀ (logEvent s e') := report_evolves (latch_evolves h)

theorem discard_evolves (h : Evolves s₀ s) : Evolves s₀ (discard s m off isWrite) := .ite h (logEvent_evolves h)

theorem onceEvent_evolves (h : Evolves s₀ s) : Evolves s₀ (onceEvent s key e') :=
  .ite h (logEvent_evolves (h.same rfl rfl))

theorem updPart_evolves (h : Evolves s₀ s) : Evolves s₀ (updPart s p f) := h.same rfl rfl

theorem meter_evolves (h : Evolves s₀ s) : Evolves s₀ (meter s ctx i n) := .ite (updPart_evolves h) h

theorem countFg_evolves (h : Evolves s₀ s) : Evolves s₀ (countFg s cls i n) := h.same rfl rfl

theorem countHops_evolves (h : Evolves s₀ s) : Evolves s₀ (countHops s a b data) :=
  foldl_evolves (fun _ _ h => countFg_evolves h) h

theorem clearDram_evolves (h : Evolves s₀ s) : Evolves s₀ (clearDram s keep) := h.keep (clearDram_wf keep) rfl

theorem updMc_evolves (h : Evolves s₀ s) : Evolves s₀ (updMc s ch f) := h.same rfl rfl

theorem bankAccess_evolves (h : Evolves s₀ s) : Evolves s₀ (bankAccess s ch rank sub bank row) := by
  unfold bankAccess
  exact updMc_evolves (.ite (bump_evolves h) h)

/-- The definition is rewritten by `delta` and its place left general: the kernel does not evaluate `dramAt` there. -/
theorem lineAccess_evolves (h : Evolves s₀ s) : Evolves s₀ (lineAccess s line) := by
  suffices key : ∀ f, f = lineAccess → Evolves s₀ (f s line) from key _ rfl
  intro f hf
  delta lineAccess at hf
  rw [congrFun (congrFun hf s) line]
  extract_lets o
  clear_value o
  generalize dramAt s o = place
  cases place
  exact bankAccess_evolves h

theorem countDram_evolves (h : Evolves s₀ s) : Evolves s₀ (countDram s line) :=
  .ite (lineAccess_evolves (countFg_evolves h)) h

theorem wroteDram_evolves (h : Evolves s₀ s) : Evolves s₀ (wroteDram s line) :=
  .ite (bump_evolves (countDram_evolves h)) (countDram_evolves h)

theorem toPkgData_evolves (h : Evolves s₀ s) : Evolves s₀ (toPkgData name pkg dest line data s) := by
  dsimp only [toPkgData]
  split
  · exact h
  · split
    · exact h
    · exact foldl_evolves (fun _ _ h => emit_evolves h) (.ite (emit_evolves (h.same rfl rfl)) (emit_evolves
        (emit_evolves (h.same rfl rfl))))

theorem toPkg_evolves (h : Evolves s₀ s) : Evolves s₀ (toPkg name pkg dest line s) := toPkgData_evolves h

theorem sendDie_evolves (h : Evolves s₀ s) : Evolves s₀ (sendDie name die line s) := .ite h (toPkg_evolves h)

theorem sendLine_evolves (h : Evolves s₀ s) : Evolves s₀ (sendLine name die line s) := .ite h (toPkgData_evolves h)

theorem countSlice_evolves (h : Evolves s₀ s) : Evolves s₀ (countSlice s line) := .ite (countFg_evolves h) h

theorem countTo_evolves (h : Evolves s₀ s) : Evolves s₀ (countTo s die line data back) :=
  .ite (countHops_evolves h) (countHops_evolves h)

theorem countRead_evolves (h : Evolves s₀ s) : Evolves s₀ (countRead s p line) :=
  countTo_evolves (countTo_evolves (countDram_evolves (countSlice_evolves h)))

theorem l1Drop_evolves (h : Evolves s₀ s) : Evolves s₀ (l1Drop s p line) := updPair_evolves h

theorem loseReservation_evolves (h : Evolves s₀ s) : Evolves s₀ (loseReservation s p line) := by
  unfold loseReservation
  split
  · exact updLp_evolves h
  · exact h

theorem loseReservations_evolves (h : Evolves s₀ s) : Evolves s₀ (loseReservations s line keep) :=
  foldl_evolves (fun _ _ h => .ite h (updLp_evolves h)) h

theorem l2Drop_evolves (h : Evolves s₀ s) : Evolves s₀ (l2Drop s p line) := updPair_evolves (l1Drop_evolves h)

theorem l2Remove_evolves (h : Evolves s₀ s) : Evolves s₀ (l2Remove s p line) :=
  loseReservation_evolves (l2Drop_evolves h)

theorem l2SetState_evolves (h : Evolves s₀ s) : Evolves s₀ (l2SetState s p line st) := updPair_evolves h

theorem l2Evict_evolves (h : Evolves s₀ s) : Evolves s₀ (l2Evict s p line) := by
  grind [l2Evict, updPair_evolves, sendDie_evolves, sendLine_evolves, countTo_evolves, l1Drop_evolves,
    loseReservation_evolves]

theorem l3Remove_evolves (h : Evolves s₀ s) : Evolves s₀ (l3Remove s die line) := h.same rfl rfl

theorem l3Place_evolves (h : Evolves s₀ s) : Evolves s₀ (l3Place s die line st) := by
  dsimp only [l3Place]
  split
  · exact h
  · split
    · exact h
    · exact h.same rfl rfl

theorem putTxn_evolves (h : Evolves s₀ s) : Evolves s₀ (putTxn s line t') := h.same rfl rfl

theorem updSlice_evolves (h : Evolves s₀ s) : Evolves s₀ (updSlice s sl f) := h.same rfl rfl

theorem dirFree_evolves (h : Evolves s₀ s) : Evolves s₀ (dirFree s line) := h.same rfl rfl

theorem l2EvictNow_evolves (h : Evolves s₀ s) : Evolves s₀ (l2EvictNow s p line) := by
  unfold l2EvictNow
  split
  · exact l2Remove_evolves (dirFree_evolves (wroteDram_evolves (writeBack_evolves (countTo_evolves h))))
  · exact l3Place_evolves (l2Remove_evolves h)
  · exact h

theorem l2Place_evolves (h : Evolves s₀ s) (e : l2Place s p line st = some t) : Evolves s₀ t := by
  unfold l2Place at e
  split at e
  · split at e <;> cases e
    exact l2SetState_evolves h
  · split at e
    · cases e
    · split at e
      · cases e; exact updPair_evolves (taken_evolves h)
      · split at e <;> cases e
        exact updPair_evolves (taken_evolves (l2EvictNow_evolves h))

theorem fillRoom_evolves (h : Evolves s₀ s) : Evolves s₀ (fillRoom s p line) := by
  unfold fillRoom
  split
  · exact h
  · split
    · exact l2Evict_evolves (updPair_evolves (taken_evolves h))
    · exact h

theorem l1Place_evolves (h : Evolves s₀ s) : Evolves s₀ (l1Place s p line instr) := by
  grind [l1Place, taken_evolves, updPair_evolves]

theorem dieRemove_evolves (h : Evolves s₀ s) : Evolves s₀ (dieRemove s die line keep) :=
  l3Remove_evolves (foldl_evolves (fun _ _ h => .ite h (loseReservation_evolves (.ite (l2Drop_evolves h) h))) h)

theorem removeCopies_evolves (h : Evolves s₀ s) : Evolves s₀ (removeCopies s line keep) :=
  foldl_evolves (fun _ _ h => dieRemove_evolves h) h

theorem cleanCopies_evolves (h : Evolves s₀ s) : Evolves s₀ (cleanCopies s line st) :=
  foldl_evolves (fun _ _ h => .ite (l2SetState_evolves h) h) (writeBack_evolves h)

theorem dirAdd_evolves (h : Evolves s₀ s) : Evolves s₀ (dirAdd s line die excl) :=
  .ite h (.same (.ite (bump_evolves h) h) rfl rfl)

theorem dirOwn_evolves (h : Evolves s₀ s) : Evolves s₀ (dirOwn s line die) := .ite h (h.same rfl rfl)

theorem writeLine_evolves (h : Evolves s₀ s) : Evolves s₀ (writeLine s a bs poisoned) := by
  grind [writeLine, memWrite_evolves, setPoison_evolves, writeBack_evolves, discardDirty_evolves,
    loseReservations_evolves, dirFree_evolves, removeCopies_evolves]

theorem takeOwnership_evolves (h : Evolves s₀ s) (e : takeOwnership s p line = some t) : Evolves s₀ t := by
  dsimp only [takeOwnership] at e
  split at e
  · cases e; exact h
  split at e
  · cases e
  split at e
  · cases e; exact loseReservations_evolves (l2SetState_evolves h)
  split at e
  · exact l2Place_evolves (loseReservations_evolves (dieRemove_evolves h)) e
  · obtain ⟨-, e⟩ := Option.ite_none_left_eq_some.mp e
    obtain ⟨u, hu, rfl⟩ := Option.map_eq_some_iff.mp e
    exact dirOwn_evolves (l2Place_evolves (loseReservations_evolves (removeCopies_evolves (countRead_evolves h))) hu)

theorem takeCopy_evolves (h : Evolves s₀ s) (e : takeCopy s p line = some t) : Evolves s₀ t := by
  dsimp only [takeCopy] at e
  split at e
  · cases e; exact h
  split at e
  · cases e
  split at e
  · exact l2Place_evolves (l2Drop_evolves h) e
  · exact l2Place_evolves (l2SetState_evolves h) e
  split at e
  · exact l2Place_evolves (l3Remove_evolves h) e
  split at e
  · cases e
  · obtain ⟨u, hu, rfl⟩ := Option.map_eq_some_iff.mp e
    refine dirAdd_evolves (l2Place_evolves (foldl_evolves (fun s d h => ?_) (foldl_evolves (fun s q h => ?_)
      (countRead_evolves h))) hu)
    · split
      · exact .ite (h.same rfl rfl) h
      · exact h
    · exact .ite (l2SetState_evolves (writeBack_evolves h)) (.ite (l2SetState_evolves h) h)

theorem flushLine_evolves (h : Evolves s₀ s) : Evolves s₀ (flushLine s p line) :=
  .ite (dirFree_evolves (wroteDram_evolves (writeBack_evolves (countTo_evolves h)))) (writeBack_evolves
    (sendLine_evolves (countTo_evolves h)))

theorem cleanLine_evolves (h : Evolves s₀ s) : Evolves s₀ (cleanLine s p line) :=
  l2SetState_evolves (writeBack_evolves (.ite (wroteDram_evolves (countTo_evolves h)) (sendLine_evolves
    (countTo_evolves h))))

theorem answer_evolves (h : Evolves s₀ s) : Evolves s₀ (answer a name line s) := by
  unfold answer
  split
  · exact h
  · exact sendDie_evolves h
  · exact emit_evolves h

theorem answerLine_evolves (h : Evolves s₀ s) : Evolves s₀ (answerLine t' name s) := by
  dsimp only [answerLine]
  split
  · exact h
  · exact sendLine_evolves h
  · exact emit_evolves (emit_evolves h)

theorem openTxn_evolves (h : Evolves s₀ s) : Evolves s₀ (openTxn s r) := by
  refine .ite (answer_evolves ?_) ?_ <;>
  exact foldl_evolves (fun _ _ h => sendDie_evolves (.ite (countHops_evolves h) h)) (putTxn_evolves (countSlice_evolves h))

theorem tryOpen_evolves (h : Evolves s₀ s) (e : tryOpen s r' = some t) : Evolves s₀ t := by
  grind [tryOpen, openTxn_evolves]

theorem victimise_evolves (h : Evolves s₀ s) (e : victimise s line = some t) : Evolves s₀ t := by
  grind [victimise, bump_evolves, taken_evolves, dirFree_evolves, openTxn_evolves]

theorem enqueue_evolves (h : Evolves s₀ s) : Evolves s₀ (enqueue s sl r') := updSlice_evolves h

theorem accept_evolves (h : Evolves s₀ s) (e : accept s r = some t) : Evolves s₀ t := by
  dsimp only [accept] at e
  split at e
  · cases e
  split at e
  · cases e; exact enqueue_evolves h
  split at e
  · cases e; exact tryOpen_evolves h ‹_›
  · obtain ⟨u, hu, rfl⟩ := Option.map_eq_some_iff.mp e
    have h := victimise_evolves h hu
    exact getD_evolves (fun e => tryOpen_evolves h e) (enqueue_evolves h)

theorem pump_evolves (h : Evolves s₀ s) : Evolves s₀ (pump s sl) := by
  unfold pump
  extract_lets step take
  have hstep : ∀ acc r, Evolves s₀ acc.1 → Evolves s₀ (step acc r).1 := fun acc r h => by
    dsimp only [step]
    split
    · exact h
    · split
      · exact tryOpen_evolves h ‹_›
      · exact .ite h (getD_evolves (fun e => victimise_evolves h e) h)
  have htake : ∀ acc r, Evolves s₀ acc.1 → Evolves s₀ (take acc r).1 := fun acc r h => by
    dsimp only [take]
    split
    · exact h
    · split
      · exact accept_evolves h ‹_›
      · exact h
  split
  next hs =>
  have h := (foldl_fst_evolves hstep h).fst hs
  extract_lets s'
  have h : Evolves s₀ s' := updSlice_evolves h
  split
  next hu => exact updSlice_evolves ((foldl_fst_evolves htake h).fst hu)

theorem sendRetry_evolves (h : Evolves s₀ s) : Evolves s₀ (sendRetry r' s) := answer_evolves h

theorem refuse_evolves (h : Evolves s₀ s) : Evolves s₀ (refuse s r') := by
  grind [refuse, bump_evolves, updPair_evolves, updSlice_evolves, sendRetry_evolves]

theorem arrive_evolves (h : Evolves s₀ s) : Evolves s₀ (arrive s r') := by
  dsimp only [arrive]
  split
  · exact h
  · split
    · exact .ite (pump_evolves (updSlice_evolves (updSlice_evolves h))) (refuse_evolves h)
    · split
      · exact updSlice_evolves (accept_evolves h ‹_›)
      · exact refuse_evolves h

theorem lostEvent_evolves (h : Evolves s₀ s) : Evolves s₀ (lostEvent s who line owner) := by
  unfold lostEvent
  split
  · exact logEvent_evolves h
  · exact h

theorem freeLine_evolves (h : Evolves s₀ s) : Evolves s₀ (freeLine s line) :=
  setPoison_evolves (memWrite_evolves (taken_evolves h))

theorem farSnoop_evolves (h : Evolves s₀ s) : Evolves s₀ (farSnoop s r') :=
  .ite h (foldl_evolves (fun _ _ h => sendDie_evolves h) (.ite (freeLine_evolves h) h))

theorem agentWriteLine_evolves (h : Evolves s₀ s) : Evolves s₀ (agentWriteLine s who a bs) :=
  .ite (.ite (wroteDram_evolves (writeLine_evolves (countSlice_evolves (farSnoop_evolves h))))
      (getD_evolves (fun e => accept_evolves h e) (enqueue_evolves h)))
    (.ite (lostEvent_evolves h) (toPkgData_evolves (writeLine_evolves h)))

theorem agentWriteAux_evolves (h : Evolves s₀ s) : Evolves s₀ (agentWriteAux who n s a bs) := by
  induction n generalizing s a bs with
  | zero => exact h
  | succ n ih => exact .ite h (ih (agentWriteLine_evolves h))

theorem agentWrite_evolves (h : Evolves s₀ s) : Evolves s₀ (agentWrite s a bs who) := agentWriteAux_evolves h

theorem ackLeaving_evolves (h : Evolves s₀ s) : Evolves s₀ (ackLeaving s die line stale) :=
  .ite (sendDie_evolves h) (foldl_evolves (fun _ _ h => by grind [updPair_evolves, l3Place_evolves]) h)

theorem serveEviction_evolves (h : Evolves s₀ s) : Evolves s₀ (serveEviction s die line wbm) :=
  ackLeaving_evolves (.ite h (.ite (dirFree_evolves (wroteDram_evolves (writeBack_evolves h))) (dirFree_evolves
    (freeLine_evolves (discardDirty_evolves h)))))

theorem endTxn_evolves (h : Evolves s₀ s) : Evolves s₀ (endTxn s line) := by
  dsimp only [endTxn]
  split
  · exact h
  · exact pump_evolves (foldl_evolves (fun _ _ h => serveEviction_evolves h) (by grind [Evolves.same,
      serveEviction_evolves]))

theorem homeSettle_evolves (h : Evolves s₀ s) : Evolves s₀ (homeSettle s line) := by
  grind [homeSettle, putTxn_evolves, dirFree_evolves, answer_evolves, answerLine_evolves, endTxn_evolves]

theorem markClean_evolves (h : Evolves s₀ s) : Evolves s₀ (markClean s lp) := by
  unfold markClean
  split
  · exact updPair_evolves h
  · exact h

theorem closeInterval_evolves (h : Evolves s₀ s) : Evolves s₀ (closeInterval s lp) :=
  markClean_evolves (updLp_evolves h)

theorem mergeEntry_evolves (h : Evolves s₀ s) : Evolves s₀ (mergeEntry s e') := h.same rfl rfl

theorem mergeAll_evolves (h : Evolves s₀ s) : Evolves s₀ (mergeAll s lp line es) :=
  foldl_evolves (fun _ _ h => mergeEntry_evolves h) (loseReservations_evolves h)

theorem mergeWaiting_evolves (h : Evolves s₀ s) : Evolves s₀ (mergeWaiting s p line) := by
  dsimp only [mergeWaiting]
  split
  · exact h
  · exact .ite h (updLp_evolves (mergeAll_evolves (l2SetState_evolves h)))

theorem ownNow_evolves (h : Evolves s₀ s) (e : ownNow s p line = some t) : Evolves s₀ t := by
  obtain ⟨u, hu, rfl⟩ := Option.map_eq_some_iff.mp e
  exact mergeWaiting_evolves (takeOwnership_evolves h hu)

theorem writeEntry_evolves (h : Evolves s₀ s) : Evolves s₀ (writeEntry s e') :=
  foldl_evolves (fun _ _ h => agentWrite_evolves h) h

theorem drainNormal_evolves (h : Evolves s₀ s) : Evolves s₀ (drainNormal s lp p es line) := by
  dsimp only [drainNormal]
  split
  · exact updLp_evolves h
  · split
    · exact mergeAll_evolves h
    · exact mergeAll_evolves (l2SetState_evolves h)
    · exact updLp_evolves h

theorem sendFar_evolves (h : Evolves s₀ s) : Evolves s₀ (sendFar s lp name e') :=
  .ite (lostEvent_evolves h) (foldl_evolves (fun _ _ h => toPkgData_evolves h) (updLp_evolves h))

theorem drainStore_evolves (h : Evolves s₀ s) (e : drainStore s lp = some t) : Evolves s₀ t := by
  grind [drainStore, updLp_evolves, writeEntry_evolves, drainNormal_evolves, sendFar_evolves]

theorem drainStores_evolves (h : Evolves s₀ s) : Evolves s₀ (drainStores n s lp) := by
  induction n generalizing s with
  | zero => exact h
  | succ n ih =>
    unfold drainStores
    split
    · exact ih (drainStore_evolves h ‹_›)
    · exact h

theorem ownWaiting_evolves (h : Evolves s₀ s) : Evolves s₀ (ownWaiting s lp) := by
  unfold ownWaiting
  split
  · exact h
  · exact foldl_evolves (fun _ _ h => getD_evolves (fun e => ownNow_evolves h e) h) h

theorem performAll_evolves (h : Evolves s₀ s) (e : performAll s lp = some t) : Evolves s₀ t := by
  grind [performAll, drainStores_evolves, ownWaiting_evolves]

theorem drainStorage_evolves (h : Evolves s₀ s) : Evolves s₀ (drainStorage s lp) :=
  foldl_evolves (fun _ _ h => writeEntry_evolves h) (updLp_evolves (ownWaiting_evolves (drainStores_evolves h)))

theorem updTlbs_evolves (h : Evolves s₀ s) : Evolves s₀ (updTlbs s lp f) := updPair_evolves h

theorem cacheWalk_evolves (h : Evolves s₀ s) : Evolves s₀ (cacheWalk s lp e') := by
  unfold cacheWalk
  exact updTlbs_evolves (taken_evolves h)

theorem cacheLeaf_evolves (h : Evolves s₀ s) : Evolves s₀ (cacheLeaf s lp acc e') := by
  unfold cacheLeaf
  exact updTlbs_evolves (taken_evolves h)

theorem swapEntry_evolves (h : Evolves s₀ s) : Evolves s₀ (swapEntry s at_' expect new).1 := by
  grind [swapEntry, toPkgData_evolves, agentWrite_evolves]

theorem swapQueued_evolves (h : Evolves s₀ s) : Evolves s₀ (swapQueued s who at' expect new) := by
  have hs := swapEntry_evolves (at_' := at') (expect := expect) (new := new) h
  unfold swapQueued
  split <;> rename_i e <;> rw [e] at hs
  · exact hs
  · exact .ite (getD_evolves (fun e => accept_evolves h e) (enqueue_evolves h)) hs

theorem tlbiAll_evolves (h : Evolves s₀ s) : Evolves s₀ (tlbiAll s k va asid ctx) := by
  dsimp only [tlbiAll]
  split
  · exact .same (.same (foldl_evolves (fun _ _ h => toPkg_evolves h) h) rfl rfl) rfl rfl
  · exact .same (foldl_evolves (fun _ _ h => toPkg_evolves h) h) rfl rfl
  · exact .same (.same (foldl_evolves (fun _ _ h => toPkg_evolves h) h) rfl rfl) rfl rfl

theorem updJq_evolves (h : Evolves s₀ s) : Evolves s₀ (updJq s k f) := h.same rfl rfl

theorem setJob_evolves (h : Evolves s₀ s) : Evolves s₀ (setJob s j x) := h.same rfl rfl

theorem endJob_evolves (h : Evolves s₀ s) : Evolves s₀ (endJob s j x e') := setJob_evolves h

theorem assignJob_evolves (h : Evolves s₀ s) : Evolves s₀ (assignJob s j x) := by
  grind [assignJob, setJob_evolves, endJob_evolves]

theorem countMoved_evolves (h : Evolves s₀ s) : Evolves s₀ (countMoved s x consumed produced) := by
  dsimp only [countMoved]
  cases x.zip <;> cases x.crypt
  · exact h
  · exact meter_evolves (meter_evolves (bump64_evolves (bump64_evolves h)))
  · exact meter_evolves (meter_evolves (bump64_evolves (bump64_evolves h)))
  · exact meter_evolves (meter_evolves (bump64_evolves (bump64_evolves (meter_evolves (meter_evolves (bump64_evolves
      (bump64_evolves h)))))))

theorem freeJob_evolves (h : Evolves s₀ s) : Evolves s₀ (freeJob s j x) := by
  dsimp only [freeJob]
  refine meter_evolves (.same (s := match x.crypt with
    | some c => bump (match x.zip with | some z => bump s (zipPage z) 0x7C0 | none => s) (cryptPage c) 0x7C0
    | none => match x.zip with | some z => bump s (zipPage z) 0x7C0 | none => s) ?_ rfl rfl)
  cases x.zip <;> cases x.crypt
  · exact h
  · exact bump_evolves h
  · exact bump_evolves h
  · exact bump_evolves (bump_evolves h)

theorem completeJob_evolves (h : Evolves s₀ s) : Evolves s₀ (completeJob s j x e') :=
  .ite (updJq_evolves (freeJob_evolves (agentWrite_evolves (foldl_evolves (fun _ _ h => agentWrite_evolves h) h))))
    (freeJob_evolves (agentWrite_evolves (foldl_evolves (fun _ _ h => agentWrite_evolves h) h)))

theorem abortJobs_evolves (h : Evolves s₀ s) : Evolves s₀ (abortJobs s ctx detail) :=
  foldl_evolves (fun _ _ h => completeJob_evolves h) h

theorem queueSpoof_evolves (h : Evolves s₀ s) : Evolves s₀ (queueSpoof s k) := onceEvent_evolves (bump_evolves h)

theorem regenerate_evolves (h : Evolves s₀ s) : Evolves s₀ (regenerate s slot) := h.same rfl rfl

theorem loadKey_evolves (h : Evolves s₀ s) : Evolves s₀ (loadKey s slot x) := h.same rfl rfl

theorem eraseKey_evolves (h : Evolves s₀ s) : Evolves s₀ (eraseKey s slot) := h.same rfl rfl

theorem eraseKeys_evolves (h : Evolves s₀ s) : Evolves s₀ (eraseKeys s ctx) :=
  foldl_evolves (fun _ _ h => eraseKey_evolves h) h

theorem clearKeys_evolves (h : Evolves s₀ s) : Evolves s₀ (clearKeys s) := h.same rfl rfl

theorem setSch_evolves (h : Evolves s₀ s) : Evolves s₀ (setSch s n x) := h.same rfl rfl

theorem updSch_evolves (h : Evolves s₀ s) : Evolves s₀ (updSch s n f) := setSch_evolves h

theorem setOp_evolves (h : Evolves s₀ s) : Evolves s₀ (setOp s n o) := h.same rfl rfl

theorem updPath_evolves (h : Evolves s₀ s) : Evolves s₀ (updPath s p f) := h.same rfl rfl

theorem sendFrame_evolves (h : Evolves s₀ s) : Evolves s₀ (sendFrame s n o ty seq flags code len addr metered) :=
  emit_evolves (.ite (meter_evolves h) h)

theorem sendWin_evolves (h : Evolves s₀ s) : Evolves s₀ (sendWin s n o w metered) := sendFrame_evolves h

theorem jrnWrite_evolves (h : Evolves s₀ s) : Evolves s₀ (jrnWrite s n o st w) :=
  setOp_evolves (.ite (setCell_evolves (h.same rfl rfl)) (h.same rfl rfl))

theorem jrnFree_evolves (h : Evolves s₀ s) : Evolves s₀ (jrnFree s die ix) := h.same rfl rfl

theorem updCp_evolves (h : Evolves s₀ s) : Evolves s₀ (updCp s c f) := h.same rfl rfl

theorem inlineRecord_evolves (h : Evolves s₀ s) : Evolves s₀ (inlineRecord s o status detail) := by
  dsimp only [inlineRecord]
  split
  · exact h
  · split
    · exact h
    · exact freeJob_evolves (taken_evolves (agentWrite_evolves h))

theorem inlineMoves_evolves (h : Evolves s₀ s) : Evolves s₀ (inlineMoves s o die) := by
  unfold inlineMoves
  split
  · exact h
  · split
    · exact .ite h (assignJob_evolves h)
    · exact h

theorem decide__evolves (h : Evolves s₀ s) : Evolves s₀ (decide_ s n o fsc detail) := by
  unfold decide_
  split <;> exact setOp_evolves h

theorem postFinal_evolves (h : Evolves s₀ s) : Evolves s₀ (postFinal s n o w) := by
  grind [postFinal, bump_evolves, meter_evolves, updSch_evolves, setOp_evolves, sendFrame_evolves, jrnWrite_evolves,
    inlineRecord_evolves]

theorem removeStatus_evolves (h : Evolves s₀ s) : Evolves s₀ (removeStatus s n) := by
  unfold removeStatus
  extract_lets t
  have ht : Evolves s₀ t := by
    dsimp only [t]
    split
    · exact .ite (h.same rfl rfl) h
    · exact h
  exact updSch_evolves ht

theorem endAtBound_evolves (h : Evolves s₀ s) : Evolves s₀ (endAtBound s n o fsc) := .ite h (postFinal_evolves h)

theorem jrnBefore_evolves (h : Evolves s₀ s) : Evolves s₀ (jrnBefore s n o).1 := by
  grind [jrnBefore, jrnWrite_evolves]

theorem sendEnd_evolves (h : Evolves s₀ s) : Evolves s₀ (sendEnd s n o cmd).1 := by
  grind [sendEnd, sendWin_evolves, jrnBefore_evolves]

theorem sendAsked_evolves (h : Evolves s₀ s) : Evolves s₀ (sendAsked s n o) := by
  unfold sendAsked
  split
  · exact setOp_evolves h
  · split
    · split
      exact setOp_evolves (.fst ‹_› (sendEnd_evolves h))
    · split
      · split
        exact setOp_evolves (.fst ‹_› (sendEnd_evolves h))
      · exact setOp_evolves h

theorem sendCancel_evolves (h : Evolves s₀ s) : Evolves s₀ (sendCancel s n o fsc detail) := sendAsked_evolves h

theorem endByReset_evolves (h : Evolves s₀ s) : Evolves s₀ (endByReset s n o fsc) :=
  .ite h (.ite (decide__evolves h) (.ite (decide__evolves h) (sendCancel_evolves h)))

theorem failOp_evolves (h : Evolves s₀ s) : Evolves s₀ (failOp s n o fsc detail) :=
  .ite (decide__evolves h) (sendCancel_evolves h)

theorem grant_evolves (h : Evolves s₀ s) : Evolves s₀ (grant fuel s n o) := by
  induction fuel generalizing s o with
  | zero => exact setOp_evolves h
  | succ fuel ih =>
    unfold grant
    split
    · exact setOp_evolves h
    · dsimp only
      refine .ite (setOp_evolves h) (.ite (setOp_evolves (sendWin_evolves (jrnBefore_evolves h))) ?_)
      split
      · exact failOp_evolves h
      · split
        · exact failOp_evolves h
        · exact setOp_evolves h
        · exact ih (taken_evolves (setOp_evolves (sendWin_evolves (jrnBefore_evolves h))))

theorem grantAll_evolves (h : Evolves s₀ s) : Evolves s₀ (grantAll s n o) := grant_evolves (setOp_evolves h)

theorem sendResync_evolves (h : Evolves s₀ s) : Evolves s₀ (sendResync s n) := by
  dsimp only [sendResync]
  split
  · exact .ite (setOp_evolves (sendFrame_evolves (bump_evolves h))) h
  · exact h

theorem revoke_evolves (h : Evolves s₀ s) : Evolves s₀ (revoke s o) := h.same rfl rfl

theorem takePath_evolves (h : Evolves s₀ s) : Evolves s₀ (takePath s n o p) := by
  grind [takePath, setOp_evolves, jrnWrite_evolves, jrnFree_evolves, inlineMoves_evolves]

theorem goOn_evolves (h : Evolves s₀ s) : Evolves s₀ (goOn s n) := by
  unfold goOn
  split
  · exact .ite (sendResync_evolves h) (.ite h (grantAll_evolves h))
  · exact h

theorem movePath_evolves (h : Evolves s₀ s) : Evolves s₀ (movePath s n o) := by
  dsimp only [movePath]
  split
  · exact h
  · split
    · exact goOn_evolves (takePath_evolves (revoke_evolves h))
    · split
      · exact decide__evolves (jrnWrite_evolves (revoke_evolves h))
      · exact decide__evolves (jrnWrite_evolves (revoke_evolves h))
      · exact setOp_evolves (jrnWrite_evolves (revoke_evolves h))

theorem failPath_evolves (h : Evolves s₀ s) : Evolves s₀ (failPath s p) :=
  .ite h (foldl_evolves (fun _ _ h => movePath_evolves h) (logEvent_evolves (updPath_evolves h)))

theorem resumeWaiting_evolves (h : Evolves s₀ s) : Evolves s₀ (resumeWaiting s p) :=
  foldl_evolves (fun _ _ h => .ite (.ite (goOn_evolves (takePath_evolves h)) h) (.ite (goOn_evolves h) h)) h

theorem emptyTlbs_evolves (h : Evolves s₀ s) : Evolves s₀ (emptyTlbs s lp) := by
  unfold emptyTlbs
  split
  · exact updPair_evolves h
  · exact h

theorem beginLp_evolves (h : Evolves s₀ s) : Evolves s₀ (beginLp s lp pswa psws) := by
  unfold beginLp
  exact updLp_evolves (emptyTlbs_evolves h)

theorem waitLp_evolves (h : Evolves s₀ s) : Evolves s₀ (waitLp s lp) := by
  unfold waitLp
  exact updLp_evolves (emptyTlbs_evolves h)

theorem stopLp_evolves (h : Evolves s₀ s) : Evolves s₀ (stopLp s lp) := updLp_evolves h

theorem updFunc_evolves (h : Evolves s₀ s) : Evolves s₀ (updFunc s port rid f) := h.same rfl rfl

theorem dropPending_evolves (h : Evolves s₀ s) : Evolves s₀ (dropPending s ctx) :=
  foldl_evolves (fun _ _ h => by grind [updFunc_evolves]) (foldl_evolves (fun _ _ h => .ite (updJq_evolves h) h)
    (h.same rfl rfl))

theorem endOps_evolves (h : Evolves s₀ s) : Evolves s₀ (endOps s ctx fsc) :=
  foldl_evolves (fun _ _ h => endByReset_evolves h) h

theorem cancelBurin_evolves (h : Evolves s₀ s) : Evolves s₀ (cancelBurin s ctx) := h.same rfl rfl

theorem endOpsAtBound_evolves (h : Evolves s₀ s) : Evolves s₀ (endOpsAtBound s fsc) :=
  foldl_evolves (fun _ _ h => endAtBound_evolves h) h

theorem resetPartition_evolves (h : Evolves s₀ s) : Evolves s₀ (resetPartition s p) := by
  dsimp only [resetPartition]
  exact updPart_evolves (tlbiAll_evolves (foldl_evolves (fun _ _ h => waitLp_evolves h) (cancelBurin_evolves
    (eraseKeys_evolves (abortJobs_evolves (endOps_evolves (dropPending_evolves (foldl_evolves (fun _ _ h =>
      drainStorage_evolves (stopLp_evolves h)) h))))))))

theorem enterMode_evolves (h : Evolves s₀ s) : Evolves s₀ (enterMode s m phase) := logEvent_evolves (h.same rfl rfl)

theorem checkstopNow_evolves (h : Evolves s₀ s) : Evolves s₀ (checkstopNow s code page) :=
  .ite h (emit_evolves (enterMode_evolves (.ite (.same (h.same rfl rfl) rfl rfl) (h.same rfl rfl))))

theorem raise_evolves (h : Evolves s₀ s) : Evolves s₀ (raise s e') := by
  dsimp only [raise]
  split
  · split
    · exact .ite (resetPartition_evolves (logEvent_evolves h)) (checkstopNow_evolves (logEvent_evolves h))
    · exact logEvent_evolves h
  · exact checkstopNow_evolves (logEvent_evolves h)
  · exact logEvent_evolves h

theorem degrade_evolves (h : Evolves s₀ s) : Evolves s₀ (degrade s c) := by
  dsimp only [degrade]
  split
  · exact .ite h (logEvent_evolves (h.same rfl rfl))
  · exact .ite h (logEvent_evolves (h.same rfl rfl))
  · exact h.same rfl rfl

theorem feedRestored_evolves (h : Evolves s₀ s) : Evolves s₀ (feedRestored s) :=
  .ite h (.ite (h.same rfl rfl) (logEvent_evolves (h.same rfl rfl)))

theorem readEffect_evolves (h : Evolves s₀ s) : Evolves s₀ (readEffect s m off size) := .ite (setCell_evolves h) h

theorem leaveIndex_evolves (h : Evolves s₀ s) : Evolves s₀ (leaveIndex s k) :=
  .ite (setCell_evolves h) (.ite (setCell_evolves h) h)

theorem strikeEnds_evolves (h : Evolves s₀ s) : Evolves s₀ (strikeEnds s st reason) :=
  logEvent_evolves (h.same rfl rfl)

theorem cancelStrike_evolves (h : Evolves s₀ s) : Evolves s₀ (cancelStrike s reason) := .ite (strikeEnds_evolves h) h

theorem orderStrike_evolves (h : Evolves s₀ s) : Evolves s₀ (orderStrike s m cycle target) :=
  .ite (discard_evolves h) (.ite (strikeEnds_evolves h) (h.same rfl rfl))

theorem cancelOrder_evolves (h : Evolves s₀ s) : Evolves s₀ (cancelOrder s m) :=
  .ite (cancelStrike_evolves h) (discard_evolves h)

theorem atKeeper_evolves (h : Evolves s₀ s) (hx : Evolves s₀ x) : Evolves s₀ (atKeeper s m o x) := by
  grind [atKeeper, discard_evolves]

theorem releasePen_evolves (h : Evolves s₀ s) : Evolves s₀ (releasePen s reason) :=
  cancelStrike_evolves (h.same rfl rfl)

theorem grantPen_evolves (h : Evolves s₀ s) : Evolves s₀ (grantPen s m) := h.same rfl rfl

theorem penEvent_evolves (h : Evolves s₀ s) : Evolves s₀ (penEvent s former brk) := logEvent_evolves h

theorem writePen_evolves (h : Evolves s₀ s) : Evolves s₀ (writePen s m code brk) := by
  unfold writePen
  split
  · exact .ite (grantPen_evolves h) (discard_evolves h)
  · exact .ite (.ite (releasePen_evolves h) (.ite h (discard_evolves h))) (.ite (grantPen_evolves (penEvent_evolves
      (releasePen_evolves h))) (discard_evolves h))

theorem renewPen_evolves (h : Evolves s₀ s) : Evolves s₀ (renewPen s m) := .ite (h.same rfl rfl) (discard_evolves h)

theorem writeProofCmd_evolves (h : Evolves s₀ s) : Evolves s₀ (writeProofCmd s m go) :=
  .ite (discard_evolves h) (.ite (h.same rfl rfl) h)

theorem putDraft_evolves (h : Evolves s₀ s) : Evolves s₀ (putDraft s k v) :=
  .ite h (cancelStrike_evolves (h.same rfl rfl))

theorem dropRange_evolves (h : Evolves s₀ s) : Evolves s₀ (dropRange s a n) := h.keep (dropRange_wf a n) rfl

theorem waysStruck_evolves (h : Evolves s₀ s) : Evolves s₀ (waysStruck s d old new) :=
  .ite (dropRange_evolves (h.same rfl rfl)) (h.same rfl rfl)

theorem scrStruck_evolves (h : Evolves s₀ s) : Evolves s₀ (scrStruck s d old new) :=
  foldl_evolves (fun _ _ h => .ite h (dropRange_evolves h)) h

theorem ownershipStruck_evolves (h : Evolves s₀ s) : Evolves s₀ (ownershipStruck s p) :=
  .ite (updPart_evolves (tlbiAll_evolves h)) h

theorem assignmentStruck_evolves (h : Evolves s₀ s) : Evolves s₀ (assignmentStruck s p) := .ite (updPart_evolves h) h

theorem createPart_evolves (h : Evolves s₀ s) : Evolves s₀ (createPart s p) := h.same rfl rfl

theorem scramble_evolves (h : Evolves s₀ s) : Evolves s₀ (scramble s b n) := by
  unfold scramble
  extract_lets e
  have hstep : ∀ (s : State) (i : Nat), Evolves s₀ s →
      Evolves s₀ { s with scrambled := Tab.put s.scrambled (pkgId s * 2 ^ 20 + b + i) e } := fun s i h => h.same rfl rfl
  exact foldl_evolves hstep (taken_evolves h)

theorem pathStruck_evolves (h : Evolves s₀ s) : Evolves s₀ (pathStruck s p en) := by
  unfold pathStruck
  exact updPath_evolves (foldl_evolves (fun _ _ h => movePath_evolves h) (updPath_evolves h))

theorem setSource_evolves (h : Evolves s₀ s) : Evolves s₀ (setSource s src) := h.same rfl rfl

theorem rekeyPkg_fuses (s : State) (a b : Nat) : (rekeyPkg s a b).fuses = s.fuses := by
  unfold rekeyPkg
  split <;> rfl

theorem rekeyPkg_evolves (h : Evolves s₀ s) : Evolves s₀ (rekeyPkg s a b) :=
  h.keep (rekeyPkg_wf a b) (rekeyPkg_fuses s a b)

/-- A page whose struck register moves ownership or a resource: each case is the operation that R76 and R77 name. -/
theorem struck_evolves (h : Evolves s₀ s) : Evolves s₀ (struck s k old new) := by
  unfold struck
  extract_lets p off i _ s' s''
  split
  · exact .ite (setSource_evolves h) h
  · exact waysStruck_evolves h
  · have h : Evolves s₀ s' := .ite (h.same rfl rfl) h
    refine .ite (rekeyPkg_evolves h) (.ite (foldl_evolves (fun _ _ h => .ite h (ownershipStruck_evolves
      (ownershipStruck_evolves h))) h) (.ite ?_ h))
    exact .ite (scramble_evolves (.ite (scramble_evolves h) h)) (.ite (scramble_evolves h) h)
  · refine .ite (h.same rfl rfl) (.ite (.ite (h.same rfl rfl) h) (.ite (.ite (pathStruck_evolves h) h) (.ite ?_ h)))
    have h : Evolves s₀ s'' := h.same rfl rfl
    exact .ite (assignmentStruck_evolves (.ite (assignmentStruck_evolves h) h)) (.ite (assignmentStruck_evolves h) h)
  · exact .ite (updSch_evolves h) h
  · exact .ite (.ite (createPart_evolves h) (.ite (updPart_evolves h) h)) (.ite (ownershipStruck_evolves
      (scrStruck_evolves h)) (.ite (ownershipStruck_evolves h) (.ite h (assignmentStruck_evolves h))))
  · exact h

theorem lpStruck_evolves (h : Evolves s₀ s) : Evolves s₀ (lpStruck s lp) := .ite h (updLp_evolves h)

theorem ownersStruck_evolves (h : Evolves s₀ s) : Evolves s₀ (ownersStruck old s) :=
  foldl_evolves (fun _ _ h => eraseKey_evolves h) (foldl_evolves (fun _ _ h => completeJob_evolves h) h)

theorem applyStrike_evolves (h : Evolves s₀ s) : Evolves s₀ (applyStrike s) := by
  unfold applyStrike
  extract_lets old vals _ _ s₁ s₂ s₃ s₄ s₅
  have h₁ : Evolves s₀ s₁ := h.same rfl rfl
  have h₂ : Evolves s₀ s₂ := foldl_evolves (fun _ _ h => setCell_evolves h) h₁
  have h₃ : Evolves s₀ s₃ := foldl_evolves (fun _ _ h => struck_evolves h) h₂
  have h₄ : Evolves s₀ s₄ := .ite (foldl_evolves (fun _ _ h => lpStruck_evolves h) h₃) h₃
  have h₅ : Evolves s₀ s₅ := .ite (ownersStruck_evolves h₄) h₄
  exact h₅.same rfl rfl

theorem writeStrikeCmd_evolves (h : Evolves s₀ s) : Evolves s₀ (writeStrikeCmd s m op) := by
  dsimp only [writeStrikeCmd]
  split
  · exact .ite h (discard_evolves h)
  · exact cancelOrder_evolves h
  · exact orderStrike_evolves (taken_evolves h)

theorem endQuiesce_evolves (h : Evolves s₀ s) : Evolves s₀ (endQuiesce s) := h.same rfl rfl

theorem pairEvent_evolves (h : Evolves s₀ s) : Evolves s₀ (pairEvent s p code sub route) := logEvent_evolves h

theorem loseCycles_evolves (h : Evolves s₀ s) : Evolves s₀ (loseCycles s p most) := taken_evolves (bump64_evolves h)

theorem flushL2_evolves (h : Evolves s₀ s) : Evolves s₀ (flushL2 s p) :=
  foldl_evolves (fun _ _ h => l2Remove_evolves (.ite h (.ite (writeBack_evolves h) (flushLine_evolves h)))) h

theorem settleStores_evolves (h : Evolves s₀ s) : Evolves s₀ (settleStores s p).1 := by
  grind [settleStores, drainStorage_evolves, flushL2_evolves]

theorem rollback_evolves (h : Evolves s₀ s) : Evolves s₀ (rollback s lp) := updLp_evolves h

theorem copyReset_evolves (h : Evolves s₀ s) : Evolves s₀ (copyReset s p) := taken_evolves (updPair_evolves h)

theorem parityLoss_evolves (h : Evolves s₀ s) : Evolves s₀ (parityLoss s p) := taken_evolves (updPair_evolves h)

theorem abandonRotation_evolves (h : Evolves s₀ s) : Evolves s₀ (abandonRotation s) := by
  unfold abandonRotation
  split
  · exact pairEvent_evolves (h.same rfl rfl)
  · exact h

theorem stopPair_evolves (h : Evolves s₀ s) : Evolves s₀ (stopPair s p) := by
  grind [stopPair, updLp_evolves, updPair_evolves, drainStorage_evolves, degrade_evolves, pairEvent_evolves,
    flushL2_evolves]

theorem beginSparing_evolves (h : Evolves s₀ s) : Evolves s₀ (beginSparing s p) := by
  unfold beginSparing
  extract_lets own
  split
  · exact stopPair_evolves h
  · extract_lets ready t u
    have ht : Evolves s₀ t := by
      dsimp only [t]
      split
      · exact .ite (abandonRotation_evolves h) h
      · exact h
    have hu : Evolves s₀ u := updPair_evolves (updPair_evolves ht)
    exact hu.same rfl rfl

theorem beginRetry_evolves (h : Evolves s₀ s) : Evolves s₀ (beginRetry s p) := by
  grind [beginRetry, updPair_evolves, rollback_evolves, copyReset_evolves]

theorem recordMismatch_evolves (h : Evolves s₀ s) : Evolves s₀ (recordMismatch s p slice dvg again ckpt) := by
  unfold recordMismatch
  extract_lets v s'
  have h : Evolves s₀ s' := setCell_evolves h
  split
  · exact setCell_evolves h
  · exact h

theorem countedMismatch_evolves (h : Evolves s₀ s) : Evolves s₀ (countedMismatch s p slice dvg ckpt) := by
  dsimp only [countedMismatch]
  refine .ite (beginSparing_evolves (copyReset_evolves ?_)) (beginRetry_evolves (pairEvent_evolves
    (recordMismatch_evolves (updPair_evolves (bump_evolves h)))))
  split
  · exact rollback_evolves (recordMismatch_evolves (updPair_evolves (bump_evolves h)))
  · exact recordMismatch_evolves (updPair_evolves (bump_evolves h))

theorem dropMoves_evolves (h : Evolves s₀ s) : Evolves s₀ (dropMoves s p) := by
  dsimp only [dropMoves]
  split
  · exact .ite (updPair_evolves (.same (.same (foldl_evolves (fun _ _ h => updPair_evolves h) h) rfl rfl) rfl rfl))
      (.same (foldl_evolves (fun _ _ h => updPair_evolves h) h) rfl rfl)
  · exact .same (foldl_evolves (fun _ _ h => updPair_evolves h) h) rfl rfl

theorem checkpointLost_evolves (h : Evolves s₀ s) : Evolves s₀ (checkpointLost s p) := by
  grind [checkpointLost, updPair_evolves, stopLp_evolves, raise_evolves, dropMoves_evolves]

theorem countOnly_evolves (h : Evolves s₀ s) : Evolves s₀ (countOnly s p) := by
  dsimp only [countOnly]
  exact recordMismatch_evolves (updPair_evolves (bump_evolves h))

theorem updSparing_evolves (h : Evolves s₀ s) : Evolves s₀ (updSparing s p f) := h.same rfl rfl

theorem powerPair_evolves (h : Evolves s₀ s) : Evolves s₀ (powerPair s p) := updPair_evolves h

theorem takeIdentity_evolves (h : Evolves s₀ s) : Evolves s₀ (takeIdentity s src dst) := by
  dsimp only [takeIdentity]
  split
  · exact updLp_evolves (updPair_evolves (updPair_evolves h))
  · exact updPair_evolves (updPair_evolves h)

theorem startRotation_evolves (h : Evolves s₀ s) : Evolves s₀ (startRotation s src update) := by
  dsimp only [startRotation]
  split
  · exact .ite (h.same rfl rfl) (pairEvent_evolves (h.same rfl rfl))
  · exact pairEvent_evolves (h.same rfl rfl)

theorem rotateOldest_evolves (h : Evolves s₀ s) : Evolves s₀ (rotateOldest s) := by
  unfold rotateOldest
  split
  · exact startRotation_evolves h
  · exact h

/-- A command of a page evolves where what it orders does. -/
theorem command_evolves (h : Evolves s₀ s) (he : ∀ {s}, Evolves s₀ s → Evolves s₀ (eff s)) :
    Evolves s₀ (command s m p ok eff) := .ite (discard_evolves h) (he h)

theorem rotateCommand_evolves (h : Evolves s₀ s) : Evolves s₀ (rotateCommand s m arg) := by
  unfold rotateCommand
  exact command_evolves h fun h => by grind [startRotation_evolves]

theorem haltNow_evolves (h : Evolves s₀ s) : Evolves s₀ (haltNow s p) := by
  dsimp only [haltNow]
  split
  · exact .ite (updPair_evolves (closeInterval_evolves h)) h
  · exact h

theorem finishStop_evolves (h : Evolves s₀ s) : Evolves s₀ (finishStop s) := .ite (enterMode_evolves h) h

theorem setHalt_evolves (h : Evolves s₀ s) : Evolves s₀ (setHalt s m p) := haltNow_evolves (updPair_evolves h)

theorem clearHalt_evolves (h : Evolves s₀ s) : Evolves s₀ (clearHalt s p) := by
  grind [clearHalt, updLp_evolves, updPair_evolves]

theorem setStep_evolves (h : Evolves s₀ s) : Evolves s₀ (setStep s p) := by
  grind [setStep, updLp_evolves, updPair_evolves]

theorem writeDebug_evolves (h : Evolves s₀ s) : Evolves s₀ (writeDebug s m p v) :=
  .ite (.ite (setStep_evolves (.ite (updPair_evolves h) (setHalt_evolves (updPair_evolves h)))) (.ite
    (updPair_evolves h) (setHalt_evolves (updPair_evolves h)))) (clearHalt_evolves (updPair_evolves h))

theorem reachPair_evolves (h : Evolves s₀ s) (he : ∀ {s}, Evolves s₀ s → Evolves s₀ (eff s)) :
    Evolves s₀ (reachPair s m p off eff) := .ite (he h) (discard_evolves h)

theorem writeCkpt_evolves (h : Evolves s₀ s) : Evolves s₀ (writeCkpt s m p off size v) := by
  dsimp only [writeCkpt]
  split
  · exact .ite (.ite h (updLp_evolves h)) (discard_evolves h)
  · exact discard_evolves h

theorem takenCommand_evolves (h : Evolves s₀ s) : Evolves s₀ (takenCommand s m p) :=
  command_evolves h fun h => by grind [drainStorage_evolves, updPair_evolves, flushL2_evolves]

theorem debit_evolves (h : Evolves s₀ s) : Evolves s₀ (debit s act res n) := h.same rfl rfl

theorem markHeld_evolves (h : Evolves s₀ s) : Evolves s₀ (markHeld s act res) := h.same rfl rfl

theorem spend_evolves (h : Evolves s₀ s) : Evolves s₀ (spend s a costs).1 := by
  dsimp only [spend]
  split
  · exact foldl_evolves (fun _ _ h => debit_evolves h) h
  · exact foldl_evolves (fun _ _ h => markHeld_evolves h) h

theorem doorbell_evolves (h : Evolves s₀ s) : Evolves s₀ (doorbell s ctx k f) :=
  .ite (queueSpoof_evolves h) (.ite h (updJq_evolves h))

theorem doorbellStore_evolves (h : Evolves s₀ s) : Evolves s₀ (doorbellStore s ctx die page off v) := by
  dsimp only [doorbellStore]
  split <;> exact doorbell_evolves h

theorem readSlot_evolves (h : Evolves s₀ s) : Evolves s₀ (readSlot s k) := by
  dsimp only [readSlot]
  split
  · exact .ite (endJob_evolves (h.same rfl rfl)) (.ite (endJob_evolves (h.same rfl rfl)) (.ite (endJob_evolves
      (queueSpoof_evolves (h.same rfl rfl))) (setJob_evolves (h.same rfl rfl))))
  · exact updJq_evolves h

theorem visit_evolves (h : Evolves s₀ s) : Evolves s₀ (visit s k) := by
  dsimp only [visit]
  split
  · split
    · exact .ite (assignJob_evolves h) h
    · exact h
  · split
    · split
      · exact .ite (assignJob_evolves (readSlot_evolves h)) (readSlot_evolves h)
      · exact readSlot_evolves h
    · exact h

theorem drawn_evolves (h : Evolves s₀ s) : Evolves s₀ (drawn s x) := by
  grind [drawn, Evolves.same, taken_evolves]

theorem undefine_evolves (h : Evolves s₀ s) : Evolves s₀ (undefine s who e') :=
  foldl_evolves (fun _ _ h => agentWrite_evolves (taken_evolves h)) h

theorem compress_evolves (h : Evolves s₀ s) (e : compress s x keys = .ok r) : Evolves s₀ r.1 := by
  refine ChecksEvolve.bind (fun st => ?_) r e
  extract_lets chain jp
  have hjp (dict) : ChecksEvolve s₀ (jp dict) := by
    refine .bind fun _ => .bind fun _ => .bind fun src => ?_
    extract_lets whole
    refine .bind fun _ => ?_
    extract_lets ins
    refine .ite (.bind fun l => ?_) (.bind fun _ => ?_)
    · extract_lets out jp
      exact .ite (.bind fun _ => .ok h) (.bind fun _ => .ok h)
    · extract_lets k n
      exact .bind fun _ => .bind fun _ => .ok h
  exact .ite (.bind hjp) (.bind hjp)

theorem decompress_evolves (h : Evolves s₀ s) (e : decompress s x = .ok r) : Evolves s₀ r.1 := by
  refine ChecksEvolve.bind (fun st => .bind fun dict => .bind fun _ => .bind fun _ => .bind fun src => ?_) r e
  extract_lets ins n v
  refine .ite (.bind fun _ => .ok h) (.ite (.bind fun l => ?_) (.bind fun _ => .bind fun _ => .bind fun _ => .ok h))
  exact .ite (.bind fun _ => .ok h) (.bind fun _ => .ok h)

theorem cipher_evolves (h : Evolves s₀ s) (e : cipher s x types usage aad tag = .ok r) : Evolves s₀ r.1 := by
  refine ChecksEvolve.bind (fun _ => .bind fun k => .bind fun st => ?_) r e
  extract_lets jp
  have hjp (a) : ChecksEvolve s₀ (jp a) := .bind fun _ => .bind fun _ => .bind fun _ =>
    .ite (.bind fun _ => .ok h) (.bind fun _ => .ok h)
  exact .ite (.bind hjp) (.bind hjp)

theorem digest_evolves (h : Evolves s₀ s) (e : digest s x secret = .ok r) : Evolves s₀ r.1 := by
  grind [digest, checked_bind_ok]

theorem sign_evolves (h : Evolves s₀ s) (e : sign s x types rnd ctxAux = .ok r) : Evolves s₀ r.1 := by
  have hd : Evolves s₀ (if rnd then drawn s x else s) := .ite (drawn_evolves h) h
  refine ChecksEvolve.bind (fun _ => .bind fun k => ?_) r e
  extract_lets n jp
  have hjp (rs) : ChecksEvolve s₀ (jp rs) := by
    refine .bind fun msg => ?_
    extract_lets jp
    have hjp (c) : ChecksEvolve s₀ (jp c) := .bind fun _ => .bind fun _ => .bind fun _ => .ok hd
    exact .ite (.bind hjp) (.bind hjp)
  exact .ite (.bind hjp) (.bind hjp)

theorem verify_evolves (h : Evolves s₀ s) (e : verify s x types sigDst ctxAux = .ok r) : Evolves s₀ r.1 := by
  refine ChecksEvolve.bind (fun _ => ?_) r e
  extract_lets pubmem _ jp
  have hjp (p) : ChecksEvolve s₀ (jp p) := by
    obtain ⟨ty, pub⟩ := p
    refine ChecksEvolve.bind (fun _ => ?_)
    extract_lets n jp
    have hjp (sig) : ChecksEvolve s₀ (jp sig) := by
      dsimp -zeta only [jp]
      extract_lets jp
      have hjp (c) : ChecksEvolve s₀ (jp c) := .bind fun _ => .ok h
      exact .ite (.bind hjp) (.bind hjp)
    exact .ite (.bind hjp) (.bind hjp)
  exact .ite (.bind fun _ => .bind fun _ => .bind hjp) (.bind fun _ => .bind hjp)

theorem loaded_evolves (h : Evolves s₀ s) : Evolves s₀ (loaded s slot ty usage secret consumed).1 := loadKey_evolves h

theorem kemSecret_evolves {at' : Nat} (h : Evolves s₀ s) (e : kemSecret s x secret consumed stores at' = .ok r) :
    Evolves s₀ r.1 := by
  grind [kemSecret, checked_bind_ok, loaded_evolves]

theorem inlineLost_evolves {op : Option Nat} (h : Evolves s₀ s) : Evolves s₀ (inlineLost s op j) := by
  unfold inlineLost
  split
  · split
    · exact failOp_evolves h
    · exact h
  · exact h

theorem updDrbg_evolves (h : Evolves s₀ s) : Evolves s₀ (updDrbg s d f) := h.same rfl rfl

theorem prefetchLine_evolves (h : Evolves s₀ s) : Evolves s₀ (prefetchLine lp p store' near s va) := by
  grind [prefetchLine, l1Place_evolves, takeCopy_evolves, ownNow_evolves]

theorem trainStream_evolves (h : Evolves s₀ s) : Evolves s₀ (trainStream s p va store') := by
  grind [trainStream, updPair_evolves]

theorem touchLine_evolves (h : Evolves s₀ s) : Evolves s₀ (touchLine p store' s va line) :=
  .ite h (.ite (l1Place_evolves (trainStream_evolves h)) (trainStream_evolves h))

theorem touchPiece_evolves (h : Evolves s₀ s) : Evolves s₀ (touchPiece lp store' va pa n s) := by
  unfold touchPiece
  split
  · exact h
  · exact foldl_evolves (fun _ _ h => touchLine_evolves h) h

theorem touchFetch_evolves (h : Evolves s₀ s) : Evolves s₀ (touchFetch lp pa s) := by
  unfold touchFetch
  split
  · exact h
  · exact .ite (l1Place_evolves h) h

theorem inOrder_evolves (h : Evolves s₀ s) (hg : ∀ {s}, Evolves s₀ s → Evolves s₀ (go s)) :
    Evolves s₀ (inOrder s c go) := .ite (h.same rfl rfl) (hg h)

theorem startInline_evolves (h : Evolves s₀ s) : Evolves s₀ (startInline s n o handle) := by
  dsimp only [startInline]
  split
  · split
    · exact decide__evolves h
    · split
      · split
        · exact decide__evolves (assignJob_evolves (h.same rfl rfl))
        · exact setOp_evolves (assignJob_evolves (h.same rfl rfl))
      · exact setOp_evolves (assignJob_evolves (h.same rfl rfl))
  · exact decide__evolves h

theorem acceptOp_evolves (h : Evolves s₀ s) : Evolves s₀ (acceptOp s n slot ix o) := by
  dsimp only [acceptOp]
  split
  · exact startInline_evolves (jrnWrite_evolves (updSch_evolves (taken_evolves h)))
  · exact jrnWrite_evolves (updSch_evolves (taken_evolves h))

theorem startOp_evolves (h : Evolves s₀ s) : Evolves s₀ (startOp s n o).1 := by
  unfold startOp
  split
  · exact h
  · split
    · split
      · split
        · exact acceptOp_evolves h
        · exact h
      · exact h
    · exact foldl_evolves (fun _ _ h => .ite (bump_evolves h) h) h
    · exact h

theorem iplFails_evolves (h : Evolves s₀ s) : Evolves s₀ (iplFails s stage code) := logEvent_evolves (h.same rfl rfl)

theorem startIpl_evolves (h : Evolves s₀ s) : Evolves s₀ (startIpl s) := by
  unfold startIpl
  extract_lets n b
  split
  next hs =>
  have h := (startOp_evolves h).fst hs
  exact .ite (h.same rfl rfl) (iplFails_evolves h)

theorem iplBegins_evolves (h : Evolves s₀ s) : Evolves s₀ (iplBegins s n b) :=
  .ite (setCell_evolves (setCell_evolves (h.same rfl rfl))) (updLp_evolves (beginLp_evolves (setCell_evolves
    (setCell_evolves (h.same rfl rfl)))))

theorem iplGoesOn_evolves (h : Evolves s₀ s) : Evolves s₀ (iplGoesOn s n fsc) := by
  unfold iplGoesOn
  split
  · exact h
  · refine .ite h (.ite (iplFails_evolves h) ?_)
    extract_lets s' next
    have h : Evolves s₀ s' := removeStatus_evolves h
    refine .ite (iplFails_evolves h) (.ite (iplBegins_evolves h) ?_)
    split
    next hs =>
    have h := (startOp_evolves h).fst hs
    exact .ite (h.same rfl rfl) (iplFails_evolves h)
  · exact .ite h (.ite (iplFails_evolves h) (iplBegins_evolves (removeStatus_evolves h)))

theorem postProgress_evolves (h : Evolves s₀ s) : Evolves s₀ (postProgress s n o) := updSch_evolves h

theorem inlineAssign_evolves (h : Evolves s₀ s) : Evolves s₀ (inlineAssign s n o).1 := by
  unfold inlineAssign
  split
  · exact h
  · split
    · exact h
    · split
      · exact h
      · extract_lets s'
        have h : Evolves s₀ s' := assignJob_evolves h
        split
        · exact h
        · split
          · exact failOp_evolves h
          · exact h

theorem runCw_evolves (h : Evolves s₀ s) : Evolves s₀ (runCw s n o ad w) := by
  grind [runCw, setOp_evolves, decide__evolves, failOp_evolves, grantAll_evolves, postProgress_evolves]

theorem discardFrame_evolves (h : Evolves s₀ s) : Evolves s₀ (discardFrame s path c) := by
  dsimp only [discardFrame]
  split
  · exact .ite (failPath_evolves (updPath_evolves h)) (updPath_evolves h)
  · exact onceEvent_evolves (bump_evolves h)
  · exact h

theorem heard_evolves (h : Evolves s₀ s) : Evolves s₀ (heard s path) := updPath_evolves h

theorem inbound_evolves (h : Evolves s₀ s) (ha : ∀ {s f}, Evolves s₀ s → Evolves s₀ (act s f)) :
    Evolves s₀ (inbound s path rid frame ty act) := by
  unfold inbound
  extract_lets f
  split
  · have hs := heard_evolves (path := path) h
    refine .ite h (.ite hs (ha (.ite (bump_evolves hs) hs)))
  · exact discardFrame_evolves h

theorem frameDiscard_evolves (h : Evolves s₀ s) : Evolves s₀ (frameDiscard path rid frame s) := discardFrame_evolves h

theorem inlineAck_evolves (h : Evolves s₀ s) : Evolves s₀ (inlineAck s n o) := by
  dsimp only [inlineAck]
  split
  · exact setOp_evolves h
  · split
    · exact setOp_evolves h
    · split
      · exact setOp_evolves (foldl_evolves (fun _ _ h => agentWrite_evolves h) (taken_evolves h))
      · exact failOp_evolves h

theorem endNormal_evolves (h : Evolves s₀ s) : Evolves s₀ (endNormal s n o) := by
  dsimp only [endNormal]
  split
  · exact decide__evolves (.ite (taken_evolves h) h)
  · exact decide__evolves (taken_evolves (.ite (foldl_evolves (fun _ _ h => agentWrite_evolves h) h) h))

theorem afterAck_evolves (h : Evolves s₀ s) : Evolves s₀ (afterAck s n o) := by
  unfold afterAck
  split
  · exact setOp_evolves h
  · exact .ite (setOp_evolves h) (grantAll_evolves h)

theorem regrant_evolves (h : Evolves s₀ s) : Evolves s₀ (regrant s port) :=
  foldl_evolves (fun _ _ h => grantAll_evolves h) h

theorem ackWin_evolves (h : Evolves s₀ s) : Evolves s₀ (ackWin s n o w len) := by
  unfold ackWin
  extract_lets full wins acked o' s₁ s₂ s₃ s₄
  have h₁ : Evolves s₀ s₁ := meter_evolves (updSch_evolves h)
  have h₂ : Evolves s₀ s₂ := inlineAck_evolves h₁
  have h₃ : Evolves s₀ s₃ := afterAck_evolves h₂
  have h₄ : Evolves s₀ s₄ := by
    dsimp only [s₄]
    split
    · exact sendAsked_evolves h₃
    · exact h₃
  split
  · split
    · exact decide__evolves h₁
    · exact setOp_evolves h₁
  · exact .ite (regrant_evolves h₄) h₄

theorem frameAck_evolves (h : Evolves s₀ s) : Evolves s₀ (frameAck path rid frame s) :=
  inbound_evolves h fun h => by grind [ackWin_evolves, meter_evolves]

theorem frameStatus_evolves (h : Evolves s₀ s) : Evolves s₀ (frameStatus path rid frame s) :=
  inbound_evolves h fun h => by grind [meter_evolves, sendFrame_evolves, endNormal_evolves, decide__evolves,
    setOp_evolves]

theorem sendAgain_evolves (h : Evolves s₀ s) : Evolves s₀ (sendAgain s n o above) := by
  unfold sendAgain
  split
  next hs =>
  refine grantAll_evolves (setOp_evolves ((foldl_fst_evolves (fun acc w h => ?_) h).fst hs))
  obtain ⟨s, ws, held⟩ := acc
  dsimp -zeta only
  extract_lets slot w
  split
  · exact h
  · split
    · exact h
    · exact taken_evolves (.ite (sendWin_evolves h) h)

theorem frameResync_evolves (h : Evolves s₀ s) : Evolves s₀ (frameResync path rid frame s) :=
  inbound_evolves h fun h => by grind [sendAgain_evolves, setOp_evolves, decide__evolves]

theorem frameHeartbeat_evolves (h : Evolves s₀ s) : Evolves s₀ (frameHeartbeat path rid frame s) :=
  inbound_evolves h fun h => by grind [updPath_evolves, resumeWaiting_evolves, logEvent_evolves]

theorem blockDma_evolves (h : Evolves s₀ s) : Evolves s₀ (blockDma s port rid path slot write inWin) :=
  .ite (.ite (bump_evolves h) (onceEvent_evolves (bump_evolves h))) (emit_evolves (.ite (bump_evolves h)
    (onceEvent_evolves (bump_evolves h))))

theorem inlineStore_evolves (h : Evolves s₀ s) : Evolves s₀ (inlineStore s n o w x port len) :=
  setOp_evolves (agentWrite_evolves (taken_evolves (countMoved_evolves h)))

theorem inlineFetch_evolves (h : Evolves s₀ s) : Evolves s₀ (inlineFetch s n o w x port rid len) :=
  setOp_evolves (emit_evolves (countMoved_evolves (taken_evolves h)))

theorem adapterDma_evolves (h : Evolves s₀ s) : Evolves s₀ (adapterDma port rid addr write len data s) := by
  grind [adapterDma, emit_evolves, freshen_evolves, agentWrite_evolves, sendCancel_evolves, blockDma_evolves,
    inlineStore_evolves, inlineFetch_evolves]

theorem takeOver_evolves (h : Evolves s₀ s) : Evolves s₀ (takeOver s n o cp) :=
  goOn_evolves (.ite (setOp_evolves h) (jrnWrite_evolves h))

theorem setFeed_evolves (h : Evolves s₀ s) : Evolves s₀ (setFeed s b x) := h.same rfl rfl

theorem updFeed_evolves (h : Evolves s₀ s) : Evolves s₀ (updFeed s b f) := setFeed_evolves h

theorem feedEvent_evolves (h : Evolves s₀ s) : Evolves s₀ (feedEvent s code sub) := logEvent_evolves h

theorem judgeActive_evolves (h : Evolves s₀ s) : Evolves s₀ (judgeActive s single) := by
  dsimp only [judgeActive]
  split
  · exact h
  · exact .ite (.ite h (degrade_evolves (feedEvent_evolves (bump_evolves (h.same rfl rfl))))) (.ite (bump_evolves
      (feedEvent_evolves h)) h)

theorem judgeOther_evolves (h : Evolves s₀ s) : Evolves s₀ (judgeOther s b) :=
  .ite h (.ite (.ite (updFeed_evolves h) h) (.ite (updFeed_evolves h) (.ite (degrade_evolves (feedEvent_evolves
    (updFeed_evolves h))) (.ite (updFeed_evolves h) (.ite (updFeed_evolves h) h)))))

theorem judge_evolves (h : Evolves s₀ s) : Evolves s₀ (judge s b against) :=
  .ite (judgeActive_evolves (judgeOther_evolves h)) h

theorem swapCommand_evolves (h : Evolves s₀ s) : Evolves s₀ (swapCommand s m) := by
  unfold swapCommand
  extract_lets ok
  refine command_evolves h fun h => ?_
  split
  · extract_lets s'
    have h : Evolves s₀ s' := updFeed_evolves (updFeed_evolves h)
    exact bump_evolves (h.same rfl rfl)
  · exact h

theorem clearTripCommand_evolves (h : Evolves s₀ s) : Evolves s₀ (clearTripCommand s m) :=
  command_evolves h fun h => h.same rfl rfl

theorem setSlot_evolves (h : Evolves s₀ s) : Evolves s₀ (setSlot s slot ver res) := h.same rfl rfl

theorem advanceIdx_evolves (h : Evolves s₀ s) : Evolves s₀ (advanceIdx s) := setCell_evolves h

theorem writeImg_evolves (h : Evolves s₀ s) : Evolves s₀ (writeImg s m off size v) := by
  unfold writeImg
  extract_lets i slot k old s₁ _ s₂
  have h₁ : Evolves s₀ s₁ := setSlot_evolves h
  have h₂ : Evolves s₀ s₂ := .ite (h₁.same rfl rfl) h₁
  exact .ite (discard_evolves h) (advanceIdx_evolves (h₂.same rfl rfl))

theorem readBy_evolves (h : Evolves s₀ s) : Evolves s₀ (readBy s m off size) := by
  unfold readBy
  split
  · exact h
  · split
    · exact emit_evolves (readEffect_evolves h)
    · exact emit_evolves (discard_evolves h)

theorem verifyCommand_evolves (h : Evolves s₀ s) : Evolves s₀ (verifyCommand s m arg) :=
  command_evolves h fun h => h.same rfl rfl

theorem loadGoesOn_evolves (h : Evolves s₀ s) : Evolves s₀ (loadGoesOn s slot) := .ite (h.same rfl rfl) h

/-- The fused SVN becomes the greater of itself and the one the command names (R433). -/
theorem advanceCommand_evolves (h : Evolves s₀ s) : Evolves s₀ (advanceCommand s m) := by
  unfold advanceCommand
  extract_lets cur svn
  exact command_evolves h fun h => ⟨h.mem, h.part, Nat.le_trans h.svn (Nat.le_max_left ..), h.revoked⟩

/-- A revocation adds a bit to those revoked (R439). -/
theorem revokeCommand_evolves (h : Evolves s₀ s) : Evolves s₀ (revokeCommand s m arg) := by
  unfold revokeCommand
  extract_lets cur k own
  refine command_evolves h fun {s} h => ⟨h.mem, h.part, h.svn, fun i hi => ?_⟩
  show (s.fuses.revoked ||| _).getLsbD i = true
  rw [BitVec.getLsbD_or, h.revoked i hi, Bool.true_or]

theorem endUpdate_evolves (h : Evolves s₀ s) : Evolves s₀ (endUpdate s) := .ite (logEvent_evolves (h.same rfl rfl)) h

theorem settlePairs_evolves (h : Evolves s₀ s) : Evolves s₀ (settlePairs s) := by
  unfold settlePairs
  extract_lets s₁ s₂
  have h₁ : Evolves s₀ s₁ := foldl_evolves (fun _ _ h => updPair_evolves (takeIdentity_evolves h)) h
  have h₂ : Evolves s₀ s₂ := by
    dsimp only [s₂]
    split
    · exact updPair_evolves (updPair_evolves h₁)
    · exact h₁
  clear_value s₂
  exact h₂.same rfl rfl

/-- What the loss of power keeps: the fuses, and what memory still holds. -/
theorem dark_evolves (h : Evolves s₀ s) : Evolves s₀ (dark s keep dram) := by
  unfold dark
  extract_lets s'
  have h : Evolves s₀ s' := settlePairs_evolves h
  exact h.keep (keepMemory_wf _) rfl

theorem feedsOpen_evolves (h : Evolves s₀ s) : Evolves s₀ (feedsOpen s) := by
  dsimp only [feedsOpen]
  split
  · exact h
  · exact updFeed_evolves (h.same rfl rfl)

theorem goOff_evolves (h : Evolves s₀ s) : Evolves s₀ (goOff s) := h.keep (keepMemory_wf _) rfl

theorem toStandby_evolves (h : Evolves s₀ s) : Evolves s₀ (toStandby s) :=
  .ite (enterMode_evolves h) (goOff_evolves h)

theorem powerDown_evolves (h : Evolves s₀ s) : Evolves s₀ (powerDown s cause) :=
  toStandby_evolves (feedEvent_evolves (dark_evolves (feedsOpen_evolves (releasePen_evolves h))))

theorem coldReset_evolves (h : Evolves s₀ s) : Evolves s₀ (coldReset s) := by
  unfold coldReset
  extract_lets s'
  have h : Evolves s₀ s' := dark_evolves (feedsOpen_evolves h)
  exact toStandby_evolves (h.same rfl rfl)

theorem flushAll_evolves (h : Evolves s₀ s) : Evolves s₀ (flushAll s) := by
  unfold flushAll
  extract_lets s'
  have h : Evolves s₀ s' := foldl_evolves (fun _ _ h => flushL2_evolves h) h
  clear_value s'
  exact foldl_evolves (fun _ _ h => memPut_evolves h) (h.same rfl rfl)

theorem emptyArrays_evolves (h : Evolves s₀ s) : Evolves s₀ (emptyArrays s) := h.same rfl rfl

theorem seedAll_evolves (h : Evolves s₀ s) : Evolves s₀ (seedAll s) := h.same rfl rfl

theorem warmDrain_evolves (h : Evolves s₀ s) : Evolves s₀ (warmDrain s) := by
  unfold warmDrain
  extract_lets stopped _ s₁ s₂ s₃ _ s₄ s₅ _ s₆
  have h₁ : Evolves s₀ s₁ := .ite (h.same rfl rfl) h
  have h₂ : Evolves s₀ s₂ := releasePen_evolves h₁
  have h₃ : Evolves s₀ s₃ := foldl_evolves (fun _ _ h => .ite (stopLp_evolves h) (drainStorage_evolves
    (stopLp_evolves h))) h₂
  have h₄ : Evolves s₀ s₄ := h₃.same rfl rfl
  have h₅ : Evolves s₀ s₅ := abortJobs_evolves (endOps_evolves h₄)
  have h₆ : Evolves s₀ s₆ := h₅.same rfl rfl
  exact .ite h₆ (emit_evolves h₆)

theorem warmBegin_evolves (h : Evolves s₀ s) : Evolves s₀ (warmBegin s) :=
  .ite (h.same rfl rfl) (warmDrain_evolves (h.same rfl rfl))

theorem holdStop_evolves (h : Evolves s₀ s) : Evolves s₀ (holdStop s) :=
  foldl_evolves (fun _ _ h => .ite (stopLp_evolves (drainStorage_evolves h)) (.ite (stopLp_evolves
    (drainStorage_evolves (closeInterval_evolves (drainStorage_evolves h)))) (drainStorage_evolves h))) h

theorem holdFlush_evolves (h : Evolves s₀ s) : Evolves s₀ (holdFlush s) := by
  unfold holdFlush
  extract_lets s₁ d s₂
  have h₁ : Evolves s₀ s₁ := foldl_evolves (fun _ _ h => .ite (sendFrame_evolves h) h) h
  have h₂ : Evolves s₀ s₂ := flushAll_evolves (abortJobs_evolves (taken_evolves h₁))
  clear_value s₂
  exact h₂.same rfl rfl

theorem enterHold_evolves (h : Evolves s₀ s) : Evolves s₀ (enterHold s mask) :=
  enterMode_evolves (.ite (.same (rekeyPkg_evolves (dark_evolves h)) rfl rfl) (setSource_evolves (.same
    (rekeyPkg_evolves (dark_evolves h)) rfl rfl)))

theorem holdIfFlushed_evolves (h : Evolves s₀ s) : Evolves s₀ (holdIfFlushed s) := .ite (enterHold_evolves h) h

theorem holdGoesOn_evolves (h : Evolves s₀ s) : Evolves s₀ (holdGoesOn s) :=
  .ite (holdStop_evolves (releasePen_evolves h)) (.ite (enterHold_evolves (holdFlush_evolves (holdStop_evolves
    (releasePen_evolves h)))) (holdIfFlushed_evolves (emit_evolves (holdFlush_evolves (holdStop_evolves
    (releasePen_evolves h))))))

theorem stopPairs_evolves (h : Evolves s₀ s) : Evolves s₀ (stopPairs s) :=
  finishStop_evolves (foldl_evolves (fun _ _ h => haltNow_evolves h) h)

theorem afterStrike_evolves (h : Evolves s₀ s) : Evolves s₀ (afterStrike s) := by
  unfold afterStrike
  split
  · exact .ite h (warmDrain_evolves h)
  · exact .ite h (holdGoesOn_evolves h)
  · exact stopPairs_evolves h
  · exact h

theorem modeCommand_evolves (h : Evolves s₀ s) (he : ∀ {s}, Evolves s₀ s → Evolves s₀ (eff s)) :
    Evolves s₀ (modeCommand s m ok eff) := command_evolves h he

theorem takeFeed_evolves (h : Evolves s₀ s) : Evolves s₀ (takeFeed s) := .ite h (updFeed_evolves (h.same rfl rfl))

theorem powerOnCommand_evolves (h : Evolves s₀ s) : Evolves s₀ (powerOnCommand s m) := by
  unfold powerOnCommand
  extract_lets ok
  refine modeCommand_evolves h fun {s} h => ?_
  extract_lets held s₁ _ s₂ s₃
  have h₁ : Evolves s₀ s₁ := takeFeed_evolves h
  have h₂ : Evolves s₀ s₂ := .ite (foldl_evolves (fun _ _ h => setCell_evolves h) h₁) (h₁.same rfl rfl)
  have h₃ : Evolves s₀ s₃ := enterMode_evolves h₂
  clear_value s₃
  exact h₃.same rfl rfl

theorem proceedCommand_evolves (h : Evolves s₀ s) : Evolves s₀ (proceedCommand s m) :=
  modeCommand_evolves h fun h => h.same rfl rfl

theorem serviceStopCommand_evolves (h : Evolves s₀ s) : Evolves s₀ (serviceStopCommand s m) :=
  modeCommand_evolves h fun h => stopPairs_evolves (h.same rfl rfl)

theorem resumeCommand_evolves (h : Evolves s₀ s) : Evolves s₀ (resumeCommand s m) :=
  modeCommand_evolves h fun h => enterMode_evolves (foldl_evolves (fun _ _ h => by grind [updLp_evolves,
    updPair_evolves]) h)

theorem holdCommand_evolves (h : Evolves s₀ s) : Evolves s₀ (holdCommand s m) :=
  modeCommand_evolves (.ite h (taken_evolves h)) fun h => .ite (h.same rfl rfl) (holdGoesOn_evolves (h.same rfl rfl))

theorem warmResetCommand_evolves (h : Evolves s₀ s) : Evolves s₀ (warmResetCommand s m) :=
  modeCommand_evolves h fun h => warmBegin_evolves h

theorem coldResetCommand_evolves (h : Evolves s₀ s) : Evolves s₀ (coldResetCommand s m) :=
  command_evolves h fun h => coldReset_evolves h

theorem iplCommand_evolves (h : Evolves s₀ s) : Evolves s₀ (iplCommand s m) :=
  modeCommand_evolves h fun h => startIpl_evolves (removeStatus_evolves h)

theorem enterConfig_evolves (h : Evolves s₀ s) : Evolves s₀ (enterConfig s) := h.same rfl rfl

theorem warmDies_evolves (h : Evolves s₀ s) : Evolves s₀ (warmDies s) := by
  unfold warmDies
  extract_lets wb s₁ s₂ scr s₃ s₄ s₅
  have h₁ : Evolves s₀ s₁ := .ite h (.ite (flushAll_evolves h) (emit_evolves (flushAll_evolves h)))
  have h₂ : Evolves s₀ s₂ := emptyArrays_evolves (settlePairs_evolves h₁)
  clear_value s₂
  have h₃ : Evolves s₀ s₃ := h₂.keep (wf_filter _) rfl
  have h₄ : Evolves s₀ s₄ := foldl_evolves (fun _ _ h => waitLp_evolves h) h₃
  have h₅ : Evolves s₀ s₅ := foldl_evolves (fun _ _ h => dropPending_evolves h) h₄
  clear_value s₅
  exact h₅.same rfl rfl

theorem initFails_evolves (h : Evolves s₀ s) : Evolves s₀ (initFails s result ch) := logEvent_evolves (h.same rfl rfl)

theorem powerDies_evolves (h : Evolves s₀ s) : Evolves s₀ (powerDies s) :=
  .ite (foldl_evolves (fun _ _ h => updPair_evolves h) h) (foldl_evolves (fun _ _ h => updPair_evolves h)
    (foldl_evolves (fun _ _ h => updPair_evolves h) h))

theorem readSpds_evolves (h : Evolves s₀ s) : Evolves s₀ (readSpds s l) := by
  dsimp only [readSpds]
  split
  · exact initFails_evolves (h.same rfl rfl)
  · split
    · exact initFails_evolves (h.same rfl rfl)
    · exact .same (h.same rfl rfl) rfl rfl

theorem sendConfigs_evolves (h : Evolves s₀ s) : Evolves s₀ (sendConfigs s) :=
  foldl_evolves (fun _ _ h => emit_evolves h) h

theorem trainAll_evolves (h : Evolves s₀ s) : Evolves s₀ (trainAll s inp) := by
  unfold trainAll
  extract_lets _ s₁ s₂ _ s₃
  have h₁ : Evolves s₀ s₁ := h.same rfl rfl
  have h₂ : Evolves s₀ s₂ := seedAll_evolves (emptyArrays_evolves h₁)
  have h₃ : Evolves s₀ s₃ := .ite h₂ (clearKeys_evolves (h₂.same rfl rfl))
  exact .ite (initFails_evolves h₁) (.ite (initFails_evolves h₁) (sendConfigs_evolves (h₃.same rfl rfl)))

theorem copyTime_evolves (h : Evolves s₀ s) : Evolves s₀ (copyTime s sec steps) := h.same rfl rfl

theorem coupleAll_evolves (h : Evolves s₀ s) : Evolves s₀ (coupleAll s tod) := by
  unfold coupleAll
  refine .ite h (.ite (initFails_evolves h) ?_)
  extract_lets _ s'
  have h : Evolves s₀ s' := by
    dsimp only [s']
    split
    · exact .ite (copyTime_evolves (h.same rfl rfl)) h
    · exact h
  exact h.same rfl rfl

theorem loadFails_evolves (h : Evolves s₀ s) : Evolves s₀ (loadFails s result) := logEvent_evolves (h.same rfl rfl)

theorem beginPackage_evolves (h : Evolves s₀ s) : Evolves s₀ (beginPackage s) :=
  .ite (foldl_evolves (fun _ _ h => waitLp_evolves h) h) (.ite (startIpl_evolves (foldl_evolves (fun _ _ h =>
    waitLp_evolves h) h)) (beginLp_evolves (foldl_evolves (fun _ _ h => waitLp_evolves h) h)))

theorem relResult_evolves (h : Evolves s₀ s) : Evolves s₀ (relResult s p r' ix) := setCell_evolves h

theorem releaseCommand_evolves (h : Evolves s₀ s) : Evolves s₀ (releaseCommand s m p arg) := by
  unfold releaseCommand
  exact command_evolves h fun h => .ite (relResult_evolves h) (.ite (relResult_evolves h) (relResult_evolves (h.same
    rfl rfl)))

theorem partResetCommand_evolves (h : Evolves s₀ s) : Evolves s₀ (partResetCommand s m p) :=
  command_evolves h fun h => resetPartition_evolves h

theorem beginAtStart_evolves (h : Evolves s₀ s) : Evolves s₀ (beginAtStart s p lp) := beginLp_evolves h

theorem startCommand_evolves (h : Evolves s₀ s) : Evolves s₀ (startCommand s m p) := by
  unfold startCommand
  extract_lets x ok
  refine command_evolves h fun h => ?_
  extract_lets s'
  have h : Evolves s₀ s' := updPart_evolves h
  split
  · exact h
  · exact foldl_evolves (fun _ _ h => .ite (beginAtStart_evolves h) h) (beginAtStart_evolves h)

theorem errClear_evolves (h : Evolves s₀ s) : Evolves s₀ (errClear s p) := setCell_evolves (setCell_evolves h)

theorem badCode_evolves (h : Evolves s₀ s) : Evolves s₀ (badCode s m p) := command_evolves h fun h => by grind []

theorem reclaimCommand_evolves (h : Evolves s₀ s) : Evolves s₀ (reclaimCommand s m p arg) := by
  unfold reclaimCommand
  extract_lets kind ix
  exact command_evolves h fun h => .ite (h.same rfl rfl) h

theorem writeCommand_evolves (h : Evolves s₀ s) : Evolves s₀ (writeCommand s m p code arg) := by
  have hb : Evolves s₀ (badCode s m p) := badCode_evolves h
  unfold writeCommand
  refine .ite (.ite h hb) (.ite (command_evolves h fun h => errClear_evolves h) ?_)
  split
  · split
    · exact rotateCommand_evolves h
    · exact powerOnCommand_evolves h
    · exact proceedCommand_evolves h
    · exact serviceStopCommand_evolves h
    · exact resumeCommand_evolves h
    · exact holdCommand_evolves h
    · exact warmResetCommand_evolves h
    · exact coldResetCommand_evolves h
    · exact iplCommand_evolves h
    · exact hb
  · split
    · exact swapCommand_evolves h
    · exact clearTripCommand_evolves h
    · exact hb
  · split
    · exact .ite (takenCommand_evolves h) hb
    · exact h
  · split
    · exact releaseCommand_evolves h
    · exact reclaimCommand_evolves h
    · exact partResetCommand_evolves h
    · exact startCommand_evolves h
    · exact hb
  · refine .ite hb ?_
    split
    · exact verifyCommand_evolves h
    · exact advanceCommand_evolves h
    · exact revokeCommand_evolves h
    · exact hb
  · exact hb

theorem writeSt_evolves (h : Evolves s₀ s) : Evolves s₀ (writeSt s m p e' r' off size v full) :=
  .ite (putDraft_evolves h) (discard_evolves h)

theorem writeRp_evolves (h : Evolves s₀ s) : Evolves s₀ (writeRp s m portB v full) :=
  .ite (h.same rfl rfl) (discard_evolves h)

theorem writeLv_evolves (h : Evolves s₀ s) : Evolves s₀ (writeLv s m p e r' off size v full) := by
  have hd : Evolves s₀ (discard s m full true) := discard_evolves h
  unfold writeLv
  extract_lets k plain
  have hp : Evolves s₀ plain := setCell_evolves h
  split
  · split
    · exact writePen_evolves h
    · exact renewPen_evolves h
    · exact .ite hp hd
    · exact writeRp_evolves h
    · exact writeRp_evolves h
    · exact hp
  · split
    · exact .ite (writeDebug_evolves h) (.ite (writeCkpt_evolves h) hp)
    · exact h
  · exact .ite hd hp
  · exact .ite (writeImg_evolves h) hp
  · exact .ite hd hp
  · exact hp

theorem writeOne_evolves (h : Evolves s₀ s) : Evolves s₀ (writeOne s m p off size v) := by
  dsimp only [writeOne]
  split
  · exact .ite (discard_evolves h) h
  · split
    · exact writeSt_evolves h
    · split
      · exact discard_evolves h
      · split
        · exact writeLv_evolves h
        · exact setCell_evolves h
        · exact .ite (writeCommand_evolves h) (.ite (writeProofCmd_evolves h) (writeStrikeCmd_evolves h))
        · exact h

theorem writeTwo_evolves (h : Evolves s₀ s) : Evolves s₀ (writeTwo s m p off v) :=
  .ite (writeOne_evolves h) (writeOne_evolves (writeOne_evolves h))

theorem writeService_evolves (h : Evolves s₀ s) : Evolves s₀ (writeService s m off size v) :=
  .ite (discard_evolves h) (.ite (writeOne_evolves h) (.ite (writeOne_evolves h) (writeTwo_evolves h)))

theorem setSide_evolves (h : Evolves s₀ s) : Evolves s₀ (setSide s b x) := .ite (h.same rfl rfl) (h.same rfl rfl)

theorem makeSignal_evolves (h : Evolves s₀ s) : Evolves s₀ (makeSignal s lp) :=
  .ite (.ite (.ite (updLp_evolves h) (beginAtStart_evolves h)) (beginLp_evolves h)) (updLp_evolves h)

theorem signalStore_evolves (h : Evolves s₀ s) : Evolves s₀ (signalStore s ctx page off size v) := by
  grind [signalStore, bump_evolves, toPkg_evolves, makeSignal_evolves]

theorem enter_evolves (h : Evolves s₀ s) : Evolves s₀ (enter s lp mgr mce vec cw addr) :=
  closeInterval_evolves (updLp_evolves h)

theorem ilcTaken_evolves (h : Evolves s₀ s) : Evolves s₀ (ilcTaken s first) := .ite (taken_evolves h) h

theorem enterExc_evolves (h : Evolves s₀ s) : Evolves s₀ (enterExc s lp ilc e') := enter_evolves (ilcTaken_evolves h)

theorem syncCheck_evolves (h : Evolves s₀ s) : Evolves s₀ (syncCheck s lp ilc va) :=
  .ite (.ite (raise_evolves h) (raise_evolves h)) (.ite (enter_evolves (taken_evolves (logEvent_evolves h)))
    (enter_evolves (logEvent_evolves h)))

theorem lostRead_evolves (h : Evolves s₀ s) : Evolves s₀ (lostRead s lp line) := by
  unfold lostRead
  split
  · exact lostEvent_evolves h
  · exact h

theorem closeDue_evolves (h : Evolves s₀ s) : Evolves s₀ (closeDue s lp) :=
  .ite (closeInterval_evolves h) (updLp_evolves h)

theorem endStep_evolves (h : Evolves s₀ s) : Evolves s₀ (endStep s lp) := by
  unfold endStep
  split
  · exact updPair_evolves h
  · exact h

theorem finish_evolves (h : Evolves s₀ s) : Evolves s₀ (finish s lp f) :=
  endStep_evolves (freshen_evolves (.ite (drainStores_evolves (.ite (closeDue_evolves (updLp_evolves h))
    (updLp_evolves h))) (.ite (closeDue_evolves (updLp_evolves h)) (updLp_evolves h))))

theorem undone_evolves (h : Evolves s₀ s) : Evolves s₀ (undone old s lp) := setLp_evolves h

theorem nullified_evolves (h : Evolves s₀ s) : Evolves s₀ (nullified f old s lp) := updLp_evolves (undone_evolves h)

theorem settle_evolves {r : EStateM.Result Stop State Unit} (h : Ends s₀ r) (e : settle lp f s r = some t) :
    Evolves s₀ t := by
  unfold settle at e
  split at e
  · cases e; exact finish_evolves h
  · split at e <;> cases e
    exact endStep_evolves (enterExc_evolves (nullified_evolves h))
  · split at e <;> cases e
    exact endStep_evolves (enterExc_evolves h)
  · split at e <;> cases e
    exact endStep_evolves (syncCheck_evolves (ilcTaken_evolves (nullified_evolves h)))
  · cases e
  · cases e; exact undone_evolves h
  · cases e

theorem prepare_evolves (h : Evolves s₀ s) (e : prepare s lp before = some t) : Evolves s₀ t := by
  grind [prepare, closeInterval_evolves]

theorem loadNow_evolves (h : Evolves s₀ s) (e : loadNow s lp pa n = some r) : Evolves s₀ r.1 := by
  grind [loadNow, discard_evolves, readEffect_evolves]

theorem farLoss_evolves (h : Evolves s₀ s) : Evolves s₀ (farLoss s lp line) := updLp_evolves (taken_evolves h)

theorem readCopy_evolves (h : Evolves s₀ s) (e : readCopy s p line = some t) : Evolves s₀ t := by
  unfold readCopy at e
  cases hc : takeCopy s p line with
  | some u =>
    rw [hc] at e
    cases e
    exact takeCopy_evolves h hc
  | none =>
    rw [hc] at e
    dsimp only [Option.orElse] at e
    split at e <;> cases e
    exact h

theorem endWait_evolves (h : Evolves s₀ s) : Evolves s₀ (endWait s lp) := closeDue_evolves (updLp_evolves h)

theorem tlbiRemove_evolves (h : Evolves s₀ s) : Evolves s₀ (tlbiRemove s lp k va asid ctx) :=
  .ite (updLp_evolves (tlbiAll_evolves h)) (endWait_evolves (tlbiAll_evolves h))

theorem waitCheck_evolves (h : Evolves s₀ s) : Evolves s₀ (waitCheck s lp) := by
  unfold waitCheck
  split
  · exact .ite (endWait_evolves h) h
  · exact .ite (tlbiRemove_evolves h) h
  · exact .ite h (endWait_evolves h)
  · exact h

theorem barrierAll_evolves (h : Evolves s₀ s) : Evolves s₀ (barrierAll s) :=
  foldl_evolves (fun _ _ h => waitCheck_evolves h) h

theorem barrierCheck_evolves (h : Evolves s₀ s) : Evolves s₀ (barrierCheck s lp) :=
  foldl_evolves (fun _ _ h => by grind [waitCheck_evolves]) (waitCheck_evolves h)

theorem maintLine_evolves (h : Evolves s₀ s) : Evolves s₀ (maintLine s k line) := by
  dsimp only [maintLine]
  split
  · exact cleanCopies_evolves (foldl_evolves (fun _ _ h => toPkg_evolves h) h)
  · exact dirFree_evolves (removeCopies_evolves (discardDirty_evolves (foldl_evolves (fun _ _ h => toPkg_evolves h)
      h)))
  · exact dirFree_evolves (removeCopies_evolves (writeBack_evolves (foldl_evolves (fun _ _ h => toPkg_evolves h) h)))

theorem maintL2_evolves (h : Evolves s₀ s) : Evolves s₀ (maintL2 s p k line) := by
  unfold maintL2
  split
  · exact .ite (cleanLine_evolves h) h
  · exact l2Remove_evolves (.ite (discardDirty_evolves h) h)
  · exact l2Remove_evolves (.ite (flushLine_evolves h) h)

theorem maintL1_evolves (h : Evolves s₀ s) : Evolves s₀ (maintL1 s p k instr line) := .ite h (updPair_evolves h)

theorem updBurin_evolves (h : Evolves s₀ s) : Evolves s₀ (updBurin s d f) := h.same rfl rfl

theorem codelessEvent_evolves (h : Evolves s₀ s) : Evolves s₀ (codelessEvent s page cls owner addr) :=
  logEvent_evolves (taken_evolves h)

theorem burinPoison_evolves (h : Evolves s₀ s) : Evolves s₀ (burinPoison s die line) :=
  .ite (codelessEvent_evolves (updBurin_evolves h)) h

theorem burinLine_evolves (h : Evolves s₀ s) : Evolves s₀ (burinLine die s p line) :=
  .ite (updBurin_evolves (l2Evict_evolves (updBurin_evolves (burinPoison_evolves h)))) (maintL2_evolves
    (updBurin_evolves (burinPoison_evolves h)))

theorem burinOneSet_evolves (h : Evolves s₀ s) : Evolves s₀ (burinOneSet s die) := by
  unfold burinOneSet
  extract_lets b mine s₁ s₂
  have h₁ : Evolves s₀ s₁ := foldl_evolves (fun _ _ h => foldl_evolves (fun _ _ h =>
    .ite (updBurin_evolves h) (burinLine_evolves h)) h) h
  have h₂ : Evolves s₀ s₂ := .ite h₁ (foldl_evolves (fun _ _ h => l3Remove_evolves (burinPoison_evolves h)) h₁)
  exact updBurin_evolves h₂

theorem haltOp_evolves (h : Evolves s₀ s) : Evolves s₀ (haltOp s n) := by
  dsimp only [haltOp]
  split
  · exact updSch_evolves h
  · exact .ite (updSch_evolves h) (.ite (decide__evolves (updSch_evolves h)) (.ite (decide__evolves (updSch_evolves
      h)) (sendAsked_evolves (updSch_evolves h))))

theorem clearOp_evolves (h : Evolves s₀ s) : Evolves s₀ (clearOp s n) := by
  dsimp only [clearOp]
  split
  · exact h
  · exact .ite h (.ite (updSch_evolves h) (.ite (decide__evolves (updSch_evolves h)) (.ite (decide__evolves
      (updSch_evolves h)) (sendCancel_evolves (updSch_evolves h)))))

theorem doorbellDrain_evolves (h : Evolves s₀ s) : Evolves s₀ (doorbellDrain s ctx sd page off size v) :=
  .ite h (.ite (doorbellStore_evolves h) (.ite (.ite (doorbellStore_evolves h) (.ite h (doorbellStore_evolves h))) h))

theorem drainDevice_evolves (h : Evolves s₀ s) : Evolves s₀ (drainDevice s lp e') := by
  dsimp only [drainDevice]
  split
  · exact h
  · split
    · exact sendFar_evolves h
    · split
      · exact writeService_evolves h
      · exact doorbellDrain_evolves h
      · exact signalStore_evolves h
      · exact updLp_evolves h
      · exact h

theorem drainOne_evolves (h : Evolves s₀ s) : Evolves s₀ (drainOne s lp) := by
  grind [drainOne, updLp_evolves, drainStore_evolves, drainDevice_evolves]

theorem funcEvent_evolves (h : Evolves s₀ s) : Evolves s₀ (funcEvent s port rid code) := logEvent_evolves h

theorem portStore_evolves (h : Evolves s₀ s) : Evolves s₀ (portStore s port rid w) :=
  .ite (funcEvent_evolves h) (.ite (emit_evolves (updFunc_evolves h)) (updFunc_evolves h))

theorem forwardHeld_evolves (h : Evolves s₀ s) : Evolves s₀ (forwardHeld port rid l c s).1 := by
  induction l generalizing s c with
  | nil => exact h
  | cons w l ih =>
    cases c with
    | zero => exact h
    | succ c => exact ih (emit_evolves h)

theorem setLink_evolves (h : Evolves s₀ s) : Evolves s₀ (setLink s port sub rate width) := setCell_evolves h

theorem endDevLoad_evolves (h : Evolves s₀ s) : Evolves s₀ (endDevLoad s lp l bs) :=
  .ite (updLp_evolves h) (closeDue_evolves (updLp_evolves h))

theorem dropLoad_evolves (h : Evolves s₀ s) : Evolves s₀ (dropLoad s lp) := updLp_evolves h

theorem ioKeep_evolves (h : Evolves s₀ s) : Evolves s₀ (ioKeep s e') := h.same rfl rfl

theorem ctxEntry_evolves (h : Evolves s₀ s) (e : ctxEntry s port rid = some r) : Evolves s₀ r.1 := by
  grind [ctxEntry, ioKeep_evolves]

theorem ioRoot_evolves (h : Evolves s₀ s) (e : ioRoot s port rid part e1 e2 pasid = some r) : Evolves s₀ r.1 := by
  unfold ioRoot at e
  split at e
  · split at e <;> cases e
    exact h
  · split at e
    · cases e
    · split at e
      · cases e; exact h
      · split at e
        · cases e
        · extract_lets w at e
          split at e <;> cases e
          exact ioKeep_evolves h

theorem ioTranslate_evolves (h : Evolves s₀ s) (e : ioTranslate s port rid pasid part root va write = some r) :
    Evolves s₀ r.1 := by
  unfold ioTranslate at e
  extract_lets need hit start at e
  clear_value hit start
  split at e
  · obtain ⟨pa, -, rfl⟩ := Option.map_eq_some_iff.mp e
    exact h
  · split at e
    · cases e
    · split at e
      · cases e
      · extract_lets sh leaf s₁ x s₂ at e
        split at e
        · cases e
        · split at e <;> cases e
          have h₁ : Evolves s₀ s₁ := .ite h (swapQueued_evolves h)
          exact ioKeep_evolves (foldl_evolves (fun _ _ h => ioKeep_evolves h) h₁)

theorem ioPages_evolves (h : Evolves s₀ s) (e : ioPages s port rid pasid part root write fuel va n = some r) :
    Evolves s₀ r.1 := by
  induction fuel generalizing s va n r with
  | zero => cases e
  | succ fuel ih =>
    unfold ioPages at e
    split at e
    · cases e; exact h
    · dsimp only at e
      split at e
      · cases e
      next ht =>
      have h := ioTranslate_evolves h ht
      split at e <;> cases e
      next hp => 
       have := ih h hp
       exact this

theorem ioRuns_evolves (h : Evolves s₀ s) (e : ioRuns s port rid pasid addr write n = .ok r) : Evolves s₀ r.1 := by
  dsimp only [ioRuns] at e
  split at e
  · cases e
  · have h := ctxEntry_evolves h ‹_›
    split at e
    · cases e
    · split at e
      · cases e
      · split at e
        · cases e
        · have h := ioRoot_evolves h ‹_›
          split at e <;> cases e
          exact ioPages_evolves h ‹_›

theorem openDma_evolves (h : Evolves s₀ s) : Evolves s₀ (openDma s port rid pasid addr write n data) := by
  unfold openDma
  refine .ite h ?_
  extract_lets owner count
  split
  · extract_lets s'
    have h : Evolves s₀ s' := logEvent_evolves h
    exact .ite h (emit_evolves h)
  next hr =>
    have h := ioRuns_evolves h hr
    exact .ite (meter_evolves (foldl_evolves (fun _ _ h => agentWrite_evolves h) h)) (.ite (emit_evolves h)
      (meter_evolves (freshen_evolves (emit_evolves h))))

theorem msix_evolves (h : Evolves s₀ s) : Evolves s₀ (msix s port rid data) := by
  dsimp only [msix]
  split
  · exact h
  · split
    · exact bump_evolves h
    · split
      · exact onceEvent_evolves h
      · exact .ite (onceEvent_evolves h) (.ite (.ite (bump_evolves (updFunc_evolves (meter_evolves h)))
          (updFunc_evolves (meter_evolves h))) (.same (meter_evolves h) rfl rfl))

theorem postedWrite_evolves (h : Evolves s₀ s) : Evolves s₀ (postedWrite port rid pasid addr data s) :=
  .ite (msix_evolves h) (openDma_evolves h)

theorem goHeld_evolves (h : Evolves s₀ s) : Evolves s₀ (goHeld c s) := by
  unfold goHeld
  split
  · exact postedWrite_evolves h
  · exact openDma_evolves h
  · exact msix_evolves h
  · exact adapterDma_evolves h
  · exact frameDiscard_evolves h
  · exact frameAck_evolves h
  · exact frameStatus_evolves h
  · exact frameResync_evolves h
  · exact frameHeartbeat_evolves h

theorem portsGoOn_evolves (h : Evolves s₀ s) : Evolves s₀ (portsGoOn s) :=
  foldl_evolves (fun _ _ h => inOrder_evolves h fun h => goHeld_evolves h) (h.same rfl rfl)

theorem makeOffer_evolves (h : Evolves s₀ s) : Evolves s₀ (makeOffer s src ctx isc lp) := h.same rfl rfl

theorem takeSrc_evolves (h : Evolves s₀ s) : Evolves s₀ (takeSrc s o) := by
  unfold takeSrc
  split
  · exact updSch_evolves h
  · exact updJq_evolves h
  · split
    · exact h.same rfl rfl
    · exact h
  · exact updFunc_evolves h
  · exact h

theorem updTime_evolves (h : Evolves s₀ s) : Evolves s₀ (updTime s f) := h.same rfl rfl

theorem todEvent_evolves (h : Evolves s₀ s) : Evolves s₀ (todEvent s code sub detail) := logEvent_evolves h

theorem enterHoldover_evolves (h : Evolves s₀ s) : Evolves s₀ (enterHoldover s) :=
  todEvent_evolves (updTime_evolves h)

theorem steer_evolves (h : Evolves s₀ s) : Evolves s₀ (steer s src err freq) :=
  .ite (todEvent_evolves (updTime_evolves h)) (updTime_evolves h)

theorem setPps_evolves (h : Evolves s₀ s) : Evolves s₀ (setPps s b x) := updTime_evolves h

theorem countIgnored_evolves (h : Evolves s₀ s) : Evolves s₀ (countIgnored s b) := setCell_evolves h

theorem sourceLost_evolves (h : Evolves s₀ s) : Evolves s₀ (sourceLost s b) :=
  .ite h (.ite (todEvent_evolves (updTime_evolves h)) (.ite h (enterHoldover_evolves h)))

theorem risePps_evolves (h : Evolves s₀ s) : Evolves s₀ (risePps s) :=
  .ite (emit_evolves (updTime_evolves h)) (updTime_evolves h)

theorem setByLabel_evolves (h : Evolves s₀ s) : Evolves s₀ (setByLabel s sec old) :=
  risePps_evolves (updTime_evolves h)

theorem acceptEdge_evolves (h : Evolves s₀ s) : Evolves s₀ (acceptEdge s b t') := by
  grind [acceptEdge, updTime_evolves, todEvent_evolves, steer_evolves, setPps_evolves, sourceLost_evolves,
    setByLabel_evolves]

theorem sendTime_evolves (h : Evolves s₀ s) : Evolves s₀ (sendTime s link off) := emit_evolves h

theorem tickTransfer_evolves (h : Evolves s₀ s) : Evolves s₀ (tickTransfer s) := .ite (sendTime_evolves h) h

theorem timeLinkLost_evolves (h : Evolves s₀ s) : Evolves s₀ (timeLinkLost s l) := by
  dsimp only [timeLinkLost]
  split
  · exact h
  · split
    · exact todEvent_evolves (updTime_evolves h)
    · exact .ite h (enterHoldover_evolves h)

theorem tapLoad_evolves (h : Evolves s₀ s) : Evolves s₀ (tapLoad s i) := .ite h (h.same rfl rfl)

theorem tapTest_evolves (h : Evolves s₀ s) : Evolves s₀ (tapTest s i) := .ite (h.same rfl rfl) (tapLoad_evolves h)

theorem updAlm_evolves (h : Evolves s₀ s) : Evolves s₀ (updAlm s die f) := h.same rfl rfl

theorem almDrop_evolves (h : Evolves s₀ s) : Evolves s₀ (almDrop s die n) :=
  .ite h (.ite (logEvent_evolves (bump_evolves h)) (bump_evolves h))

theorem almCapture_evolves (h : Evolves s₀ s) : Evolves s₀ (almCapture s die) := by
  grind [almCapture, taken_evolves, updAlm_evolves, almDrop_evolves]

theorem almTick_evolves (h : Evolves s₀ s) : Evolves s₀ (almTick s die) :=
  .ite h (.ite (almCapture_evolves h) (updAlm_evolves h))

theorem meterRecord_evolves (h : Evolves s₀ s) : Evolves s₀ (meterRecord s p) := by
  dsimp only [meterRecord]
  split
  · exact h
  · exact .ite h (.ite (updPart_evolves (updPart_evolves (setCell_evolves (agentWrite_evolves h)))) (.ite
      (logEvent_evolves (updPart_evolves (bump_evolves h))) (updPart_evolves (bump_evolves h))))

theorem meterCycles_evolves (h : Evolves s₀ s) : Evolves s₀ (meterCycles s lp) := by
  grind [meterCycles, taken_evolves, meter_evolves]

theorem meterSnap_evolves (h : Evolves s₀ s) : Evolves s₀ (meterSnap s) := h.same rfl rfl

theorem meterTicks_evolves (h : Evolves s₀ s) : Evolves s₀ (meterTicks s) :=
  foldl_evolves (fun _ _ h => .ite h (meter_evolves (meter_evolves h))) h

theorem meterGranules_evolves (h : Evolves s₀ s) : Evolves s₀ (meterGranules s) :=
  foldl_evolves (fun _ _ h => .ite (meter_evolves h) h) h

theorem closeRank_evolves (h : Evolves s₀ s) : Evolves s₀ (closeRank s ch rank) := updMc_evolves h

theorem lineEvent_evolves (h : Evolves s₀ s) : Evolves s₀ (lineEvent s ch code sub line) := logEvent_evolves h

theorem noteLine_evolves (h : Evolves s₀ s) : Evolves s₀ (noteLine s ch sub dev line) := by
  unfold noteLine
  exact updMc_evolves h

theorem markDevice_evolves (h : Evolves s₀ s) : Evolves s₀ (markDevice s ch sub dev) :=
  .ite h (logEvent_evolves (updMc_evolves h))

theorem dramRead_evolves (h : Evolves s₀ s) : Evolves s₀ (dramRead s ch sub line bad).1 := by
  grind [dramRead, bump_evolves, setPoison_evolves, lineEvent_evolves, noteLine_evolves, markDevice_evolves]

theorem driftLane_evolves (h : Evolves s₀ s) : Evolves s₀ (driftLane s c k old new put) :=
  .ite (logEvent_evolves (updMc_evolves h)) (.ite (logEvent_evolves (updMc_evolves h)) (updMc_evolves h))

theorem updMiss_evolves (h : Evolves s₀ s) : Evolves s₀ (updMiss s p line f) := updPair_evolves h

theorem endMiss_evolves (h : Evolves s₀ s) : Evolves s₀ (endMiss s p line) := updPair_evolves h

theorem toHome_evolves (h : Evolves s₀ s) : Evolves s₀ (toHome s p k line) :=
  .ite (arrive_evolves (updPair_evolves (countTo_evolves h))) (sendDie_evolves (updPair_evolves (countTo_evolves h)))

theorem fromAfar_evolves (h : Evolves s₀ s) : Evolves s₀ (fromAfar s d k line) := .ite h (arrive_evolves h)

theorem placeOr_evolves (h : Evolves s₀ s) (k : Evolves s₀ t) : Evolves s₀ (placeOr s t p line st) :=
  getD_evolves (fun e => l2Place_evolves k e) (fillRoom_evolves h)

theorem mergeOwning_evolves (h : Evolves s₀ s) : Evolves s₀ (mergeOwning s p line) := by
  unfold mergeOwning
  split
  · exact h
  · exact barrierCheck_evolves (mergeWaiting_evolves h)

theorem agentRequest_evolves (h : Evolves s₀ s) : Evolves s₀ (agentRequest s r') := by
  grind [agentRequest, sendDie_evolves, arrive_evolves]

theorem dirForget_evolves (h : Evolves s₀ s) : Evolves s₀ (dirForget s line die) := by
  unfold dirForget
  split
  · exact h.same rfl rfl
  · exact h

theorem takeCrossed_evolves (h : Evolves s₀ s) : Evolves s₀ (takeCrossed s t' die wbm) :=
  homeSettle_evolves (ackLeaving_evolves (putTxn_evolves (.ite (.ite (dirForget_evolves h) h) (dirFree_evolves (.ite
    (discardDirty_evolves h) (.ite (wroteDram_evolves (writeBack_evolves h)) (freeLine_evolves h)))))))

theorem evictArrives_evolves (h : Evolves s₀ s) : Evolves s₀ (evictArrives s die line wbm) := by
  unfold evictArrives
  split
  · exact serveEviction_evolves h
  · exact .ite (takeCrossed_evolves h) (.ite (.ite h (putTxn_evolves h)) (.ite h (putTxn_evolves h)))

theorem eviction_evolves (h : Evolves s₀ s) : Evolves s₀ (eviction s who line wbm) := by
  unfold eviction
  split
  · exact h
  · split
    · split
      · exact .ite (evictArrives_evolves h) h
      · exact h
    · exact .ite h (evictArrives_evolves h)
    · exact h

theorem dieSet_evolves (h : Evolves s₀ s) : Evolves s₀ (dieSet s die line a b) := by
  dsimp only [dieSet]
  split
  · exact .ite (.same (foldl_evolves (fun _ _ h => .ite (l2SetState_evolves h) h) h) rfl rfl) (foldl_evolves (fun _ _
      h => .ite (l2SetState_evolves h) h) h)
  · exact foldl_evolves (fun _ _ h => .ite (l2SetState_evolves h) h) h

theorem giveData_evolves (h : Evolves s₀ s) : Evolves s₀ (giveData s k who line) := by
  unfold giveData
  split
  · exact h
  · exact wroteDram_evolves (writeBack_evolves h)
  · exact discardDirty_evolves h
  · exact wroteDram_evolves (writeBack_evolves h)

theorem dieSnoop_evolves (h : Evolves s₀ s) (hg : ∀ {s}, Evolves s₀ s → Evolves s₀ (give s)) :
    Evolves s₀ (dieSnoop s die line sn give).1 := by
  unfold dieSnoop
  split
  · split <;> exact h
  · split
    · exact h
    · exact h
    · split
      · exact dieSet_evolves (hg h)
      · split
        · exact dieSet_evolves h
        · exact h
    · split
      · exact h
      · split
        · exact dieRemove_evolves (hg h)
        · exact dieRemove_evolves h

theorem farAnswer_evolves {x : Txn} (h : Evolves s₀ s) : Evolves s₀ (farAnswer s x sn).1 := by
  unfold farAnswer
  extract_lets line n mayM s₁ bs s₂
  have h₁ : Evolves s₀ s₁ := taken_evolves h
  have h₂ : Evolves s₀ s₂ := taken_evolves h₁
  split
  · split
    · exact h₂.same rfl rfl
    · exact h₁
    · exact h₁
    · exact freeLine_evolves h₁
  · split <;> exact h₁

theorem homeAnswer_evolves (h : Evolves s₀ s) : Evolves s₀ (homeAnswer s t' die sn a) := by
  dsimp only [homeAnswer]
  split
  · exact h
  · exact putTxn_evolves h
  · exact homeSettle_evolves (putTxn_evolves h)
  · exact homeSettle_evolves (putTxn_evolves h)
  · exact homeSettle_evolves (putTxn_evolves (.ite (dirForget_evolves h) h))

theorem sendAnswer_evolves (h : Evolves s₀ s) : Evolves s₀ (sendAnswer s line sn a) := by
  dsimp only [sendAnswer]
  split
  · exact h
  · exact sendDie_evolves h
  · exact sendDie_evolves h
  · exact sendDie_evolves h
  · exact .ite (sendLine_evolves (sendLine_evolves h)) (sendDie_evolves (sendLine_evolves h))

theorem snoopArrives_evolves (h : Evolves s₀ s) : Evolves s₀ (snoopArrives s die line sn) := by
  grind [snoopArrives, writeBack_evolves, wroteDram_evolves, giveData_evolves, dieSnoop_evolves, farAnswer_evolves,
    homeAnswer_evolves, sendAnswer_evolves]

theorem ackEviction_evolves (h : Evolves s₀ s) : Evolves s₀ (ackEviction s p line stale l) :=
  .ite (.ite (updPair_evolves h) h) (.ite (updPair_evolves (.ite (discardDirty_evolves h) h)) (l3Place_evolves
    (updPair_evolves (.ite (discardDirty_evolves h) h))))

theorem ackFar_evolves (h : Evolves s₀ s) : Evolves s₀ (ackFar s p line) := by
  unfold ackFar
  split
  · exact h
  · split
    · exact h
    · exact barrierCheck_evolves (updLp_evolves h)

theorem ackUpgrade_evolves (h : Evolves s₀ s) : Evolves s₀ (ackUpgrade s p line m poison) :=
  .ite h (.ite (mergeOwning_evolves (l2SetState_evolves (updMiss_evolves h))) (updMiss_evolves h))

theorem pairTimeout_evolves (h : Evolves s₀ s) : Evolves s₀ (pairTimeout s p line) := by
  unfold pairTimeout
  extract_lets drop
  have hd : ∀ {s}, Evolves s₀ s → Evolves s₀ (drop s) := fun h => by
    dsimp only [drop]
    split
    · exact barrierCheck_evolves (updLp_evolves h)
    · exact h
  split
  · have h := endMiss_evolves (p := p) (line := line) h
    exact .ite h (hd (.ite (l2Remove_evolves h) h))
  · exact .ite (updPair_evolves (discardDirty_evolves h)) (hd h)
  · exact hd h

theorem updLink_evolves (h : Evolves s₀ s) : Evolves s₀ (updLink s l f) := h.same rfl rfl

theorem takeFlit_evolves (h : Evolves s₀ s) : Evolves s₀ (takeFlit s l h') :=
  .ite (emit_evolves h) (updLink_evolves h)

theorem retrainEvent_evolves (h : Evolves s₀ s) : Evolves s₀ (retrainEvent s l) := logEvent_evolves (bump_evolves h)

theorem fenceDir_evolves (h : Evolves s₀ s) : Evolves s₀ (fenceDir s pkg poison) := by
  unfold fenceDir
  refine foldl_evolves (fun s e h => ?_) h
  extract_lets mine dies
  exact .ite h (.ite (dirFree_evolves (setPoison_evolves (discardDirty_evolves h))) (.ite (dirFree_evolves h)
    (h.same rfl rfl)))

theorem fenceTxns_evolves (h : Evolves s₀ s) : Evolves s₀ (fenceTxns s pkg) :=
  foldl_evolves (fun _ _ h => by grind [putTxn_evolves, endTxn_evolves, homeSettle_evolves]) (h.same rfl rfl)

theorem fencePkg_evolves (h : Evolves s₀ s) : Evolves s₀ (fencePkg s pkg poison) :=
  .ite h (fenceTxns_evolves (foldl_evolves (fun _ _ h => logEvent_evolves h) (fenceDir_evolves (h.same rfl rfl))))

theorem noRoute_evolves (h : Evolves s₀ s) : Evolves s₀ (noRoute s l pkg) :=
  .ite h (.ite (raise_evolves h) (fencePkg_evolves h))

theorem moveFlits_evolves (h : Evolves s₀ s) : Evolves s₀ (moveFlits s l) :=
  foldl_evolves (fun _ _ h => .ite h (toPkgData_evolves h)) (updLink_evolves h)

theorem failLink_evolves (h : Evolves s₀ s) : Evolves s₀ (failLink s l) :=
  timeLinkLost_evolves (moveFlits_evolves (foldl_evolves (fun _ _ h => .ite h (noRoute_evolves h)) (.ite
    (logEvent_evolves (updLink_evolves h)) (updLink_evolves h))))

theorem otherCheckstops_evolves (h : Evolves s₀ s) : Evolves s₀ (otherCheckstops s pkg) :=
  .ite h (.ite (fencePkg_evolves h) (raise_evolves h))

theorem tickTime_evolves (h : Evolves s₀ s) : Evolves s₀ (tickTime s) := by
  unfold tickTime
  exact tickTransfer_evolves (.ite (risePps_evolves (updTime_evolves h)) (updTime_evolves h))

theorem tickEcho_evolves (h : Evolves s₀ s) : Evolves s₀ (tickEcho s echo) :=
  .ite h (foldl_evolves (fun _ _ h => .ite (.ite (updTime_evolves h) h) (.ite (cancelStrike_evolves (todEvent_evolves
    (updTime_evolves (.ite (updTime_evolves h) h)))) (todEvent_evolves (updTime_evolves (.ite (updTime_evolves h)
    h))))) h)

theorem tickBudget_evolves (h : Evolves s₀ s) : Evolves s₀ (tickBudget s) := by
  unfold tickBudget
  extract_lets put t₁ t₂ t₃
  have h₁ : Evolves s₀ t₁ := foldl_evolves (fun _ _ h => setCell_evolves h) h
  have h₂ : Evolves s₀ t₂ := foldl_evolves (fun _ _ h => setCell_evolves h) h₁
  have h₃ : Evolves s₀ t₃ := foldl_evolves (fun _ _ h => updAlm_evolves h) h₂
  clear_value t₃
  exact h₃.same rfl rfl

theorem tickStrike_evolves (h : Evolves s₀ s) : Evolves s₀ (tickStrike s) :=
  .ite (.ite (afterStrike_evolves (applyStrike_evolves h)) h) (.ite (afterStrike_evolves h) h)

theorem tickRefill_evolves (h : Evolves s₀ s) : Evolves s₀ (tickRefill s) :=
  foldl_evolves (fun _ _ h => by grind [updFunc_evolves]) (.ite (h.same rfl rfl) h)

theorem tickJournal_evolves (h : Evolves s₀ s) : Evolves s₀ (tickJournal s) :=
  .ite h (foldl_evolves (fun _ _ h => jrnWrite_evolves h) h)

theorem sendBeat_evolves (h : Evolves s₀ s) : Evolves s₀ (sendBeat s p init) := emit_evolves h

theorem tickPaths_evolves (h : Evolves s₀ s) : Evolves s₀ (tickPaths s) := by
  unfold tickPaths
  extract_lets beat _ s₁ s₂
  have h₁ : Evolves s₀ s₁ := .ite (h.same rfl rfl) h
  have h₂ : Evolves s₀ s₂ := foldl_evolves (fun s e h => by
    extract_lets p t₁ t₂
    have k₁ : Evolves s₀ t₁ := updPath_evolves h
    have k₂ : Evolves s₀ t₂ := .ite (foldl_evolves (fun _ _ h => sendResync_evolves h) k₁) k₁
    exact .ite h (.ite (sendBeat_evolves k₂) k₂)) h₁
  clear_value s₂
  exact h₂.same rfl rfl

theorem tickAttention_evolves (h : Evolves s₀ s) : Evolves s₀ (tickAttention s) := .ite h (h.same rfl rfl)

theorem tickFeed_evolves (h : Evolves s₀ s) : Evolves s₀ (tickFeed s b) := updFeed_evolves h

theorem tickMeasure_evolves (h : Evolves s₀ s) : Evolves s₀ (tickMeasure s inp) :=
  .ite h (tickFeed_evolves (tickFeed_evolves (.ite (feedEvent_evolves (.ite (feedEvent_evolves (h.same rfl rfl))
    (h.same rfl rfl))) (.ite (feedEvent_evolves (h.same rfl rfl)) (h.same rfl rfl)))))

theorem imbalanceOf_evolves (h : Evolves s₀ s) : Evolves s₀ (imbalanceOf s cls) := by
  unfold imbalanceOf
  extract_lets c total hot
  exact .ite h (.ite h (foldl_evolves (fun s i h => by exact h.same rfl rfl) h))

theorem tickImbalance_evolves (h : Evolves s₀ s) : Evolves s₀ (tickImbalance s) := by
  unfold tickImbalance
  extract_lets s'
  have h : Evolves s₀ s' := foldl_evolves (fun _ _ h => imbalanceOf_evolves h) h
  clear_value s'
  exact h.same rfl rfl

theorem tickClean_evolves (h : Evolves s₀ s) : Evolves s₀ (tickClean s) := by
  unfold tickClean
  split
  · exact h
  · refine .ite h ?_
    extract_lets s' d
    have h : Evolves s₀ s' := h.same rfl rfl
    refine foldl_fst_evolves (fun acc line h => ?_) h
    split
    · exact h
    · extract_lets t
      split
      next hs => exact cleanLine_evolves ((spend_evolves h).fst hs)
      next hs => exact (spend_evolves h).fst hs

theorem tickCounters_evolves (h : Evolves s₀ s) : Evolves s₀ (tickCounters s) := endUpdate_evolves (h.same rfl rfl)

theorem cyclePair_evolves (h : Evolves s₀ s) : Evolves s₀ (cyclePair s p) :=
  .ite (taken_evolves (updPair_evolves h)) h

theorem cycleCp_evolves (h : Evolves s₀ s) : Evolves s₀ (cycleCp s c) := .ite (taken_evolves (updCp_evolves h)) h

theorem cycleAll_evolves (h : Evolves s₀ s) : Evolves s₀ (cycleAll s) :=
  foldl_evolves (fun _ _ h => cycleCp_evolves h) (foldl_evolves (fun _ _ h => cyclePair_evolves h) h)

end Sys2Proof.Machine

namespace Sys2Proof.Machine
-- Proofs one after the other: side by side they take more memory than the check allows.
set_option Elab.async false
variable {lp : Fin 48} {s₀ s t u : State}
/-! ### Computations of instructions

The same for the bodies of instructions: from a state that evolves, a body leaves one that does, completed or stopped.
First one rule for each step of a body, then one lemma for each body, from the rules of its steps. -/

section Rules
variable {P : State → Prop} {α β : Type} {f : State → Run β} {s t : State}

/-- A property of the state that a result leaves, whether the computation completed or stopped. -/
def LeftIn (P : State → Prop) : EStateM.Result Stop State α → Prop
  | .ok _ t => P t
  | .error _ t => P t

/-- A computation that begins in a state leaves one with a property. -/
def Leaves (P : State → Prop) (m : Run α) (s : State) : Prop := LeftIn P (m s)

theorem leaves_pure {x : α} : Leaves P (pure x) s = P s := rfl

theorem leaves_throw {e : Stop} : Leaves P (throw e : Run α) s = P s := rfl

theorem leaves_set : Leaves P (set t : Run PUnit) s = P t := rfl

theorem leaves_modify {g : State → State} : Leaves P (modify g : Run PUnit) s = P (g s) := rfl

theorem leaves_get_bind : Leaves P (get >>= f) s = Leaves P (f s) s := rfl

theorem leaves_set_bind {f : PUnit → Run β} : Leaves P (set t >>= f) s = Leaves P (f ⟨⟩) t := rfl

theorem leaves_modify_bind {g : State → State} {f : PUnit → Run β} :
    Leaves P (modify g >>= f) s = Leaves P (f ⟨⟩) (g s) := rfl

theorem leaves_bind {m : Run α} {f : α → Run β} (hm : Leaves P m s) (hf : ∀ x t, P t → Leaves P (f x) t) :
    Leaves P (m >>= f) s := by
  unfold Leaves at *
  rw [run_bind]
  cases hr : m s with
  | ok x t => rw [hr] at hm; exact hf x t hm
  | error e t => rw [hr] at hm; exact hm

/-- What is caught begins where the computation stopped. -/
theorem leaves_tryCatch {m : Run α} {f : Stop → Run α} (hm : Leaves P m s) (hf : ∀ e t, P t → Leaves P (f e) t) :
    Leaves P (tryCatch m f) s := by
  show LeftIn P (EStateM.tryCatch m f s)
  unfold Leaves at hm
  unfold EStateM.tryCatch
  cases hr : m s with
  | ok x t => rw [hr] at hm; exact hm
  | error e t => rw [hr] at hm; exact hf e t hm

end Rules

theorem raiseExc_keeps {code reason : Nat} {addr : Word} (h : Evolves s₀ s) :
    Leaves (Evolves s₀) (raiseExc (α := α) code reason addr) s := h

theorem operationExc_keeps (h : Evolves s₀ s) : Leaves (Evolves s₀) (operationExc (α := α)) s := raiseExc_keeps h

theorem privilegedExc_keeps (h : Evolves s₀ s) : Leaves (Evolves s₀) (privilegedExc (α := α)) s := raiseExc_keeps h

theorem specExc_keeps {reason : Nat} (h : Evolves s₀ s) :
    Leaves (Evolves s₀) (specExc (α := α) reason) s := raiseExc_keeps h

theorem specIf_keeps (h : Evolves s₀ s) : Leaves (Evolves s₀) (specIf bad reason) s := by
  simp only [specIf]
  grind [leaves_pure, specExc_keeps]

theorem specAt_keeps (h : Evolves s₀ s) : Leaves (Evolves s₀) (specAt addr bad reason) s := by
  simp only [specAt]
  grind [leaves_pure, raiseExc_keeps]

theorem addressingExc_keeps {cause level : Nat} {addr : Word} (h : Evolves s₀ s) :
    Leaves (Evolves s₀) (addressingExc (α := α) cause level addr) s := by
  simp only [addressingExc]
  grind [leaves_throw]

theorem translationExc_keeps {cause level : Nat} {addr : Word} (h : Evolves s₀ s) :
    Leaves (Evolves s₀) (translationExc (α := α) cause level addr) s := raiseExc_keeps h

theorem protectionExc_keeps {cause : Nat} {addr : Word} (h : Evolves s₀ s) :
    Leaves (Evolves s₀) (protectionExc (α := α) cause addr) s := raiseExc_keeps h

theorem zoneLookup_keeps (h : Evolves s₀ s) : Leaves (Evolves s₀) (zoneLookup lp absA level va) s := by
  simp only [zoneLookup]
  grind [leaves_pure, leaves_throw, leaves_get_bind, leaves_set, leaves_set_bind, leaves_modify,
    leaves_modify_bind, leaves_bind, addressingExc_keeps, taken_evolves, updTlbs_evolves]

theorem tableAddr_keeps (h : Evolves s₀ s) : Leaves (Evolves s₀) (tableAddr lp mgr a level va) s := by
  simp only [tableAddr]
  grind [leaves_pure, leaves_get_bind, leaves_bind, addressingExc_keeps, translationExc_keeps, zoneLookup_keeps]

theorem walkFrom_keeps {mgr : Bool} {ctx : Nat} {asid : BitVec 16} {va : Word} {level tbl : Nat} {u w x : Bool} :
    Evolves s₀ s → Leaves (Evolves s₀) (walkFrom lp mgr ctx asid va level tbl u w x) s := by
  induction level generalizing s tbl u w x with
  | zero => exact translationExc_keeps
  | succ level ih =>
    intro h
    simp only [walkFrom]
    grind [leaves_pure, leaves_throw, leaves_get_bind, leaves_set_bind, leaves_bind, tableAddr_keeps,
      translationExc_keeps, cacheWalk_evolves]

theorem walk_keeps (h : Evolves s₀ s) : Leaves (Evolves s₀) (walk lp va cached) s := by
  simp only [walk]
  grind [leaves_pure, leaves_get_bind, leaves_bind, walkFrom_keeps]

theorem finalAddr_keeps (h : Evolves s₀ s) : Leaves (Evolves s₀) (finalAddr lp a mti acc va) s := by
  simp only [finalAddr]
  grind [leaves_pure, leaves_get_bind, leaves_bind, addressingExc_keeps, zoneLookup_keeps]

theorem walkAllowed_keeps (h : Evolves s₀ s) : Leaves (Evolves s₀) (walkAllowed lp va acc asUser cached needW) s := by
  simp only [walkAllowed]
  grind [leaves_pure, leaves_get_bind, leaves_bind, protectionExc_keeps, walk_keeps]

theorem walkOrNone_keeps {va : Word} {acc : Access} {asUser cached needW : Bool} (h : Evolves s₀ s) :
    Leaves (Evolves s₀) (walkOrNone lp va acc asUser cached needW) s := by
  simp only [walkOrNone]
  grind [leaves_pure, leaves_throw, leaves_get_bind, leaves_modify, leaves_modify_bind, leaves_tryCatch,
    leaves_bind, walkAllowed_keeps, tlbsOf, updTlbs_evolves]

theorem finalOf_keeps {old : Tlbs} {wk : Walked} {acc : Access} {va : Word} (h : Evolves s₀ s) :
    Leaves (Evolves s₀) (finalOf lp old wk acc va) s := by
  simp only [finalOf]
  grind [leaves_pure, leaves_throw, leaves_modify, leaves_modify_bind, leaves_tryCatch, leaves_bind,
    finalAddr_keeps, updTlbs_evolves]

theorem swapped_evolves {a : Nat} {x y : Word} (h : Evolves s₀ s) :
    Evolves s₀ (if y = x then (s, true) else swapEntry s a x y).1 := by
  split
  · exact h
  · exact swapEntry_evolves h

theorem translate_keeps {va : Word} {acc : Access} {asUser needW : Bool} (h : Evolves s₀ s) :
    Leaves (Evolves s₀) (translate lp va acc asUser needW) s := by
  simp only [translate, leaves_get_bind]
  split
  · split
    · exact addressingExc_keeps h
    · exact finalAddr_keeps h
  · split
    · exact translationExc_keeps h
    · split
      · exact finalAddr_keeps h
      · rw [leaves_set_bind, leaves_get_bind]
        refine leaves_bind (leaves_tryCatch (walkOrNone_keeps (updTlbs_evolves h)) fun e s h => ?_) fun wk s h =>
          leaves_bind (finalOf_keeps h) fun r s h => ?_
        · cases e <;> grind [leaves_throw, leaves_modify_bind, updTlbs_evolves, walkOrNone_keeps]
        · grind [leaves_pure, leaves_throw, leaves_get_bind, leaves_set_bind, leaves_bind, cacheLeaf_evolves,
            swapped_evolves]

theorem getArch_keeps (h : Evolves s₀ s) : Leaves (Evolves s₀) (getArch lp) s := by
  simp only [getArch]
  grind [leaves_pure, leaves_get_bind]

theorem modArch_keeps (h : Evolves s₀ s) : Leaves (Evolves s₀) (modArch lp f) s := by
  simp only [modArch]
  grind [leaves_pure, leaves_modify, leaves_modify_bind, updLp_evolves]

theorem readG_keeps (h : Evolves s₀ s) : Leaves (Evolves s₀) (readG lp i) s := by
  simp only [readG]
  grind [leaves_pure, leaves_bind, getArch_keeps]

theorem writeG_keeps (h : Evolves s₀ s) : Leaves (Evolves s₀) (writeG lp i v) s := by
  simp only [writeG]
  grind [modArch_keeps]

theorem fetchWord_keeps (h : Evolves s₀ s) : Leaves (Evolves s₀) (fetchWord lp va) s := by
  simp only [fetchWord]
  grind [leaves_pure, leaves_throw, leaves_get_bind, leaves_set, leaves_set_bind, leaves_bind, translate_keeps,
    touchFetch_evolves, lostRead_evolves]

theorem fetchInstr_keeps {len : Nat} (h : Evolves s₀ s) : Leaves (Evolves s₀) (fetchInstr lp len) s := by
  simp only [fetchInstr]
  grind [leaves_pure, leaves_throw, leaves_tryCatch, leaves_bind, getArch_keeps, fetchWord_keeps]

theorem advance_keeps (h : Evolves s₀ s) : Leaves (Evolves s₀) (advance lp len) s := by
  simp only [advance]
  grind [modArch_keeps]

theorem whole_keeps {f : Form} {body : Run Unit} (hb : ∀ {u}, Evolves s₀ u → Leaves (Evolves s₀) body u)
    (h : Evolves s₀ s) : Leaves (Evolves s₀) (whole lp f body) s := by
  simp only [whole]
  grind [leaves_bind, fetchInstr_keeps, advance_keeps]

theorem unused_keeps (h : Evolves s₀ s) : Leaves (Evolves s₀) (unused l) s := by
  simp only [unused]
  grind [specIf_keeps]

theorem needPriv_keeps (h : Evolves s₀ s) : Leaves (Evolves s₀) (needPriv lp p) s := by
  simp only [needPriv]
  grind [leaves_pure, leaves_bind, privilegedExc_keeps, getArch_keeps]

theorem holdLp_keeps (h : Evolves s₀ s) : Leaves (Evolves s₀) (holdLp lp r' w) s := by
  simp only [holdLp]
  grind [leaves_pure, leaves_modify, leaves_modify_bind, leaves_bind, modArch_keeps, updLp_evolves]

theorem ownInterval_keeps (h : Evolves s₀ s) : Leaves (Evolves s₀) (ownInterval lp r') s := by
  simp only [ownInterval]
  grind [leaves_pure, leaves_throw, leaves_get_bind, leaves_set, leaves_set_bind, leaves_modify,
    leaves_modify_bind, leaves_tryCatch, leaves_bind, updLp_evolves]

theorem pieces_keeps {acc : Access} {asUser : Bool} {l : List (Word × Nat)} (h : Evolves s₀ s) :
    Leaves (Evolves s₀) (pieces lp acc asUser l) s := by
  induction l generalizing s with
  | nil => exact h
  | cons x l ih =>
    simp only [pieces]
    grind [leaves_pure, leaves_modify_bind, leaves_get_bind, leaves_set_bind, leaves_bind, translate_keeps,
      touchPiece_evolves]

theorem operand_keeps (h : Evolves s₀ s) : Leaves (Evolves s₀) (operand lp acc va n asUser) s := by
  simp only [operand]
  grind [pieces_keeps]

theorem readPieces_keeps (h : Evolves s₀ s) : Leaves (Evolves s₀) (readPieces lp va l) s := by
  simp only [readPieces]
  grind [leaves_pure, leaves_throw, leaves_get_bind, leaves_set, leaves_set_bind, leaves_modify,
    leaves_modify_bind, leaves_tryCatch, leaves_bind, lostRead_evolves]

theorem storePieces_keeps (h : Evolves s₀ s) : Leaves (Evolves s₀) (storePieces lp l bs) s := by
  simp only [storePieces]
  grind [leaves_pure, leaves_throw, leaves_get_bind, leaves_set, leaves_set_bind, leaves_modify,
    leaves_modify_bind, leaves_tryCatch, leaves_bind, updLp_evolves]

theorem binary_keeps (h : Evolves s₀ s) : Leaves (Evolves s₀) (binary f lp d a b c) s := by
  simp only [binary]
  grind [leaves_bind, readG_keeps, writeG_keeps, unused_keeps]

theorem unary_keeps (h : Evolves s₀ s) : Leaves (Evolves s₀) (unary f lp d a b c) s := by
  simp only [unary]
  grind [leaves_bind, readG_keeps, writeG_keeps, unused_keeps]

theorem immediate_keeps (h : Evolves s₀ s) : Leaves (Evolves s₀) (immediate f lp d a i) s := by
  simp only [immediate]
  grind [leaves_bind, readG_keeps, writeG_keeps]

theorem selBody_keeps (h : Evolves s₀ s) : Leaves (Evolves s₀) (selBody lp d a b c) s := by
  simp only [selBody]
  grind [leaves_pure, leaves_bind, readG_keeps, writeG_keeps]

theorem twoResults_keeps (h : Evolves s₀ s) : Leaves (Evolves s₀) (twoResults f lp d a b c) s := by
  simp only [twoResults]
  grind [leaves_bind, specIf_keeps, readG_keeps, writeG_keeps]

theorem wideProduct_keeps (h : Evolves s₀ s) : Leaves (Evolves s₀) (wideProduct f lp d a b c) s := by
  simp only [wideProduct]
  grind [leaves_bind, specIf_keeps, readG_keeps, writeG_keeps, unused_keeps]

theorem mulqBody_keeps (h : Evolves s₀ s) : Leaves (Evolves s₀) (mulqBody lp d a b c) s := by
  refine leaves_bind (unused_keeps h) fun _ s h => leaves_bind (specIf_keeps h) fun _ s h =>
    leaves_bind (specIf_keeps h) fun _ s h => leaves_bind (readG_keeps h) fun _ s h =>
    leaves_bind (readG_keeps h) fun _ s h => leaves_bind (readG_keeps h) fun _ s h =>
    leaves_bind (readG_keeps h) fun _ s h => leaves_bind (writeG_keeps h) fun _ s h =>
    leaves_bind (writeG_keeps h) fun _ s h => leaves_bind (writeG_keeps h) fun _ s h => writeG_keeps h

theorem shiBody_keeps (h : Evolves s₀ s) : Leaves (Evolves s₀) (shiBody lp d a i) s := by
  simp only [shiBody]
  grind [leaves_pure, leaves_bind, specIf_keeps, immediate_keeps]

theorem branchTo_keeps (h : Evolves s₀ s) : Leaves (Evolves s₀) (branchTo lp a) s := by
  simp only [branchTo]
  grind [modArch_keeps]

theorem branchIf_keeps (h : Evolves s₀ s) : Leaves (Evolves s₀) (branchIf test lp t' disp) s := by
  simp only [branchIf]
  grind [leaves_pure, leaves_bind, getArch_keeps, branchTo_keeps]

theorem balBody_keeps (h : Evolves s₀ s) : Leaves (Evolves s₀) (balBody lp t' disp) s := by
  simp only [balBody]
  grind [leaves_bind, getArch_keeps, writeG_keeps, branchTo_keeps]

theorem jrBody_keeps (h : Evolves s₀ s) : Leaves (Evolves s₀) (jrBody lp d a b c) s := by
  simp only [jrBody]
  grind [leaves_bind, specIf_keeps, getArch_keeps, writeG_keeps, unused_keeps, branchTo_keeps]

theorem effAddr_keeps (h : Evolves s₀ s) : Leaves (Evolves s₀) (effAddr lp b disp) s := by
  simp only [effAddr]
  grind [leaves_pure, leaves_bind, readG_keeps]

theorem notCompat_keeps (h : Evolves s₀ s) : Leaves (Evolves s₀) (notCompat ) s := by
  simp only [notCompat]
  grind [leaves_pure, leaves_get_bind, leaves_bind, operationExc_keeps]

theorem checkAligned_keeps (h : Evolves s₀ s) : Leaves (Evolves s₀) (checkAligned va n l) s := by
  simp only [checkAligned]
  grind [specAt_keeps]

theorem loadDone_keeps (h : Evolves s₀ s) : Leaves (Evolves s₀) (loadDone lp dst bs upd) s := by
  simp only [loadDone]
  grind [modArch_keeps]

theorem loadDevice_keeps {r : Rep} {dst : LoadDst} {pa n : Nat} {va : Word} {upd : Option (Fin 32 × Word)} (h : Evolves s₀ s) :
    Leaves (Evolves s₀) (loadDevice r lp dst pa n va upd) s := by
  simp only [loadDevice]
  refine leaves_bind (ownInterval_keeps h) fun _ s h => ?_
  rw [leaves_get_bind]
  split
  · exact h
  · split
    · next hn => exact loadDone_keeps (loadNow_evolves h hn)
    · exact holdLp_keeps h

theorem load_keeps (h : Evolves s₀ s) : Leaves (Evolves s₀) (load r' lp dst n b disp up asUser) s := by
  simp only [load]
  grind [leaves_pure, leaves_bind, operand_keeps, readPieces_keeps, effAddr_keeps, checkAligned_keeps,
    loadDone_keeps, loadDevice_keeps]

theorem store_keeps (h : Evolves s₀ s) : Leaves (Evolves s₀) (store r' lp v n b disp up asUser) s := by
  simp only [store]
  grind [leaves_pure, leaves_bind, specAt_keeps, getArch_keeps, writeG_keeps, operand_keeps, storePieces_keeps,
    effAddr_keeps, checkAligned_keeps]

theorem ldupBody_keeps (h : Evolves s₀ s) : Leaves (Evolves s₀) (ldupBody r' lp t' b disp) s := by
  simp only [ldupBody]
  grind [leaves_bind, specIf_keeps, load_keeps]

theorem stdupBody_keeps (h : Evolves s₀ s) : Leaves (Evolves s₀) (stdupBody r' lp t' b disp) s := by
  simp only [stdupBody]
  grind [leaves_bind, specIf_keeps, store_keeps]

theorem lfqBody_keeps (h : Evolves s₀ s) : Leaves (Evolves s₀) (lfqBody r' lp t' b disp) s := by
  simp only [lfqBody]
  grind [leaves_bind, notCompat_keeps, load_keeps]

theorem stfqBody_keeps (h : Evolves s₀ s) : Leaves (Evolves s₀) (stfqBody r' lp t' b disp) s := by
  simp only [stfqBody]
  grind [leaves_bind, notCompat_keeps, store_keeps]

theorem userForm_keeps (h : Evolves s₀ s) : Leaves (Evolves s₀) (userForm lp) s := by
  simp only [userForm]
  grind [leaves_bind, specIf_keeps, getArch_keeps, needPriv_keeps]

theorem lduaBody_keeps (h : Evolves s₀ s) : Leaves (Evolves s₀) (lduaBody r' lp t' b disp) s := by
  simp only [lduaBody]
  grind [leaves_bind, load_keeps, userForm_keeps]

theorem stuaBody_keeps (h : Evolves s₀ s) : Leaves (Evolves s₀) (stuaBody r' lp t' b disp) s := by
  simp only [stuaBody]
  grind [leaves_bind, store_keeps, userForm_keeps]

theorem xAddr_keeps (h : Evolves s₀ s) : Leaves (Evolves s₀) (xAddr lp b d) s := by
  simp only [xAddr]
  grind [leaves_pure, leaves_bind, readG_keeps]

theorem pretest_keeps (h : Evolves s₀ s) : Leaves (Evolves s₀) (pretest lp o) s := by
  simp only [pretest]
  grind [leaves_pure, leaves_bind, specAt_keeps, operand_keeps]

theorem pretest2_keeps (h : Evolves s₀ s) : Leaves (Evolves s₀) (pretest2 lp x y) s := by
  simp only [pretest2]
  grind [leaves_pure, leaves_bind, pretest_keeps]

theorem stringStore_keeps {f : Byte → Byte → Byte} {reads1 : Bool} {rg : Fin 32} {l1 l2 : BitVec 8} {b1 : Fin 32}
    {d1 : BitVec 11} {b2 : Fin 32} {d2 : BitVec 11} (h : Evolves s₀ s) :
    Leaves (Evolves s₀) (stringStore f reads1 lp rg l1 l2 b1 d1 b2 d2) s := by
  simp only [stringStore, stringStore.discardBytes]
  refine leaves_bind (specIf_keeps h) fun _ s h => leaves_bind (xAddr_keeps h) fun a1 s h =>
    leaves_bind (xAddr_keeps h) fun a2 s h => leaves_bind (pretest2_keeps h) fun x s h => ?_
  grind [leaves_pure, leaves_get_bind, leaves_bind, readPieces_keeps, storePieces_keeps]

theorem scmpBody_keeps (h : Evolves s₀ s) : Leaves (Evolves s₀) (scmpBody lp rg l1 l2 b1 d1 b2 d2) s := by
  simp only [scmpBody]
  grind [leaves_bind, specIf_keeps, writeG_keeps, readPieces_keeps, xAddr_keeps, pretest2_keeps]

theorem atomOperand_keeps (h : Evolves s₀ s) : Leaves (Evolves s₀) (atomOperand lp acc a n) s := by
  simp only [atomOperand]
  grind [leaves_pure, leaves_bind, specAt_keeps, translate_keeps, readG_keeps]

theorem ownLine_keeps (h : Evolves s₀ s) : Leaves (Evolves s₀) (ownLine lp line) s := by
  simp only [ownLine]
  grind [leaves_pure, leaves_throw, leaves_get_bind, leaves_set, leaves_set_bind, leaves_modify,
    leaves_modify_bind, leaves_tryCatch, leaves_bind, ownNow_evolves, farLoss_evolves]

theorem atomRead_keeps (h : Evolves s₀ s) : Leaves (Evolves s₀) (atomRead lp va pa n) s := by
  simp only [atomRead]
  grind [leaves_pure, leaves_bind, readPieces_keeps]

theorem atomStore_keeps (h : Evolves s₀ s) : Leaves (Evolves s₀) (atomStore lp pa n v) s := by
  simp only [atomStore]
  grind [storePieces_keeps]

theorem ldrsvBody_keeps {d a b c : Fin 32} (h : Evolves s₀ s) : Leaves (Evolves s₀) (ldrsvBody lp d a b c) s := by
  refine leaves_bind (unused_keeps h) fun _ s h => leaves_bind (specIf_keeps h) fun _ s h =>
    leaves_bind (atomOperand_keeps h) fun x s h => ?_
  rw [leaves_get_bind]
  split
  · exact h
  · next t hn =>
    obtain ⟨p, -, hn⟩ := Option.bind_eq_some_iff.mp hn
    rw [leaves_set_bind]
    grind [leaves_modify, leaves_bind, readCopy_evolves, atomRead_keeps, writeG_keeps, updLp_evolves]

theorem stcndBody_keeps (h : Evolves s₀ s) : Leaves (Evolves s₀) (stcndBody lp d a b c) s := by
  simp only [stcndBody]
  refine leaves_bind (specIf_keeps h) fun _ s h => leaves_bind (atomOperand_keeps h) fun x s h => ?_
  grind [leaves_pure, leaves_get_bind, leaves_modify_bind, leaves_bind, readG_keeps, writeG_keeps, ownLine_keeps,
    atomStore_keeps, updLp_evolves]

theorem dropReservation_keeps (h : Evolves s₀ s) : Leaves (Evolves s₀) (dropReservation lp line) s := by
  simp only [dropReservation]
  grind [leaves_pure, leaves_modify, leaves_modify_bind, updLp_evolves]

theorem cswpBody_keeps (h : Evolves s₀ s) : Leaves (Evolves s₀) (cswpBody lp d a b c) s := by
  simp only [cswpBody]
  grind [leaves_pure, leaves_bind, readG_keeps, writeG_keeps, atomOperand_keeps, ownLine_keeps, atomRead_keeps,
    atomStore_keeps, dropReservation_keeps]

theorem faddBody_keeps (h : Evolves s₀ s) : Leaves (Evolves s₀) (faddBody lp d a b c) s := by
  simp only [faddBody]
  grind [leaves_bind, readG_keeps, writeG_keeps, unused_keeps, atomOperand_keeps, ownLine_keeps, atomRead_keeps,
    atomStore_keeps, dropReservation_keeps]

theorem dadjBody_keeps (h : Evolves s₀ s) : Leaves (Evolves s₀) (dadjBody lp d a b c) s := by
  simp only [dadjBody]
  grind [leaves_bind, raiseExc_keeps, specIf_keeps, readG_keeps, writeG_keeps]

theorem decLen_keeps (h : Evolves s₀ s) : Leaves (Evolves s₀) (decLen n) s := by
  simp only [decLen]
  grind [leaves_get_bind, leaves_bind, specIf_keeps]

theorem binLen_keeps (h : Evolves s₀ s) : Leaves (Evolves s₀) (binLen n) s := by
  simp only [binLen]
  grind [leaves_get_bind, leaves_bind, specIf_keeps]

theorem checkedDec_keeps (h : Evolves s₀ s) : Leaves (Evolves s₀) (checkedDec f which va bs) s := by
  simp only [checkedDec]
  grind [leaves_pure, raiseExc_keeps]

theorem overflowStatus_keeps (h : Evolves s₀ s) : Leaves (Evolves s₀) (overflowStatus lp rg ovf reason) s := by
  simp only [overflowStatus]
  grind [leaves_pure, leaves_throw, leaves_bind, writeG_keeps]

theorem decResult_keeps (h : Evolves s₀ s) : Leaves (Evolves s₀) (decResult lp rg f l n v) s := by
  simp only [decResult]
  grind [leaves_bind, storePieces_keeps, overflowStatus_keeps]

theorem decArith_keeps (h : Evolves s₀ s) : Leaves (Evolves s₀) (decArith f lp x) s := by
  refine leaves_bind (decLen_keeps h) fun _ s h => leaves_bind (decLen_keeps h) fun _ s h =>
    leaves_bind (xAddr_keeps h) fun a1 s h => leaves_bind (xAddr_keeps h) fun a2 s h =>
    leaves_bind (pretest2_keeps h) fun p s h => leaves_bind (readPieces_keeps h) fun bs1 s h =>
    leaves_bind (readPieces_keeps h) fun bs2 s h => leaves_bind (checkedDec_keeps h) fun u s h =>
    leaves_bind (checkedDec_keeps h) fun v s h => decResult_keeps h

theorem decCopy_keeps (h : Evolves s₀ s) : Leaves (Evolves s₀) (decCopy tgt from_ lp x) s := by
  simp only [decCopy]
  grind [leaves_bind, readPieces_keeps, xAddr_keeps, pretest2_keeps, decLen_keeps, checkedDec_keeps,
    decResult_keeps]

theorem ddivBody_keeps (h : Evolves s₀ s) : Leaves (Evolves s₀) (ddivBody lp x) s := by
  refine leaves_bind (unused_keeps h) fun _ s h => leaves_bind (decLen_keeps h) fun _ s h =>
    leaves_bind (decLen_keeps h) fun _ s h => leaves_bind (xAddr_keeps h) fun a1 s h =>
    leaves_bind (xAddr_keeps h) fun a2 s h => leaves_bind (pretest2_keeps h) fun p s h =>
    leaves_bind (readPieces_keeps h) fun bs1 s h => leaves_bind (readPieces_keeps h) fun bs2 s h =>
    leaves_bind (checkedDec_keeps h) fun u s h => leaves_bind (checkedDec_keeps h) fun v s h => ?_
  split
  · exact raiseExc_keeps h
  · exact leaves_bind (storePieces_keeps h) fun _ s h => storePieces_keeps h

theorem dcmpBody_keeps (h : Evolves s₀ s) : Leaves (Evolves s₀) (dcmpBody lp x) s := by
  refine leaves_bind (decLen_keeps h) fun _ s h => leaves_bind (decLen_keeps h) fun _ s h =>
    leaves_bind (xAddr_keeps h) fun a1 s h => leaves_bind (xAddr_keeps h) fun a2 s h =>
    leaves_bind (pretest2_keeps h) fun p s h => leaves_bind (readPieces_keeps h) fun bs1 s h =>
    leaves_bind (readPieces_keeps h) fun bs2 s h => leaves_bind (checkedDec_keeps h) fun u s h =>
    leaves_bind (checkedDec_keeps h) fun v s h => writeG_keeps h

theorem dshrBody_keeps (h : Evolves s₀ s) : Leaves (Evolves s₀) (dshrBody lp x) s := by
  simp only [dshrBody]
  refine leaves_bind (specIf_keeps h) fun _ s h => leaves_bind (readG_keeps h) fun w s h =>
    leaves_bind (decLen_keeps h) fun _ s h => ?_
  rw [leaves_get_bind]
  exact leaves_bind (specIf_keeps h) fun _ s h => leaves_bind (xAddr_keeps h) fun a1 s h =>
    leaves_bind (pretest_keeps h) fun p s h => leaves_bind (readPieces_keeps h) fun bs s h =>
    leaves_bind (checkedDec_keeps h) fun v s h => decResult_keeps h

theorem dtobBody_keeps (h : Evolves s₀ s) : Leaves (Evolves s₀) (dtobBody lp x) s := by
  exact leaves_bind (binLen_keeps h) fun _ s h => leaves_bind (decLen_keeps h) fun _ s h =>
    leaves_bind (xAddr_keeps h) fun a1 s h => leaves_bind (xAddr_keeps h) fun a2 s h =>
    leaves_bind (pretest2_keeps h) fun p s h => leaves_bind (readPieces_keeps h) fun bs s h =>
    leaves_bind (checkedDec_keeps h) fun v s h => leaves_bind (storePieces_keeps h) fun _ s h => overflowStatus_keeps h

theorem dfrbBody_keeps (h : Evolves s₀ s) : Leaves (Evolves s₀) (dfrbBody lp x) s := by
  simp only [dfrbBody]
  grind [leaves_bind, readPieces_keeps, xAddr_keeps, pretest2_keeps, decLen_keeps, binLen_keeps, decResult_keeps]

theorem fpEnd_keeps (h : Evolves s₀ s) : Leaves (Evolves s₀) (fpEnd lp c write) s := by
  simp only [fpEnd]
  grind [leaves_pure, leaves_bind, raiseExc_keeps, getArch_keeps, modArch_keeps]

theorem fpFormat_keeps (h : Evolves s₀ s) : Leaves (Evolves s₀) (fpFormat q) s := by
  simp only [fpFormat]
  grind [leaves_pure, leaves_bind, notCompat_keeps]

theorem fpOp_keeps (h : Evolves s₀ s) : Leaves (Evolves s₀) (fpOp q lp d zero op) s := by
  simp only [fpOp]
  grind [leaves_bind, getArch_keeps, unused_keeps, fpEnd_keeps, fpFormat_keeps]

theorem fpCmp_keeps (h : Evolves s₀ s) : Leaves (Evolves s₀) (fpCmp rel quietToo q lp d a b c) s := by
  simp only [fpCmp]
  grind [leaves_pure, leaves_bind, getArch_keeps, unused_keeps, fpEnd_keeps, fpFormat_keeps]

theorem fpPick_keeps (h : Evolves s₀ s) : Leaves (Evolves s₀) (fpPick greater q lp d a b c) s := by
  simp only [fpPick]
  grind [fpOp_keeps]

theorem fmvfBody_keeps (h : Evolves s₀ s) : Leaves (Evolves s₀) (fmvfBody lp d a b c) s := by
  simp only [fmvfBody]
  grind [leaves_bind, modArch_keeps, unused_keeps]

theorem fmvghBody_keeps (h : Evolves s₀ s) : Leaves (Evolves s₀) (fmvghBody lp d a b c) s := by
  simp only [fmvghBody]
  grind [leaves_bind, modArch_keeps, unused_keeps]

theorem fmvglBody_keeps (h : Evolves s₀ s) : Leaves (Evolves s₀) (fmvglBody lp d a b c) s := by
  simp only [fmvglBody]
  grind [leaves_bind, modArch_keeps, unused_keeps]

theorem fnegBody_keeps (h : Evolves s₀ s) : Leaves (Evolves s₀) (fnegBody lp d a b c) s := by
  simp only [fnegBody]
  grind [leaves_bind, modArch_keeps, unused_keeps]

theorem fabsBody_keeps (h : Evolves s₀ s) : Leaves (Evolves s₀) (fabsBody lp d a b c) s := by
  simp only [fabsBody]
  grind [leaves_bind, modArch_keeps, unused_keeps]

theorem fcpysgnBody_keeps (h : Evolves s₀ s) : Leaves (Evolves s₀) (fcpysgnBody lp d a b c) s := by
  simp only [fcpysgnBody]
  grind [leaves_bind, modArch_keeps, unused_keeps]

theorem fmovBody_keeps (h : Evolves s₀ s) : Leaves (Evolves s₀) (fmovBody lp d a b c) s := by
  simp only [fmovBody]
  grind [leaves_bind, modArch_keeps, unused_keeps]

theorem fcvtBody_keeps (h : Evolves s₀ s) : Leaves (Evolves s₀) (fcvtBody lp k d a b c) s := by
  simp only [fcvtBody]
  grind [leaves_pure, leaves_bind, getArch_keeps, unused_keeps, notCompat_keeps, fpEnd_keeps]

theorem fpToReg_keeps (h : Evolves s₀ s) : Leaves (Evolves s₀) (fpToReg lo hi q lp d a b c) s := by
  simp only [fpToReg]
  grind [leaves_pure, leaves_bind, specIf_keeps, getArch_keeps, unused_keeps, fpEnd_keeps, fpFormat_keeps]

theorem fpFromReg_keeps (h : Evolves s₀ s) : Leaves (Evolves s₀) (fpFromReg val q lp d a b c) s := by
  simp only [fpFromReg]
  grind [fpOp_keeps]

theorem ftopdBody_keeps (h : Evolves s₀ s) : Leaves (Evolves s₀) (ftopdBody q lp d a b c) s := by
  simp only [ftopdBody]
  grind [leaves_bind, specIf_keeps, getArch_keeps, unused_keeps, fpEnd_keeps, fpFormat_keeps]

theorem ffrpdBody_keeps (h : Evolves s₀ s) : Leaves (Evolves s₀) (ffrpdBody q lp d a b c) s := by
  simp only [ffrpdBody]
  refine leaves_bind (fpFormat_keeps h) fun f s h => leaves_bind (unused_keeps h) fun _ s h =>
    leaves_bind (specIf_keeps h) fun _ s h => leaves_bind (getArch_keeps h) fun x s h => ?_
  grind [leaves_get_bind, leaves_set_bind, leaves_pure, leaves_bind, raiseExc_keeps, fpEnd_keeps, taken_evolves]

theorem mffpcBody_keeps (h : Evolves s₀ s) : Leaves (Evolves s₀) (mffpcBody lp d a b c) s := by
  simp only [mffpcBody]
  grind [leaves_bind, modArch_keeps, unused_keeps]

theorem mtfpcBody_keeps (h : Evolves s₀ s) : Leaves (Evolves s₀) (mtfpcBody lp d a b c) s := by
  simp only [mtfpcBody]
  grind [leaves_bind, specIf_keeps, modArch_keeps, readG_keeps, unused_keeps]

theorem fenceBody_keeps (h : Evolves s₀ s) : Leaves (Evolves s₀) (fenceBody k lp d a b c) s := by
  simp only [fenceBody]
  grind [leaves_pure, leaves_get_bind, leaves_bind, unused_keeps, holdLp_keeps]

theorem rdtodBody_keeps {d a b c : Fin 32} {off : Fin 160000} (h : Evolves s₀ s) :
    Leaves (Evolves s₀) (rdtodBody lp d a b c off) s := by
  simp only [rdtodBody]
  refine leaves_bind (unused_keeps h) fun _ s h => leaves_bind (specIf_keeps h) fun _ s h => ?_
  rw [leaves_get_bind, leaves_set_bind]
  exact leaves_bind (writeG_keeps (h.same rfl rfl)) fun _ s h => writeG_keeps h

theorem rdtickBody_keeps (h : Evolves s₀ s) : Leaves (Evolves s₀) (rdtickBody lp d a b c) s := by
  simp only [rdtickBody]
  grind [leaves_get_bind, leaves_bind, writeG_keeps, unused_keeps]

theorem mfcBody_keeps (h : Evolves s₀ s) : Leaves (Evolves s₀) (mfcBody lp d a b c) s := by
  simp only [mfcBody]
  grind [leaves_pure, leaves_get_bind, leaves_bind, specIf_keeps, writeG_keeps, unused_keeps, needPriv_keeps]

theorem mtcBody_keeps (h : Evolves s₀ s) : Leaves (Evolves s₀) (mtcBody lp d a b c) s := by
  simp only [mtcBody]
  grind [leaves_get_bind, leaves_set, leaves_set_bind, leaves_bind, specExc_keeps, specIf_keeps, modArch_keeps,
    readG_keeps, unused_keeps, needPriv_keeps]

theorem rfeBody_keeps (h : Evolves s₀ s) : Leaves (Evolves s₀) (rfeBody lp d a b c) s := by
  simp only [rfeBody]
  grind [leaves_pure, leaves_get_bind, leaves_modify, leaves_modify_bind, leaves_bind, specIf_keeps, modArch_keeps,
    unused_keeps, needPriv_keeps, updLp_evolves]

theorem mcallBody_keeps (h : Evolves s₀ s) : Leaves (Evolves s₀) (mcallBody lp d a b c) s := by
  simp only [mcallBody]
  grind [leaves_throw, leaves_bind, readG_keeps, unused_keeps, needPriv_keeps]

theorem svcBody_keeps (h : Evolves s₀ s) : Leaves (Evolves s₀) (svcBody d a i) s := by
  simp only [svcBody]
  grind [leaves_throw, leaves_bind, unused_keeps]

theorem tlbiWhenDone_keeps (h : Evolves s₀ s) : Leaves (Evolves s₀) (tlbiWhenDone lp k va asid ctx) s := by
  simp only [tlbiWhenDone]
  grind [leaves_pure, leaves_get_bind, leaves_set, leaves_set_bind, leaves_bind, holdLp_keeps, tlbiAll_evolves]

theorem tlbiVaBody_keeps (h : Evolves s₀ s) : Leaves (Evolves s₀) (tlbiVaBody lp d a b c) s := by
  simp only [tlbiVaBody]
  grind [leaves_get_bind, leaves_bind, specIf_keeps, readG_keeps, unused_keeps, needPriv_keeps, tlbiWhenDone_keeps]

theorem tlbiAsidBody_keeps (h : Evolves s₀ s) : Leaves (Evolves s₀) (tlbiAsidBody lp d a b c) s := by
  simp only [tlbiAsidBody]
  grind [leaves_get_bind, leaves_bind, readG_keeps, unused_keeps, needPriv_keeps, tlbiWhenDone_keeps]

theorem tlbiPartBody_keeps (h : Evolves s₀ s) : Leaves (Evolves s₀) (tlbiPartBody lp d a b c) s := by
  simp only [tlbiPartBody]
  grind [leaves_pure, leaves_get_bind, leaves_bind, specIf_keeps, readG_keeps, unused_keeps, needPriv_keeps,
    tlbiWhenDone_keeps]

theorem maintBody_keeps (h : Evolves s₀ s) : Leaves (Evolves s₀) (maintBody k lp d a b c) s := by
  simp only [maintBody]
  refine leaves_bind (needPriv_keeps h) fun _ s h => leaves_bind (unused_keeps h) fun _ s h =>
    leaves_bind (specIf_keeps h) fun _ s h => leaves_bind (readG_keeps h) fun ga s h =>
    leaves_bind (specIf_keeps h) fun _ s h => ?_
  grind [leaves_pure, leaves_throw, leaves_get_bind, leaves_set, leaves_bind, translate_keeps, maintLine_evolves,
    maintL2_evolves, maintL1_evolves]

theorem rangeCheck_keeps (h : Evolves s₀ s) : Leaves (Evolves s₀) (rangeCheck lp ga n) s := by
  simp only [rangeCheck]
  grind [leaves_pure, leaves_get_bind, leaves_set, leaves_set_bind, leaves_bind, addressingExc_keeps,
    zoneLookup_keeps, taken_evolves]

theorem crangeBody_keeps (h : Evolves s₀ s) : Leaves (Evolves s₀) (crangeBody lp d a b c) s := by
  simp only [crangeBody]
  refine leaves_bind (needPriv_keeps h) fun _ s h => leaves_bind (readG_keeps h) fun start s h =>
    leaves_bind (readG_keeps h) fun n s h => leaves_bind (specIf_keeps h) fun _ s h =>
    leaves_bind (rangeCheck_keeps h) fun pa s h => ?_
  grind [leaves_throw, leaves_pure, leaves_get_bind, leaves_set_bind, leaves_bind, writeG_keeps, updBurin_evolves]

theorem crstatBody_keeps (h : Evolves s₀ s) : Leaves (Evolves s₀) (crstatBody lp d a b c) s := by
  simp only [crstatBody]
  grind [leaves_get_bind, leaves_bind, specIf_keeps, writeG_keeps, unused_keeps, needPriv_keeps]

theorem ioIdent_keeps (h : Evolves s₀ s) : Leaves (Evolves s₀) (ioIdent lp a zero) s := by
  simp only [ioIdent]
  grind [leaves_pure, leaves_bind, specIf_keeps, readG_keeps, unused_keeps, needPriv_keeps]

theorem ioBlock_keeps (h : Evolves s₀ s) : Leaves (Evolves s₀) (ioBlock lp b acc n) s := by
  simp only [ioBlock]
  grind [leaves_pure, leaves_bind, specAt_keeps, translate_keeps, readG_keeps]

theorem ioPerform_keeps (h : Evolves s₀ s) : Leaves (Evolves s₀) (ioPerform lp) s := by
  simp only [ioPerform]
  grind [leaves_throw, leaves_get_bind, leaves_set, leaves_set_bind, performAll_evolves]

theorem ioStoreBlock_keeps (h : Evolves s₀ s) : Leaves (Evolves s₀) (ioStoreBlock pa bs) s := by
  simp only [ioStoreBlock]
  grind [leaves_pure, leaves_throw, leaves_get_bind, leaves_set, leaves_set_bind, leaves_modify,
    leaves_modify_bind, leaves_tryCatch, leaves_bind, agentWrite_evolves]

theorem ioElsewhere_keeps (h : Evolves s₀ s) : Leaves (Evolves s₀) (ioElsewhere id' codes) s := by
  simp only [ioElsewhere]
  grind [leaves_pure, leaves_get_bind, leaves_set, leaves_set_bind, taken_evolves, toPkg_evolves]

theorem ioResult_keeps (h : Evolves s₀ s) : Leaves (Evolves s₀) (ioResult lp d code) s := by
  simp only [ioResult]
  grind [writeG_keeps]

theorem iostartBody_keeps (h : Evolves s₀ s) : Leaves (Evolves s₀) (iostartBody lp d a b c) s := by
  simp only [iostartBody]
  refine leaves_bind (ioIdent_keeps h) fun id s h => leaves_bind (ioBlock_keeps h) fun x s h =>
    leaves_bind (readPieces_keeps h) fun bs s h => leaves_bind (specIf_keeps h) fun _ s h =>
    leaves_bind (ioPerform_keeps h) fun _ s h => ?_
  grind [leaves_get_bind, leaves_set_bind, leaves_bind, ioElsewhere_keeps, ioResult_keeps, startOp_evolves]

theorem iohaltBody_keeps (h : Evolves s₀ s) : Leaves (Evolves s₀) (iohaltBody lp d a b c) s := by
  simp only [iohaltBody]
  grind [leaves_pure, leaves_get_bind, leaves_set, leaves_set_bind, leaves_bind, ioIdent_keeps, ioPerform_keeps,
    ioElsewhere_keeps, ioResult_keeps, haltOp_evolves]

theorem takeStatus_keeps (h : Evolves s₀ s) : Leaves (Evolves s₀) (takeStatus n pa code none_) s := by
  simp only [takeStatus]
  grind [leaves_pure, leaves_get_bind, leaves_modify, leaves_modify_bind, leaves_bind, ioStoreBlock_keeps,
    removeStatus_evolves]

theorem ioElsewhereStore_keeps (h : Evolves s₀ s) :
    Leaves (Evolves s₀) (ioElsewhereStore id' pa n codes stores) s := by
  simp only [ioElsewhereStore]
  grind [leaves_pure, leaves_get_bind, leaves_modify, leaves_modify_bind, leaves_bind, ioStoreBlock_keeps,
    ioElsewhere_keeps, taken_evolves]

theorem ioclearBody_keeps (h : Evolves s₀ s) : Leaves (Evolves s₀) (ioclearBody lp d a b c) s := by
  simp only [ioclearBody]
  grind [leaves_pure, leaves_get_bind, leaves_modify, leaves_modify_bind, leaves_bind, ioIdent_keeps,
    ioBlock_keeps, ioPerform_keeps, ioResult_keeps, takeStatus_keeps, ioElsewhereStore_keeps, clearOp_evolves]

theorem iotestBody_keeps (h : Evolves s₀ s) : Leaves (Evolves s₀) (iotestBody lp d a b c) s := by
  simp only [iotestBody]
  grind [leaves_pure, leaves_get_bind, leaves_bind, ioIdent_keeps, ioBlock_keeps, ioPerform_keeps, ioResult_keeps,
    takeStatus_keeps, ioElsewhereStore_keeps]

theorem iostoreBody_keeps (h : Evolves s₀ s) : Leaves (Evolves s₀) (iostoreBody lp d a b c) s := by
  simp only [iostoreBody]
  grind [leaves_pure, leaves_get_bind, leaves_bind, ioIdent_keeps, ioBlock_keeps, ioPerform_keeps,
    ioStoreBlock_keeps, ioResult_keeps, ioElsewhereStore_keeps]

theorem iomodifyBody_keeps (h : Evolves s₀ s) : Leaves (Evolves s₀) (iomodifyBody lp d a b c) s := by
  simp only [iomodifyBody]
  refine leaves_bind (ioIdent_keeps h) fun id s h => leaves_bind (ioBlock_keeps h) fun x s h =>
    leaves_bind (readPieces_keeps h) fun bs s h => leaves_bind (specIf_keeps h) fun _ s h =>
    leaves_bind (ioPerform_keeps h) fun _ s h => ?_
  grind [leaves_get_bind, leaves_set_bind, leaves_bind, ioElsewhere_keeps, ioResult_keeps, updSch_evolves]

theorem repChecks_keeps (h : Evolves s₀ s) : Leaves (Evolves s₀) (repChecks lp n low b) s := by
  simp only [repChecks]
  grind [leaves_pure, leaves_throw, leaves_bind, specIf_keeps, needPriv_keeps, notCompat_keeps]

theorem repCount_keeps (h : Evolves s₀ s) : Leaves (Evolves s₀) (repCount lp n) s := by
  simp only [repCount]
  grind [leaves_bind, readG_keeps, writeG_keeps]

theorem repIBody_keeps {n : Fin 32} {low : BitVec 20} {b : RepBody}
    (hb : ∀ {u r}, Evolves s₀ u → Leaves (Evolves s₀) (b.run r) u) (h : Evolves s₀ s) :
    Leaves (Evolves s₀) (repIBody lp n low b) s := by
  simp only [repIBody]
  refine leaves_bind (notCompat_keeps h) fun _ s h => leaves_bind (repChecks_keeps h) fun _ s h =>
    leaves_bind (readG_keeps h) fun x s h => ?_
  split
  · refine leaves_bind (leaves_tryCatch (leaves_bind (hb h) fun _ s h => h) fun e s h => ?_) fun e s h => ?_
    · cases e <;> exact h
    · grind [leaves_pure, leaves_throw, leaves_get_bind, leaves_bind, readG_keeps, repCount_keeps, modArch_keeps]
  · exact h

theorem repLoop_keeps {n : Fin 32} {b : RepBody} {k : Nat}
    (hb : ∀ {u r}, Evolves s₀ u → Leaves (Evolves s₀) (b.run r) u) (h : Evolves s₀ s) :
    Leaves (Evolves s₀) (repLoop lp n b k) s := by
  induction k generalizing s with
  | zero => exact h
  | succ k ih =>
    simp only [repLoop]
    grind [leaves_pure, leaves_get_bind, leaves_bind, repCount_keeps]

theorem repKeep_keeps (h : Evolves s₀ s) : Leaves (Evolves s₀) (repKeep lp a0) s := by
  simp only [repKeep]
  grind [leaves_pure, leaves_get_bind, leaves_set, leaves_modify, updLp_evolves]

theorem repNBody_keeps {n : Fin 32} {low : BitVec 20} {b : RepBody}
    (hb : ∀ {u r}, Evolves s₀ u → Leaves (Evolves s₀) (b.run r) u) (h : Evolves s₀ s) :
    Leaves (Evolves s₀) (repNBody lp n low b) s := by
  refine leaves_bind (getArch_keeps h) fun a0 s h => leaves_bind (repChecks_keeps h) fun _ s h =>
    leaves_bind (readG_keeps h) fun k s h => leaves_bind (specIf_keeps h) fun _ s h =>
    leaves_bind (leaves_tryCatch (repLoop_keeps hb h) fun e s h => ?_) fun _ s h => repKeep_keeps h
  cases e <;> exact h

end Sys2Proof.Machine

namespace Sys2Proof.Machine
-- Proofs one after the other: side by side they take more memory than the check allows.
set_option Elab.async false
variable {lp : Fin 48} {s₀ s t u : State}

/-! ### Commands that run no instruction -/

/-- What a command answers evolves where its next state does. -/
theorem next_evolves (h : Evolves s₀ u) (e : (Host.Outcome.next u : Answer) = .next t) : Evolves s₀ t := by
  cases e; exact h

theorem execPenTake_evolves (h : Evolves s₀ s) (e : execPenTake contenders s = .next t) : Evolves s₀ t := by
  refine next_evolves (.ite (foldl_evolves (fun _ _ h => discard_evolves h) h) ?_) e
  split
  · exact grantPen_evolves h
  · exact h
  · exact foldl_evolves (fun _ _ h => writePen_evolves h) h

theorem execPenRelease_evolves (h : Evolves s₀ s) (e : execPenRelease m s = .next t) : Evolves s₀ t := by
  grind [execPenRelease, atKeeper_evolves, writePen_evolves]

theorem execPenBreak_evolves (h : Evolves s₀ s) (e : execPenBreak m s = .next t) : Evolves s₀ t := by
  grind [execPenBreak, atKeeper_evolves, writePen_evolves]

theorem execPenRenew_evolves (h : Evolves s₀ s) (e : execPenRenew m s = .next t) : Evolves s₀ t := by
  grind [execPenRenew, atKeeper_evolves, renewPen_evolves]

theorem execLeaseExpiry_evolves (h : Evolves s₀ s) (e : execLeaseExpiry s = .next t) : Evolves s₀ t := by
  grind [execLeaseExpiry, releasePen_evolves, penEvent_evolves]

theorem execProofStart_evolves (h : Evolves s₀ s) (e : execProofStart m s = .next t) : Evolves s₀ t := by
  grind [execProofStart, atKeeper_evolves, writeProofCmd_evolves]

theorem execProofComplete_evolves (h : Evolves s₀ s) (e : execProofComplete s = .next t) : Evolves s₀ t := by
  grind [execProofComplete, Evolves.same, leaveIndex_evolves]

theorem execStrikeAtTick_evolves (h : Evolves s₀ s) (e : execStrikeAtTick m cycle s = .next t) : Evolves s₀ t := by
  grind [execStrikeAtTick, orderStrike_evolves, atKeeper_evolves]

theorem execStrikeAtE_evolves (h : Evolves s₀ s) (e : execStrikeAtE m cycle s = .next t) : Evolves s₀ t := by
  grind [execStrikeAtE, orderStrike_evolves, atKeeper_evolves]

theorem execStrikeCancel_evolves (h : Evolves s₀ s) (e : execStrikeCancel m s = .next t) : Evolves s₀ t := by
  grind [execStrikeCancel, cancelOrder_evolves, atKeeper_evolves]

theorem execArmAcknowledgement_evolves (h : Evolves s₀ s) (e : execArmAcknowledgement die s = .next t) : Evolves s₀ t := by
  grind [execArmAcknowledgement, Evolves.same]

theorem execQuiesceEntry_evolves (h : Evolves s₀ s) (e : execQuiesceEntry s = .next t) : Evolves s₀ t := by
  refine next_evolves (.ite ?_ h) e
  extract_lets _ s'
  have h' : Evolves s₀ s' := h.same rfl rfl
  exact foldl_evolves (fun _ _ h => .ite (closeInterval_evolves h) h) h'

theorem execUnitQuiesced_evolves (h : Evolves s₀ s) (e : execUnitQuiesced unit s = .next t) : Evolves s₀ t := by
  refine next_evolves ?_ e
  extract_lets s₁ s₂ _
  have h₁ : Evolves s₀ s₁ := by
    dsimp only [s₁]
    split
    · split
      · exact .ite (closeInterval_evolves h) h
      · exact h
    · exact h
  clear_value s₁
  have h₂ : Evolves s₀ s₂ := by
    dsimp only [s₂]
    split
    · exact h₁.same rfl rfl
    · exact h₁
  clear_value s₂
  exact .ite h (.ite h₁ (h₂.same rfl rfl))

theorem execStrikeAckDeadline_evolves (h : Evolves s₀ s) (e : execStrikeAckDeadline s = .next t) : Evolves s₀ t := by
  grind [execStrikeAckDeadline, cancelStrike_evolves]

theorem execStrikeCommit_evolves (h : Evolves s₀ s) (e : execStrikeCommit s = .next t) : Evolves s₀ t := by
  grind [execStrikeCommit, Evolves.same]

theorem execQuiesceExit_evolves (h : Evolves s₀ s) (e : execQuiesceExit s = .next t) : Evolves s₀ t := by
  grind [execQuiesceExit, endQuiesce_evolves]

theorem execMismatch_evolves (h : Evolves s₀ s) (e : execMismatch pair kind slice sinceEdge s = .next t) :
    Evolves s₀ t := by
  refine next_evolves ?_ e
  extract_lets x runs before w many s₁ s₂
  have h₁ : Evolves s₀ s₁ := updPair_evolves (bump_evolves h)
  have h₂ : Evolves s₀ s₂ := .ite (pairEvent_evolves h₁) h₁
  refine .ite h (.ite ?_ ?_)
  · split
    · exact checkpointLost_evolves h
    · exact countOnly_evolves h
    · exact h
  · split
    · exact checkpointLost_evolves h
    · exact countedMismatch_evolves h
    · exact countedMismatch_evolves (parityLoss_evolves h)
    · exact countedMismatch_evolves h
    · exact .ite (countedMismatch_evolves h) (.ite (countedMismatch_evolves h₂)
        (beginRetry_evolves (pairEvent_evolves (recordMismatch_evolves h₂))))

theorem execRetryRestart_evolves (h : Evolves s₀ s) (e : execRetryRestart pair s = .next t) : Evolves s₀ t := by
  grind [execRetryRestart, bump_evolves, updPair_evolves, loseCycles_evolves]

theorem execDomainPowerUpComplete_evolves (h : Evolves s₀ s) (e : execDomainPowerUpComplete dom s = .next t) :
    Evolves s₀ t := by
  refine next_evolves ?_ e
  split
  · extract_lets s₁ s₂
    have h₁ : Evolves s₀ s₁ := powerPair_evolves h
    have h₂ : Evolves s₀ s₂ := h₁.same rfl rfl
    refine .ite ?_ h
    split
    · exact .ite (h₂.same rfl rfl) h₂
    · exact h₂
  · exact .ite (updCp_evolves h) h
  · exact h

theorem execSparingWritebackComplete_evolves (h : Evolves s₀ s) (e : execSparingWritebackComplete pair s = .next t) :
    Evolves s₀ t := by
  grind [execSparingWritebackComplete, settleStores_evolves, updSparing_evolves]

theorem execCheckpointCopyComplete_evolves (h : Evolves s₀ s) (e : execCheckpointCopyComplete pair s = .next t) :
    Evolves s₀ t := by
  refine next_evolves ?_ e
  extract_lets s'
  have h : Evolves s₀ s' := h.same rfl rfl
  clear_value s'
  split
  · split
    · split
      next hs => exact ((settleStores_evolves h).fst hs).same rfl rfl
      next hs => exact (settleStores_evolves h).fst hs
    · exact h
  · exact h

theorem execSparingResume_evolves (h : Evolves s₀ s) (e : execSparingResume pair s = .next t) : Evolves s₀ t := by
  grind [execSparingResume, Evolves.same, updPair_evolves, pairEvent_evolves, loseCycles_evolves,
    takeIdentity_evolves]

theorem execRotationPeriodExpiry_evolves (h : Evolves s₀ s) (e : execRotationPeriodExpiry s = .next t) : Evolves s₀ t := by
  grind [execRotationPeriodExpiry, rotateOldest_evolves]

theorem execRotationRetry_evolves (h : Evolves s₀ s) (e : execRotationRetry s = .next t) : Evolves s₀ t := by
  grind [execRotationRetry, Evolves.same, startRotation_evolves, rotateOldest_evolves]

theorem execBeginRotation_evolves (h : Evolves s₀ s) (e : execBeginRotation m arg s = .next t) : Evolves s₀ t := by
  grind [execBeginRotation, rotateCommand_evolves]

theorem execPreCleaningEnd_evolves (h : Evolves s₀ s) (e : execPreCleaningEnd s = .next t) : Evolves s₀ t := by
  grind [execPreCleaningEnd, Evolves.same]

theorem execRotationSwitch_evolves (h : Evolves s₀ s) (e : execRotationSwitch s = .next t) : Evolves s₀ t := by
  refine next_evolves ?_ e
  split
  · split
    · split
      · split
        next hs =>
        have h := (settleStores_evolves (closeInterval_evolves h)).fst hs
        extract_lets s'
        have h : Evolves s₀ s' := updPair_evolves h
        exact h.same rfl rfl
      · exact h
    · exact h
  · exact h

theorem execRotationResume_evolves (h : Evolves s₀ s) (e : execRotationResume s = .next t) : Evolves s₀ t := by
  refine next_evolves ?_ e
  split
  · extract_lets s₁ s₂ s₃
    have h₁ : Evolves s₀ s₁ := pairEvent_evolves h
    have h₂ : Evolves s₀ s₂ := takeIdentity_evolves (loseCycles_evolves h₁)
    have h₃ : Evolves s₀ s₃ := updPair_evolves h₂
    clear_value s₃
    exact .ite (h₃.same rfl rfl) h
  · exact h

theorem execHaltDone_evolves (h : Evolves s₀ s) (e : execHaltDone pair s = .next t) : Evolves s₀ t := by
  grind [execHaltDone, updPair_evolves, haltNow_evolves, finishStop_evolves]

theorem execDebugHalt_evolves (h : Evolves s₀ s) (e : execDebugHalt m pair s = .next t) : Evolves s₀ t := by
  grind [execDebugHalt, setHalt_evolves, reachPair_evolves]

theorem execDebugStep_evolves (h : Evolves s₀ s) (e : execDebugStep m pair s = .next t) : Evolves s₀ t := by
  grind [execDebugStep, setStep_evolves, reachPair_evolves]

theorem execDebugResume_evolves (h : Evolves s₀ s) (e : execDebugResume m pair s = .next t) : Evolves s₀ t := by
  grind [execDebugResume, clearHalt_evolves, reachPair_evolves]

theorem execCheckpointWindowWrite_evolves (h : Evolves s₀ s) (e : execCheckpointWindowWrite m pair off size v s =
    .next t) : Evolves s₀ t := by
  grind [execCheckpointWindowWrite, writeCkpt_evolves]

theorem execTaken_evolves (h : Evolves s₀ s) (e : execTaken m pair s = .next t) : Evolves s₀ t := by
  grind [execTaken, takenCommand_evolves]

theorem execJqTail_evolves (h : Evolves s₀ s) (e : execJqTail ctx die q v s = .next t) : Evolves s₀ t := by
  grind [execJqTail, doorbell_evolves]

theorem execJqCtl_evolves (h : Evolves s₀ s) (e : execJqCtl ctx die q v s = .next t) : Evolves s₀ t := by
  grind [execJqCtl, doorbell_evolves]

theorem execJqBase_evolves (h : Evolves s₀ s) (e : execJqBase ctx die q v s = .next t) : Evolves s₀ t := by
  grind [execJqBase, doorbell_evolves]

theorem execDescriptorDispatch_evolves (h : Evolves s₀ s) (e : execDescriptorDispatch die s = .next t) :
    Evolves s₀ t := by
  unfold execDescriptorDispatch at e
  extract_lets n at e
  split at e
  · exact next_evolves h e
  · split at e
    · extract_lets s' at e
      have h : Evolves s₀ s' := visit_evolves h
      clear_value s'
      refine next_evolves ?_ e
      exact h.same rfl rfl
    · exact next_evolves h e

theorem execJobComplete_evolves (h : Evolves s₀ s) (e : execJobComplete job s = .next t) : Evolves s₀ t := by
  grind [execJobComplete, completeJob_evolves]

/-- A job's function evolves where the state does that it leaves when it succeeds. -/
theorem runFunc_evolves (h : Evolves s₀ s) (e : runFunc s j func f = .next t)
    (hf : ∀ {s x}, Evolves s₀ s → ChecksEvolve s₀ (f s x)) : Evolves s₀ t := by
  unfold runFunc at e
  split at e
  · exact next_evolves h e
  · split at e
    · exact next_evolves h e
    · split at e
      · exact next_evolves (endJob_evolves h) e
      · exact next_evolves (endJob_evolves h) e
      next hr => exact next_evolves (endJob_evolves (countMoved_evolves (undefine_evolves (hf h _ hr)))) e

theorem execDeflateCompress_evolves (h : Evolves s₀ s) (e : execDeflateCompress job s = .next t) : Evolves s₀ t :=
  runFunc_evolves h e fun h _ e => compress_evolves h e

theorem execDeflateDecompress_evolves (h : Evolves s₀ s) (e : execDeflateDecompress job s = .next t) : Evolves s₀ t :=
  runFunc_evolves h e fun h _ e => decompress_evolves h e

theorem execZstandardCompress_evolves (h : Evolves s₀ s) (e : execZstandardCompress job s = .next t) : Evolves s₀ t :=
  runFunc_evolves h e fun h _ e => compress_evolves h e

theorem execZstandardDecompress_evolves (h : Evolves s₀ s) (e : execZstandardDecompress job s = .next t) :
    Evolves s₀ t := runFunc_evolves h e fun h _ e => decompress_evolves h e

theorem execAesGcmEncrypt_evolves (h : Evolves s₀ s) (e : execAesGcmEncrypt job s = .next t) : Evolves s₀ t :=
  runFunc_evolves h e fun h _ e => cipher_evolves h e

theorem execAesGcmDecrypt_evolves (h : Evolves s₀ s) (e : execAesGcmDecrypt job s = .next t) : Evolves s₀ t :=
  runFunc_evolves h e fun h => .bind fun _ => .bind fun _ => .bind fun _ => .bind fun _ => .bind fun _ =>
    .bind fun _ => .ite (.ok h) (.ok h)

theorem execAesXtsEncrypt_evolves (h : Evolves s₀ s) (e : execAesXtsEncrypt job s = .next t) : Evolves s₀ t :=
  runFunc_evolves h e fun h => .bind fun _ _ e => cipher_evolves h e

theorem execAesXtsDecrypt_evolves (h : Evolves s₀ s) (e : execAesXtsDecrypt job s = .next t) : Evolves s₀ t :=
  runFunc_evolves h e fun h => .bind fun _ _ e => cipher_evolves h e

theorem execAesCtr_evolves (h : Evolves s₀ s) (e : execAesCtr job s = .next t) : Evolves s₀ t :=
  runFunc_evolves h e fun h _ e => cipher_evolves h e

theorem execHash_evolves (h : Evolves s₀ s) (e : execHash job s = .next t) : Evolves s₀ t :=
  runFunc_evolves h e fun h _ e => digest_evolves h e

theorem execHmac_evolves (h : Evolves s₀ s) (e : execHmac job s = .next t) : Evolves s₀ t :=
  runFunc_evolves h e fun h => .bind fun _ _ e => digest_evolves h e

theorem execEd25519Sign_evolves (h : Evolves s₀ s) (e : execEd25519Sign job s = .next t) : Evolves s₀ t :=
  runFunc_evolves h e fun h _ e => sign_evolves h e

theorem execEd25519Verify_evolves (h : Evolves s₀ s) (e : execEd25519Verify job s = .next t) : Evolves s₀ t :=
  runFunc_evolves h e fun h _ e => verify_evolves h e

theorem execEcdsaSign_evolves (h : Evolves s₀ s) (e : execEcdsaSign job s = .next t) : Evolves s₀ t :=
  runFunc_evolves h e fun h _ e => sign_evolves h e

theorem execEcdsaVerify_evolves (h : Evolves s₀ s) (e : execEcdsaVerify job s = .next t) : Evolves s₀ t :=
  runFunc_evolves h e fun h _ e => verify_evolves h e

theorem execMlDsaSign_evolves (h : Evolves s₀ s) (e : execMlDsaSign job s = .next t) : Evolves s₀ t :=
  runFunc_evolves h e fun h _ e => sign_evolves h e

theorem execMlDsaVerify_evolves (h : Evolves s₀ s) (e : execMlDsaVerify job s = .next t) : Evolves s₀ t :=
  runFunc_evolves h e fun h _ e => verify_evolves h e

theorem execMlKemEncapsulate_evolves (h : Evolves s₀ s) (e : execMlKemEncapsulate job s = .next t) : Evolves s₀ t :=
  runFunc_evolves h e fun h => .bind fun _ => by
    extract_lets jp
    have hjp (pub) : ChecksEvolve s₀ (jp pub) :=
      .bind fun _ => .bind fun _ => .bind fun _ _ e => kemSecret_evolves (drawn_evolves h) e
    exact .ite (.bind hjp) (.bind fun _ => .bind hjp)

theorem execMlKemDecapsulate_evolves (h : Evolves s₀ s) (e : execMlKemDecapsulate job s = .next t) : Evolves s₀ t :=
  runFunc_evolves h e fun h => .bind fun _ => .bind fun _ => .bind fun _ => .bind fun _ _ e => kemSecret_evolves h e

theorem execRandomBytes_evolves (h : Evolves s₀ s) (e : execRandomBytes job s = .next t) : Evolves s₀ t :=
  runFunc_evolves h e fun h => .bind fun _ => .bind fun _ => .bind fun _ => .ok (drawn_evolves h)

theorem execCompressThenEncrypt_evolves (h : Evolves s₀ s) (e : execCompressThenEncrypt job s = .next t) :
    Evolves s₀ t := runFunc_evolves h e fun h => .bind fun _ => .bind fun _ _ e => compress_evolves h e

theorem execDecryptThenDecompress_evolves (h : Evolves s₀ s) (e : execDecryptThenDecompress job s = .next t) :
    Evolves s₀ t :=
  runFunc_evolves h e fun h => .bind fun _ => .bind fun _ => .bind fun _ => .bind fun _ => .bind fun _ =>
    .ite (.ok h) (.ite (.ok h) (.ok h))

theorem execImportKey_evolves (h : Evolves s₀ s) (e : execImportKey job s = .next t) : Evolves s₀ t :=
  runFunc_evolves h e fun h => .bind fun _ => .bind fun _ => .bind fun _ => .bind fun _ => .ok (loaded_evolves h)

theorem execUnwrap_evolves (h : Evolves s₀ s) (e : execUnwrap job s = .next t) : Evolves s₀ t :=
  runFunc_evolves h e fun h => .bind fun _ => .bind fun _ => .bind fun _ => .bind fun _ => .bind fun _ =>
    .bind fun _ => .ok (loaded_evolves h)

theorem execWrap_evolves (h : Evolves s₀ s) (e : execWrap job s = .next t) : Evolves s₀ t :=
  runFunc_evolves h e fun h => .bind fun _ => .bind fun ⟨_, _⟩ => .bind fun _ => .bind fun _ => .bind fun _ =>
    .bind fun _ => .ok h

theorem execGenerate_evolves (h : Evolves s₀ s) (e : execGenerate job s = .next t) : Evolves s₀ t :=
  runFunc_evolves h e fun h => .bind fun _ => .bind fun _ => .bind fun _ => .ok (loaded_evolves (drawn_evolves h))

theorem execPublicKey_evolves (h : Evolves s₀ s) (e : execPublicKey job s = .next t) : Evolves s₀ t :=
  runFunc_evolves h e fun h => .bind fun _ => .bind fun _ => .bind fun _ => .ok h

theorem execErase_evolves (h : Evolves s₀ s) (e : execErase job s = .next t) : Evolves s₀ t :=
  runFunc_evolves h e fun h => .bind fun ⟨_, _⟩ => .ok (eraseKey_evolves h)

theorem execEngineError_evolves (h : Evolves s₀ s) (e : execEngineError crypt eng s = .next t) : Evolves s₀ t := by
  unfold execEngineError at e
  extract_lets n pg x now stops fails x' _ s₁ hit owner s₂ s₃ at e
  have h₁ : Evolves s₀ s₁ := h.same rfl rfl
  have h₂ : Evolves s₀ s₂ := logEvent_evolves (bump_evolves h₁)
  have h₃ : Evolves s₀ s₃ := .ite (logEvent_evolves h₂) h₂
  clear_value s₃ s₂ owner hit
  split at e
  · exact next_evolves h e
  · split at e
    · split at e
      · exact next_evolves h₃ e
      · exact next_evolves (inlineLost_evolves (assignJob_evolves (setJob_evolves h₃))) e
    · exact next_evolves h₃ e

theorem execDrbgReseed_evolves (h : Evolves s₀ s) (e : execDrbgReseed die s = .next t) : Evolves s₀ t := by
  grind [execDrbgReseed, updDrbg_evolves]

theorem execEntropyHealthFail_evolves (h : Evolves s₀ s) (e : execEntropyHealthFail die s = .next t) : Evolves s₀ t := by
  grind [execEntropyHealthFail, logEvent_evolves, updDrbg_evolves]

theorem execDrbgRecovery_evolves (h : Evolves s₀ s) (e : execDrbgRecovery die s = .next t) : Evolves s₀ t := by
  grind [execDrbgRecovery, logEvent_evolves, updDrbg_evolves]

theorem execKeySlotError_evolves (h : Evolves s₀ s) (e : execKeySlotError slot badSd0 badSd1 s = .next t) : Evolves
    s₀ t := by
  grind [execKeySlotError, bump_evolves, logEvent_evolves, eraseKey_evolves]

theorem execCommandWordFetch_evolves (h : Evolves s₀ s) (e : execCommandWordFetch sch s = .next t) : Evolves s₀ t := by
  unfold execCommandWordFetch at e
  extract_lets n at e
  split at e
  · exact next_evolves h e
  next o _ =>
  extract_lets s' pa at e
  have h' : Evolves s₀ s' := inlineAssign_evolves h
  clear_value pa
  split at e
  · exact next_evolves h e
  split at e
  · exact next_evolves h' e
  split at e
  · split at e
    · exact next_evolves (runCw_evolves h') e
    · exact next_evolves (failOp_evolves h') e
  · extract_lets w bad at e
    split at e
    · exact next_evolves (freshen_evolves (failOp_evolves h')) e
    · split at e
      · exact next_evolves (freshen_evolves (runCw_evolves h')) e
      · exact next_evolves (freshen_evolves (failOp_evolves h')) e

theorem execFinalStatus_evolves (h : Evolves s₀ s) (e : execFinalStatus sch s = .next t) : Evolves s₀ t := by
  grind [execFinalStatus, postFinal_evolves, iplGoesOn_evolves]

theorem execNopathWaitExpiry_evolves (h : Evolves s₀ s) (e : execNopathWaitExpiry sch s = .next t) : Evolves s₀ t := by
  grind [execNopathWaitExpiry, decide__evolves]

theorem execCancelTimeout_evolves (h : Evolves s₀ s) (e : execCancelTimeout sch s = .next t) : Evolves s₀ t := by
  grind [execCancelTimeout, decide__evolves]

theorem execInboundFrameDiscard_evolves (h : Evolves s₀ s) (e : execInboundFrameDiscard path rid frame s = .next t) :
    Evolves s₀ t := by
  grind [execInboundFrameDiscard, inOrder_evolves, frameDiscard_evolves]

theorem execAckFrame_evolves (h : Evolves s₀ s) (e : execAckFrame path rid frame s = .next t) : Evolves s₀ t := by
  grind [execAckFrame, inOrder_evolves, frameAck_evolves]

theorem execStatusFrame_evolves (h : Evolves s₀ s) (e : execStatusFrame path rid frame s = .next t) : Evolves s₀ t := by
  grind [execStatusFrame, inOrder_evolves, frameStatus_evolves]

theorem execResync_evolves (h : Evolves s₀ s) (e : execResync path rid frame s = .next t) : Evolves s₀ t := by
  grind [execResync, inOrder_evolves, frameResync_evolves]

theorem execHeartbeat_evolves (h : Evolves s₀ s) (e : execHeartbeat path rid frame s = .next t) : Evolves s₀ t := by
  grind [execHeartbeat, inOrder_evolves, frameHeartbeat_evolves]

theorem execAdapterDma_evolves (h : Evolves s₀ s) (e : execAdapterDma port rid addr write len data s = .next t) :
    Evolves s₀ t := by
  grind [execAdapterDma, inOrder_evolves, adapterDma_evolves]

theorem execPathFailed_evolves (h : Evolves s₀ s) (e : execPathFailed path cause s = .next t) : Evolves s₀ t := by
  unfold execPathFailed at e
  split at e
  · exact next_evolves (.ite (failPath_evolves h) h) e
  · exact next_evolves (failPath_evolves h) e
  · exact next_evolves (failPath_evolves h) e
  · exact next_evolves (.ite (failPath_evolves h) h) e

theorem execCpStop_evolves (h : Evolves s₀ s) (e : execCpStop cp s = .next t) : Evolves s₀ t := by
  grind [execCpStop, bump_evolves, logEvent_evolves, updCp_evolves]

theorem execCpTakeoverComplete_evolves (h : Evolves s₀ s) (e : execCpTakeoverComplete cp s = .next t) :
    Evolves s₀ t := by
  unfold execCpTakeoverComplete at e
  extract_lets c x s' mine at e
  have h : Evolves s₀ s' := updCp_evolves h
  split at e
  · exact next_evolves (foldl_evolves (fun _ _ h => goOn_evolves h) h) e
  · exact next_evolves (foldl_evolves (fun _ _ h => takeOver_evolves h) h) e
  · exact next_evolves h e

theorem execJournalEntryError_evolves (h : Evolves s₀ s) (e : execJournalEntryError die index badPrimary badMirror s
    = .next t) : Evolves s₀ t := by
  grind [execJournalEntryError, bump_evolves, logEvent_evolves, raise_evolves]

theorem execFeedOutOfRange_evolves (h : Evolves s₀ s) (e : execFeedOutOfRange feedB monitor s = .next t) : Evolves s₀
    t := by
  grind [execFeedOutOfRange, updFeed_evolves, judge_evolves]

theorem execFeedInRange_evolves (h : Evolves s₀ s) (e : execFeedInRange feedB monitor s = .next t) : Evolves s₀ t := by
  grind [execFeedInRange, updFeed_evolves, judge_evolves]

theorem execFeedStatusChange_evolves (h : Evolves s₀ s) (e : execFeedStatusChange feedB level heldNs s = .next t) :
    Evolves s₀ t := by
  grind [execFeedStatusChange, bump_evolves, setFeed_evolves, feedEvent_evolves, judge_evolves]

theorem execFeedRepaired_evolves (h : Evolves s₀ s) (e : execFeedRepaired feedB s = .next t) : Evolves s₀ t := by
  grind [execFeedRepaired, feedRestored_evolves, setFeed_evolves, feedEvent_evolves]

theorem execChatterEnd_evolves (h : Evolves s₀ s) (e : execChatterEnd feedB s = .next t) : Evolves s₀ t := by
  grind [execChatterEnd, setFeed_evolves, judge_evolves]

theorem execSwap_evolves (h : Evolves s₀ s) (e : execSwap m s = .next t) : Evolves s₀ t := by
  grind [execSwap, swapCommand_evolves]

theorem execClearTrip_evolves (h : Evolves s₀ s) (e : execClearTrip m s = .next t) : Evolves s₀ t := by
  grind [execClearTrip, clearTripCommand_evolves]

theorem execAgingCheck_evolves (h : Evolves s₀ s) (e : execAgingCheck die short s = .next t) : Evolves s₀ t := by
  grind [execAgingCheck, Evolves.same, feedEvent_evolves]

theorem execImgData_evolves (h : Evolves s₀ s) (e : execImgData m write v s = .next t) : Evolves s₀ t := by
  grind [execImgData, writeImg_evolves, readBy_evolves]

theorem execStartVerification_evolves (h : Evolves s₀ s) (e : execStartVerification m slot s = .next t) : Evolves s₀ t := by
  grind [execStartVerification, verifyCommand_evolves]

theorem execVerificationComplete_evolves (h : Evolves s₀ s) (e : execVerificationComplete s = .next t) :
    Evolves s₀ t := by
  refine next_evolves ?_ e
  split
  · exact h
  · extract_lets slot r _ s₁ s₂ w k
    have h₁ : Evolves s₀ s₁ := h.same rfl rfl
    have h₂ : Evolves s₀ s₂ := setSlot_evolves h₁
    clear_value s₂
    exact .ite (loadGoesOn_evolves (h₂.same rfl rfl)) (logEvent_evolves h₂)

theorem execAdvance_evolves (h : Evolves s₀ s) (e : execAdvance m s = .next t) : Evolves s₀ t := by
  grind [execAdvance, advanceCommand_evolves]

theorem execRevokeKeyPair_evolves (h : Evolves s₀ s) (e : execRevokeKeyPair m k s = .next t) : Evolves s₀ t := by
  grind [execRevokeKeyPair, revokeCommand_evolves]

theorem execImageSlotError_evolves (h : Evolves s₀ s) (e : execImageSlotError slot word badSd0 badSd1 s = .next t) :
    Evolves s₀ t := by
  refine next_evolves ?_ e
  extract_lets k v s'
  have h' : Evolves s₀ s' := taken_evolves h
  exact .ite (h'.same rfl rfl) h

theorem execControlStoreError_evolves (h : Evolves s₀ s) (e : execControlStoreError dom correctable s = .next t) :
    Evolves s₀ t := by
  unfold execControlStoreError at e
  split at e
  · exact next_evolves h e
  · split at e
    · exact next_evolves (logEvent_evolves (bump_evolves h)) e
    · split at e
      · exact execMismatch_evolves h e
      · exact execCpStop_evolves h e
      · exact next_evolves h e

theorem execUpdateRotation_evolves (h : Evolves s₀ s) (e : execUpdateRotation s = .next t) : Evolves s₀ t := by
  refine next_evolves ?_ e
  refine .ite ?_ h
  split
  · extract_lets s'
    have h' : Evolves s₀ s' := startRotation_evolves h
    clear_value s'
    exact .ite (h'.same rfl rfl) (h'.same rfl rfl)
  · exact h

theorem execCpUpdateHandover_evolves (h : Evolves s₀ s) (e : execCpUpdateHandover die s = .next t) : Evolves s₀ t := by
  refine next_evolves ?_ e
  extract_lets of' img _ s₁
  refine .ite ?_ h
  split
  · extract_lets s₂ _ s₃
    have h₁ : Evolves s₀ s₁ := h.same rfl rfl
    have h₂ : Evolves s₀ s₂ := updCp_evolves (updCp_evolves h₁)
    clear_value s₂
    have h₃ : Evolves s₀ s₃ := h₂.same rfl rfl
    exact endUpdate_evolves (foldl_evolves (fun _ _ h => sendResync_evolves h) h₃)
  · exact h

theorem execUpdateNoProgress_evolves (h : Evolves s₀ s) (e : execUpdateNoProgress s = .next t) : Evolves s₀ t := by
  grind [execUpdateNoProgress, Evolves.same, logEvent_evolves]

theorem execPowerOn_evolves (h : Evolves s₀ s) (e : execPowerOn m s = .next t) : Evolves s₀ t := by
  grind [execPowerOn, powerOnCommand_evolves]

theorem execProceed_evolves (h : Evolves s₀ s) (e : execProceed m s = .next t) : Evolves s₀ t := by
  grind [execProceed, proceedCommand_evolves]

theorem execServiceStop_evolves (h : Evolves s₀ s) (e : execServiceStop m s = .next t) : Evolves s₀ t := by
  grind [execServiceStop, serviceStopCommand_evolves]

theorem execResume_evolves (h : Evolves s₀ s) (e : execResume m s = .next t) : Evolves s₀ t := by
  grind [execResume, resumeCommand_evolves]

theorem execHold_evolves (h : Evolves s₀ s) (e : execHold m s = .next t) : Evolves s₀ t := by
  grind [execHold, holdCommand_evolves]

theorem execWarmReset_evolves (h : Evolves s₀ s) (e : execWarmReset m s = .next t) : Evolves s₀ t := by
  grind [execWarmReset, warmResetCommand_evolves]

theorem execColdReset_evolves (h : Evolves s₀ s) (e : execColdReset m s = .next t) : Evolves s₀ t := by
  grind [execColdReset, coldResetCommand_evolves]

theorem execIpl_evolves (h : Evolves s₀ s) (e : execIpl m s = .next t) : Evolves s₀ t := by
  grind [execIpl, iplCommand_evolves]

theorem execPkgResetN_evolves (h : Evolves s₀ s) (e : execPkgResetN lowNs acts s = .next t) : Evolves s₀ t := by
  grind [execPkgResetN, Evolves.same, coldReset_evolves]

theorem execPkgResetNRelease_evolves (h : Evolves s₀ s) (e : execPkgResetNRelease s = .next t) : Evolves s₀ t := by
  grind [execPkgResetNRelease, Evolves.same]

theorem execWarmResetN_evolves (h : Evolves s₀ s) (e : execWarmResetN lowNs acts s = .next t) : Evolves s₀ t := by
  grind [execWarmResetN, Evolves.same, warmBegin_evolves]

theorem execWarmResetNRelease_evolves (h : Evolves s₀ s) (e : execWarmResetNRelease s = .next t) : Evolves s₀ t := by
  grind [execWarmResetNRelease, Evolves.same]

theorem execWarmResetWritebackComplete_evolves (h : Evolves s₀ s) (e : execWarmResetWritebackComplete s = .next t) :
    Evolves s₀ t := by
  refine next_evolves ?_ e
  extract_lets s₁ _ s₂
  have h₁ : Evolves s₀ s₁ := enterMode_evolves (warmDies_evolves (endOpsAtBound_evolves h))
  clear_value s₁
  have h₂ : Evolves s₀ s₂ := h₁.same rfl rfl
  exact .ite (.ite h₂ (enterConfig_evolves h₂)) h

theorem execHoldFlushAnnouncement_evolves (h : Evolves s₀ s) (e : execHoldFlushAnnouncement pkg s = .next t) :
    Evolves s₀ t := by
  grind [execHoldFlushAnnouncement, Evolves.same, holdIfFlushed_evolves]

theorem execHoldAnnouncementTimeout_evolves (h : Evolves s₀ s) (e : execHoldAnnouncementTimeout s = .next t) :
    Evolves s₀ t := by
  grind [execHoldAnnouncementTimeout, enterHold_evolves]

theorem execCouplingExchange_evolves (h : Evolves s₀ s) (e : execCouplingExchange c s = .next t) : Evolves s₀ t := by
  grind [execCouplingExchange, Evolves.same, initFails_evolves]

theorem execCouplingTimeout_evolves (h : Evolves s₀ s) (e : execCouplingTimeout s = .next t) : Evolves s₀ t := by
  grind [execCouplingTimeout, initFails_evolves]

theorem execInitialisationPhaseComplete_evolves (h : Evolves s₀ s)
    (e : execInitialisationPhaseComplete inp s = .next t) : Evolves s₀ t := by
  refine next_evolves (.ite h ?_) e
  split
  · exact .ite h (enterConfig_evolves (powerDies_evolves h))
  · exact readSpds_evolves h
  · exact trainAll_evolves h
  · exact coupleAll_evolves h
  · extract_lets s'
    have h' : Evolves s₀ s' := by
      dsimp only [s']
      split
      · exact clearDram_evolves h
      · exact h
    clear_value s'
    exact enterMode_evolves (h'.same rfl rfl)
  · exact h

theorem execLoadComplete_evolves (h : Evolves s₀ s) (e : execLoadComplete eccOk s = .next t) : Evolves s₀ t := by
  grind [execLoadComplete, Evolves.same, enterMode_evolves, loadFails_evolves, beginPackage_evolves]

theorem execVsbApplied_evolves (h : Evolves s₀ s) (e : execVsbApplied s = .next t) : Evolves s₀ t := by
  grind [execVsbApplied, Evolves.same, enterMode_evolves, judgeOther_evolves]

theorem execVsbLost_evolves (h : Evolves s₀ s) (e : execVsbLost s = .next t) : Evolves s₀ t := by
  grind [execVsbLost, Evolves.same, goOff_evolves]

theorem execBothFeedsLost_evolves (h : Evolves s₀ s) (e : execBothFeedsLost s = .next t) : Evolves s₀ t := by
  grind [execBothFeedsLost, powerDown_evolves]

theorem execThermalTrip_evolves (h : Evolves s₀ s) (e : execThermalTrip s = .next t) : Evolves s₀ t := by
  grind [execThermalTrip, Evolves.same, powerDown_evolves]

theorem execKeeperDieLoss_evolves (h : Evolves s₀ s) (e : execKeeperDieLoss s = .next t) : Evolves s₀ t := by
  grind [execKeeperDieLoss, Evolves.same, degrade_evolves]

theorem execKeeperCopyOutvoted_evolves (h : Evolves s₀ s) (e : execKeeperCopyOutvoted copy s = .next t) : Evolves s₀ t := by
  grind [execKeeperCopyOutvoted, logEvent_evolves]

theorem execDieLoss_evolves (h : Evolves s₀ s) (e : execDieLoss die s = .next t) : Evolves s₀ t := by
  grind [execDieLoss, raise_evolves]

theorem execRelease_evolves (h : Evolves s₀ s) (e : execRelease m part arg s = .next t) : Evolves s₀ t := by
  grind [execRelease, releaseCommand_evolves]

theorem execReclaim_evolves (h : Evolves s₀ s) (e : execReclaim m part arg s = .next t) : Evolves s₀ t :=
  next_evolves (reclaimCommand_evolves h) e

theorem execPartitionReset_evolves (h : Evolves s₀ s) (e : execPartitionReset m part s = .next t) : Evolves s₀ t := by
  grind [execPartitionReset, partResetCommand_evolves]

theorem execStart_evolves (h : Evolves s₀ s) (e : execStart m part s = .next t) : Evolves s₀ t := by
  grind [execStart, startCommand_evolves]

theorem execRegisterWrite_evolves (h : Evolves s₀ s) (e : execRegisterWrite m off size v s = .next t) : Evolves s₀ t := by
  grind [execRegisterWrite, writeService_evolves]

theorem execDraftWrite_evolves (h : Evolves s₀ s) (e : execDraftWrite m off size v s = .next t) : Evolves s₀ t := by
  grind [execDraftWrite, writeService_evolves]

theorem execErrClear_evolves (h : Evolves s₀ s) (e : execErrClear m page s = .next t) : Evolves s₀ t := by
  grind [execErrClear, writeService_evolves]

theorem execServicePortRead_evolves (h : Evolves s₀ s) (e : execServicePortRead m off size s = .next t) : Evolves s₀ t := by
  grind [execServicePortRead, readBy_evolves]

theorem execEvqReadPointerWrite_evolves (h : Evolves s₀ s) (e : execEvqReadPointerWrite m portB v s = .next t) :
    Evolves s₀ t := by
  grind [execEvqReadPointerWrite, writeService_evolves]

theorem execServicePortLinkUp_evolves (h : Evolves s₀ s) (e : execServicePortLinkUp portB s = .next t) : Evolves s₀ t := by
  grind [execServicePortLinkUp, Evolves.same]

theorem execServicePortLinkDown_evolves (h : Evolves s₀ s) (e : execServicePortLinkDown portB s = .next t) : Evolves
    s₀ t := by
  grind [execServicePortLinkDown, Evolves.same]

theorem execSidebandPointerWrite_evolves (h : Evolves s₀ s) (e : execSidebandPointerWrite portB bytes s = .next t) :
    Evolves s₀ t := next_evolves (.ite h (setSide_evolves h)) e

theorem execSidebandRead_evolves (h : Evolves s₀ s) (e : execSidebandRead portB s = .next t) : Evolves s₀ t := by
  grind [execSidebandRead, emit_evolves, setSide_evolves]

theorem execSignalStore_evolves (h : Evolves s₀ s) (e : execSignalStore lp page off size v s = .next t) : Evolves s₀ t := by
  grind [execSignalStore, signalStore_evolves]

/-- A body that leaves an evolved state ends so. -/
theorem ends_of_leaves {m : Run α} (hm : Leaves (Evolves s₀) m s) : Ends s₀ (m s) := by
  unfold Leaves at hm
  cases hr : m s <;> rw [hr] at hm <;> exact hm

theorem settled_evolves {r : EStateM.Result Stop State Unit} (h : Evolves s₀ s) (hr : Ends s₀ r) :
    Evolves s₀ ((settle lp f s r).getD s) := getD_evolves (settle_evolves hr) h

/-- An instruction whose body keeps the state evolving does. -/
theorem runInstr_evolves {body : Run Unit} (hb : ∀ {u}, Evolves s₀ u → Leaves (Evolves s₀) body u) (h : Evolves s₀ s)
    (e : runInstr lp f body s = .next t) : Evolves s₀ t := by
  have hw {u} (k : Evolves s₀ u) : Ends s₀ (whole lp f body u) := ends_of_leaves (whole_keeps hb k)
  unfold runInstr at e
  split at e
  · exact next_evolves h e
  split at e
  · exact next_evolves h e
  next hp =>
  have h := prepare_evolves h hp
  split at e
  · extract_lets u at e
    have hu : Evolves s₀ u := closeInterval_evolves h
    split at e
    · exact next_evolves (settled_evolves hu (hw hu)) e
    · exact next_evolves h e
  · exact next_evolves (settled_evolves h (hw h)) e

theorem execBurinSet_evolves (h : Evolves s₀ s) (e : execBurinSet die s = .next t) : Evolves s₀ t := by
  grind [execBurinSet, updBurin_evolves, burinOneSet_evolves]

theorem execBurinComplete_evolves (h : Evolves s₀ s) (e : execBurinComplete die s = .next t) : Evolves s₀ t := by
  grind [execBurinComplete, updBurin_evolves]

theorem execPrefetch_evolves (h : Evolves s₀ s) (e : execPrefetch lp va store' s = .next t) : Evolves s₀ t := by
  refine next_evolves ?_ e
  split
  · exact h
  · extract_lets ctl
    refine .ite h ?_
    split
    · exact h
    · exact foldl_evolves (fun _ _ h => prefetchLine_evolves h) h

theorem execL2Eviction_evolves (h : Evolves s₀ s) (e : execL2Eviction pair line s = .next t) : Evolves s₀ t := by
  grind [execL2Eviction, l2Evict_evolves]

theorem execArraySweepRead_evolves (h : Evolves s₀ s) (e : execArraySweepRead l3 unit line errors s = .next t) :
    Evolves s₀ t := by
  grind [execArraySweepRead, setPoison_evolves, l2Remove_evolves, l3Remove_evolves, flushLine_evolves,
    codelessEvent_evolves]

theorem execReleasedEntryDrain_evolves (h : Evolves s₀ s) (e : execReleasedEntryDrain lp s = .next t) : Evolves s₀ t := by
  grind [execReleasedEntryDrain, barrierCheck_evolves, drainOne_evolves]

theorem execDeviceStore_evolves (h : Evolves s₀ s) (e : execDeviceStore lp rid s = .next t) : Evolves s₀ t := by
  grind [execDeviceStore, updLp_evolves, barrierCheck_evolves, portStore_evolves]

theorem execPostedCreditReturn_evolves (h : Evolves s₀ s) (e : execPostedCreditReturn port rid n s = .next t) :
    Evolves s₀ t := by
  grind [execPostedCreditReturn, updFunc_evolves, barrierAll_evolves, forwardHeld_evolves]

theorem execCreditTimeout_evolves (h : Evolves s₀ s) (e : execCreditTimeout port rid s = .next t) : Evolves s₀ t := by
  grind [execCreditTimeout, updFunc_evolves]

theorem execContainmentComplete_evolves (h : Evolves s₀ s) (e : execContainmentComplete port rid s = .next t) :
    Evolves s₀ t := by
  unfold execContainmentComplete at e
  extract_lets f s' at e
  have h' : Evolves s₀ s' := foldl_evolves (fun _ _ h => funcEvent_evolves h) h
  split at e
  · exact next_evolves h e
  · exact next_evolves (barrierAll_evolves (updFunc_evolves h')) e

theorem execContainmentRelease_evolves (h : Evolves s₀ s) (e : execContainmentRelease port rid s = .next t) : Evolves
    s₀ t := by
  grind [execContainmentRelease, updFunc_evolves]

theorem execPcieLinkDown_evolves (h : Evolves s₀ s) (e : execPcieLinkDown port rid s = .next t) : Evolves s₀ t := by
  unfold execPcieLinkDown at e
  extract_lets f s₁ s₂ left at e
  have h₁ : Evolves s₀ s₁ := foldl_evolves (fun _ _ h => funcEvent_evolves h) h
  have h₂ : Evolves s₀ s₂ := updFunc_evolves h₁
  split at e
  · exact next_evolves h e
  · exact next_evolves (barrierAll_evolves (.ite h₂ (setLink_evolves h₂))) e

theorem execPcieLinkUp_evolves (h : Evolves s₀ s) (e : execPcieLinkUp port sub rate width rids s = .next t) :
    Evolves s₀ t := by
  unfold execPcieLinkUp at e
  extract_lets p at e
  split at e
  · exact next_evolves h e
  · exact next_evolves (foldl_evolves (fun _ _ h => updFunc_evolves h) (setLink_evolves h)) e

theorem execDeviceLoad_evolves (h : Evolves s₀ s) (e : execDeviceLoad lp rid s = .next t) : Evolves s₀ t := by
  grind [execDeviceLoad, emit_evolves, updLp_evolves, toPkg_evolves, syncCheck_evolves, lostRead_evolves,
    endDevLoad_evolves, dropLoad_evolves]

theorem execDeviceLoadCompletion_evolves (h : Evolves s₀ s) (e : execDeviceLoadCompletion lp data poisoned s = .next
    t) : Evolves s₀ t := by
  grind [execDeviceLoadCompletion, updLp_evolves, syncCheck_evolves, endDevLoad_evolves, dropLoad_evolves]

theorem execDeviceLoadTimeout_evolves (h : Evolves s₀ s) (e : execDeviceLoadTimeout lp s = .next t) : Evolves s₀ t := by
  grind [execDeviceLoadTimeout, updFunc_evolves, funcEvent_evolves, endDevLoad_evolves]

theorem execDmaRequest_evolves (h : Evolves s₀ s) (e : execDmaRequest port rid pasid addr write len data s = .next t)
    : Evolves s₀ t := by
  grind [execDmaRequest, inOrder_evolves, openDma_evolves]

theorem execMsixMessage_evolves (h : Evolves s₀ s) (e : execMsixMessage port rid data s = .next t) : Evolves s₀ t := by
  grind [execMsixMessage, inOrder_evolves, msix_evolves]

theorem execPostedWrite_evolves (h : Evolves s₀ s) (e : execPostedWrite port rid pasid addr data s = .next t) :
    Evolves s₀ t := by
  grind [execPostedWrite, inOrder_evolves, postedWrite_evolves]

theorem execAccessedDirtyUpdate_evolves (h : Evolves s₀ s)
    (e : execAccessedDirtyUpdate lp va store' expected s = .next t) : Evolves s₀ t := by
  have hw := ends_of_leaves (walkOrNone_keeps (lp := lp) (va := va) (acc := if store' then .store else .load)
    (asUser := false) (cached := true) (needW := false) h)
  unfold execAccessedDirtyUpdate at e
  extract_lets acc asid drop new at e
  split at e
  · exact next_evolves h e
  split at e
  next hk =>
    rw [hk] at hw
    exact next_evolves (updTlbs_evolves hw) e
  next hk =>
    rw [hk] at hw
    split at e
    · exact next_evolves h e
    · split at e
      next hs =>
      have hs := (swapEntry_evolves hw).fst hs
      exact next_evolves (.ite (updTlbs_evolves hs) (updTlbs_evolves (updTlbs_evolves hs))) e

theorem execCheckpointClose_evolves (h : Evolves s₀ s) (e : execCheckpointClose lp s = .next t) : Evolves s₀ t := by
  grind [execCheckpointClose, closeInterval_evolves]

theorem execIntervalLimit_evolves (h : Evolves s₀ s) (e : execIntervalLimit lp s = .next t) : Evolves s₀ t := by
  grind [execIntervalLimit, closeDue_evolves]

theorem execReservationHoldExpiry_evolves (h : Evolves s₀ s) (e : execReservationHoldExpiry lp s = .next t) : Evolves
    s₀ t := by
  grind [execReservationHoldExpiry, updLp_evolves]

theorem execPresentationEdge_evolves (h : Evolves s₀ s) (e : execPresentationEdge pair s = .next t) : Evolves s₀ t := by
  refine next_evolves ?_ e
  split
  · exact h
  · extract_lets pend keep s'
    have h' : Evolves s₀ s' := updLp_evolves h
    exact .ite h (foldl_evolves (fun _ _ h => .ite h (.ite (makeOffer_evolves h) h)) (h'.same rfl rfl))

theorem execInterruptOfferExpiry_evolves (h : Evolves s₀ s) (e : execInterruptOfferExpiry lp s = .next t) : Evolves
    s₀ t := by
  grind [execInterruptOfferExpiry, Evolves.same]

theorem execMachineCheck_evolves (h : Evolves s₀ s) (e : execMachineCheck lp s = .next t) : Evolves s₀ t := by
  grind [execMachineCheck, Evolves.same, enter_evolves]

theorem execPartitionChanged_evolves (h : Evolves s₀ s) (e : execPartitionChanged lp s = .next t) : Evolves s₀ t := by
  grind [execPartitionChanged, updLp_evolves, enter_evolves]

theorem execTickCompare_evolves (h : Evolves s₀ s) (e : execTickCompare lp s = .next t) : Evolves s₀ t := by
  grind [execTickCompare, enter_evolves]

theorem execSignal_evolves (h : Evolves s₀ s) (e : execSignal lp s = .next t) : Evolves s₀ t := by
  grind [execSignal, updLp_evolves, enter_evolves]

theorem execIoInterruption_evolves (h : Evolves s₀ s) (e : execIoInterruption lp s = .next t) : Evolves s₀ t := by
  grind [execIoInterruption, Evolves.same, enter_evolves, takeSrc_evolves]

theorem execMachineCheckRingWrite_evolves (h : Evolves s₀ s) (e : execMachineCheckRingWrite s = .next t) :
    Evolves s₀ t := by
  refine next_evolves ?_ e
  split
  · exact h
  · extract_lets ring r a _ s₁ s₂
    have h₁ : Evolves s₀ s₁ := h.same rfl rfl
    have h₂ : Evolves s₀ s₂ := .ite (agentWrite_evolves h₁) (bump_evolves h₁)
    clear_value s₂
    exact .ite h (h₂.same rfl rfl)

theorem execPpsEdge_evolves (h : Evolves s₀ s) (e : execPpsEdge inputB off highNs s = .next t) : Evolves s₀ t := by
  grind [execPpsEdge, updTime_evolves, setPps_evolves, countIgnored_evolves, acceptEdge_evolves]

theorem execPpsQualificationLoss_evolves (h : Evolves s₀ s) (e : execPpsQualificationLoss inputB off s = .next t) :
    Evolves s₀ t := by
  grind [execPpsQualificationLoss, updTime_evolves, setPps_evolves, sourceLost_evolves]

theorem execReacquireTimeout_evolves (h : Evolves s₀ s) (e : execReacquireTimeout s = .next t) : Evolves s₀ t := by
  grind [execReacquireTimeout, enterHoldover_evolves, setPps_evolves]

theorem execTimeCodeMessage_evolves (h : Evolves s₀ s) (e : execTimeCodeMessage msg sinceEdgeMs framing s = .next t)
    : Evolves s₀ t := by
  grind [execTimeCodeMessage, updTime_evolves, todEvent_evolves]

theorem execTimeCodeOutput_evolves (h : Evolves s₀ s) (e : execTimeCodeOutput s = .next t) : Evolves s₀ t := by
  grind [execTimeCodeOutput, taken_evolves, emit_evolves, updTime_evolves]

theorem execTimeTransferMessage_evolves (h : Evolves s₀ s) (e : execTimeTransferMessage link out back s = .next t) :
    Evolves s₀ t := by
  grind [execTimeTransferMessage, steer_evolves, sendTime_evolves]

theorem execDieRealignmentComplete_evolves (h : Evolves s₀ s) (e : execDieRealignmentComplete die s = .next t) :
    Evolves s₀ t := by
  grind [execDieRealignmentComplete, updTime_evolves]

theorem execOscillatorInputLost_evolves (h : Evolves s₀ s) (e : execOscillatorInputLost s = .next t) : Evolves s₀ t := by
  grind [execOscillatorInputLost, updTime_evolves, todEvent_evolves]

theorem execOscillatorInputRestored_evolves (h : Evolves s₀ s) (e : execOscillatorInputRestored s = .next t) :
    Evolves s₀ t := by
  grind [execOscillatorInputRestored, updTime_evolves, todEvent_evolves]

theorem execLaneRemap_evolves (h : Evolves s₀ s) (e : execLaneRemap link inbound' s = .next t) : Evolves s₀ t := by
  grind [execLaneRemap, Evolves.same, raise_evolves]

theorem execImbalanceEvent_evolves (h : Evolves s₀ s) (e : execImbalanceEvent cls index s = .next t) : Evolves s₀ t := by
  grind [execImbalanceEvent, Evolves.same, logEvent_evolves]

theorem execBypass_evolves (h : Evolves s₀ s) (e : execBypass s = .next t) : Evolves s₀ t := by
  grind [execBypass, tapLoad_evolves]

theorem execIdcode_evolves (h : Evolves s₀ s) (e : execIdcode s = .next t) : Evolves s₀ t := by
  grind [execIdcode, emit_evolves, tapLoad_evolves]

theorem execSamplePreload_evolves (h : Evolves s₀ s) (e : execSamplePreload s = .next t) : Evolves s₀ t := by
  grind [execSamplePreload, tapLoad_evolves]

theorem execExtest_evolves (h : Evolves s₀ s) (e : execExtest s = .next t) : Evolves s₀ t := by
  grind [execExtest, tapTest_evolves]

theorem execExtestPulse_evolves (h : Evolves s₀ s) (e : execExtestPulse s = .next t) : Evolves s₀ t := by
  grind [execExtestPulse, tapTest_evolves]

theorem execExtestTrain_evolves (h : Evolves s₀ s) (e : execExtestTrain s = .next t) : Evolves s₀ t := by
  grind [execExtestTrain, tapTest_evolves]

theorem execClamp_evolves (h : Evolves s₀ s) (e : execClamp s = .next t) : Evolves s₀ t := by
  grind [execClamp, tapTest_evolves]

theorem execHighz_evolves (h : Evolves s₀ s) (e : execHighz s = .next t) : Evolves s₀ t := by
  grind [execHighz, tapTest_evolves]

theorem execAlmanacRecordWritten_evolves (h : Evolves s₀ s) (e : execAlmanacRecordWritten die s = .next t) : Evolves
    s₀ t := by
  grind [execAlmanacRecordWritten, setCell_evolves, agentWrite_evolves, spend_evolves, updAlm_evolves]

theorem execRowCloseTimeout_evolves (h : Evolves s₀ s) (e : execRowCloseTimeout ch rank sub bank s = .next t) :
    Evolves s₀ t := by
  grind [execRowCloseTimeout, updMc_evolves]

theorem execRefreshDue_evolves (h : Evolves s₀ s) (e : execRefreshDue ch rank busy' s = .next t) : Evolves s₀ t := by
  grind [execRefreshDue, bump_evolves, updMc_evolves, closeRank_evolves]

theorem execDimmTemperatureRead_evolves (h : Evolves s₀ s) (e : execDimmTemperatureRead ch temps s = .next t) :
    Evolves s₀ t := by
  grind [execDimmTemperatureRead, logEvent_evolves, updMc_evolves]

theorem execSweepRead_evolves (h : Evolves s₀ s) (e : execSweepRead ch badDevices s = .next t) : Evolves s₀ t := by
  grind [execSweepRead, bump_evolves, updMc_evolves, bankAccess_evolves, debit_evolves, spend_evolves,
    dramRead_evolves]

theorem execCaParityAlert_evolves (h : Evolves s₀ s) (e : execCaParityAlert ch s = .next t) : Evolves s₀ t := by
  grind [execCaParityAlert, bump_evolves, logEvent_evolves, updMc_evolves]

theorem execCalibrationCheck_evolves (h : Evolves s₀ s) (e : execCalibrationCheck ch rank sub lane kind dir s = .next
    t) : Evolves s₀ t := by
  grind [execCalibrationCheck, spend_evolves, driftLane_evolves]

theorem execRds_evolves (h : Evolves s₀ s) (e : execRds who line s = .next t) : Evolves s₀ t := by
  refine next_evolves ?_ e
  split
  · exact fromAfar_evolves h
  · refine .ite h ?_
    split
    · exact mergeOwning_evolves (placeOr_evolves h (l2Drop_evolves h))
    · exact placeOr_evolves h (l2SetState_evolves h)
    · exact .ite (placeOr_evolves h (l3Remove_evolves h)) (toHome_evolves h)
  · exact h

theorem execRdo_evolves (h : Evolves s₀ s) (e : execRdo who line s = .next t) : Evolves s₀ t := by
  refine next_evolves ?_ e
  split
  · exact fromAfar_evolves h
  · extract_lets die
    refine .ite h (.ite (mergeOwning_evolves (placeOr_evolves h (dieRemove_evolves h)))
      (.ite (mergeOwning_evolves (placeOr_evolves h (dieRemove_evolves h)))
        (.ite ?_ (toHome_evolves (dieRemove_evolves h)))))
    split
    next hp => exact toHome_evolves (l2Place_evolves (dieRemove_evolves h) hp)
    · exact fillRoom_evolves h
  · exact h

theorem execUpg_evolves (h : Evolves s₀ s) (e : execUpg who line s = .next t) : Evolves s₀ t := by
  refine next_evolves ?_ e
  split
  · exact fromAfar_evolves h
  · exact .ite h (toHome_evolves (dieRemove_evolves h))
  · exact h

theorem execRdna_evolves (h : Evolves s₀ s) (e : execRdna who line s = .next t) : Evolves s₀ t := by
  grind [execRdna, agentRequest_evolves]

theorem execWrl_evolves (h : Evolves s₀ s) (e : execWrl who line data poisoned s = .next t) : Evolves s₀ t := by
  grind [execWrl, agentRequest_evolves]

theorem execWrp_evolves {expect : Option (List Byte)} (h : Evolves s₀ s)
    (e : execWrp who line offset data expect poisoned s = .next t) : Evolves s₀ t :=
  next_evolves (agentRequest_evolves h) e

theorem execEvc_evolves (h : Evolves s₀ s) (e : execEvc who line s = .next t) : Evolves s₀ t := by
  grind [execEvc, eviction_evolves]

theorem execWbm_evolves (h : Evolves s₀ s) (e : execWbm who line s = .next t) : Evolves s₀ t := by
  grind [execWbm, eviction_evolves]

theorem execCrossed_evolves (h : Evolves s₀ s) (e : execCrossed die line s = .next t) : Evolves s₀ t := by
  grind [execCrossed, bump_evolves, putTxn_evolves, takeCrossed_evolves]

theorem execSnps_evolves (h : Evolves s₀ s) (e : execSnps die line s = .next t) : Evolves s₀ t := by
  grind [execSnps, snoopArrives_evolves]

theorem execSnpo_evolves (h : Evolves s₀ s) (e : execSnpo die line s = .next t) : Evolves s₀ t := by
  grind [execSnpo, snoopArrives_evolves]

theorem execSnpna_evolves (h : Evolves s₀ s) (e : execSnpna die line probe s = .next t) : Evolves s₀ t := by
  grind [execSnpna, snoopArrives_evolves]

/-- As for `lineAccess`, the place of the line is left general. -/
theorem execMrd_evolves (h : Evolves s₀ s) (e : execMrd line badDevices s = .next t) : Evolves s₀ t := by
  suffices key : ∀ f, f = execMrd → f line badDevices s = .next t → Evolves s₀ t from key _ rfl e
  intro f hf e
  delta execMrd at hf
  rw [congrFun (congrFun (congrFun hf line) badDevices) s] at e
  extract_lets o s' at e
  clear_value o
  have h' : Evolves s₀ s' := by
    refine .ite ?_ h
    generalize dramAt s o = place
    cases place
    exact dramRead_evolves (countDram_evolves h)
  clear_value s'
  refine next_evolves ?_ e
  split
  · exact h
  · exact .ite h (putTxn_evolves h')

theorem execMgo_evolves (h : Evolves s₀ s) (e : execMgo line s = .next t) : Evolves s₀ t := by
  grind [execMgo, putTxn_evolves, answerLine_evolves, endTxn_evolves]

theorem execMdrop_evolves (h : Evolves s₀ s) (e : execMdrop line s = .next t) : Evolves s₀ t := by
  grind [execMdrop, putTxn_evolves]

theorem execMwr_evolves (h : Evolves s₀ s) (e : execMwr line s = .next t) : Evolves s₀ t := by
  grind [execMwr, wroteDram_evolves, dirFree_evolves, writeLine_evolves, answer_evolves, endTxn_evolves]

theorem execDataFill_evolves (h : Evolves s₀ s) (e : execDataFill pair line s = .next t) : Evolves s₀ t := by
  refine next_evolves ?_ e
  split
  · exact h
  split
  · exact h
  · extract_lets u
    have hu : Evolves s₀ u := .ite h (freeLine_evolves h)
    refine .ite h ?_
    split
    · exact fillRoom_evolves h
    next hp =>
    have hp := l2Place_evolves hu hp
    exact mergeOwning_evolves (updMiss_evolves (taken_evolves (countTo_evolves (.ite (setPoison_evolves hp) hp))))

theorem execAck_evolves (h : Evolves s₀ s) (e : execAck pair line shared hold stale cmpok poison s = .next t) :
    Evolves s₀ t := by
  grind [execAck, ackEviction_evolves, ackFar_evolves, ackUpgrade_evolves]

theorem execCompack_evolves (h : Evolves s₀ s) (e : execCompack line s = .next t) : Evolves s₀ t := by
  refine next_evolves (.ite (foldl_evolves (fun s p h => ?_) h) ?_) e
  · split
    · exact .ite (endMiss_evolves (sendDie_evolves h)) h
    · exact h
  · split
    · exact h
    · extract_lets ready die s₁ s₂
      have h₁ : Evolves s₀ s₁ := by
        dsimp only [s₁]
        split
        · exact dirAdd_evolves h
        · split
          · exact setPoison_evolves (dirOwn_evolves h)
          · exact dirOwn_evolves h
      have h₂ : Evolves s₀ s₂ := by
        dsimp only [s₂]
        split
        · exact endMiss_evolves h₁
        · exact h₁
      exact .ite h (endTxn_evolves h₂)

theorem execRetry_evolves (h : Evolves s₀ s) (e : execRetry pair line s = .next t) : Evolves s₀ t := by
  grind [execRetry, updMiss_evolves]

theorem execRetryReissue_evolves (h : Evolves s₀ s) (e : execRetryReissue pair line s = .next t) : Evolves s₀ t := by
  grind [execRetryReissue, sendDie_evolves, arrive_evolves, updMiss_evolves]

theorem execTicketPassOver_evolves (h : Evolves s₀ s) (e : execTicketPassOver slice s = .next t) : Evolves s₀ t := by
  grind [execTicketPassOver, updSlice_evolves]

theorem execDirectoryProbe_evolves (h : Evolves s₀ s) (e : execDirectoryProbe line s = .next t) : Evolves s₀ t := by
  grind [execDirectoryProbe, dirFree_evolves, openTxn_evolves, spend_evolves]

theorem execTransactionHold_evolves (h : Evolves s₀ s) (e : execTransactionHold line s = .next t) : Evolves s₀ t := by
  grind [execTransactionHold, answer_evolves]

theorem execSnoopTimeout_evolves (h : Evolves s₀ s) (e : execSnoopTimeout line s = .next t) : Evolves s₀ t := by
  refine next_evolves ?_ e
  split
  · exact h
  split
  · exact h
  · extract_lets s₁ s₂ s₃ x
    have h₁ : Evolves s₀ s₁ := foldl_evolves (fun _ _ h => .ite (dieRemove_evolves h) h) (discardDirty_evolves h)
    have h₂ : Evolves s₀ s₂ := dirFree_evolves (setPoison_evolves h₁)
    have h₃ : Evolves s₀ s₃ := logEvent_evolves h₂
    split
    · exact answerLine_evolves (putTxn_evolves h₃)
    · exact answerLine_evolves (putTxn_evolves h₃)
    · exact answer_evolves (putTxn_evolves h₃)
    · exact endTxn_evolves (answerLine_evolves h₃)
    · exact endTxn_evolves (answer_evolves h₃)
    · exact endTxn_evolves (answer_evolves h₃)
    · exact endTxn_evolves h₃
    · exact endTxn_evolves h₃

theorem execRequesterTimeout_evolves (h : Evolves s₀ s) (e : execRequesterTimeout who line s = .next t) :
    Evolves s₀ t := by
  refine next_evolves (.ite h ?_) e
  split
  · exact lostEvent_evolves (pairTimeout_evolves h)
  · exact lostEvent_evolves h

theorem execFlit_evolves (h : Evolves s₀ s) (e : execFlit link flit s = .next t) : Evolves s₀ t := by
  grind [execFlit, taken_evolves, emit_evolves, takeFlit_evolves]

theorem execNak_evolves (h : Evolves s₀ s) (e : execNak link seq s = .next t) : Evolves s₀ t := by
  grind [execNak, bump_evolves, emit_evolves, updLink_evolves]

theorem execLinkRetrain_evolves (h : Evolves s₀ s) (e : execLinkRetrain link lostLock s = .next t) : Evolves s₀ t := by
  grind [execLinkRetrain, updLink_evolves, retrainEvent_evolves]

theorem execLinkRetrainComplete_evolves (h : Evolves s₀ s) (e : execLinkRetrainComplete link ok x8 tookUs s = .next
    t) : Evolves s₀ t := by
  grind [execLinkRetrainComplete, emit_evolves, updLink_evolves, retrainEvent_evolves, failLink_evolves]

theorem execLinkFailed_evolves (h : Evolves s₀ s) (e : execLinkFailed link s = .next t) : Evolves s₀ t := by
  grind [execLinkFailed, failLink_evolves]

theorem execDepartureAnnouncement_evolves (h : Evolves s₀ s) (e : execDepartureAnnouncement pkg s = .next t) :
    Evolves s₀ t := by
  grind [execDepartureAnnouncement, warmBegin_evolves, fencePkg_evolves]

theorem execCheckstop_evolves (h : Evolves s₀ s) (e : execCheckstop source code s = .next t) : Evolves s₀ t := by
  refine next_evolves ?_ e
  split
  · exact otherCheckstops_evolves h
  · exact .ite (raise_evolves h) h

theorem execTransitTick_evolves (h : Evolves s₀ s) (e : execTransitTick inp s = .next t) : Evolves s₀ t := by
  refine next_evolves (.ite h ?_) e
  extract_lets s₁ s₂ s₃ s₄ s₅ s₆ s₇ s₈ s₉ s₁₀
  have h₁ : Evolves s₀ s₁ := tickCounters_evolves h
  have h₂ : Evolves s₀ s₂ := .ite (foldl_evolves (fun _ _ h => meterCycles_evolves h) h₁) h₁
  have h₃ : Evolves s₀ s₃ := tickEcho_evolves (tickTime_evolves h₂)
  have h₄ : Evolves s₀ s₄ := meterSnap_evolves h₃
  have h₅ : Evolves s₀ s₅ := .ite (foldl_evolves (fun _ _ h => meterRecord_evolves h) h₄) h₄
  have h₆ : Evolves s₀ s₆ := tickStrike_evolves (tickBudget_evolves h₅)
  have h₇ : Evolves s₀ s₇ := meterGranules_evolves (meterTicks_evolves h₆)
  have h₈ : Evolves s₀ s₈ := tickPaths_evolves (tickJournal_evolves (portsGoOn_evolves (tickRefill_evolves h₇)))
  have h₉ : Evolves s₀ s₉ := tickMeasure_evolves (tickAttention_evolves h₈)
  have h₁₀ : Evolves s₀ s₁₀ := .ite h₉ (foldl_evolves (fun _ _ h => almTick_evolves h) h₉)
  exact tickClean_evolves (tickImbalance_evolves h₁₀)

end Sys2Proof.Machine

namespace Sys2Proof.Machine
-- Proofs one after the other: side by side they take more memory than the check allows.
set_option Elab.async false
variable {lp : Fin 48} {s₀ s t u : State}

/-! ### The dispatch of a command, and a step -/

theorem pure_keeps {x : α} (h : Evolves s₀ s) : Leaves (Evolves s₀) (pure x) s := h

/-- The repeated instruction of REP.I and REP.N keeps the state evolving, whatever it is. -/
theorem repBody_keeps {i : Instr} {r : Rep} (h : Evolves s₀ s) :
    Leaves (Evolves s₀) ((repBody lp i).run r) s := by
  cases i with
  | and | or | xor | andn | orn | xnor | sll | srl | sra | rol | cmpeq | cmpne | cmplt | cmpltu | cmple | cmpleu |
  add | sub | mul =>
    dsimp only [repBody]
    exact binary_keeps h
  | clz | ctz | popc | extb | exth | extw =>
    dsimp only [repBody]
    exact unary_keeps h
  | sel =>
    dsimp only [repBody]
    exact selBody_keeps h
  | addc | subc | divs | divu =>
    dsimp only [repBody]
    exact twoResults_keeps h
  | dadj =>
    dsimp only [repBody]
    exact dadjBody_keeps h
  | mulwu | mulws =>
    dsimp only [repBody]
    exact wideProduct_keeps h
  | mulq =>
    dsimp only [repBody]
    exact mulqBody_keeps h
  | lbu | lbs | lhu | lhs | lwu | lws | ld | lfs | lfd =>
    dsimp only [repBody]
    exact load_keeps h
  | ldup =>
    dsimp only [repBody]
    exact ldupBody_keeps h
  | stb | sth | stw | std | stfs | stfd =>
    dsimp only [repBody]
    exact store_keeps h
  | stdup =>
    dsimp only [repBody]
    exact stdupBody_keeps h
  | lfq =>
    dsimp only [repBody]
    exact lfqBody_keeps h
  | stfq =>
    dsimp only [repBody]
    exact stfqBody_keeps h
  | ldua =>
    dsimp only [repBody]
    exact lduaBody_keeps h
  | stua =>
    dsimp only [repBody]
    exact stuaBody_keeps h
  | addi | addis | andi | ori | xori | cmpeqi | cmplti | cmpltui =>
    dsimp only [repBody]
    exact immediate_keeps h
  | shi =>
    dsimp only [repBody]
    exact shiBody_keeps h
  | rdtod =>
    dsimp only [repBody]
    exact rdtodBody_keeps h
  | rdtick =>
    dsimp only [repBody]
    exact rdtickBody_keeps h
  | faddD | faddQ | fsubD | fsubQ | fmulD | fmulQ | fdivD | fdivQ | fsqrtD | fsqrtQ | fmaD | fmaQ | fmsD | fmsQ =>
    dsimp only [repBody]
    exact fpOp_keeps h
  | fcmpeq | fcmplt | fcmple | fcmpun =>
    dsimp only [repBody]
    exact fpCmp_keeps h
  | fcvti | fcvtu =>
    dsimp only [repBody]
    exact fpToReg_keeps h
  | fmin | fmax =>
    dsimp only [repBody]
    exact fpPick_keeps h
  | fcvtf | fcvtfu =>
    dsimp only [repBody]
    exact fpFromReg_keeps h
  | ffrpd =>
    dsimp only [repBody]
    exact ffrpdBody_keeps h
  | ftopd =>
    dsimp only [repBody]
    exact ftopdBody_keeps h
  | fmvgh =>
    dsimp only [repBody]
    exact fmvghBody_keeps h
  | fmvgl =>
    dsimp only [repBody]
    exact fmvglBody_keeps h
  | mffpc =>
    dsimp only [repBody]
    exact mffpcBody_keeps h
  | fmvf =>
    dsimp only [repBody]
    exact fmvfBody_keeps h
  | fneg =>
    dsimp only [repBody]
    exact fnegBody_keeps h
  | fabs =>
    dsimp only [repBody]
    exact fabsBody_keeps h
  | fcpysgn =>
    dsimp only [repBody]
    exact fcpysgnBody_keeps h
  | fmov =>
    dsimp only [repBody]
    exact fmovBody_keeps h
  | mtfpc =>
    dsimp only [repBody]
    exact mtfpcBody_keeps h
  | fcvt =>
    dsimp only [repBody]
    exact fcvtBody_keeps h
  | ldrsv =>
    dsimp only [repBody]
    exact ldrsvBody_keeps h
  | stcnd =>
    dsimp only [repBody]
    exact stcndBody_keeps h
  | cswp =>
    dsimp only [repBody]
    exact cswpBody_keeps h
  | fadd =>
    dsimp only [repBody]
    exact faddBody_keeps h
  | _ => exact pure_keeps h

theorem execUnassignedOpcode_evolves {word : BitVec 32} (h : Evolves s₀ s)
    (e : execUnassignedOpcode lp word s = .next t) : Evolves s₀ t := by
  unfold execUnassignedOpcode at e
  split at e
  · exact next_evolves h e
  · exact runInstr_evolves operationExc_keeps h e

/-- Whatever a command is, the state it leaves evolves from the one it found. -/
theorem exec_evolves {i : Instr} (h : Evolves s₀ s) (e : exec i s = .next t) : Evolves s₀ t := by
  cases i with
  | transitTick => exact execTransitTick_evolves h e
  | dieRealignmentComplete => exact execDieRealignmentComplete_evolves h e
  | laneRemap => exact execLaneRemap_evolves h e
  | imbalanceEvent => exact execImbalanceEvent_evolves h e
  | ppsEdge => exact execPpsEdge_evolves h e
  | ppsQualificationLoss => exact execPpsQualificationLoss_evolves h e
  | reacquireTimeout => exact execReacquireTimeout_evolves h e
  | timeCodeMessage => exact execTimeCodeMessage_evolves h e
  | timeCodeOutput => exact execTimeCodeOutput_evolves h e
  | timeTransferMessage => exact execTimeTransferMessage_evolves h e
  | keeperDieLoss => exact execKeeperDieLoss_evolves h e
  | oscillatorInputLost => exact execOscillatorInputLost_evolves h e
  | oscillatorInputRestored => exact execOscillatorInputRestored_evolves h e
  | almanacRecordWritten => exact execAlmanacRecordWritten_evolves h e
  | registerWrite => exact execRegisterWrite_evolves h e
  | draftWrite => exact execDraftWrite_evolves h e
  | errClear => exact execErrClear_evolves h e
  | penTake => exact execPenTake_evolves h e
  | penRelease => exact execPenRelease_evolves h e
  | penBreak => exact execPenBreak_evolves h e
  | penRenew => exact execPenRenew_evolves h e
  | leaseExpiry => exact execLeaseExpiry_evolves h e
  | proofStart => exact execProofStart_evolves h e
  | proofComplete => exact execProofComplete_evolves h e
  | strikeAtTick => exact execStrikeAtTick_evolves h e
  | strikeAtE => exact execStrikeAtE_evolves h e
  | strikeCancel => exact execStrikeCancel_evolves h e
  | armAcknowledgement => exact execArmAcknowledgement_evolves h e
  | quiesceEntry => exact execQuiesceEntry_evolves h e
  | unitQuiesced => exact execUnitQuiesced_evolves h e
  | strikeAckDeadline => exact execStrikeAckDeadline_evolves h e
  | strikeCommit => exact execStrikeCommit_evolves h e
  | quiesceExit => exact execQuiesceExit_evolves h e
  | sidebandPointerWrite => exact execSidebandPointerWrite_evolves h e
  | sidebandRead => exact execSidebandRead_evolves h e
  | add | sub | and | or | xor | andn | orn | xnor | sll | srl | sra | rol | cmpeq | cmpne | cmplt | cmpltu | cmple |
  cmpleu | mul => exact runInstr_evolves binary_keeps h e
  | addc | subc | divs | divu => exact runInstr_evolves twoResults_keeps h e
  | clz | ctz | popc | extb | exth | extw => exact runInstr_evolves unary_keeps h e
  | sel => exact runInstr_evolves selBody_keeps h e
  | dadj => exact runInstr_evolves dadjBody_keeps h e
  | mulwu | mulws => exact runInstr_evolves wideProduct_keeps h e
  | mulq => exact runInstr_evolves mulqBody_keeps h e
  | jr => exact runInstr_evolves jrBody_keeps h e
  | lbu | lbs | lhu | lhs | lwu | lws | ld | lfs | lfd => exact runInstr_evolves load_keeps h e
  | ldup => exact runInstr_evolves ldupBody_keeps h e
  | stb | sth | stw | std | stfs | stfd => exact runInstr_evolves store_keeps h e
  | stdup => exact runInstr_evolves stdupBody_keeps h e
  | lfq => exact runInstr_evolves lfqBody_keeps h e
  | stfq => exact runInstr_evolves stfqBody_keeps h e
  | ldua => exact runInstr_evolves lduaBody_keeps h e
  | stua => exact runInstr_evolves stuaBody_keeps h e
  | addi | addis | andi | ori | xori | cmpeqi | cmplti | cmpltui => exact runInstr_evolves immediate_keeps h e
  | shi => exact runInstr_evolves shiBody_keeps h e
  | bz | bnz => exact runInstr_evolves branchIf_keeps h e
  | bal => exact runInstr_evolves balBody_keeps h e
  | fenceL | fenceS | fenceA => exact runInstr_evolves fenceBody_keeps h e
  | rdtod => exact runInstr_evolves rdtodBody_keeps h e
  | rdtick => exact runInstr_evolves rdtickBody_keeps h e
  | mfc => exact runInstr_evolves mfcBody_keeps h e
  | mtc => exact runInstr_evolves mtcBody_keeps h e
  | rfe => exact runInstr_evolves rfeBody_keeps h e
  | mcall => exact runInstr_evolves mcallBody_keeps h e
  | svc => exact runInstr_evolves svcBody_keeps h e
  | repI => exact runInstr_evolves (repIBody_keeps repBody_keeps) h e
  | repN => exact runInstr_evolves (repNBody_keeps repBody_keeps) h e
  | smov | sxor => exact runInstr_evolves stringStore_keeps h e
  | scmp => exact runInstr_evolves scmpBody_keeps h e
  | dadd | dsub | dmul => exact runInstr_evolves decArith_keeps h e
  | ddiv => exact runInstr_evolves ddivBody_keeps h e
  | dcmp => exact runInstr_evolves dcmpBody_keeps h e
  | dshr => exact runInstr_evolves dshrBody_keeps h e
  | dcopy | dztp | dptz => exact runInstr_evolves decCopy_keeps h e
  | dtob => exact runInstr_evolves dtobBody_keeps h e
  | dfrb => exact runInstr_evolves dfrbBody_keeps h e
  | faddD | faddQ | fsubD | fsubQ | fmulD | fmulQ | fdivD | fdivQ | fsqrtD | fsqrtQ | fmaD | fmaQ | fmsD | fmsQ =>
    exact runInstr_evolves fpOp_keeps h e
  | fcmpeq | fcmplt | fcmple | fcmpun => exact runInstr_evolves fpCmp_keeps h e
  | fmin | fmax => exact runInstr_evolves fpPick_keeps h e
  | fmvf => exact runInstr_evolves fmvfBody_keeps h e
  | fmvgh => exact runInstr_evolves fmvghBody_keeps h e
  | fmvgl => exact runInstr_evolves fmvglBody_keeps h e
  | fneg => exact runInstr_evolves fnegBody_keeps h e
  | fabs => exact runInstr_evolves fabsBody_keeps h e
  | fcpysgn => exact runInstr_evolves fcpysgnBody_keeps h e
  | fmov => exact runInstr_evolves fmovBody_keeps h e
  | fcvt => exact runInstr_evolves fcvtBody_keeps h e
  | fcvti | fcvtu => exact runInstr_evolves fpToReg_keeps h e
  | fcvtf | fcvtfu => exact runInstr_evolves fpFromReg_keeps h e
  | ftopd => exact runInstr_evolves ftopdBody_keeps h e
  | ffrpd => exact runInstr_evolves ffrpdBody_keeps h e
  | mffpc => exact runInstr_evolves mffpcBody_keeps h e
  | mtfpc => exact runInstr_evolves mtfpcBody_keeps h e
  | ldrsv => exact runInstr_evolves ldrsvBody_keeps h e
  | stcnd => exact runInstr_evolves stcndBody_keeps h e
  | cswp => exact runInstr_evolves cswpBody_keeps h e
  | fadd => exact runInstr_evolves faddBody_keeps h e
  | ccln | cinv | ccli => exact runInstr_evolves maintBody_keeps h e
  | crange => exact runInstr_evolves crangeBody_keeps h e
  | crstat => exact runInstr_evolves crstatBody_keeps h e
  | tlbiVa => exact runInstr_evolves tlbiVaBody_keeps h e
  | tlbiAsid => exact runInstr_evolves tlbiAsidBody_keeps h e
  | tlbiPart => exact runInstr_evolves tlbiPartBody_keeps h e
  | iostart => exact runInstr_evolves iostartBody_keeps h e
  | iohalt => exact runInstr_evolves iohaltBody_keeps h e
  | ioclear => exact runInstr_evolves ioclearBody_keeps h e
  | iotest => exact runInstr_evolves iotestBody_keeps h e
  | iostore => exact runInstr_evolves iostoreBody_keeps h e
  | iomodify => exact runInstr_evolves iomodifyBody_keeps h e
  | accessedDirtyUpdate => exact execAccessedDirtyUpdate_evolves h e
  | checkpointClose => exact execCheckpointClose_evolves h e
  | intervalLimit => exact execIntervalLimit_evolves h e
  | releasedEntryDrain => exact execReleasedEntryDrain_evolves h e
  | deviceStore => exact execDeviceStore_evolves h e
  | deviceLoad => exact execDeviceLoad_evolves h e
  | creditTimeout => exact execCreditTimeout_evolves h e
  | deviceLoadTimeout => exact execDeviceLoadTimeout_evolves h e
  | containmentComplete => exact execContainmentComplete_evolves h e
  | postedWrite => exact execPostedWrite_evolves h e
  | dmaRequest => exact execDmaRequest_evolves h e
  | msixMessage => exact execMsixMessage_evolves h e
  | prefetch => exact execPrefetch_evolves h e
  | l2Eviction => exact execL2Eviction_evolves h e
  | burinSet => exact execBurinSet_evolves h e
  | burinComplete => exact execBurinComplete_evolves h e
  | rds => exact execRds_evolves h e
  | rdo => exact execRdo_evolves h e
  | upg => exact execUpg_evolves h e
  | rdna => exact execRdna_evolves h e
  | wrl => exact execWrl_evolves h e
  | wrp => exact execWrp_evolves h e
  | evc => exact execEvc_evolves h e
  | wbm => exact execWbm_evolves h e
  | snps => exact execSnps_evolves h e
  | snpo => exact execSnpo_evolves h e
  | snpna => exact execSnpna_evolves h e
  | crossed => exact execCrossed_evolves h e
  | ack => exact execAck_evolves h e
  | retry => exact execRetry_evolves h e
  | retryReissue => exact execRetryReissue_evolves h e
  | ticketPassOver => exact execTicketPassOver_evolves h e
  | compack => exact execCompack_evolves h e
  | mrd => exact execMrd_evolves h e
  | mgo => exact execMgo_evolves h e
  | mdrop => exact execMdrop_evolves h e
  | mwr => exact execMwr_evolves h e
  | dataFill => exact execDataFill_evolves h e
  | directoryProbe => exact execDirectoryProbe_evolves h e
  | transactionHold => exact execTransactionHold_evolves h e
  | snoopTimeout => exact execSnoopTimeout_evolves h e
  | requesterTimeout => exact execRequesterTimeout_evolves h e
  | flit => exact execFlit_evolves h e
  | nak => exact execNak_evolves h e
  | linkRetrain => exact execLinkRetrain_evolves h e
  | linkRetrainComplete => exact execLinkRetrainComplete_evolves h e
  | linkFailed => exact execLinkFailed_evolves h e
  | departureAnnouncement => exact execDepartureAnnouncement_evolves h e
  | mismatch => exact execMismatch_evolves h e
  | retryRestart => exact execRetryRestart_evolves h e
  | domainPowerUpComplete => exact execDomainPowerUpComplete_evolves h e
  | sparingWritebackComplete => exact execSparingWritebackComplete_evolves h e
  | checkpointCopyComplete => exact execCheckpointCopyComplete_evolves h e
  | sparingResume => exact execSparingResume_evolves h e
  | rotationPeriodExpiry => exact execRotationPeriodExpiry_evolves h e
  | beginRotation => exact execBeginRotation_evolves h e
  | preCleaningEnd => exact execPreCleaningEnd_evolves h e
  | rotationSwitch => exact execRotationSwitch_evolves h e
  | rotationResume => exact execRotationResume_evolves h e
  | rotationRetry => exact execRotationRetry_evolves h e
  | debugHalt => exact execDebugHalt_evolves h e
  | haltDone => exact execHaltDone_evolves h e
  | debugStep => exact execDebugStep_evolves h e
  | debugResume => exact execDebugResume_evolves h e
  | checkpointWindowWrite => exact execCheckpointWindowWrite_evolves h e
  | taken => exact execTaken_evolves h e
  | interruptOfferExpiry => exact execInterruptOfferExpiry_evolves h e
  | ioInterruption => exact execIoInterruption_evolves h e
  | tickCompare => exact execTickCompare_evolves h e
  | signal => exact execSignal_evolves h e
  | partitionChanged => exact execPartitionChanged_evolves h e
  | machineCheck => exact execMachineCheck_evolves h e
  | signalStore => exact execSignalStore_evolves h e
  | commandWordFetch => exact execCommandWordFetch_evolves h e
  | finalStatus => exact execFinalStatus_evolves h e
  | nopathWaitExpiry => exact execNopathWaitExpiry_evolves h e
  | ackFrame => exact execAckFrame_evolves h e
  | statusFrame => exact execStatusFrame_evolves h e
  | heartbeat => exact execHeartbeat_evolves h e
  | resync => exact execResync_evolves h e
  | inboundFrameDiscard => exact execInboundFrameDiscard_evolves h e
  | adapterDma => exact execAdapterDma_evolves h e
  | pathFailed => exact execPathFailed_evolves h e
  | cpStop => exact execCpStop_evolves h e
  | cpTakeoverComplete => exact execCpTakeoverComplete_evolves h e
  | jqTail => exact execJqTail_evolves h e
  | jqCtl => exact execJqCtl_evolves h e
  | descriptorDispatch => exact execDescriptorDispatch_evolves h e
  | deflateCompress => exact execDeflateCompress_evolves h e
  | deflateDecompress => exact execDeflateDecompress_evolves h e
  | zstandardCompress => exact execZstandardCompress_evolves h e
  | zstandardDecompress => exact execZstandardDecompress_evolves h e
  | aesGcmEncrypt => exact execAesGcmEncrypt_evolves h e
  | aesGcmDecrypt => exact execAesGcmDecrypt_evolves h e
  | aesXtsEncrypt => exact execAesXtsEncrypt_evolves h e
  | aesXtsDecrypt => exact execAesXtsDecrypt_evolves h e
  | aesCtr => exact execAesCtr_evolves h e
  | hash => exact execHash_evolves h e
  | hmac => exact execHmac_evolves h e
  | ed25519Sign => exact execEd25519Sign_evolves h e
  | ed25519Verify => exact execEd25519Verify_evolves h e
  | ecdsaSign => exact execEcdsaSign_evolves h e
  | ecdsaVerify => exact execEcdsaVerify_evolves h e
  | mlDsaSign => exact execMlDsaSign_evolves h e
  | mlDsaVerify => exact execMlDsaVerify_evolves h e
  | mlKemEncapsulate => exact execMlKemEncapsulate_evolves h e
  | mlKemDecapsulate => exact execMlKemDecapsulate_evolves h e
  | randomBytes => exact execRandomBytes_evolves h e
  | compressThenEncrypt => exact execCompressThenEncrypt_evolves h e
  | decryptThenDecompress => exact execDecryptThenDecompress_evolves h e
  | importKey => exact execImportKey_evolves h e
  | unwrap => exact execUnwrap_evolves h e
  | wrap => exact execWrap_evolves h e
  | generate => exact execGenerate_evolves h e
  | publicKey => exact execPublicKey_evolves h e
  | erase => exact execErase_evolves h e
  | jobComplete => exact execJobComplete_evolves h e
  | engineError => exact execEngineError_evolves h e
  | drbgReseed => exact execDrbgReseed_evolves h e
  | entropyHealthFail => exact execEntropyHealthFail_evolves h e
  | drbgRecovery => exact execDrbgRecovery_evolves h e
  | keySlotError => exact execKeySlotError_evolves h e
  | release => exact execRelease_evolves h e
  | reclaim => exact execReclaim_evolves h e
  | partitionReset => exact execPartitionReset_evolves h e
  | start => exact execStart_evolves h e
  | refreshDue => exact execRefreshDue_evolves h e
  | rowCloseTimeout => exact execRowCloseTimeout_evolves h e
  | dimmTemperatureRead => exact execDimmTemperatureRead_evolves h e
  | sweepRead => exact execSweepRead_evolves h e
  | caParityAlert => exact execCaParityAlert_evolves h e
  | calibrationCheck => exact execCalibrationCheck_evolves h e
  | machineCheckRingWrite => exact execMachineCheckRingWrite_evolves h e
  | evqReadPointerWrite => exact execEvqReadPointerWrite_evolves h e
  | servicePortLinkUp => exact execServicePortLinkUp_evolves h e
  | dieLoss => exact execDieLoss_evolves h e
  | checkstop => exact execCheckstop_evolves h e
  | imgData => exact execImgData_evolves h e
  | startVerification => exact execStartVerification_evolves h e
  | verificationComplete => exact execVerificationComplete_evolves h e
  | advance => exact execAdvance_evolves h e
  | revokeKeyPair => exact execRevokeKeyPair_evolves h e
  | controlStoreError => exact execControlStoreError_evolves h e
  | updateRotation => exact execUpdateRotation_evolves h e
  | cpUpdateHandover => exact execCpUpdateHandover_evolves h e
  | updateNoProgress => exact execUpdateNoProgress_evolves h e
  | powerOn => exact execPowerOn_evolves h e
  | proceed => exact execProceed_evolves h e
  | serviceStop => exact execServiceStop_evolves h e
  | resume => exact execResume_evolves h e
  | hold => exact execHold_evolves h e
  | warmReset => exact execWarmReset_evolves h e
  | coldReset => exact execColdReset_evolves h e
  | ipl => exact execIpl_evolves h e
  | pkgResetN => exact execPkgResetN_evolves h e
  | warmResetN => exact execWarmResetN_evolves h e
  | vsbApplied => exact execVsbApplied_evolves h e
  | vsbLost => exact execVsbLost_evolves h e
  | initialisationPhaseComplete => exact execInitialisationPhaseComplete_evolves h e
  | couplingExchange => exact execCouplingExchange_evolves h e
  | couplingTimeout => exact execCouplingTimeout_evolves h e
  | loadComplete => exact execLoadComplete_evolves h e
  | warmResetWritebackComplete => exact execWarmResetWritebackComplete_evolves h e
  | holdFlushAnnouncement => exact execHoldFlushAnnouncement_evolves h e
  | holdAnnouncementTimeout => exact execHoldAnnouncementTimeout_evolves h e
  | feedOutOfRange => exact execFeedOutOfRange_evolves h e
  | feedInRange => exact execFeedInRange_evolves h e
  | feedStatusChange => exact execFeedStatusChange_evolves h e
  | feedRepaired => exact execFeedRepaired_evolves h e
  | chatterEnd => exact execChatterEnd_evolves h e
  | swap => exact execSwap_evolves h e
  | clearTrip => exact execClearTrip_evolves h e
  | bothFeedsLost => exact execBothFeedsLost_evolves h e
  | thermalTrip => exact execThermalTrip_evolves h e
  | agingCheck => exact execAgingCheck_evolves h e
  | bypass => exact execBypass_evolves h e
  | idcode => exact execIdcode_evolves h e
  | samplePreload => exact execSamplePreload_evolves h e
  | extest => exact execExtest_evolves h e
  | extestPulse => exact execExtestPulse_evolves h e
  | extestTrain => exact execExtestTrain_evolves h e
  | clamp => exact execClamp_evolves h e
  | highz => exact execHighz_evolves h e
  | keeperCopyOutvoted => exact execKeeperCopyOutvoted_evolves h e
  | arraySweepRead => exact execArraySweepRead_evolves h e
  | unassignedOpcode => exact execUnassignedOpcode_evolves h e
  | deviceLoadCompletion => exact execDeviceLoadCompletion_evolves h e
  | postedCreditReturn => exact execPostedCreditReturn_evolves h e
  | containmentRelease => exact execContainmentRelease_evolves h e
  | pcieLinkDown => exact execPcieLinkDown_evolves h e
  | pcieLinkUp => exact execPcieLinkUp_evolves h e
  | servicePortLinkDown => exact execServicePortLinkDown_evolves h e
  | servicePortRead => exact execServicePortRead_evolves h e
  | cancelTimeout => exact execCancelTimeout_evolves h e
  | reservationHoldExpiry => exact execReservationHoldExpiry_evolves h e
  | presentationEdge => exact execPresentationEdge_evolves h e
  | journalEntryError => exact execJournalEntryError_evolves h e
  | imageSlotError => exact execImageSlotError_evolves h e
  | warmResetNRelease => exact execWarmResetNRelease_evolves h e
  | pkgResetNRelease => exact execPkgResetNRelease_evolves h e
  | jqBase => exact execJqBase_evolves h e

/-- A step evolves: with a command waiting it is the command's effect on the queue's rest, and with none a cycle of the
sequencers. -/
theorem step_evolves (e : step s = .next t) : Evolves s t := by
  unfold step at e
  split at e
  · exact next_evolves (cycleAll_evolves (.refl s)) e
  next c rest _ =>
    have h : Evolves s { s with pending := rest } := (Evolves.refl s).same rfl rfl
    exact exec_evolves h e

/-- Settles O59: what no step undoes holds of memory's form in particular. -/
theorem memoryKeepsItsForm : Obligations.MemoryKeepsItsForm := fun _ _ hm e => (step_evolves e).mem hm

/-- Settles O60: the fuses are part of what no step undoes; the two commands that change them only raise them. -/
theorem fusesOnlyRise : Obligations.FusesOnlyRise := fun _ _ e =>
  have h := step_evolves e
  ⟨h.part, h.svn, h.revoked⟩

end Sys2Proof.Machine

/-! Statements about the gate of a processor: the end of an instruction (O57) and the forwarding of stores (O58). -/

namespace Sys2Proof.Machine
-- Proofs one after the other: side by side they take more memory than the check allows.
set_option Elab.async false

/-! ### Bytes of the gate -/

/-- The byte an entry holds at an address. -/
def GateEntry.byteAt (e : GateEntry) (a : Nat) : Option Byte := if e.blk = a / 64 then Tab.look e.bytes a else none

theorem gateByte_foldl (l : List GateEntry) (a : Nat) (r : Option Byte) :
    l.foldl (fun r e => if e.blk = a / 64 then (Tab.look e.bytes a).orElse (fun _ => r) else r) r =
      (gateByte l a).orElse fun _ => r := by
  unfold gateByte
  induction l generalizing r with
  | nil => simp
  | cons e l ih =>
    rw [List.foldl_cons, List.foldl_cons, ih, ih (ite ..)]
    split <;> simp [Option.or_assoc]

@[simp] theorem gateByte_nil (a : Nat) : gateByte [] a = none := rfl

theorem gateByte_cons (e : GateEntry) (l : List GateEntry) (a : Nat) :
    gateByte (e :: l) a = (gateByte l a).orElse fun _ => e.byteAt a := by
  rw [gateByte, List.foldl_cons, gateByte_foldl]
  simp [GateEntry.byteAt]

theorem gateByte_append (l m : List GateEntry) (a : Nat) :
    gateByte (l ++ m) a = (gateByte m a).orElse fun _ => gateByte l a := by
  rw [gateByte, List.foldl_append, gateByte_foldl]
  rfl

/-- What a gated entry holds does not depend on its group. -/
theorem gateByte_released (l : List GateEntry) (g a : Nat) :
    gateByte (l.map fun e => { e with grp := g }) a = gateByte l a := by
  induction l with
  | nil => rfl
  | cons e l ih => rw [List.map_cons, gateByte_cons, gateByte_cons, ih]; rfl

/-! ### The end of an instruction -/

/-- What the end of an instruction keeps of the state: everything but the gate of its processor, the count of free
values and the marks of its pair that are no copy of a line. -/
structure EndKeeps (lp : Fin 48) (s t : State) : Prop where
  mem : t.mem = s.mem
  scrambled : t.scrambled = s.scrambled
  dirty : t.dirty = s.dirty
  regs : t.regs = s.regs
  time : t.time = s.time
  out : t.out = s.out
  fuses : t.fuses = s.fuses
  mode : t.mode = s.mode
  dir : t.dir = s.dir
  fenced : t.fenced = s.fenced
  l3 : t.l3 = s.l3
  l2 : ∀ p, (pairAt t p).l2 = (pairAt s p).l2
  lps : ∀ q, q ≠ lp → lpAt t q = lpAt s q
  arch : archOf t lp = archOf s lp
  owning : (lpAt t lp).owning = (lpAt s lp).owning
  entries : ((lpAt t lp).released ++ (lpAt t lp).gated).map (fun e => (e.ty, e.blk, e.bytes, e.ctx)) =
    ((lpAt s lp).released ++ (lpAt s lp).gated).map fun e => (e.ty, e.blk, e.bytes, e.ctx)
  gate : ∀ a, gateByte ((lpAt t lp).released ++ (lpAt t lp).gated) a =
    gateByte ((lpAt s lp).released ++ (lpAt s lp).gated) a

namespace EndKeeps

variable {lp : Fin 48} {s t u : State}

theorem trans (h : EndKeeps lp s t) (k : EndKeeps lp t u) : EndKeeps lp s u where
  mem := k.mem.trans h.mem
  scrambled := k.scrambled.trans h.scrambled
  dirty := k.dirty.trans h.dirty
  regs := k.regs.trans h.regs
  time := k.time.trans h.time
  out := k.out.trans h.out
  fuses := k.fuses.trans h.fuses
  mode := k.mode.trans h.mode
  dir := k.dir.trans h.dir
  fenced := k.fenced.trans h.fenced
  l3 := k.l3.trans h.l3
  l2 p := (k.l2 p).trans (h.l2 p)
  lps q hq := (k.lps q hq).trans (h.lps q hq)
  arch := k.arch.trans h.arch
  owning := k.owning.trans h.owning
  entries := k.entries.trans h.entries
  gate a := (k.gate a).trans (h.gate a)

theorem refl (lp : Fin 48) (s : State) : EndKeeps lp s s := by constructor <;> intros <;> rfl

/-- A processor whose entries stay in their order, gated or released. -/
theorem updLp {f : Lp → Lp} (ha : ∀ x, (f x).arch = x.arch) (ho : ∀ x, (f x).owning = x.owning)
    (he : ∀ x, ((f x).released ++ (f x).gated).map (fun e => (e.ty, e.blk, e.bytes, e.ctx)) =
      (x.released ++ x.gated).map fun e => (e.ty, e.blk, e.bytes, e.ctx))
    (hg : ∀ x a, gateByte ((f x).released ++ (f x).gated) a = gateByte (x.released ++ x.gated) a) :
    EndKeeps lp s (updLp s lp f) := by
  constructor <;> intros <;> simp_all [archOf, lpAt_updLp_ne, pairAt]

/-- A pair whose L2 stays. -/
theorem updPair (p : Fin 48) {f : Pair → Pair} (hf : ∀ x, (f x).l2 = x.l2) : EndKeeps lp s (updPair s p f) := by
  constructor
  case l2 =>
    intro q
    by_cases hq : p = q
    · subst hq; simp [Machine.updPair, setPair, pairAt, hf]
    · simp [Machine.updPair, setPair, pairAt, Fin.val_ne_of_ne hq]
  all_goals intros; rfl

end EndKeeps

section
variable {lp : Fin 48} {s t : State}

theorem closeInterval_keeps (s : State) (lp : Fin 48) : EndKeeps lp s (closeInterval s lp) := by
  have hl : EndKeeps lp s (updLp s lp closeLp) := by
    refine .updLp (fun _ => rfl) (fun _ => rfl) (fun x => ?_) (fun x a => ?_)
    · simp [closeLp, Function.comp_def]
    · simp [closeLp, gateByte_append, gateByte_released]
  unfold closeInterval markClean
  split
  · exact hl.trans (.updPair _ fun _ => rfl)
  · exact hl

theorem closeDue_keeps (s : State) (lp : Fin 48) : EndKeeps lp s (closeDue s lp) := by
  unfold closeDue
  split
  · exact closeInterval_keeps s lp
  · exact .updLp (fun _ => rfl) (fun _ => rfl) (fun _ => rfl) (fun _ _ => rfl)

theorem freshen_keeps (s : State) (lp : Fin 48) : EndKeeps lp s (freshen s) := by
  unfold freshen
  split
  · exact .refl lp s
  · constructor <;> intros <;> rfl

theorem endStep_keeps (s : State) (lp : Fin 48) : EndKeeps lp s (endStep s lp) := by
  unfold endStep
  split
  · exact .updPair _ fun _ => rfl
  · exact .refl lp s

theorem finish_keeps {f : Form} (hf : f.perform = false) : EndKeeps lp s (finish s lp f) := by
  have hi : EndKeeps lp s (updLp s lp fun x => { x with icount := x.icount + 1 }) :=
    .updLp (fun _ => rfl) (fun _ => rfl) (fun _ => rfl) (fun _ _ => rfl)
  unfold finish
  extract_lets u v
  have hv : EndKeeps lp s v := by
    dsimp only [v]
    split
    · exact hi.trans (closeDue_keeps ..)
    · exact hi
  clear_value v
  rw [if_neg (by simp [hf])]
  exact (hv.trans (freshen_keeps ..)).trans (endStep_keeps ..)

end

/-- The byte of the gate that a processor's own stores give. -/
theorem own_eq_append (x : Lp) (a : Nat) :
    ((gateByte x.gated a).orElse fun _ => (gateByte x.released a).orElse fun _ => gateByte x.owning a) =
      (gateByte (x.released ++ x.gated) a).orElse fun _ => gateByte x.owning a := by
  simp [gateByte_append, Option.or_assoc]

namespace EndKeeps
variable {lp : Fin 48} {s t : State} (h : EndKeeps lp s t)
include h

theorem heldHere_eq (line : Nat) : heldHere t line = heldHere s line := by
  have hp : (t.pairs.any fun p => (Tab.look p.l2 line).isSome) = s.pairs.any fun p => (Tab.look p.l2 line).isSome := by
    rw [Bool.eq_iff_iff, Vector.any_eq_true, Vector.any_eq_true]
    have h2 (i : Nat) (hi : i < 48) : (t.pairs[i]).l2 = (s.pairs[i]).l2 := h.l2 ⟨i, hi⟩
    simp only [h2]
  simp only [heldHere, hp, h.l3]

theorem visible_eq (line : Nat) : visible t line = visible s line := by
  simp only [visible, farMay, homeHere, pkgId, dirMode, cellField, cellBit, cell, h.regs, h.dir, h.mode, h.fenced,
    h.heldHere_eq] <;> rfl

theorem curByte_eq (a : Nat) : curByte t a = curByte s a := by
  simp only [curByte, memByte, memMask, h.dirty, h.mem, h.scrambled]

end EndKeeps

/-- Settles O57: the parts of the end of an instruction each keep everything but the gate, and release its entries in
their order. -/
theorem endOfInstruction : Obligations.EndOfInstruction := by
  intro v lp q f a hf t entries own
  have h : EndKeeps lp v t := finish_keeps hf
  have hown : own (lpAt t lp) = own (lpAt v lp) := by
    simp only [own, own_eq_append, h.gate, h.owning]
  refine ⟨h.arch, h.mem, h.dirty, h.regs, h.time, h.out, h.fuses, h.lps q, h.entries, hown, fun hv => ?_⟩
  have hs : seenByte t a = seenByte v a := by simp only [seenByte, h.visible_eq, hv, if_true, h.curByte_eq]
  simp only [lpByte, hs]
  exact congrArg (fun o : Option Byte => o.getD (seenByte v a)) hown

/-! ### The forwarding of stores -/

theorem look_dirtyPut (d : Tab Byte) (a j : Nat) (bs : List Byte) :
    Tab.look (dirtyPut d a bs) j = if a ≤ j ∧ j < a + bs.length then bs[j - a]? else Tab.look d j := by
  induction bs generalizing d a with
  | nil => rw [dirtyPut, if_neg (by simp)]
  | cons b bs ih =>
    rw [dirtyPut, ih, look_put, List.length_cons]
    obtain h | rfl | h := Nat.lt_trichotomy j a
    · rw [if_neg (by omega), if_neg (by omega), if_neg (by omega)]
    · rw [if_neg (by omega), if_pos rfl, if_pos (by omega), Nat.sub_self, List.getElem?_cons_zero]
    · by_cases hj : j < a + 1 + bs.length
      · rw [if_pos (by omega), if_pos (by omega), show j - a = j - (a + 1) + 1 by omega, List.getElem?_cons_succ]
      · rw [if_neg (by omega), if_neg (by omega), if_neg (by omega)]

theorem gateByte_of_blk_ne {l : List GateEntry} {a : Nat} (h : a / 64 ∉ l.map (·.blk)) : gateByte l a = none := by
  induction l with
  | nil => rfl
  | cons e l ih =>
    rw [List.map_cons, List.mem_cons, not_or] at h
    simp [gateByte_cons, ih h.2, GateEntry.byteAt, Ne.symm h.1]

/-- A gated part that holds each block once, and the blocks up to `hi` from `lo` on as stores of Normal memory of one
context. -/
def GateReady (lo hi ctx : Nat) (l : List GateEntry) : Prop :=
  (l.map (·.blk)).Nodup ∧ ∀ e ∈ l, lo ≤ e.blk → e.blk ≤ hi → e.ty = .normal ∧ e.ctx = ctx

/-- The blocks a store adds to the gated part are its own. -/
theorem mem_gatePut {l : List GateEntry} {ty : MemType} {a ctx : Nat} {bs : List Byte} {e : GateEntry}
    (h : e ∈ gatePut l ty a bs ctx) :
    (e.blk = a / 64 ∧ e.ty = ty ∧ e.ctx = ctx) ∨ ∃ e' ∈ l, e'.blk = e.blk ∧ e'.ty = e.ty ∧ e'.ctx = e.ctx := by
  induction l with
  | nil => simp [gatePut] at h; simp [h]
  | cons e' l ih =>
    rw [gatePut] at h
    split at h
    · obtain rfl | h := List.mem_cons.1 h
      · exact .inr ⟨e', by simp⟩
      · exact .inr ⟨e, by simp [h]⟩
    · obtain rfl | h := List.mem_cons.1 h
      · exact .inr ⟨e, by simp⟩
      · obtain h | ⟨e2, h, h'⟩ := ih h
        · exact .inl h
        · exact .inr ⟨e2, by simp [h], h'⟩

theorem gateStore_nil (n : Nat) (l : List GateEntry) (ty : MemType) (a ctx : Nat) :
    gateStore n l ty a [] ctx = l := by cases n <;> rfl

namespace GateReady
variable {lo hi ctx a : Nat} {l : List GateEntry} {bs : List Byte}

theorem tail {e : GateEntry} (h : GateReady lo hi ctx (e :: l)) : GateReady lo hi ctx l :=
  ⟨(List.nodup_cons.1 h.1).2, fun x hx => h.2 x (List.mem_cons_of_mem _ hx)⟩

theorem takes_iff {e : GateEntry} (h : GateReady lo hi ctx (e :: l)) (h0 : lo ≤ a / 64) (h1 : a / 64 ≤ hi) :
    (e.takes .normal (a / 64) && decide (e.ctx = ctx)) = true ↔ e.blk = a / 64 := by
  have he := h.2 e List.mem_cons_self
  constructor
  · intro ht; simp [GateEntry.takes] at ht; exact ht.1.2
  · intro hb
    obtain ⟨ht, hc⟩ := he (by omega) (by omega)
    simp [GateEntry.takes, ht, hc, hb]

theorem gatePut (h : GateReady lo hi ctx l) (h0 : lo ≤ a / 64) (h1 : a / 64 ≤ hi) :
    GateReady lo hi ctx (gatePut l .normal a bs ctx) := by
  refine ⟨?_, fun e he => ?_⟩
  · induction l with
    | nil => simp [Machine.gatePut]
    | cons e l ih =>
      obtain ⟨hn, hd⟩ := List.nodup_cons.1 h.1
      rw [Machine.gatePut]
      split
      · simpa using h.1
      · rename_i ht
        rw [h.takes_iff h0 h1] at ht
        refine List.nodup_cons.2 ⟨fun hm => ?_, ih h.tail⟩
        obtain ⟨e', he', hb⟩ := List.mem_map.1 hm
        obtain ⟨hb', -⟩ | ⟨e2, he2, hb2, -⟩ := mem_gatePut he'
        · exact ht (hb.symm.trans hb')
        · exact hn (List.mem_map.2 ⟨e2, he2, hb2.trans hb⟩)
  · obtain ⟨-, ht, hc⟩ | ⟨e', he', hb, ht, hc⟩ := mem_gatePut he
    · exact fun _ _ => ⟨ht, hc⟩
    · intro g0 g1
      obtain ⟨k0, k1⟩ := h.2 e' he' (by omega) (by omega)
      exact ⟨ht ▸ k0, hc ▸ k1⟩

/-- A store within one block: its bytes are in the gate, and every other byte there is as before. -/
theorem byte_gatePut (h : GateReady lo hi ctx l) (h0 : lo ≤ a / 64) (h1 : a / 64 ≤ hi)
    (hb : a % 64 + bs.length ≤ 64) (x : Nat) :
    gateByte (Machine.gatePut l .normal a bs ctx) x =
      if a ≤ x ∧ x < a + bs.length then bs[x - a]? else gateByte l x := by
  have hx (hr : a ≤ x ∧ x < a + bs.length) : x / 64 = a / 64 := by clear h; omega
  induction l with
  | nil =>
    simp only [Machine.gatePut, gateByte_cons, GateEntry.byteAt, gateByte_nil, look_dirtyPut, Tab.look]
    by_cases hr : a ≤ x ∧ x < a + bs.length
    · simp [hr, hx hr]
    · simp [hr]
  | cons e l ih =>
    rw [Machine.gatePut]
    split <;> rename_i ht <;> rw [h.takes_iff h0 h1] at ht
    · have hn : a / 64 ∉ l.map (·.blk) := ht ▸ (List.nodup_cons.1 h.1).1
      rw [gateByte_cons, gateByte_cons]
      by_cases hxb : x / 64 = a / 64
      · simp [gateByte_of_blk_ne (l := l) (a := x) (by rwa [hxb]), GateEntry.byteAt, ht, hxb, look_dirtyPut]
      · rw [if_neg fun hr => hxb (hx hr)]
        simp [GateEntry.byteAt, ht, Ne.symm hxb]
    · rw [gateByte_cons, gateByte_cons, ih h.tail]
      split
      · rename_i hr
        have he : e.byteAt x = none := if_neg fun hb => ht (hb.trans (hx hr))
        simp [he]
      · rfl

/-- A store cut at its block boundaries. -/
theorem byte_gateStore {n : Nat} (h : GateReady lo hi ctx l) (h0 : lo ≤ a / 64) (h1 : (a + bs.length) / 64 ≤ hi)
    (hn : bs.length < n) (x : Nat) :
    gateByte (gateStore n l .normal a bs ctx) x =
      if a ≤ x ∧ x < a + bs.length then bs[x - a]? else gateByte l x := by
  induction n generalizing l a bs with
  | zero => omega
  | succ n ih =>
    rw [gateStore]
    split
    · rename_i he
      rw [if_neg (by rw [List.isEmpty_iff.1 he]; simp)]
    · rename_i he
      dsimp only
      have hl : 0 < bs.length := by rw [List.isEmpty_iff] at he; exact List.length_pos_iff.2 he
      have ha : a / 64 ≤ hi := by omega
      have ht : (bs.take (64 - a % 64)).length = min (64 - a % 64) bs.length := List.length_take
      have hd : (bs.drop (64 - a % 64)).length = bs.length - (64 - a % 64) := List.length_drop
      have hb : a % 64 + (bs.take (64 - a % 64)).length ≤ 64 := by omega
      by_cases hs : bs.length ≤ 64 - a % 64
      · rw [List.drop_of_length_le hs, gateStore_nil, h.byte_gatePut h0 ha hb, List.take_of_length_le hs]
      · rw [ih (h.gatePut h0 ha) (by omega) (by omega) (by omega), h.byte_gatePut h0 ha hb, ht, hd]
        by_cases h2 : a + (64 - a % 64) ≤ x ∧ x < a + bs.length
        · rw [if_pos (by omega), if_pos (by omega), List.getElem?_drop]
          congr 1; omega
        · rw [if_neg (by omega)]
          by_cases h3 : a ≤ x ∧ x < a + bs.length
          · rw [if_pos (by omega), if_pos h3, List.getElem?_take_of_lt (by omega)]
          · rw [if_neg (by omega), if_neg h3]

end GateReady

/-- A store that enters the gate changes the gated part and the reservation of its processor, and nothing else. -/
theorem storePieces_ok {v w : State} {lp : Fin 48} {l : List Piece} {bs : List Byte}
    (h : storePieces lp l bs v = .ok ⟨⟩ w) :
    ∃ f : Lp → Lp, w = updLp v lp f ∧
      (∀ x, (f x).gated = gatePieces l bs (lpCtx v lp) (lpAt v lp).gated) ∧
      ∀ x, (f x).released = x.released ∧ (f x).owning = x.owning ∧ (f x).arch = x.arch := by
  rw [storePieces, run_bind_ok (run_get v)] at h
  dsimp only at h
  split at h
  · rw [run_bind_error (run_throw ..)] at h; cases h
  · cases h; exact ⟨_, rfl, fun _ => rfl, fun _ => ⟨rfl, rfl, rfl⟩⟩

/-- Settles O58: the gate reads a store's bytes where it put them, and as before elsewhere. -/
theorem storesForward : Obligations.StoresForward := by
  intro v w lp pa bs hs hn hk
  obtain ⟨f, rfl, hg, hf⟩ := storePieces_ok hs
  have hready : GateReady (pa / 64) ((pa + bs.length) / 64) (lpCtx v lp) (lpAt v lp).gated := ⟨hn, hk⟩
  have hbyte (a : Nat) : gateByte (f (lpAt v lp)).gated a =
      if pa ≤ a ∧ a < pa + bs.length then bs[a - pa]? else gateByte (lpAt v lp).gated a := by
    rw [hg, gatePieces, gatePieces, List.take_length]
    exact hready.byte_gateStore (Nat.le_refl _) (Nat.le_refl _) (Nat.lt_succ_self _) a
  have hseen (a : Nat) : seenByte (updLp v lp f) a = seenByte v a := rfl
  obtain ⟨hr, ho, ha⟩ := hf (lpAt v lp)
  refine ⟨fun j hj => ?_, fun a h => ?_, rfl, by simp [archOf, ha], fun q hq => lpAt_updLp_ne _ _ hq⟩
  · simp [lpByte, hbyte, hj]
  · simp only [lpByte, lpAt_updLp, hbyte, hr, ho, hseen]
    rw [if_neg (by omega)]
end Sys2Proof.Machine

/-! Statements about binary floating point (06). -/

namespace Sys2Proof.Machine
-- Proofs one after the other: side by side they take more memory than the check allows.
set_option Elab.async false

/-! ### Rounding of exact values -/

theorem roundsUp_exact (mode : Nat) (neg : Bool) (k : Nat) : roundsUp mode neg k 0 1 = false := by
  unfold roundsUp; split <;> simp

/-- A value that is a multiple of the unit it is rounded to stays. -/
theorem roundAt_exact (mode : Nat) (neg : Bool) (m : Nat) {e q : Int} (h : q ≤ e) :
    roundAt mode neg m 1 e q = (m * 2 ^ (e - q).toNat, false) := by
  have : (q - e).toNat = 0 := by omega
  simp [roundAt, this, Nat.mod_one, roundsUp_exact]

theorem exponentOf_one {m : Nat} (hm : m ≠ 0) (e : Int) : exponentOf m 1 e = Nat.log2 m + e := by
  have hl : ¬ m < 2 ^ Nat.log2 m := Nat.not_lt.2 (Nat.log2_self_le hm)
  have h1 : Nat.log2 1 = 0 := by decide
  simp [exponentOf, h1, hl]

/-- A magnitude that a format holds as a multiple `m` of `2 ^ e`, subnormal or normal, rounds to its own bits, with no
condition. -/
theorem fpRound_exact (f : Fmt) (mode : Nat) (neg : Bool) {m : Nat} {e : Int} (hm : m ≠ 0) (hp : m < 2 ^ f.p)
    (he : e = f.qmin ∨ (2 ^ (f.p - 1) ≤ m ∧ f.qmin ≤ e)) (hmax : e + (f.p - 1 : Nat) ≤ f.emax) :
    fpRound f mode false neg m 1 e =
      (signBit f neg + if m < 2 ^ (f.p - 1) then m
        else (e - f.qmin + 1).toNat * 2 ^ (f.p - 1) + (m - 2 ^ (f.p - 1)), 0) := by
  have hlog : Nat.log2 m < f.p := (Nat.log2_lt hm).2 hp
  have hq : max (Nat.log2 m + e - (f.p - 1 : Nat)) f.qmin = e := by
    obtain he | ⟨hn, he⟩ := he
    · omega
    · have : f.p - 1 ≤ Nat.log2 m := (Nat.le_log2 hm).2 hn
      omega
  have hmax' : ¬ (e + (f.p - 1 : Nat) > (f.emax : Int)) := by omega
  simp [fpRound, exponentOf_one hm, hq, roundAt_exact, Nat.ne_of_lt hp, hmax']

/-- The fields of a bit pattern: sign, exponent, fraction. -/
theorem fmt_fields {f : Fmt} (hw : f.width = f.p - 1 + f.ebits + 1) {b : Nat} (hb : b < 2 ^ f.width) :
    b = signBit f (decide (b / 2 ^ (f.width - 1) % 2 = 1)) +
      (b / 2 ^ (f.p - 1) % 2 ^ f.ebits * 2 ^ (f.p - 1) + b % 2 ^ (f.p - 1)) := by
  have hs : b / 2 ^ (f.width - 1) < 2 := by
    rw [Nat.div_lt_iff_lt_mul (Nat.two_pow_pos _), ← Nat.pow_succ', hw]
    simpa [hw] using hb
  have h1 : b / 2 ^ (f.p - 1) / 2 ^ f.ebits = b / 2 ^ (f.width - 1) := by
    rw [Nat.div_div_eq_div_mul, ← Nat.pow_add, hw]; rfl
  have h2 : signBit f (decide (b / 2 ^ (f.width - 1) % 2 = 1)) =
      2 ^ f.ebits * (b / 2 ^ (f.width - 1)) * 2 ^ (f.p - 1) := by
    have : 2 ^ (f.width - 1) = 2 ^ f.ebits * 2 ^ (f.p - 1) := by rw [← Nat.pow_add, hw, Nat.add_sub_cancel, Nat.add_comm]
    rw [signBit]
    clear h1
    generalize b / 2 ^ (f.width - 1) = x at hs ⊢
    obtain rfl | rfl : x = 0 ∨ x = 1 := by omega
    · simp
    · simp [this]
  rw [h2, ← h1, ← Nat.add_assoc, ← Nat.add_mul, Nat.div_add_mod, Nat.div_add_mod']

/-- A finite operand of a format rounds back to itself. -/
theorem fpExact_fpDecode {f : Fmt} (hw : f.width = f.p - 1 + f.ebits + 1) (hp : 0 < f.p)
    (h0 : 0 < f.emax) (hx : 2 ^ f.ebits = 2 * f.emax + 2) (mode : Nat) {b m : Nat} {neg : Bool} {e : Int} (hb : b < 2 ^ f.width)
    (hd : fpDecode f b = .fin neg m e) : fpExact f mode false neg m e = (b, 0) := by
  have hfields := fmt_fields hw hb
  have hfrac : b % 2 ^ (f.p - 1) < 2 ^ (f.p - 1) := Nat.mod_lt _ (Nat.two_pow_pos _)
  have hexp : b / 2 ^ (f.p - 1) % 2 ^ f.ebits < 2 ^ f.ebits := Nat.mod_lt _ (Nat.two_pow_pos _)
  have hpow : 2 ^ f.p = 2 * 2 ^ (f.p - 1) := by rw [Nat.mul_comm, Nat.two_pow_pred_mul_two hp]
  have hqmin : f.qmin + (f.p - 1 : Nat) = 1 - (f.emax : Int) := by unfold Fmt.qmin; omega
  simp only [fpDecode] at hd
  generalize decide (b / 2 ^ (f.width - 1) % 2 = 1) = sign at *
  generalize b % 2 ^ (f.p - 1) = frac at *
  generalize b / 2 ^ (f.p - 1) % 2 ^ f.ebits = ex at *
  split at hd
  · split at hd <;> cases hd
  next hinf =>
    split at hd <;> cases hd
    next h0 =>
      rw [fpExact]
      split
      next hz => simp [hfields, fpZero, h0, hz]
      next hz =>
        rw [fpRound_exact f mode _ hz (by omega) (.inl rfl) (by omega), if_pos hfrac]
        simp [hfields, h0]
    next h0 =>
      have hm : frac + 2 ^ (f.p - 1) ≠ 0 := by have := Nat.two_pow_pos (f.p - 1); omega
      rw [fpExact, if_neg hm,
        fpRound_exact f mode _ hm (by omega) (.inr ⟨by omega, by omega⟩) (by omega), if_neg (by omega)]
      rw [hfields, show (f.qmin + ex - 1 - f.qmin + 1).toNat = ex by omega, Nat.add_sub_cancel]

/-- Settles O17: the three formats have the fields that the general lemma speaks of. -/
theorem floatRoundsExactly : Obligations.FloatRoundsExactly := by
  intro f mode b neg m e hf hb hd
  have hfmt : f.width = f.p - 1 + f.ebits + 1 ∧ 0 < f.p ∧ 0 < f.emax ∧ 2 ^ f.ebits = 2 * f.emax + 2 := by
    simp only [List.mem_cons, List.not_mem_nil, or_false] at hf
    obtain rfl | rfl | rfl := hf <;> decide
  obtain ⟨hw, hp, h0, hx⟩ := hfmt
  exact fpExact_fpDecode hw hp h0 hx mode hb hd

end Sys2Proof.Machine

/-! What storage, the event logs and the counters leave alone: the package's clock, commands, modes and supplies. -/

namespace Sys2Proof.Machine
-- Proofs one after the other: side by side they take more memory than the check allows.
set_option Elab.async false

/-- A processor but for its reservation, which the traffic of others may take. -/
def Lp.unreserved (x : Lp) : Lp := { x with reservation := none, resHold := false }

/-- The part of a state that storage traffic, events and counters do not touch. -/
structure Steady where
  pending : List Instr
  lps : Vector Lp 48
  fuses : Fuses
  time : Time
  drafts : Tab Word
  cmds : Tab Word
  pen : Pen
  proof : Proof
  strike : Strike
  sideA : Sideband
  sideB : Sideband
  sparings : List Sparing
  rotation : Option Rotation
  rotAge : Nat
  rotRetry : Option Nat
  rotAgain : Option (Fin 48 × Bool)
  burin : Vector Burin 4
  fenced : List Nat
  portHeld : List PortMsg
  released : List Nat
  presLast : Tab Nat
  offers : List Offer
  onceTick : List (Nat × Nat)
  mode : Mode
  eng : Engines
  cs : ControlStore
  feed : Feeds
  tap : TapState

/-- That part of a state. -/
def steady (s : State) : Steady :=
  { pending := s.pending, lps := s.lps.map Lp.unreserved, fuses := s.fuses, time := s.time, drafts := s.drafts,
    cmds := s.cmds, pen := s.pen, proof := s.proof, strike := s.strike, sideA := s.sideA, sideB := s.sideB,
    sparings := s.sparings, rotation := s.rotation, rotAge := s.rotAge, rotRetry := s.rotRetry,
    rotAgain := s.rotAgain, burin := s.burin, fenced := s.fenced, portHeld := s.portHeld, released := s.released,
    presLast := s.presLast, offers := s.offers, onceTick := s.onceTick, mode := s.mode, eng := s.eng, cs := s.cs,
    feed := s.feed, tap := s.tap }

/-! ### Counters, events and messages -/

variable {s t : State}

theorem steady_foldl {f : State → α → State} (hf : ∀ s x, steady (f s x) = steady s) (l : List α) (s : State) :
    steady (l.foldl f s) = steady s := by
  induction l generalizing s with
  | nil => rfl
  | cons x l ih => rw [List.foldl_cons, ih, hf]

theorem steady_ite {c : Prop} [Decidable c] {t u : State} (ht : steady t = steady s) (hu : steady u = steady s) :
    steady (if c then t else u) = steady s := by
  split <;> assumption

theorem steady_getD {o : Option State} (ho : ∀ {t}, o = some t → steady t = steady s) (hs : steady t = steady s) :
    steady (o.getD t) = steady s := by
  cases o with
  | none => exact hs
  | some u => exact ho rfl

@[simp] theorem steady_setCell (s : State) (k : Nat) (v : Word) : steady (setCell s k v) = steady s := rfl
@[simp] theorem steady_bump (s : State) (p off n idx : Nat) : steady (bump s p off n idx) = steady s := by
  unfold bump; exact steady_setCell ..
@[simp] theorem steady_taken (s : State) (n : Nat) : steady (taken s n) = steady s := rfl
@[simp] theorem steady_emit (o : Output) (s : State) : steady (emit o s) = steady s := rfl

theorem steady_updLp {lp : Fin 48} {f : Lp → Lp} (hf : ∀ x, (f x).unreserved = x.unreserved) :
    steady (updLp s lp f) = steady s := by
  have hl : (updLp s lp f).lps.map Lp.unreserved = s.lps.map Lp.unreserved := by
    ext1 i hi
    by_cases h : lp.val = i
    · subst h; simp [updLp, setLp, hf, lpAt]
    · simp [updLp, setLp, h]
  rw [steady, hl]
  rfl

@[simp] theorem steady_updPair (s : State) (p : Fin 48) (f : Pair → Pair) : steady (updPair s p f) = steady s := rfl
@[simp] theorem steady_updPart (s : State) (p : Nat) (f : PartSt → PartSt) : steady (updPart s p f) = steady s := rfl
@[simp] theorem steady_updMc (s : State) (ch : Nat) (f : Mc → Mc) : steady (updMc s ch f) = steady s := rfl
@[simp] theorem steady_updAlm (s : State) (d : Nat) (f : Almanac → Almanac) : steady (updAlm s d f) = steady s := rfl
@[simp] theorem steady_countFg (s : State) (c i n : Nat) : steady (countFg s c i n) = steady s := rfl
@[simp] theorem steady_setOp (s : State) (n : Nat) (o : Op) : steady (setOp s n o) = steady s := rfl
@[simp] theorem steady_debit (s : State) (a r n : Nat) : steady (debit s a r n) = steady s := rfl
@[simp] theorem steady_markHeld (s : State) (a r : Nat) : steady (markHeld s a r) = steady s := rfl

@[simp] theorem steady_latch (s : State) (e : Event) : steady (latch s e) = steady s := by
  unfold latch
  exact steady_ite (steady_setCell ..) (steady_ite (steady_setCell ..) (steady_setCell ..))

@[simp] theorem steady_deliverCtx (s : State) (c : Nat) (r : EvRec) : steady (deliverCtx s c r) = steady s := rfl

@[simp] theorem steady_enterEvq (s : State) (r : EvRec) : steady (enterEvq s r) = steady s := by
  unfold enterEvq; exact steady_ite (steady_bump ..) rfl

@[simp] theorem steady_formRecord (s : State) (e : Event) : steady (formRecord s e) = steady s := by
  unfold formRecord
  extract_lets _ _ _ _ r _ u v w
  have hu : steady u = steady s := rfl
  have hv : steady v = steady s := by
    dsimp only [v]
    split
    · exact steady_ite hu hu
    · exact hu
  have hw : steady w = steady s := steady_ite ((steady_deliverCtx ..).trans hv) hv
  exact steady_ite rfl (steady_ite ((steady_enterEvq ..).trans hw) hw)

@[simp] theorem steady_logEvent (s : State) (e : Event) : steady (logEvent s e) = steady s := by
  unfold logEvent report
  dsimp only
  split <;> simp

@[simp] theorem steady_todEvent (s : State) (c b d : Nat) : steady (todEvent s c b d) = steady s := steady_logEvent ..

@[simp] theorem steady_feedEvent (s : State) (c b : Nat) : steady (feedEvent s c b) = steady s := steady_logEvent ..

@[simp] theorem steady_meter (s : State) (c i n : Nat) : steady (meter s c i n) = steady s :=
  steady_ite (steady_updPart ..) rfl

@[simp] theorem steady_toPkgData (name : String) (p d line : Nat) (bs : List Byte) (s : State) :
    steady (toPkgData name p d line bs s) = steady s := by
  dsimp only [toPkgData]
  split
  · rfl
  split
  · rfl
  · rw [steady_foldl fun _ _ => steady_emit ..]
    exact steady_ite rfl rfl

@[simp] theorem steady_sendDie (name : String) (d line : Nat) (s : State) :
    steady (sendDie name d line s) = steady s := steady_ite rfl (steady_toPkgData ..)

@[simp] theorem steady_sendLine (name : String) (d line : Nat) (s : State) :
    steady (sendLine name d line s) = steady s := steady_ite rfl (steady_toPkgData ..)

@[simp] theorem steady_spend (s : State) (a : Activity) (l : List (Nat × Nat)) : steady (spend s a l).1 = steady s := by
  unfold spend
  dsimp only
  split
  · exact steady_foldl (fun _ _ => steady_debit ..) _ _
  · exact steady_foldl (fun _ _ => steady_markHeld ..) _ _

/-! ### Memory and caches -/

@[simp] theorem steady_memPut (s : State) (a : Nat) (b : Byte) : steady (memPut s a b) = steady s := by
  unfold memPut; exact steady_ite rfl rfl

@[simp] theorem steady_memWrite (s : State) (a : Nat) (bs : List Byte) : steady (memWrite s a bs) = steady s := by
  induction bs generalizing s a with
  | nil => rfl
  | cons b bs ih => rw [memWrite, ih, steady_memPut]

@[simp] theorem steady_setPoison (s : State) (line : Nat) (p : Bool) : steady (setPoison s line p) = steady s := rfl

@[simp] theorem steady_discardDirty (s : State) (line : Nat) : steady (discardDirty s line) = steady s := rfl

@[simp] theorem steady_writeBack (s : State) (line : Nat) : steady (writeBack s line) = steady s :=
  steady_foldl (fun _ _ => steady_memPut ..) _ _

@[simp] theorem steady_countHops (s : State) (a b : Nat) (d : Bool) : steady (countHops s a b d) = steady s :=
  steady_foldl (fun _ _ => steady_countFg ..) _ _

@[simp] theorem steady_bankAccess (s : State) (c r u b w : Nat) : steady (bankAccess s c r u b w) = steady s := by
  unfold bankAccess
  exact (steady_updMc ..).trans (steady_ite (steady_bump ..) rfl)

/-- The definition is rewritten by `delta` and its place left general: the kernel does not evaluate `dramAt` there. -/
@[simp] theorem steady_lineAccess (s : State) (line : Nat) : steady (lineAccess s line) = steady s := by
  suffices key : ∀ f, f = lineAccess → steady (f s line) = steady s from key _ rfl
  intro f hf
  delta lineAccess at hf
  rw [congrFun (congrFun hf s) line]
  extract_lets o
  clear_value o
  generalize dramAt s o = place
  cases place
  exact steady_bankAccess ..

@[simp] theorem steady_countDram (s : State) (line : Nat) : steady (countDram s line) = steady s := by
  unfold countDram
  exact steady_ite ((steady_lineAccess ..).trans (steady_countFg ..)) rfl

@[simp] theorem steady_wroteDram (s : State) (line : Nat) : steady (wroteDram s line) = steady s := by
  unfold wroteDram
  exact steady_ite ((steady_bump ..).trans (steady_countDram ..)) (steady_countDram ..)

@[simp] theorem steady_countSlice (s : State) (line : Nat) : steady (countSlice s line) = steady s := by
  unfold countSlice; exact steady_ite (steady_countFg ..) rfl

@[simp] theorem steady_countTo (s : State) (d line : Nat) (a b : Bool) : steady (countTo s d line a b) = steady s := by
  unfold countTo
  exact steady_ite (steady_countHops ..) (steady_countHops ..)

theorem unreserved_lost {line : Nat} (x : Lp) : (if x.reservation = some line then
    { x with reservation := none, resHold := false } else x).unreserved = x.unreserved := by
  split <;> rfl

@[simp] theorem steady_loseReservation (s : State) (p : Fin 48) (line : Nat) :
    steady (loseReservation s p line) = steady s := by
  unfold loseReservation
  split
  · exact steady_updLp unreserved_lost
  · rfl

@[simp] theorem steady_loseReservations (s : State) (line : Nat) (k : Option (Fin 48)) :
    steady (loseReservations s line k) = steady s :=
  steady_foldl (fun _ _ => steady_ite rfl (steady_updLp unreserved_lost)) _ _

@[simp] theorem steady_l2Drop (s : State) (p : Fin 48) (line : Nat) : steady (l2Drop s p line) = steady s := rfl

@[simp] theorem steady_l2SetState (s : State) (p : Fin 48) (line : Nat) (st : CohSt) :
    steady (l2SetState s p line st) = steady s := rfl

@[simp] theorem steady_l3Remove (s : State) (d line : Nat) : steady (l3Remove s d line) = steady s := rfl

@[simp] theorem steady_dirFree (s : State) (line : Nat) : steady (dirFree s line) = steady s := rfl

@[simp] theorem steady_putTxn (s : State) (line : Nat) (x : Txn) : steady (putTxn s line x) = steady s := rfl

@[simp] theorem steady_enqueue (s : State) (sl : Nat) (r : Req) : steady (enqueue s sl r) = steady s := rfl

@[simp] theorem steady_dieRemove (s : State) (d line : Nat) (k : Option (Fin 48)) :
    steady (dieRemove s d line k) = steady s := by
  unfold dieRemove
  exact (steady_l3Remove ..).trans (steady_foldl (fun _ _ =>
    steady_ite rfl ((steady_loseReservation ..).trans (steady_ite (steady_l2Drop ..) rfl))) _ _)

@[simp] theorem steady_removeCopies (s : State) (line : Nat) (k : Option (Fin 48)) :
    steady (removeCopies s line k) = steady s :=
  steady_foldl (fun _ _ => steady_dieRemove ..) _ _

@[simp] theorem steady_writeLine (s : State) (a : Nat) (bs : List Byte) (p : Bool) :
    steady (writeLine s a bs p) = steady s := by
  unfold writeLine
  extract_lets line whole a b c
  have ha : steady a = steady s := steady_ite (steady_discardDirty ..) (steady_writeBack ..)
  have hc : steady c = steady s := by
    rw [steady_memWrite, steady_dirFree, steady_loseReservations, steady_removeCopies, ha]
  clear_value c
  exact steady_ite ((steady_setPoison ..).trans hc) hc

@[simp] theorem steady_freeLine (s : State) (line : Nat) : steady (freeLine s line) = steady s := by simp [freeLine]

@[simp] theorem steady_cleanLine (s : State) (p : Fin 48) (line : Nat) : steady (cleanLine s p line) = steady s := by
  unfold cleanLine
  dsimp only
  split <;> simp

/-! ### Home transactions and the writes of agents -/

@[simp] theorem steady_answer (a : Agent) (name : String) (line : Nat) (s : State) :
    steady (answer a name line s) = steady s := by
  unfold answer
  split <;> simp

@[simp] theorem steady_openTxn (s : State) (r : Req) : steady (openTxn s r) = steady s := by
  unfold openTxn
  have hs (s : State) (d h : Nat) : steady (sendDie r.kind.snoop.name d r.line
      (if d / 4 = pkgId s then countHops s h (d % 4) false else s)) = steady s :=
    (steady_sendDie ..).trans (steady_ite (steady_countHops ..) rfl)
  dsimp only
  split <;> simp [steady_foldl, hs]

theorem steady_tryOpen {r : Req} (h : tryOpen s r = some t) : steady t = steady s := by
  obtain ⟨-, h⟩ := Option.ite_none_left_eq_some.mp h
  cases h
  simp

theorem steady_victimise {line : Nat} (h : victimise s line = some t) : steady t = steady s := by
  dsimp only [victimise] at h
  split at h
  · cases h; rfl
  split at h
  · cases h
  split at h <;> cases h <;> simp

theorem steady_accept {r : Req} (h : accept s r = some t) : steady t = steady s := by
  dsimp only [accept] at h
  split at h
  · cases h
  split at h
  · cases h; rfl
  split at h
  next hu => cases h; exact steady_tryOpen hu
  · obtain ⟨u, hu, rfl⟩ := Option.map_eq_some_iff.mp h
    rw [← steady_victimise hu]
    exact steady_getD steady_tryOpen rfl

@[simp] theorem steady_farSnoop (s : State) (r : Req) : steady (farSnoop s r) = steady s :=
  steady_ite rfl ((steady_foldl (fun _ _ => steady_sendDie ..) _ _).trans (steady_ite (steady_freeLine ..) rfl))

@[simp] theorem steady_lostEvent (s : State) (a : Agent) (line : Nat) (o : Option Nat) :
    steady (lostEvent s a line o) = steady s := by
  unfold lostEvent
  split <;> simp

@[simp] theorem steady_agentWriteLine (s : State) (w : Agent) (a : Nat) (bs : List Byte) :
    steady (agentWriteLine s w a bs) = steady s := by
  unfold agentWriteLine
  extract_lets line r
  refine steady_ite (steady_ite (by simp) (steady_getD steady_accept (steady_enqueue ..))) (steady_ite ?_ ?_) <;> simp

@[simp] theorem steady_agentWrite (s : State) (a : Nat) (bs : List Byte) (w : Agent) :
    steady (agentWrite s a bs w) = steady s := by
  have h (n : Nat) (s : State) (a : Nat) (bs : List Byte) : steady (agentWriteAux w n s a bs) = steady s := by
    induction n generalizing s a bs with
    | zero => rfl
    | succ n ih => exact steady_ite rfl ((ih ..).trans (steady_agentWriteLine ..))
  exact h ..

end Sys2Proof.Machine

/-! The Transit tick (02): what its stages keep, and O24. -/

namespace Sys2Proof.Machine
-- Proofs one after the other: side by side they take more memory than the check allows.
set_option Elab.async false

/-- What a tick must not disturb once it has advanced the clock: the clock, the Pen, a Strike, the mode, and what waits
at the ports. -/
def tickView (s : State) :=
  (s.time.transit, s.time.steps, s.time.seconds, s.time.ppsOut, s.pen, s.strike, s.mode, s.portHeld)

variable {s t : State}

theorem mode_of_steady (h : steady t = steady s) : t.mode = s.mode := congrArg (·.mode) h

theorem strike_of_steady (h : steady t = steady s) : t.strike = s.strike := congrArg (·.strike) h

theorem tickView_of_steady (h : steady t = steady s) : tickView t = tickView s := by
  have hm := mode_of_steady h
  have ht : t.time = s.time := congrArg (·.time) h
  have hp : t.pen = s.pen := congrArg (·.pen) h
  have hs := strike_of_steady h
  have hh : t.portHeld = s.portHeld := congrArg (·.portHeld) h
  simp only [tickView, hm, ht, hp, hs, hh]

theorem strike_of_tickView {x} (h : tickView t = x) : t.strike = x.2.2.2.2.2.1 := congrArg (·.2.2.2.2.2.1) h

theorem mode_of_tickView {x} (h : tickView t = x) : t.mode = x.2.2.2.2.2.2.1 := congrArg (·.2.2.2.2.2.2.1) h

theorem portHeld_of_tickView {x} (h : tickView t = x) : t.portHeld = x.2.2.2.2.2.2.2 := congrArg (·.2.2.2.2.2.2.2) h

theorem tickView_foldl {f : State → α → State} (hf : ∀ t x, tickView t = tickView s → tickView (f t x) = tickView s)
    (l : List α) (ht : tickView t = tickView s) : tickView (l.foldl f t) = tickView s := by
  induction l generalizing t with
  | nil => exact ht
  | cons x l ih => exact ih (hf t x ht)

/-! ### Metering, the Almanac, journals and paths -/

@[simp] theorem steady_meterCycles (s : State) (lp : Fin 48) : steady (meterCycles s lp) = steady s := by
  unfold meterCycles
  extract_lets ctx runs f total u v
  exact steady_ite rfl (by simp)

@[simp] theorem steady_meterRecord (s : State) (p : Nat) : steady (meterRecord s p) = steady s := by
  unfold meterRecord
  dsimp only
  split
  · rfl
  · refine steady_ite rfl (steady_ite (by simp) ?_)
    split <;> simp

@[simp] theorem steady_meterTicks (s : State) : steady (meterTicks s) = steady s := by
  unfold meterTicks
  refine steady_foldl (fun s p => ?_) _ _
  dsimp only
  split <;> simp

@[simp] theorem steady_meterGranules (s : State) : steady (meterGranules s) = steady s := by
  unfold meterGranules
  refine steady_foldl (fun s p => ?_) _ _
  dsimp only
  split <;> simp

@[simp] theorem steady_tickBudget (s : State) : steady (tickBudget s) = steady s := by
  unfold tickBudget
  extract_lets put a b c
  have ha : steady a = steady s := steady_foldl (fun _ _ => steady_setCell ..) _ _
  have hb : steady b = steady s := (steady_foldl (fun _ _ => steady_setCell ..) _ _).trans ha
  have hc : steady c = steady s := (steady_foldl (fun _ _ => steady_updAlm ..) _ _).trans hb
  clear_value c
  exact hc

@[simp] theorem steady_jrnWrite (s : State) (n : Nat) (o : Op) (st : Nat) (w : Option Osw) :
    steady (jrnWrite s n o st w) = steady s := by
  unfold jrnWrite
  extract_lets x e k u hi v
  exact (steady_setOp ..).trans (steady_ite (steady_setCell ..) rfl)

@[simp] theorem steady_tickJournal (s : State) : steady (tickJournal s) = steady s :=
  steady_ite rfl (steady_foldl (fun _ _ => steady_jrnWrite ..) _ _)

@[simp] theorem steady_sendFrame (s : State) (n : Nat) (o : Op) (ty seq flags code len addr : Nat) (m : Bool) :
    steady (sendFrame s n o ty seq flags code len addr m) = steady s := by
  unfold sendFrame
  exact (steady_emit ..).trans (steady_ite (steady_meter ..) rfl)

@[simp] theorem steady_sendResync (s : State) (n : Nat) : steady (sendResync s n) = steady s := by
  unfold sendResync
  split
  · split <;> simp
  · rfl

@[simp] theorem steady_updPath (s : State) (p : Nat) (f : Path → Path) : steady (updPath s p f) = steady s := rfl

@[simp] theorem steady_sendBeat (s : State) (p : Nat) (i : Bool) : steady (sendBeat s p i) = steady s := rfl

@[simp] theorem steady_tickPaths (s : State) : steady (tickPaths s) = steady s := by
  unfold tickPaths
  extract_lets beat _ u v
  have hu : steady u = steady s := steady_ite rfl rfl
  suffices hv : steady v = steady s by clear_value v; exact hv
  refine (steady_foldl (fun s e => ?_) _ _).trans hu
  refine steady_ite rfl ?_
  extract_lets a b
  have hb : steady b = steady s :=
    (steady_ite (steady_foldl (fun _ _ => steady_sendResync ..) _ _) rfl).trans (steady_updPath ..)
  exact (steady_ite (steady_sendBeat ..) rfl).trans hb

@[simp] theorem steady_almDrop (s : State) (d n : Nat) : steady (almDrop s d n) = steady s := by
  unfold almDrop
  dsimp only
  refine steady_ite rfl ?_
  split <;> simp

@[simp] theorem steady_almCapture (s : State) (d : Nat) : steady (almCapture s d) = steady s := by
  unfold almCapture
  generalize recordBody s d = r
  obtain ⟨ty, lines, body⟩ := r
  simp

@[simp] theorem steady_almTick (s : State) (d : Nat) : steady (almTick s d) = steady s :=
  steady_ite rfl (steady_ite (steady_almCapture ..) (steady_updAlm ..))

@[simp] theorem steady_tickAttention (s : State) : steady (tickAttention s) = steady s := steady_ite rfl rfl

@[simp] theorem steady_imbalanceOf (s : State) (c : Nat) : steady (imbalanceOf s c) = steady s := by
  unfold imbalanceOf
  refine steady_ite rfl (steady_ite rfl ?_)
  extract_lets hot
  exact steady_foldl (fun _ _ => by rfl) _ _

@[simp] theorem steady_tickImbalance (s : State) : steady (tickImbalance s) = steady s := by
  unfold tickImbalance
  extract_lets u
  have hu : steady u = steady s := steady_foldl (fun _ _ => steady_imbalanceOf ..) _ _
  clear_value u
  exact hu

/-! ### The stages of a tick -/

@[simp] theorem tickView_tickMeasure (s : State) (i : TickIn) : tickView (tickMeasure s i) = tickView s := by
  have hf (s : State) (b : Bool) : tickView (tickFeed s b) = tickView s := rfl
  unfold tickMeasure
  extract_lets tj tmax f vsb u v w
  have hu : tickView u = tickView s := rfl
  have hv : tickView v = tickView s := by
    dsimp only [v]; split
    · exact (tickView_of_steady (steady_feedEvent ..)).trans hu
    · exact hu
  have hw : tickView w = tickView s := by
    dsimp only [w]; split
    · exact (tickView_of_steady (steady_feedEvent ..)).trans hv
    · exact hv
  split
  · rfl
  · rw [hf, hf, hw]

/-- A loop over lines that stops where its budget is spent. -/
theorem steady_foldl_fst {f : State × Bool → α → State × Bool} (hf : ∀ x a, steady (f x a).1 = steady x.1) (l : List α)
    (x : State × Bool) : steady (l.foldl f x).1 = steady x.1 := by
  induction l generalizing x with
  | nil => rfl
  | cons a l ih => rw [List.foldl_cons, ih, hf]

@[simp] theorem tickView_tickClean (s : State) : tickView (tickClean s) = tickView s := by
  unfold tickClean
  split
  · rfl
  next r _ =>
    split
    · rfl
    · extract_lets u d
      have hu : tickView u = tickView s := rfl
      refine (tickView_of_steady (steady_foldl_fst (fun x line => ?_) _ _)).trans hu
      dsimp only
      split
      · rfl
      · have hs := steady_spend x.1 .wear (dramCost x.1 line ++ lineCost d (toward x.1 line))
        split
        next h => rw [h] at hs; exact (steady_cleanLine ..).trans hs
        next h => rw [h] at hs; exact hs

theorem tickView_tickEcho (l : List Int) (h : s.strike.st ≠ .armed) : tickView (tickEcho s l) = tickView s := by
  unfold tickEcho
  split
  · rfl
  refine tickView_foldl (fun t d ht => ?_) _ rfl
  have hs : t.strike = s.strike := strike_of_tickView ht
  extract_lets e u v
  have hu : tickView u = tickView s := by
    dsimp only [u]; split
    · exact ht
    · exact ht
  have hv : tickView v = tickView s := (tickView_of_steady (steady_todEvent ..)).trans hu
  have hvs : v.strike = s.strike := strike_of_tickView hv
  split
  · exact hu
  · rw [if_neg (by rwa [hvs])]
    exact hv

theorem tickView_tickStrike (h : s.strike.st ≠ .committed) (hm : s.mode.transition ≠ .hold) :
    tickView (tickStrike s) = tickView s := by
  rw [tickStrike, if_neg h, if_neg hm]

/-- The lease of a held Pen steps. -/
theorem tickView_tickRefill (s : State) : tickView (tickRefill s) =
    tickView { s with pen := if s.pen.holder.isSome then { s.pen with lease := s.pen.lease - 1 } else s.pen } := by
  have hf (s : State) (e : Nat × Func) : steady (match bindOf s (e.1 / 65536) (BitVec.ofNat 16 e.1) with
      | some n => updFunc s (e.1 / 65536) (BitVec.ofNat 16 e.1) fun f =>
          { f with msixLeft := cellField s (pciePage (e.1 / 65536)) (0x140 + 4 * n) 0 8 }
      | none => s) = steady s := by
    split <;> rfl
  unfold tickRefill
  extract_lets _ u
  have hu : tickView u = tickView { s with pen := if s.pen.holder.isSome then { s.pen with lease := s.pen.lease - 1 }
      else s.pen } := by
    dsimp only [u]; split <;> rfl
  exact (tickView_of_steady (steady_foldl hf _ _)).trans hu

theorem tickView_portsGoOn (h : s.portHeld = []) : tickView (portsGoOn s) = tickView s := by
  simp [portsGoOn, h, tickView]

/-- The counters of a tick leave the clock and what PPS_OUT depends on. -/
theorem tickView_tickCounters (h : s.cs.updating = false) : tickView (tickCounters s) = tickView s ∧
    (tickCounters s).regs = s.regs ∧ (tickCounters s).err.degKeeper = s.err.degKeeper := by
  unfold tickCounters endUpdate
  simp [h, tickView]

theorem meterCycles_pps (s : State) (lp : Fin 48) :
    (meterCycles s lp).regs = s.regs ∧ (meterCycles s lp).err.degKeeper = s.err.degKeeper := by
  have hm (s : State) (c i n : Nat) : (meter s c i n).regs = s.regs ∧ (meter s c i n).err = s.err := by
    unfold meter; split <;> exact ⟨rfl, rfl⟩
  unfold meterCycles
  extract_lets ctx runs f total u v
  split
  · exact ⟨rfl, rfl⟩
  · simp [hm]

@[simp] theorem steady_tickTransfer (s : State) : steady (tickTransfer s) = steady s := by
  unfold tickTransfer
  extract_lets l k
  refine steady_ite ?_ rfl
  unfold sendTime
  exact steady_emit ..

/-- Cycle 0 of a tick: the clock moves on, and the rest of the view stays. -/
theorem tickView_tickTime (s : State) :
    let wraps := s.time.steps + 160000 ≥ 16000000000
    tickView (tickTime s) = (s.time.transit + 1, if wraps then 0 else s.time.steps + 160000,
      if wraps then s.time.seconds + 1 else s.time.seconds,
      if wraps then ppsoEnabled s && keeperRuns s else s.time.ppsOut, s.pen, s.strike, s.mode, s.portHeld) := by
  intro wraps
  have hsec : secSteps = 16000000000 := rfl
  have htick : tickSteps = 160000 := rfl
  unfold tickTime
  extract_lets t w u
  rw [tickView_of_steady (steady_tickTransfer _)]
  by_cases hw : wraps
  · have hd : w = true := by simpa [w, t, hsec, htick, wraps] using hw
    rw [if_pos hd, if_pos hw, if_pos hw, if_pos hw]
    unfold risePps
    extract_lets on v
    have hon : on = (ppsoEnabled s && keeperRuns s) := by
      simp only [on, u, updTime, ppsoEnabled, keeperRuns, cellBit, cell]
    have hv : tickView v = (s.time.transit + 1, 0, s.time.seconds + 1, on, s.pen, s.strike, s.mode, s.portHeld) := by
      simp [v, u, t, updTime, tickView, hd]
    rw [← hon]
    split
    · exact (tickView_of_steady (steady_emit ..)).trans hv
    · exact hv
  · have hd : w = false := by simpa [w, t, hsec, htick, wraps] using hw
    rw [if_neg (by simp [hd]), if_neg hw, if_neg hw, if_neg hw]
    simp [u, t, updTime, tickView, hd, htick]

/-- The metering of cycles leaves what PPS_OUT depends on. -/
theorem foldl_meterCycles_pps (l : List (Fin 48)) (s : State) :
    (l.foldl meterCycles s).regs = s.regs ∧ (l.foldl meterCycles s).err.degKeeper = s.err.degKeeper := by
  induction l generalizing s with
  | nil => exact ⟨rfl, rfl⟩
  | cons x l ih =>
    obtain ⟨hr, hd⟩ := meterCycles_pps s x
    rw [List.foldl_cons, (ih _).1, (ih _).2]
    exact ⟨hr, hd⟩

theorem pps_of_tickView (h : tickView t = tickView s) (hr : t.regs = s.regs) (hd : t.err.degKeeper = s.err.degKeeper) :
    (ppsoEnabled t && keeperRuns t) = (ppsoEnabled s && keeperRuns s) := by
  have hm : t.mode = s.mode := mode_of_tickView h
  simp only [ppsoEnabled, keeperRuns, cellBit, cell, hr, hd, hm]

/-- Settles O24: after cycle 0 no stage of the tick touches the clock, and the lease steps at the refill. -/
theorem tickAdvances : Obligations.TickAdvances := by
  intro i s hoff hhold hcom harm hupd hports wraps
  have he : exec (.transitTick i) s = execTransitTick i s := rfl
  unfold execTransitTick at he
  rw [if_neg hoff] at he
  extract_lets a b c d e f g h j k v at he
  have ha : tickView a = tickView s ∧ a.regs = s.regs ∧ a.err.degKeeper = s.err.degKeeper :=
    tickView_tickCounters hupd
  obtain ⟨ha, har, had⟩ := ha
  clear_value a
  have hb : tickView b = tickView a ∧ b.regs = a.regs ∧ b.err.degKeeper = a.err.degKeeper := by
    dsimp only [b]
    split
    · exact ⟨tickView_of_steady (steady_foldl steady_meterCycles _ _), foldl_meterCycles_pps _ _⟩
    · exact ⟨rfl, rfl, rfl⟩
  obtain ⟨hb, hbr, hbd⟩ := hb
  have hpps := pps_of_tickView (hb.trans ha) (hbr.trans har) (hbd.trans had)
  clear_value b
  have hview : tickView b = tickView s := hb.trans ha
  have htime := tickView_tickTime b
  have hstrike : (tickTime b).strike = s.strike :=
    (strike_of_tickView htime).trans (strike_of_tickView hview)
  have hc : tickView c = tickView (tickTime b) := tickView_tickEcho _ (by rwa [hstrike])
  clear_value c
  have he' : tickView e = tickView c := by
    have hd : tickView d = tickView c := by rfl
    dsimp only [e]
    split
    · exact (tickView_of_steady (steady_foldl steady_meterRecord _ _)).trans hd
    · exact hd
  clear_value e
  have hE : tickView e = tickView (tickTime b) := he'.trans hc
  have hEb := hE.trans htime
  simp only [tickView, Prod.mk.injEq] at hEb hview
  obtain ⟨etransit, esteps, eseconds, epps, epen, estrike, emode, eport⟩ := hEb
  obtain ⟨btransit, bsteps, bseconds, bpps, bpen, bstrike, bmode, bport⟩ := hview
  have hbudget := steady_tickBudget e
  have hf : tickView f = tickView e := by
    have hs : (tickBudget e).strike = s.strike := (strike_of_steady hbudget).trans (estrike.trans bstrike)
    have hm : (tickBudget e).mode = s.mode := (mode_of_steady hbudget).trans (emode.trans bmode)
    exact (tickView_tickStrike (by rwa [hs]) (by rwa [hm])).trans (tickView_of_steady hbudget)
  clear_value f
  have hg : tickView g = tickView e :=
    (tickView_of_steady ((steady_meterGranules _).trans (steady_meterTicks _))).trans hf
  clear_value g
  have hrefill := tickView_tickRefill g
  have hh : tickView h = tickView (tickRefill g) := by
    refine (tickView_of_steady ((steady_tickPaths _).trans (steady_tickJournal _))).trans (tickView_portsGoOn ?_)
    have hport : (tickRefill g).portHeld = g.portHeld := portHeld_of_tickView hrefill
    rw [hport, portHeld_of_tickView hg]
    exact eport.trans (bport.trans hports)
  clear_value h
  have hj : tickView j = tickView h :=
    (tickView_tickMeasure _ _).trans (tickView_of_steady (steady_tickAttention _))
  clear_value j
  have hk : tickView k = tickView j := by
    dsimp only [k]
    split
    · rfl
    · exact tickView_of_steady (steady_foldl steady_almTick _ _)
  clear_value k
  have hv : tickView (tickClean (tickImbalance k)) = _ :=
    (tickView_tickClean _).trans <| (tickView_of_steady (steady_tickImbalance k)).trans <|
      hk.trans <| hj.trans <| hh.trans hrefill
  refine ⟨_, he, ?_⟩
  simp only [tickView, Prod.mk.injEq] at hv hg
  obtain ⟨vtransit, vsteps, vseconds, vpps, vpen, -⟩ := hv
  obtain ⟨gtransit, gsteps, gseconds, gpps, gpen, -⟩ := hg
  rw [vtransit, vsteps, vseconds, vpps, vpen, gtransit, gsteps, gseconds, gpps, gpen, etransit, esteps, eseconds, epps,
    epen, btransit, bsteps, bseconds, bpps, bpen, hpps]
  exact ⟨rfl, rfl, rfl, rfl, rfl⟩

end Sys2Proof.Machine

/-! What events and counters change, and the places of pairs and logical processors in a state. -/

namespace Sys2Proof.Machine
-- Proofs one after the other: side by side they take more memory than the check allows.
set_option Elab.async false

/-! ### Events -/

/-- What the event logs may change: registers, and the records of the error log that wait for a reader. -/
structure Logged (s t : State) : Prop where
  eq : t = { s with regs := t.regs, err := t.err }
  err : t.err = { s.err with once := t.err.once, seqs := t.err.seqs, ringWait := t.err.ringWait, checks := t.err.checks,
                             evq := t.err.evq, wp := t.err.wp }

namespace Logged
variable {s t u : State}

theorem refl (s : State) : Logged s s := ⟨rfl, rfl⟩

theorem trans (h : Logged s t) (k : Logged t u) : Logged s u := by
  obtain ⟨h, he⟩ := h
  obtain ⟨k, ke⟩ := k
  constructor
  · rw [k, h]
  · rw [ke, he]

theorem ite {c : Prop} [Decidable c] (ht : Logged s t) (hu : Logged s u) : Logged s (if c then t else u) := by
  split <;> assumption

end Logged

variable {s t : State}

theorem setCell_logged (s : State) (k : Nat) (v : Word) : Logged s (setCell s k v) := ⟨rfl, rfl⟩

theorem bump_logged (s : State) (p o n i : Nat) : Logged s (bump s p o n i) := by
  unfold bump; exact setCell_logged ..

theorem latch_logged (s : State) (e : Event) : Logged s (latch s e) := by
  unfold latch
  exact .ite (setCell_logged ..) (.ite (setCell_logged ..) (setCell_logged ..))

theorem enterEvq_logged (s : State) (r : EvRec) : Logged s (enterEvq s r) := by
  unfold enterEvq
  exact .ite (bump_logged ..) ⟨rfl, rfl⟩

theorem deliverCtx_logged (s : State) (c : Nat) (r : EvRec) : Logged s (deliverCtx s c r) := ⟨rfl, rfl⟩

theorem formRecord_logged (s : State) (e : Event) : Logged s (formRecord s e) := by
  unfold formRecord
  extract_lets _ _ _ _ r _ u v w
  have hu : Logged s u := ⟨rfl, rfl⟩
  have hv : Logged s v := by
    dsimp only [v]
    split
    · exact .ite (hu.trans (deliverCtx_logged ..)) hu
    · exact hu
  have hw : Logged s w := .ite (hv.trans (deliverCtx_logged ..)) hv
  exact .ite (.refl s) (.ite (hw.trans (enterEvq_logged ..)) hw)

theorem logEvent_logged (s : State) (e : Event) : Logged s (logEvent s e) := by
  unfold logEvent report
  refine (latch_logged s e).trans ?_
  exact .ite (((formRecord_logged ..).trans (latch_logged ..)).trans (formRecord_logged ..)) (formRecord_logged ..)

/-! ### Places -/

theorem pairAt_congr (h : t.pairs = s.pairs) (p : Fin 48) : pairAt t p = pairAt s p := by rw [pairAt, h]; rfl

theorem lpAt_congr (h : t.lps = s.lps) (l : Fin 48) : lpAt t l = lpAt s l := by rw [lpAt, h]; rfl

@[simp] theorem pairAt_updPair (s : State) (p : Fin 48) (f : Pair → Pair) : pairAt (updPair s p f) p = f (pairAt s p) := by
  simp [pairAt, updPair, setPair]

theorem pairAt_updPair_ne (s : State) {p q : Fin 48} (f : Pair → Pair) (h : q ≠ p) :
    pairAt (updPair s p f) q = pairAt s q := by
  simp [pairAt, updPair, setPair, Fin.val_ne_of_ne h.symm]

@[simp] theorem pairAt_setCell (s : State) (k : Nat) (v : Word) (p : Fin 48) : pairAt (setCell s k v) p = pairAt s p := rfl
@[simp] theorem pairAt_updLp (s : State) (l : Fin 48) (f : Lp → Lp) (p : Fin 48) : pairAt (updLp s l f) p = pairAt s p := rfl
@[simp] theorem pairAt_taken (s : State) (n : Nat) (p : Fin 48) : pairAt (taken s n) p = pairAt s p := rfl
@[simp] theorem lpAt_setCell (s : State) (k : Nat) (v : Word) (l : Fin 48) : lpAt (setCell s k v) l = lpAt s l := rfl
@[simp] theorem lpAt_taken (s : State) (n : Nat) (l : Fin 48) : lpAt (taken s n) l = lpAt s l := rfl
@[simp] theorem pairAt_bump (s : State) (g o n i : Nat) (p : Fin 48) : pairAt (bump s g o n i) p = pairAt s p := by
  unfold bump; exact pairAt_setCell ..
@[simp] theorem lpAt_bump (s : State) (g o n i : Nat) (l : Fin 48) : lpAt (bump s g o n i) l = lpAt s l := by
  unfold bump; exact lpAt_setCell ..

@[simp] theorem pairAt_logEvent (s : State) (e : Event) (p : Fin 48) : pairAt (logEvent s e) p = pairAt s p := by
  rw [(logEvent_logged s e).eq]; rfl

@[simp] theorem lpAt_logEvent (s : State) (e : Event) (l : Fin 48) : lpAt (logEvent s e) l = lpAt s l := by
  rw [(logEvent_logged s e).eq]; rfl

namespace Logged
variable {s t : State} (h : Logged s t)
include h

theorem pairAt (p : Fin 48) : pairAt t p = pairAt s p := by rw [h.eq]; rfl
theorem lpAt (l : Fin 48) : lpAt t l = lpAt s l := by rw [h.eq]; rfl
theorem lps : t.lps = s.lps := by rw [h.eq]
theorem rotation : t.rotation = s.rotation := by rw [h.eq]
theorem sparings : t.sparings = s.sparings := by rw [h.eq]
theorem mode : t.mode = s.mode := by rw [h.eq]
theorem time : t.time = s.time := by rw [h.eq]

end Logged

end Sys2Proof.Machine

/-! Core pairs (11): mismatches. -/

namespace Sys2Proof.Machine
-- Proofs one after the other: side by side they take more memory than the check allows.
set_option Elab.async false

variable {s t : State}

/-! ### Mismatches -/

/-- The registers of a pair's record of its last mismatch. -/
theorem recordMismatch_logged (s : State) (p : Fin 48) (sl : Nat) (d r c : Bool) :
    Logged s (recordMismatch s p sl d r c) := by
  unfold recordMismatch
  extract_lets v u
  have hu : Logged s u := setCell_logged ..
  split
  · exact hu.trans (setCell_logged ..)
  · exact hu

@[simp] theorem pairAt_recordMismatch (s : State) (p : Fin 48) (sl : Nat) (d r c : Bool) (q : Fin 48) :
    pairAt (recordMismatch s p sl d r c) q = pairAt s q := (recordMismatch_logged ..).pairAt q

@[simp] theorem lpAt_recordMismatch (s : State) (p : Fin 48) (sl : Nat) (d r c : Bool) (l : Fin 48) :
    lpAt (recordMismatch s p sl d r c) l = lpAt s l := (recordMismatch_logged ..).lpAt l

@[simp] theorem pairAt_pairEvent (s : State) (p : Fin 48) (c b : Nat) (r : BitVec 4) (q : Fin 48) :
    pairAt (pairEvent s p c b r) q = pairAt s q := pairAt_logEvent ..

@[simp] theorem lpAt_pairEvent (s : State) (p : Fin 48) (c b : Nat) (r : BitVec 4) (l : Fin 48) :
    lpAt (pairEvent s p c b r) l = lpAt s l := lpAt_logEvent ..

/-- A mismatch of a running pair's outputs is counted. -/
theorem exec_mismatch_outputs {p lp : Fin 48} (hl : (pairAt s p).lp = some lp) (hr : (pairAt s p).role = .active)
    (sl : Fin 22) (n : Nat) : exec (.mismatch p .outputs sl n) s = .next (countedMismatch s p sl.val false false) := by
  have he : exec (.mismatch p .outputs sl n) s = execMismatch p .outputs sl n s := rfl
  rw [he]
  unfold execMismatch
  simp [hl, hr]

/-- A sparing with no rotation under way moves the pair to the best of the spares. -/
theorem beginSparing_moves {p q : Fin 48} (hr : s.rotation = none) (hb : bestFor s p (spares s) = some q) :
    (beginSparing s p).pairs = (updPair (updPair s p fun x => { x with role := .leaving, retrying := false }) q
      fun x => { x with role := .preparing }).pairs ∧
    (beginSparing s p).sparings = s.sparings ++ [⟨p, q, false, false, false⟩] ∧ (beginSparing s p).lps = s.lps := by
  simp [beginSparing, hr, hb]

/-- What the choice of a spare looks at in a pair. -/
def Pair.spareView (x : Pair) : Role × Bool × Word := (x.role, x.failed, x.activeTicks)

theorem spareView_updPair (s : State) (p q : Fin 48) {f : Pair → Pair} (hf : ∀ x, (f x).spareView = x.spareView) :
    (pairAt (updPair s p f) q).spareView = (pairAt s q).spareView := by
  by_cases h : q = p
  · subst h; rw [pairAt_updPair, hf]
  · rw [pairAt_updPair_ne _ _ h]

/-- The choice of a spare pair depends on the pairs' roles, failures and ages, and on the rotation. -/
theorem bestFor_congr (h : ∀ q, (pairAt t q).spareView = (pairAt s q).spareView) (hr : t.rotation = s.rotation)
    (p : Fin 48) : bestFor t p (spares t) = bestFor s p (spares s) := by
  simp only [Pair.spareView, Prod.mk.injEq] at h
  have hs : spares t = spares s := by simp only [spares, hr, fun q => (h q).1, fun q => (h q).2.1]
  have hp : preferred t p = preferred s p := by
    funext q r; simp only [preferred, fun q => (h q).2.2]
  simp only [bestFor, hs, hp]

theorem spareView_copyReset (s : State) (p q : Fin 48) : (pairAt (copyReset s p) q).spareView = (pairAt s q).spareView := by
  simp only [copyReset, pairAt_taken]
  exact spareView_updPair s p q (by intro; rfl)

/-- A mismatch that is repeated rolls its pair back and begins a sparing. -/
theorem countedMismatch_repeated {p q lp : Fin 48} (hl : (pairAt s p).lp = some lp) (hc : (pairAt s p).cleanSince = false)
    (hrot : s.rotation = none) (hb : bestFor s p (spares s) = some q) (hq : q ≠ p) (sl : Nat) :
    let t := countedMismatch s p sl false false
    (pairAt t p).role = .leaving ∧ (pairAt t q).role = .preparing ∧
      t.sparings = s.sparings ++ [⟨p, q, false, false, false⟩] ∧ archOf t lp = (lpAt s lp).ckpt := by
  intro t
  obtain ⟨u, hu, hv, hr, hs, ha⟩ : ∃ u, t = beginSparing (copyReset (rollback u lp) p) p ∧
      (∀ q, (pairAt u q).spareView = (pairAt s q).spareView) ∧ u.rotation = s.rotation ∧ u.sparings = s.sparings ∧
      lpAt u lp = lpAt s lp := by
    dsimp only [t, countedMismatch]
    rw [if_pos (by simp [hc]), hl]
    refine ⟨_, rfl, fun q => ?_, ?_, ?_, by simp⟩
    · rw [pairAt_recordMismatch, spareView_updPair _ _ _ (by intro; rfl), pairAt_bump]
    · rw [(recordMismatch_logged ..).rotation, updPair_rotation, (bump_logged ..).rotation]
    · rw [(recordMismatch_logged ..).sparings, updPair_sparings, (bump_logged ..).sparings]
  have hview (q : Fin 48) : (pairAt (copyReset (rollback u lp) p) q).spareView = (pairAt s q).spareView :=
    (spareView_copyReset ..).trans (hv q)
  have hrot' : (copyReset (rollback u lp) p).rotation = s.rotation := hr
  have hspar : (copyReset (rollback u lp) p).sparings = s.sparings := hs
  have harch : archOf (copyReset (rollback u lp) p) lp = (lpAt s lp).ckpt := by
    simp [copyReset, rollback, archOf, ha]
  generalize copyReset (rollback u lp) p = x at *
  clear_value t
  subst hu
  obtain ⟨hpairs, hsparings, hlps⟩ := beginSparing_moves (hrot'.trans hrot) ((bestFor_congr hview hrot' p).trans hb)
  refine ⟨?_, ?_, hsparings.trans (by rw [hspar]), ?_⟩
  · rw [pairAt_congr hpairs, pairAt_updPair_ne _ _ hq.symm, pairAt_updPair]
  · rw [pairAt_congr hpairs, pairAt_updPair]
  · rw [archOf, lpAt_congr hlps]
    exact harch

/-- Settles O39: a counted mismatch rolls back and retries, or rolls back and begins a sparing. -/
theorem mismatches : Obligations.Mismatches := by
  intro s p q lp sl n hl hr
  refine ⟨fun hc hw => ⟨_, exec_mismatch_outputs hl hr sl n, ?_⟩, fun hc hrot hb hq =>
    ⟨_, exec_mismatch_outputs hl hr sl n, countedMismatch_repeated hl hc hrot hb hq sl.val⟩, fun hret => ⟨_, rfl, ?_⟩, ?_⟩
  · simp [countedMismatch, hc, hw, beginRetry, copyReset, rollback, hl, archOf]
  · rw [if_pos hret]
    exact ⟨by simp, by simp [loseCycles, bump64, (bump_logged ..).lps]⟩
  · have he : exec (.mismatch p .ckptBoth sl n) s = execMismatch p .ckptBoth sl n s := rfl
    rw [he]
    unfold execMismatch checkpointLost
    simp [hl, hr, pairOwner]

end Sys2Proof.Machine

/-! What the translation of an address and the pieces of an operand leave alone. -/

namespace Sys2Proof.Machine
-- Proofs one after the other: side by side they take more memory than the check allows.
set_option Elab.async false

variable {s t : State} {lp : Fin 48}

theorem lpAt_of_steady (h : steady t = steady s) (lp : Fin 48) : (lpAt t lp).unreserved = (lpAt s lp).unreserved := by
  have hl : t.lps.map Lp.unreserved = s.lps.map Lp.unreserved := congrArg (·.lps) h
  have := congrArg (fun v => v[lp]) hl
  simpa [lpAt] using this

theorem archOf_of_steady (h : steady t = steady s) (lp : Fin 48) : archOf t lp = archOf s lp :=
  congrArg (fun x => x.arch) (lpAt_of_steady h lp : (lpAt t lp).unreserved = (lpAt s lp).unreserved)

@[simp] theorem steady_updTlbs (s : State) (lp : Fin 48) (f : Tlbs → Tlbs) : steady (updTlbs s lp f) = steady s := rfl

@[simp] theorem steady_cacheLeaf (s : State) (lp : Fin 48) (a : Access) (e : TlbEntry) :
    steady (cacheLeaf s lp a e) = steady s := by
  unfold cacheLeaf
  exact (steady_updTlbs ..).trans (steady_taken ..)

@[simp] theorem steady_cacheWalk (s : State) (lp : Fin 48) (e : WalkEntry) : steady (cacheWalk s lp e) = steady s := by
  unfold cacheWalk
  exact (steady_updTlbs ..).trans (steady_taken ..)

@[simp] theorem steady_swapEntry (s : State) (a : Nat) (x y : Word) : steady (swapEntry s a x y).1 = steady s := by
  unfold swapEntry
  extract_lets line
  split
  · split <;> simp
  · simp

@[simp] theorem steady_trainStream (s : State) (p : Fin 48) (va : Word) (b : Bool) :
    steady (trainStream s p va b) = steady s := by
  unfold trainStream
  extract_lets l
  split
  · rfl
  · split <;> exact steady_updPair ..

@[simp] theorem steady_l1Place (s : State) (p : Fin 48) (line : Nat) (b : Bool) :
    steady (l1Place s p line b) = steady s := by
  unfold l1Place
  extract_lets x t i r
  refine steady_ite rfl ?_
  split
  · rfl
  · exact (steady_updPair ..).trans (steady_taken ..)

@[simp] theorem steady_touchPiece (s : State) (lp : Fin 48) (b : Bool) (va : Word) (pa n : Nat) :
    steady (touchPiece lp b va pa n s) = steady s := by
  have htouch (p : Fin 48) (s : State) (va : Word) (line : Nat) : steady (touchLine p b s va line) = steady s := by
    unfold touchLine
    extract_lets u
    have hu : steady u = steady s := steady_trainStream ..
    exact steady_ite rfl (steady_ite ((steady_l1Place ..).trans hu) hu)
  unfold touchPiece
  split
  · rfl
  · exact steady_foldl (fun _ _ => htouch ..) _ _

/-! ### Computations -/

/-- A state with the part that traffic leaves alone as given. -/
def Calm (c : Steady) (s : State) : Prop := steady s = c

variable {c : Steady}

theorem calm_updTlbs {f : Tlbs → Tlbs} (h : Calm c s) : Calm c (updTlbs s lp f) := h

theorem calm_taken {n : Nat} (h : Calm c s) : Calm c (taken s n) := (steady_taken ..).trans h

theorem calm_cacheLeaf {a : Access} {e : TlbEntry} (h : Calm c s) : Calm c (cacheLeaf s lp a e) :=
  (steady_cacheLeaf ..).trans h

theorem calm_cacheWalk {e : WalkEntry} (h : Calm c s) : Calm c (cacheWalk s lp e) := (steady_cacheWalk ..).trans h

theorem calm_touchPiece {b : Bool} {va : Word} {pa n : Nat} (h : Calm c s) : Calm c (touchPiece lp b va pa n s) :=
  (steady_touchPiece ..).trans h

theorem calm_swapped {a : Nat} {x y : Word} (h : Calm c s) :
    Calm c (if y = x then (s, true) else swapEntry s a x y).1 := by
  split
  · exact h
  · exact (steady_swapEntry ..).trans h

theorem raiseExc_calm {code reason : Nat} {addr : Word} (h : Calm c s) :
    Leaves (Calm c) (raiseExc (α := α) code reason addr) s := h

theorem addressingExc_calm {cause level : Nat} {addr : Word} (h : Calm c s) :
    Leaves (Calm c) (addressingExc (α := α) cause level addr) s := by
  simp only [addressingExc]
  grind [leaves_throw]

theorem translationExc_calm {cause level : Nat} {addr : Word} (h : Calm c s) :
    Leaves (Calm c) (translationExc (α := α) cause level addr) s := raiseExc_calm h

theorem protectionExc_calm {cause : Nat} {addr : Word} (h : Calm c s) :
    Leaves (Calm c) (protectionExc (α := α) cause addr) s := raiseExc_calm h

theorem zoneLookup_calm {absA level : Nat} {va : Word} (h : Calm c s) :
    Leaves (Calm c) (zoneLookup lp absA level va) s := by
  simp only [zoneLookup]
  grind [leaves_pure, leaves_throw, leaves_get_bind, leaves_set, leaves_set_bind, leaves_modify,
    leaves_modify_bind, leaves_bind, addressingExc_calm, calm_taken, calm_updTlbs]

theorem tableAddr_calm {mgr : Bool} {a level : Nat} {va : Word} (h : Calm c s) :
    Leaves (Calm c) (tableAddr lp mgr a level va) s := by
  simp only [tableAddr]
  grind [leaves_pure, leaves_get_bind, leaves_bind, addressingExc_calm, translationExc_calm, zoneLookup_calm]

theorem walkFrom_calm {mgr : Bool} {ctx : Nat} {asid : BitVec 16} {va : Word} {level tbl : Nat} {u w x : Bool} :
    Calm c s → Leaves (Calm c) (walkFrom lp mgr ctx asid va level tbl u w x) s := by
  induction level generalizing s tbl u w x with
  | zero => exact translationExc_calm
  | succ level ih =>
    intro h
    simp only [walkFrom]
    grind [leaves_pure, leaves_throw, leaves_get_bind, leaves_set_bind, leaves_bind, tableAddr_calm,
      translationExc_calm, calm_cacheWalk]

theorem walk_calm {va : Word} {cached : Bool} (h : Calm c s) : Leaves (Calm c) (walk lp va cached) s := by
  simp only [walk]
  grind [leaves_pure, leaves_get_bind, leaves_bind, walkFrom_calm]

theorem finalAddr_calm {a : Nat} {mti : Option Nat} {acc : Access} {va : Word} (h : Calm c s) :
    Leaves (Calm c) (finalAddr lp a mti acc va) s := by
  simp only [finalAddr]
  grind [leaves_pure, leaves_get_bind, leaves_bind, addressingExc_calm, zoneLookup_calm]

theorem walkAllowed_calm {va : Word} {acc : Access} {asUser cached needW : Bool} (h : Calm c s) :
    Leaves (Calm c) (walkAllowed lp va acc asUser cached needW) s := by
  simp only [walkAllowed]
  grind [leaves_pure, leaves_get_bind, leaves_bind, protectionExc_calm, walk_calm]

theorem walkOrNone_calm {va : Word} {acc : Access} {asUser cached needW : Bool} (h : Calm c s) :
    Leaves (Calm c) (walkOrNone lp va acc asUser cached needW) s := by
  simp only [walkOrNone]
  grind [leaves_pure, leaves_throw, leaves_get_bind, leaves_modify, leaves_modify_bind, leaves_tryCatch,
    leaves_bind, walkAllowed_calm, tlbsOf, calm_updTlbs]

theorem finalOf_calm {old : Tlbs} {wk : Walked} {acc : Access} {va : Word} (h : Calm c s) :
    Leaves (Calm c) (finalOf lp old wk acc va) s := by
  simp only [finalOf]
  grind [leaves_pure, leaves_throw, leaves_modify, leaves_modify_bind, leaves_tryCatch, leaves_bind,
    finalAddr_calm, calm_updTlbs]

theorem translate_calm {va : Word} {acc : Access} {asUser needW : Bool} (h : Calm c s) :
    Leaves (Calm c) (translate lp va acc asUser needW) s := by
  simp only [translate, leaves_get_bind]
  split
  · split
    · exact addressingExc_calm h
    · exact finalAddr_calm h
  · split
    · exact translationExc_calm h
    · split
      · exact finalAddr_calm h
      · rw [leaves_set_bind, leaves_get_bind]
        refine leaves_bind (leaves_tryCatch (walkOrNone_calm (calm_updTlbs h)) fun e s h => ?_) fun wk s h =>
          leaves_bind (finalOf_calm h) fun r s h => ?_
        · cases e <;> grind [leaves_throw, leaves_modify_bind, calm_updTlbs, walkOrNone_calm]
        · grind [leaves_pure, leaves_throw, leaves_get_bind, leaves_set_bind, leaves_bind, calm_cacheLeaf,
            calm_swapped]

theorem pieces_calm {acc : Access} {asUser : Bool} {l : List (Word × Nat)} (h : Calm c s) :
    Leaves (Calm c) (pieces lp acc asUser l) s := by
  induction l generalizing s with
  | nil => exact h
  | cons x l ih =>
    simp only [pieces]
    grind [leaves_pure, leaves_modify_bind, leaves_get_bind, leaves_set_bind, leaves_bind, translate_calm,
      calm_touchPiece]

/-- A computation that completes leaves what it leaves. -/
theorem Leaves.of_ok {P : State → Prop} {m : Run α} {x : α} (h : Leaves P m s) (hm : m s = .ok x t) : P t := by
  unfold Leaves at h
  rwa [hm] at h

/-- An operand that is translated leaves the registers. -/
theorem steady_operand {acc : Access} {va : Word} {n : Nat} {b : Bool} {l : List Piece}
    (h : operand lp acc va n b s = .ok l t) : steady t = steady s :=
  (pieces_calm (c := steady s) rfl).of_ok h

end Sys2Proof.Machine

/-! Loads and stores of format M (04 R95, 06 R134). -/

namespace Sys2Proof.Machine
-- Proofs one after the other: side by side they take more memory than the check allows.
set_option Elab.async false

variable {s u v w : State} {lp : Fin 48}

theorem withRegs_id (s : State) (lp : Fin 48) : withRegs s lp id = s := withRegs_same s lp

theorem effAddr_run (lp : Fin 48) (b : Fin 32) (disp : BitVec 16) (s : State) :
    effAddr lp b disp s = .ok (gOf s lp b + disp.signExtend 64) s := rfl

/-- Normal memory is reached at any alignment. -/
theorem checkAligned_normal {va : Word} {n : Nat} {l : List Piece} (h : allNormal l = true) (s : State) :
    checkAligned va n l s = .ok () s := by
  simp [checkAligned, h]

/-- A load of Normal memory reads its pieces. -/
theorem load_run {dst : LoadDst} {n : Nat} {b : Fin 32} {disp : BitVec 16} {up asUser : Bool} {bs : List Byte}
    (h : Loads u lp (gOf u lp b + disp.signExtend 64) n asUser bs v) :
    load .no lp dst n b disp up asUser (advanced u lp 4) = .ok () (withRegs v lp fun a =>
      if up then (putLoad a dst bs).setG b (gOf u lp b + disp.signExtend 64) else putLoad a dst bs) := by
  obtain ⟨l, ⟨ho, hn⟩, hr, -⟩ := h
  have hl : ∀ pa k, l ≠ [⟨pa, k, .device⟩] := by rintro pa k rfl; simp [allNormal] at hn
  unfold load
  rw [run_bind_ok (effAddr_run ..), gOf_advanced, run_bind_ok ho, run_bind_ok (checkAligned_normal hn v)]
  split
  · exact absurd rfl (hl _ _)
  · rw [run_bind_ok hr, loadDone]
    cases up <;> rfl

/-- A store to Normal memory puts its bytes in the gate. -/
theorem store_run {f : Arch → Nat} {n : Nat} {b : Fin 32} {disp : BitVec 16} {up asUser : Bool} {value : Nat}
    (hf : ∀ a p, f { a with pswa := p } = f a) (hv : f (archOf u lp) = value)
    (h : Saves u lp (gOf u lp b + disp.signExtend 64) n asUser value w) :
    store .no lp f n b disp up asUser (advanced u lp 4) = .ok () (withRegs w lp fun a =>
      if up then a.setG b (gOf u lp b + disp.signExtend 64) else a) := by
  obtain ⟨l, v, ⟨ho, hn⟩, hs⟩ := h
  have ha : f (lpAt v lp).arch = value := by
    rw [← hv]
    have := archOf_of_steady (steady_operand ho) lp
    rw [archOf, archOf, arch_advanced] at this
    rw [this]
    exact hf ..
  unfold store
  have hw (va : Word) : specAt va (Rep.no.isWhole && decide (va.toNat % n ≠ 0)) 0 (advanced u lp 4) =
      .ok () (advanced u lp 4) := by simp [Rep.isWhole]
  rw [run_bind_ok (effAddr_run ..), gOf_advanced, run_bind_ok (hw _), run_bind_ok ho, run_bind_ok (checkAligned_normal hn v),
    run_bind_ok (run_getArch ..), ha, run_bind_ok hs]
  cases up
  · simp
  · simp [withRegs]

theorem notCompat_run (h : s.mode.mode ≠ .compat) : notCompat s = .ok () s := by
  rw [notCompat, run_bind_ok (run_get s), if_neg h]; rfl

theorem userForm_run (hp : 1 ≤ privOf (archOf s lp).psws) (ht : bit (archOf s lp).psws 60 = true) :
    userForm lp s = .ok () s := by
  have hp' : ¬ privOf (lpAt s lp).arch.psws < 1 := Nat.not_lt.2 hp
  have ht' : bit (lpAt s lp).arch.psws 60 = true := ht
  rw [userForm, run_bind, run_needPriv, if_neg hp']
  simp [run_bind, ht']

section
variable (h : Begins s lp {} u)
include h

/-- A load answers with its register written. -/
theorem load_answer {dst : LoadDst} {n : Nat} {b : Fin 32} {disp : BitVec 16} {asUser : Bool} {bs : List Byte}
    {g : Arch → Arch} (hl : Loads u lp (gOf u lp b + disp.signExtend 64) n asUser bs v)
    (hg : ∀ a, putLoad a dst bs = g a) :
    runInstr lp {} (load .no lp dst n b disp false asUser) s = leaves v lp {} g := by
  rw [begins_ok h (load_run hl), leaves]
  simp [hg]

/-- A store answers with its bytes in the gate. -/
theorem store_answer {f : Arch → Nat} {n : Nat} {b : Fin 32} {disp : BitVec 16} {asUser : Bool}
    (hf : ∀ a p, f { a with pswa := p } = f a)
    (hs : Saves u lp (gOf u lp b + disp.signExtend 64) n asUser (f (archOf u lp)) w) :
    runInstr lp {} (store .no lp f n b disp false asUser) s = leaves w lp {} id := by
  rw [begins_ok h (store_run hf rfl hs)]
  simp [leaves, withRegs_id]

end

theorem mode_of_advanced (hm : u.mode.mode ≠ .compat) (n : Nat) : (advanced u lp n).mode.mode ≠ .compat := hm

theorem userForm_advanced (hp : 1 ≤ privOf (archOf u lp).psws) (ht : bit (archOf u lp).psws 60 = true) (n : Nat) :
    userForm lp (advanced u lp n) = .ok () (advanced u lp n) :=
  userForm_run (by rw [archOf, arch_advanced]; exact hp) (by rw [archOf, arch_advanced]; exact ht)

theorem updateForm_run {t b : Fin 32} (hbt : b ≠ t) (hb : b ≠ 0) (s : State) :
    specIf (decide (b = t) || decide (b = 0)) 0 s = .ok () s := by
  simp [hbt, hb]

/-- Settles O7: every load of format M is `load` with its width and extension. -/
theorem loadsComplete : Obligations.LoadsComplete := by
  intro lp t b disp s u v bs h va zero sign flt
  have hlen {n : Nat} {x : Bool} (hl : Loads u lp va n x bs v) : bs.length = n := by
    obtain ⟨_, _, _, hn⟩ := hl
    exact hn
  have hzero {n : Nat} {x : Bool} (hl : Loads u lp va n x bs v) (a : Arch) : putLoad a (.g t false) bs =
      a.setG t ((BitVec.ofNat (8 * n) (beVal bs)).setWidth 64) := by
    obtain rfl := hlen hl; rfl
  have hsign {n : Nat} {x : Bool} (hl : Loads u lp va n x bs v) (a : Arch) : putLoad a (.g t true) bs =
      a.setG t ((BitVec.ofNat (8 * n) (beVal bs)).signExtend 64) := by
    obtain rfl := hlen hl; rfl
  have hflt {n : Nat} {x : Bool} (hl : Loads u lp va n x bs v) (a : Arch) : putLoad a (.f t) bs =
      a.setF t (BitVec.ofNat 128 (beVal bs * 2 ^ (128 - 8 * n))) := by
    obtain rfl := hlen hl; rfl
  refine ⟨fun hl => ⟨load_answer h hl (hzero hl), load_answer h hl (hsign hl)⟩,
    fun hl => ⟨load_answer h hl (hzero hl), load_answer h hl (hsign hl)⟩,
    fun hl => ⟨load_answer h hl (hzero hl), load_answer h hl (hsign hl), load_answer h hl (hflt hl)⟩,
    fun hl => ⟨load_answer h hl (hzero hl), load_answer h hl (hflt hl), fun hbt hb => ?_⟩,
    fun hl hp ht => ?_, fun hl hm => ?_⟩
  · refine (begins_ok (body := ldupBody .no lp t b disp) h ?_).trans rfl
    rw [ldupBody, run_bind_ok (updateForm_run hbt hb _), load_run hl]
    simp [hzero hl]
    rfl
  · refine (begins_ok (body := lduaBody .no lp t b disp) h ?_).trans rfl
    rw [lduaBody, run_bind_ok (userForm_advanced hp ht 4), load_run hl]
    simp [hzero hl]
  · refine (begins_ok (body := lfqBody .no lp t b disp) h ?_).trans rfl
    rw [lfqBody, run_bind_ok (notCompat_run (mode_of_advanced hm 4)), load_run hl]
    simp [hflt hl]

/-- Settles O8: every store of format M is `store` with its width and its register. -/
theorem storesComplete : Obligations.StoresComplete := by
  intro lp t b disp s u w h va g f done
  refine ⟨fun hs => store_answer h (fun _ _ => rfl) hs, fun hs => store_answer h (fun _ _ => rfl) hs,
    fun hs => store_answer h (fun _ _ => rfl) hs, fun hs => ⟨store_answer h (fun _ _ => rfl) hs, fun hbt hb => ?_⟩,
    fun hs hp ht => ?_, fun hs => store_answer h (fun _ _ => rfl) hs, fun hs => store_answer h (fun _ _ => rfl) hs,
    fun hs hm => ?_⟩
  · refine (begins_ok (body := stdupBody .no lp t b disp) h ?_).trans rfl
    rw [stdupBody, run_bind_ok (updateForm_run hbt hb _), store_run (fun _ _ => rfl) rfl hs]
    rfl
  · refine (begins_ok (body := stuaBody .no lp t b disp) h ?_).trans rfl
    rw [stuaBody, run_bind_ok (userForm_advanced hp ht 4), store_run (fun _ _ => rfl) rfl hs]
    rfl
  · refine (begins_ok (body := stfqBody .no lp t b disp) h ?_).trans rfl
    rw [stfqBody, run_bind_ok (notCompat_run (mode_of_advanced hm 4)), store_run (fun _ _ => rfl) rfl hs]
    rfl

end Sys2Proof.Machine

/-! Barriers, time, control registers and calls (04, 07), and what an exception of an instruction enters. -/

namespace Sys2Proof.Machine
-- Proofs one after the other: side by side they take more memory than the check allows.
set_option Elab.async false

variable {s u v w : State} {lp : Fin 48}

theorem unused_zero (l : List (Fin 32)) (hl : ∀ i ∈ l, i = 0) (s : State) : unused l s = .ok () s := by
  have : (l.any fun i => decide (i ≠ 0)) = false := by simpa using hl
  rw [run_unused, this]; rfl

theorem needPriv_run {p : Nat} (hp : p ≤ privOf (archOf s lp).psws) : needPriv lp p s = .ok ⟨⟩ s := by
  have : ¬ privOf (lpAt s lp).arch.psws < p := Nat.not_lt.2 hp
  rw [run_needPriv, if_neg this]

theorem privOf_advanced (u : State) (lp : Fin 48) (n : Nat) :
    privOf (archOf (advanced u lp n) lp).psws = privOf (archOf u lp).psws := by
  rw [archOf, arch_advanced]; rfl

theorem fence_answer {k : FenceKind} (h : Begins s lp .serial u) (hk : k = .l ∨ storesDone (advanced u lp 4) lp = true) :
    runInstr lp .serial (fenceBody k lp 0 0 0 0) s = regsAnswer u lp .serial id := by
  refine begins_regs h ?_
  rw [fenceBody, run_bind_ok (unused_zero _ (by simp) _), run_bind_ok (run_get _)]
  have : (decide (k ≠ .l) && !storesDone (advanced u lp 4) lp) = false := by
    rcases hk with hk | hk <;> simp [hk]
  have hs : Form.serial.len = 4 := rfl
  rw [hs, this, withRegs_id]
  rfl

theorem mfc_answer (h : Begins s lp .serial u) (d : Fin 32) {c : Fin 32} (h14 : c ≠ 14) (h15 : c ≠ 15) (hc : c.val < 28)
    (hp : privC c ≤ privOf (archOf u lp).psws) : runInstr lp .serial (mfcBody lp d 0 0 c) s =
      regsAnswer u lp .serial fun r => r.setG d (if c = 13 then BitVec.ofNat 64 (pkgId u * 2 ^ 14 + lp.val)
        else (archOf u lp).c[c]) := by
  refine begins_regs h ?_
  have hr : reservedC c = false := by simp [reservedC, h14, h15, hc]
  rw [mfcBody, run_bind_ok (needPriv_run (by rwa [privOf_advanced])), run_bind_ok (unused_zero _ (by simp) _), hr,
    run_bind_ok (run_specIf ..), run_bind_ok (run_get _), arch_advanced]
  rfl

theorem mtc_answer (h : Begins s lp .serial u) {a c : Fin 32} (h14 : c ≠ 14) (h15 : c ≠ 15) (hc : c.val < 28)
    (hp : privC c ≤ privOf (archOf u lp).psws) (h13 : c ≠ 13)
    (hr : refusesC (advanced u lp 4) lp c (gOf u lp a) = none) : runInstr lp .serial (mtcBody lp 0 a 0 c) s =
      regsAnswer u lp .serial fun r => { r with c := r.c.set c (gOf u lp a &&& maskC c) } := by
  refine begins_regs h ?_
  have hres : (reservedC c || decide (c = 13)) = false := by simp [reservedC, h14, h15, hc, h13]
  have hg : (lpAt (advanced u lp 4) lp).arch.getG a = gOf u lp a := gOf_advanced ..
  have hs : Form.serial.len = 4 := rfl
  rw [hs, mtcBody, run_bind_ok (needPriv_run (by rwa [privOf_advanced])), run_bind_ok (unused_zero _ (by simp) _), hres,
    run_bind_ok (run_specIf ..), run_bind_ok (run_readG ..), run_bind_ok (run_get _), hg, hr]
  rfl

/-- The return from an exception takes the PSW saved for its state. -/
theorem rfe_answer (h : Begins s lp .serial u) {pswa psws : Word} (hp : 1 ≤ privOf (archOf u lp).psws)
    (hsaved : (if privOf (archOf u lp).psws = 2 then ((archOf u lp).c[19], (archOf u lp).c[20])
      else ((archOf u lp).c[3], (archOf u lp).c[4])) = (pswa, psws))
    (h3 : privOf psws ≠ 3) (hle : privOf psws ≤ privOf (archOf u lp).psws)
    (hpart : privOf (archOf u lp).psws = 2 → privOf psws < 2 → lpPart (advanced u lp 4) lp ≠ mgrCtx) :
    runInstr lp .serial (rfeBody lp 0 0 0 0) s = .next (finish (updLp (advanced u lp 4) lp fun y =>
      { y with arch := { y.arch with pswa := pswa &&& 0xFFFFFFFFFFFFFFFC, psws := psws &&& 0xFE00000000000000 },
               handler := false }) lp .serial) := by
  refine begins_ok h ?_
  have hs : Form.serial.len = 4 := rfl
  have hlow : (decide (privOf psws = 3) || decide (privOf psws > privOf (archOf u lp).psws)) = false := by
    simp [h3, hle]
  have hmgr : (decide (privOf (archOf u lp).psws = 2) && decide (privOf psws < 2) &&
      decide (lpPart (advanced u lp 4) lp = mgrCtx)) = false := by
    simpa using hpart
  rw [hs, rfeBody, run_bind_ok (needPriv_run (by rwa [privOf_advanced])), run_bind_ok (unused_zero _ (by simp) _),
    run_bind_ok (run_get _), arch_advanced]
  simp only [archOf] at hsaved hlow hmgr ⊢
  by_cases h2 : privOf (lpAt u lp).arch.psws = 2
  · simp only [h2, if_true] at hsaved
    cases hsaved
    simp only [h2] at hlow hmgr
    simp only [h2, if_true, run_bind, run_specIf, run_modArch, run_modify, hlow, hmgr, Bool.false_eq_true, if_false,
      updLp_updLp]
  · simp only [h2, if_false] at hsaved
    cases hsaved
    simp only [h2, decide_false, Bool.false_and, if_false, run_bind, run_specIf, run_modArch, run_modify, hlow,
      Bool.false_eq_true, updLp_updLp]
    rw [if_neg (by simpa using ⟨h3, hle⟩)]

/-- Settles O9: each form is its body run from a processor that has moved on. -/
theorem controlCompletes : Obligations.ControlCompletes := by
  intro lp d a c off s u x v
  refine ⟨fun h => ⟨?_, fun hd => ⟨?_, ?_⟩⟩, fun h => ⟨fence_answer h (.inl rfl), fun hs => ⟨fence_answer h (.inr hs), fence_answer h (.inr hs)⟩, ?_, ?_⟩⟩
  · refine begins_regs (body := rdtickBody lp d 0 0 0) h ?_
    rw [rdtickBody, run_bind_ok (unused_zero _ (by simp) _), run_bind_ok (run_get _)]
    rfl
  · intro p hp hz
    simp [localOff, hp, hz]
  · refine begins_ok (body := rdtodBody lp d 0 0 0 off) h ?_
    have hodd : decide (d.val % 2 = 1) = false := by simp [hd]
    rw [rdtodBody, run_bind_ok (unused_zero _ (by simp) _), hodd, run_bind_ok (run_specIf ..), run_bind_ok (run_get _),
      run_bind_ok (run_set ..), run_bind_ok (run_writeG ..), run_writeG, updLp_updLp]
    rfl
  · intro h14 h15 hc hp
    have hp : privC c ≤ privOf x.psws := by unfold privC; split at hp <;> split <;> omega
    exact ⟨mfc_answer h d h14 h15 hc hp, fun h13 hr => mtc_answer h h14 h15 hc hp h13 hr⟩
  · intro hp pswa psws h3 hle hpart
    exact rfe_answer h hp (by dsimp only [pswa, psws, x]; split <;> rfl) h3 hle hpart

/-! ### Calls -/

/-- A body that ends in a completing exception: the registers after its entry. -/
theorem done_entry {f : Form} {body : Run Unit} {t v : State} {e : Exc} (hr : lpReady s lp = true)
    (hp : prepare s lp f.before = some t) (hf : fetchInstr lp f.len t = .ok () u)
    (hb : body (advanced u lp f.len) = .error (.done e) v) (hc : closeRoom (lpAt v lp) = true) (hfirst : e.first = false)
    (hlong : e.long = false) :
    ∃ y, runInstr lp f body s = .next y ∧ archOf y lp =
      entryArch (archOf v lp) (toManager (archOf v lp) e) false 0 (codeWord e.reason f.ilc e.code) e.addr := by
  refine ⟨_, runInstr_done hr hp hf hb hc, ?_⟩
  rw [archOf_endStep, archOf_enterExc, hfirst, hlong]
  rfl

/-- A body that ends in a nullifying exception: the registers are as before it, and entered from there. -/
theorem exc_entry {f : Form} {body : Run Unit} {t v : State} {e : Exc} (hr : lpReady s lp = true)
    (hp : prepare s lp f.before = some t) (hf : fetchInstr lp f.len t = .ok () u)
    (hb : body (advanced u lp f.len) = .error (.exc e) v) (hc : closeRoom (lpAt t lp) = true) (hrep : f.rep = false)
    (hfirst : e.first = false) (hlong : e.long = false) :
    ∃ y, runInstr lp f body s = .next y ∧ archOf y lp =
      entryArch (archOf t lp) (toManager (archOf t lp) e) false 0 (codeWord e.reason f.ilc e.code) e.addr := by
  refine ⟨_, runInstr_exc hr hp hf hb hc, ?_⟩
  rw [archOf_endStep, archOf_enterExc, archOf_nullified hrep, hfirst, hlong]
  rfl

/-- The two bits of PRIV. -/
theorem privOf_eq (w : Word) : privOf w = (bit w 63).toNat * 2 + (bit w 62).toNat := by
  have h (i : Nat) : (bit w i).toNat = w.toNat / 2 ^ i % 2 := by
    rw [bit, BitVec.getLsbD, Nat.toNat_testBit]
  rw [h, h, privOf, field, Nat.shiftRight_eq_div_pow]
  omega

theorem bit_entryPsws (w : Word) (mgr mce : Bool) (i : Nat) : bit (entryPsws w mgr mce) i =
    (bit w i && bit (if mce then 0x31FFFFFFFFFFFFFF else 0x33FFFFFFFFFFFFFF : Word) i ||
      bit (if mgr then 0x8000000000000000 else 0x4000000000000000 : Word) i) := by
  simp [bit, entryPsws]

theorem privOf_entryPsws (w : Word) (mgr mce : Bool) : privOf (entryPsws w mgr mce) = if mgr then 2 else 1 := by
  rw [privOf_eq, bit_entryPsws, bit_entryPsws]
  cases mgr <;> cases mce <;> simp [bit]

theorem closeRoom_advanced (u : State) (lp : Fin 48) (n : Nat) :
    closeRoom (lpAt (advanced u lp n) lp) = closeRoom (lpAt u lp) := by
  simp [advanced, closeRoom]

theorem archOf_advanced (u : State) (lp : Fin 48) (n : Nat) :
    archOf (advanced u lp n) lp = { archOf u lp with pswa := (archOf u lp).pswa + BitVec.ofNat 64 n } :=
  arch_advanced ..

section
variable {t : State} (hr : lpReady s lp = true)
include hr

theorem mcall_enters {a : Fin 32} (hp : prepare s lp true = some t) (hf : fetchInstr lp 4 t = .ok () u)
    (hc : closeRoom (lpAt u lp) = true) (hpriv : 1 ≤ privOf (archOf u lp).psws) :
    Gives (.mcall lp 0 a 0 0) s fun y => archOf y lp =
      entryArch { archOf u lp with pswa := (archOf u lp).pswa + 4 } true false 0
        (codeWord ((gOf u lp a).toNat % 65536 % 256) 1 0xC) (BitVec.ofNat 64 ((gOf u lp a).toNat % 65536)) := by
  have hb : mcallBody lp 0 a 0 0 (advanced u lp 4) =
      .error (.done (callExc 0xC (gOf u lp a).toNat)) (advanced u lp 4) := by
    rw [mcallBody, run_bind_ok (needPriv_run (by rwa [privOf_advanced])), run_bind_ok (unused_zero _ (by simp) _),
      run_bind_ok (run_readG ..), ← gOf_advanced u lp 4]
    rfl
  obtain ⟨y, hy, ha⟩ := done_entry (f := .serial) hr hp hf hb (by rwa [closeRoom_advanced]) rfl rfl
  refine ⟨y, hy, ha.trans ?_⟩
  rw [archOf_advanced, Nat.mod_mod_of_dvd _ (by decide)]
  simp [toManager, callExc, Form.ilc, Form.serial]

theorem svc_enters {i : BitVec 16} (hp : prepare s lp true = some t) (hf : fetchInstr lp 4 t = .ok () u)
    (hc : closeRoom (lpAt u lp) = true) :
    Gives (.svc lp 0 0 i) s fun y => archOf y lp =
      entryArch { archOf u lp with pswa := (archOf u lp).pswa + 4 }
        (decide (privOf (archOf u lp).psws = 2) || bit (archOf u lp).c[23] 11) false 0
        (codeWord (i.toNat % 256) 1 0xB) (BitVec.ofNat 64 i.toNat) := by
  have hb : svcBody 0 0 i (advanced u lp 4) = .error (.done (callExc 0xB i.toNat)) (advanced u lp 4) := by
    rw [svcBody, run_bind_ok (unused_zero _ (by simp) _)]
    rfl
  obtain ⟨y, hy, ha⟩ := done_entry (f := .serial) hr hp hf hb (by rwa [closeRoom_advanced]) rfl rfl
  refine ⟨y, hy, ha.trans ?_⟩
  rw [archOf_advanced]
  have hi : i.toNat % 65536 = i.toNat := Nat.mod_eq_of_lt i.isLt
  simp [toManager, callExc, Form.ilc, Form.serial, hi]

theorem unassignedOpcode_enters {w : BitVec 32} (hp : prepare s lp false = some t) (hw : assignedWord w = false) {n : Nat}
    (hn : (if field w 26 6 ≥ 0x38 then 8 else 4) = n) (hf : fetchInstr lp n t = .ok () u)
    (hc : closeRoom (lpAt t lp) = true) :
    Gives (.unassignedOpcode lp w) s fun y => archOf y lp =
      entryArch (archOf t lp) (decide (privOf (archOf t lp).psws = 2) || bit (archOf t lp).c[23] 1) false 0
        (codeWord 0 (if n = 8 then 2 else 1) 1) 0 := by
  obtain ⟨y, hy, ha⟩ := exc_entry (f := { len := n }) (body := operationExc) hr hp hf rfl hc rfl rfl rfl
  refine ⟨y, ?_, ha.trans ?_⟩
  · have he : exec (.unassignedOpcode lp w) s = execUnassignedOpcode lp w s := rfl
    rw [he, execUnassignedOpcode, hw, if_neg (by simp), hn]
    exact hy
  · simp [toManager, Form.ilc]

end

/-- A register of the table of control registers that an entry does not write. -/
theorem entryArch_c_ne (a : Arch) (mce : Bool) (vec : Nat) (cw addr : Word) (k : Fin 32) :
    (k ≠ 19 → k ≠ 20 → k ≠ 21 → k ≠ 22 → (entryArch a true mce vec cw addr).c[k] = a.c[k]) ∧
    (k ≠ 3 → k ≠ 4 → k ≠ 5 → k ≠ 6 → (entryArch a false mce vec cw addr).c[k] = a.c[k]) := by
  constructor
  · intro h1 h2 h3 h4
    have h1 : 19 ≠ k.val := fun h => h1 (Fin.ext h.symm)
    have h2 : 20 ≠ k.val := fun h => h2 (Fin.ext h.symm)
    have h3 : 21 ≠ k.val := fun h => h3 (Fin.ext h.symm)
    have h4 : 22 ≠ k.val := fun h => h4 (Fin.ext h.symm)
    simp [entryArch, Vector.getElem_set, h1, h2, h3, h4]
  · intro h1 h2 h3 h4
    have h1 : 3 ≠ k.val := fun h => h1 (Fin.ext h.symm)
    have h2 : 4 ≠ k.val := fun h => h2 (Fin.ext h.symm)
    have h3 : 5 ≠ k.val := fun h => h3 (Fin.ext h.symm)
    have h4 : 6 ≠ k.val := fun h => h4 (Fin.ext h.symm)
    simp [entryArch, Vector.getElem_set, h1, h2, h3, h4]

/-- The bits of the status word that an entry fixes or leaves. -/
theorem entryArch_keeps (a : Arch) (mgr : Bool) (cw addr : Word) :
    let y := entryArch a mgr false 0 cw addr
    bit y.psws 59 = false ∧ bit y.psws 58 = false ∧ bit y.psws 61 = bit a.psws 61 ∧ bit y.psws 60 = bit a.psws 60 ∧
      bit y.psws 57 = bit a.psws 57 ∧ y.g = a.g ∧ y.f = a.f ∧ y.fpc = a.fpc := by
  simp only [entryArch, bit_entryPsws]
  cases mgr <;> simp [bit]

/-- Settles O10: the three bodies end in their exception, and `entryArch` is read off. -/
theorem callsEnter : Obligations.CallsEnter := by
  refine ⟨fun lp a i w s t u hr => ⟨fun hp hf hc => ⟨mcall_enters hr hp hf hc, svc_enters hr hp hf hc⟩,
    fun hp hw hf hc => unassignedOpcode_enters hr hp hw rfl hf hc⟩, fun a code addr => ⟨?_, ?_, ?_, ?_, ?_⟩⟩
  · simp [entryArch, privOf_entryPsws]
  · simp [entryArch, privOf_entryPsws]
  · simpa using ⟨entryArch_keeps a true code addr, entryArch_keeps a false code addr⟩
  · exact fun k => (entryArch_c_ne a false 0 code addr k).1
  · exact fun k => (entryArch_c_ne a false 0 code addr k).2

end Sys2Proof.Machine

/-! Where a form is refused (04). -/

namespace Sys2Proof.Machine
-- Proofs one after the other: side by side they take more memory than the check allows.
set_option Elab.async false
open Sys2Proof.Tests (sCompat prep fetched prep_of ok_of)

/-- Compatibility operating, with the registers that a repeat of several iterations began from, and 1 in G3 since. -/
def repeating : State := updLp sCompat 0 fun x => { x with repN := some x.arch, arch := x.arch.setG 3 1 }

/-- What the refusal of a repeat leaves in G3. -/
def refusedG3 : Option Word :=
  match exec (.repI 0 2 0 (.addi 0 3 3 1)) repeating with
  | .next y => some (gOf y 0 3)
  | _ => none

/-- Refutes O21: a repeat that is refused while registers to begin from again are kept enters its exception with
those, not with the registers it finds. -/
theorem not_programExceptions : ¬ Obligations.ProgramExceptions := by
  rintro ⟨-, hcompat, -⟩
  obtain ⟨y, hy, hg⟩ := hcompat 0 (.repI 0 2 0 (.addi 0 3 3 1)) { len := 8, rep := true } repeating
    (prep repeating 0 false) (fetched repeating 0 false 8) 2 0 0 0 0 0 (.addi 0 3 3 1)
    (.inl ⟨rfl, by decide +kernel, rfl⟩) (by decide +kernel) (prep_of (by decide +kernel)) (ok_of (by decide +kernel))
    (by decide +kernel) (by decide +kernel)
  have hfound : gOf (prep repeating 0 false) 0 3 = 1 := by decide +kernel
  have hleft : refusedG3 = some 0 := by decide +kernel
  have hentered : gOf y 0 3 = gOf (prep repeating 0 false) 0 3 :=
    by
    have := congrArg (fun x : Arch => x.getG 3) hg
    exact this
  rw [refusedG3, hy] at hleft
  simp [hentered, hfound] at hleft

end Sys2Proof.Machine

/-! Repeated instructions (04 R105 to R108). -/

namespace Sys2Proof.Machine
-- Proofs one after the other: side by side they take more memory than the check allows.
set_option Elab.async false

variable {s t u v : State} {lp : Fin 48}

/-! ### What the fetch of an instruction leaves alone -/

@[simp] theorem steady_touchFetch (lp : Fin 48) (pa : Nat) (s : State) : steady (touchFetch lp pa s) = steady s := by
  unfold touchFetch
  split
  · rfl
  · exact steady_ite (steady_l1Place ..) rfl

@[simp] theorem steady_lostRead (s : State) (lp : Fin 48) (line : Nat) : steady (lostRead s lp line) = steady s := by
  unfold lostRead
  split
  · unfold lostEvent
    split <;> simp
  · rfl

section
variable {c : Steady}

theorem calm_touchFetch {pa : Nat} (h : Calm c s) : Calm c (touchFetch lp pa s) := (steady_touchFetch ..).trans h

theorem calm_lostRead {line : Nat} (h : Calm c s) : Calm c (lostRead s lp line) := (steady_lostRead ..).trans h

theorem fetchWord_calm {va : Word} (h : Calm c s) : Leaves (Calm c) (fetchWord lp va) s := by
  simp only [fetchWord]
  grind [leaves_pure, leaves_throw, leaves_get_bind, leaves_set, leaves_set_bind, leaves_bind, translate_calm,
    calm_touchFetch, calm_lostRead]

theorem getArch_calm (h : Calm c s) : Leaves (Calm c) (getArch lp) s := h

theorem fetchInstr_calm {len : Nat} (h : Calm c s) : Leaves (Calm c) (fetchInstr lp len) s := by
  simp only [fetchInstr]
  grind [leaves_pure, leaves_throw, leaves_tryCatch, leaves_bind, getArch_calm, fetchWord_calm]

/-- The words of an instruction are fetched with the processor left as it was. -/
theorem steady_fetchInstr {len : Nat} {x : Unit} (h : fetchInstr lp len s = .ok x t) : steady t = steady s :=
  (fetchInstr_calm (c := steady s) rfl).of_ok h

end

@[simp] theorem wait_closeInterval (s : State) (lp : Fin 48) : (lpAt (closeInterval s lp) lp).wait = (lpAt s lp).wait := by
  unfold closeInterval markClean
  split <;> simp [closeLp]

/-- A processor that begins an instruction waits for nothing. -/
theorem wait_begins {f : Form} (h : Begins s lp f u) : (lpAt u lp).wait = .none := by
  obtain ⟨hr, t, hp, hf⟩ := h
  have hs : (lpAt s lp).wait = .none := by
    simp only [lpReady, Bool.and_eq_true, decide_eq_true_eq] at hr
    obtain ⟨⟨⟨⟨-, hw⟩, -⟩, -⟩, -⟩ := hr
    exact hw
  have ht : (lpAt t lp).wait = (lpAt s lp).wait := by
    unfold prepare at hp
    split at hp
    · split at hp <;> simp only [Option.some.injEq, reduceCtorEq] at hp
      rw [← hp, wait_closeInterval]
    · simp only [Option.some.injEq] at hp
      rw [← hp]
  have hu : (lpAt u lp).wait = (lpAt t lp).wait :=
    congrArg (fun x => x.wait) (lpAt_of_steady (steady_fetchInstr hf) lp : (lpAt u lp).unreserved = (lpAt t lp).unreserved)
  rw [hu, ht, hs]

/-! ### Iterations -/

/-- A repeated addition may begin wherever its REP may. -/
theorem repChecks_addi {n d a : Fin 32} (i : BitVec 16) (hn : n ≠ 0) (hd : d ≠ n) (s : State) :
    repChecks lp n 0 (repBody lp (.addi lp d a i)) s = .ok () s := by
  have h : (decide (n = 0) || false || [d].contains n || decide ((0 : BitVec 20) ≠ 0)) = false := by
    simp [hn, hd.symm]
  have hp : needPriv lp 0 s = .ok () s := needPriv_run (Nat.zero_le _)
  rw [repChecks]
  show (needPriv lp 0 >>= fun _ => specIf (decide (n = 0) || false || [d].contains n || decide ((0 : BitVec 20) ≠ 0)) 0) s = _
  rw [run_bind_ok hp, h, run_specIf]
  rfl

theorem repCount_run (lp : Fin 48) (n : Fin 32) (s : State) :
    repCount lp n s = .ok ⟨⟩ (withRegs s lp fun r => r.setG n (r.getG n - 1)) := by
  simp only [repCount, run_bind, run_readG, run_writeG]
  rfl

/-! ### General registers written one after the other -/

@[simp] theorem setG_getG (a : Arch) (i : Fin 32) : a.setG i (a.getG i) = a := by
  unfold Arch.setG Arch.getG
  split
  · rfl
  · simp

@[simp] theorem setG_setG (a : Arch) (i : Fin 32) (v w : Word) : (a.setG i v).setG i w = a.setG i w := by
  unfold Arch.setG
  split
  · rfl
  · simp

theorem setG_comm (a : Arch) {i j : Fin 32} (h : i ≠ j) (v w : Word) :
    (a.setG i v).setG j w = (a.setG j w).setG i v := by
  have hv : i.val ≠ j.val := Fin.val_ne_of_ne h
  unfold Arch.setG
  split
  · rfl
  · split
    · rfl
    · exact congrArg (fun g => { a with g := g }) (Vector.set_comm _ _ hv)

/-- `k` additions of an immediate, counted in another register. -/
def addTimes (d n : Fin 32) (i : BitVec 16) (k : Nat) (r : Arch) : Arch :=
  (r.setG d (r.getG d + BitVec.ofNat 64 k * i.signExtend 64)).setG n (r.getG n - BitVec.ofNat 64 k)

theorem addTimes_zero (d n : Fin 32) (i : BitVec 16) : addTimes d n i 0 = id := by
  funext r
  simp [addTimes, getG_setG]

theorem addTimes_succ {d n : Fin 32} (i : BitVec 16) (k : Nat) (r : Arch) (hn : n ≠ 0) (h : d ≠ n) :
    addTimes d n i k (addTimes d n i 1 r) = addTimes d n i (k + 1) r := by
  have hcount (x : Word) : x - 1 - BitVec.ofNat 64 k = x - BitVec.ofNat 64 (k + 1) := by
    rw [BitVec.ofNat_add, BitVec.sub_sub, BitVec.add_comm]
    rfl
  have hn' : (addTimes d n i 1 r).getG n = r.getG n - 1 := by simp [addTimes, getG_setG, hn]
  by_cases hz : d = 0
  · subst hz
    simp [addTimes, getG_setG, hn, ← hcount]
  · have hd' : (addTimes d n i 1 r).getG d = r.getG d + i.signExtend 64 := by simp [addTimes, getG_setG, hz, h]
    have hsum : r.getG d + i.signExtend 64 + BitVec.ofNat 64 k * i.signExtend 64 =
        r.getG d + BitVec.ofNat 64 (k + 1) * i.signExtend 64 := by
      rw [BitVec.ofNat_add, BitVec.add_mul, BitVec.add_assoc, BitVec.add_comm (i.signExtend 64)]
      simp
    rw [addTimes, hd', hn', addTimes, setG_comm _ h.symm, setG_setG, setG_setG, addTimes, hsum, hcount]

/-- One iteration of an addition, before it is counted. -/
theorem iteration_addi (r : Rep) (d : Fin 32) (i : BitVec 16) (s : State) :
    (repBody lp (.addi lp d d i)).run r s = .ok () (withRegs s lp fun r => r.setG d (r.getG d + i.signExtend 64)) :=
  immediate_run (fun a i => a + i.signExtend 64) lp d d i s

theorem counted_addi {n d : Fin 32} (i : BitVec 16) (hd : d ≠ n) (s : State) :
    repCount lp n (withRegs s lp fun r => r.setG d (r.getG d + i.signExtend 64)) =
      .ok ⟨⟩ (withRegs s lp (addTimes d n i 1)) := by
  have hs (r : Arch) : addTimes d n i 1 r =
      (r.setG d (r.getG d + i.signExtend 64)).setG n ((r.setG d (r.getG d + i.signExtend 64)).getG n - 1) := by
    simp [addTimes, getG_setG, hd.symm]
  rw [repCount_run, withRegs_withRegs, show addTimes d n i 1 = _ from funext hs]

/-- The iterations of a REP.N of an addition. -/
theorem repLoop_addi {n d : Fin 32} (i : BitVec 16) (hn : n ≠ 0) (hd : d ≠ n) (k : Nat) (s : State)
    (hw : (lpAt s lp).wait = .none) :
    repLoop lp n (repBody lp (.addi lp d d i)) k s = .ok ⟨⟩ (withRegs s lp (addTimes d n i k)) := by
  induction k generalizing s with
  | zero =>
    rw [repLoop, addTimes_zero, withRegs_id]
    rfl
  | succ k ih =>
    rw [repLoop, run_bind_ok (iteration_addi ..), run_bind_ok (run_get _), if_pos (by simpa [withRegs] using hw),
      run_bind_ok (counted_addi i hd s), ih _ (by simpa [withRegs] using hw), withRegs_withRegs]
    exact congrArg _ (congrArg _ (funext fun r => addTimes_succ i k r hn hd))

/-! ### REP.I and REP.N -/

theorem tryCatch_ok {m : Run α} {h : Stop → Run α} {x : α} (hm : m s = .ok x t) : tryCatch m h s = .ok x t := by
  show EStateM.tryCatch m h s = _
  unfold EStateM.tryCatch
  rw [hm]

/-- A REP.I of an addition performs one, and stays at the REP while any is left. -/
theorem repI_addi {n d : Fin 32} (i : BitVec 16) (hn : n ≠ 0) (hd : d ≠ n) (hm : s.mode.mode ≠ .compat)
    (hw : (lpAt s lp).wait = .none) :
    repIBody lp n 0 (repBody lp (.addi lp d d i)) s = .ok ⟨⟩ (withRegs s lp fun r =>
      if gOf s lp n = 0 then r
      else if gOf s lp n = 1 then addTimes d n i 1 r
      else { addTimes d n i 1 r with pswa := r.pswa - 8 }) := by
  rw [repIBody, run_bind_ok (notCompat_run hm), run_bind_ok (repChecks_addi i hn hd s), run_bind_ok (run_readG ..)]
  by_cases h0 : gOf s lp n = 0
  · rw [if_neg (by simpa [gOf] using h0)]
    simp [h0]
  · have hi : (do (repBody lp (.addi lp d d i)).run (.iter n); pure none : Run (Option Exc)) s =
        .ok none (withRegs s lp fun r => r.setG d (r.getG d + i.signExtend 64)) := by
      rw [run_bind_ok (iteration_addi ..)]
      rfl
    have hleft : (lpAt (withRegs s lp (addTimes d n i 1)) lp).arch.getG n = gOf s lp n - 1 := by
      simp [addTimes, getG_setG, hn, gOf]
    rw [if_pos (by simpa [gOf] using h0), run_bind_ok (tryCatch_ok hi), run_bind_ok (run_get _),
      if_pos (by simpa [withRegs] using hw), run_bind_ok (counted_addi i hd s), run_bind_ok (run_readG ..), hleft]
    by_cases h1 : gOf s lp n = 1
    · simp [h1]
    · have : gOf s lp n - 1 ≠ 0 := fun h => h1 (by bv_omega)
      have hp (r : Arch) : (addTimes d n i 1 r).pswa = r.pswa := by simp [addTimes]
      rw [if_pos this, run_bind_ok (run_modArch_regs ..), withRegs_withRegs]
      simp only [h0, h1, if_false, hp]
      rfl

theorem updLp_fixed {f : Lp → Lp} (h : f (lpAt s lp) = lpAt s lp) : updLp s lp f = s := by
  rw [updLp, h]
  exact updLp_same s lp

/-- A REP.N of an addition performs every iteration. -/
theorem repN_addi {n d : Fin 32} (i : BitVec 16) (hn : n ≠ 0) (hd : d ≠ n) (hk : (gOf s lp n).toNat ≤ 64)
    (hw : (lpAt s lp).wait = .none) (hr : (lpAt s lp).repN = none) :
    repNBody lp n 0 (repBody lp (.addi lp d d i)) s =
      .ok ⟨⟩ (withRegs s lp (addTimes d n i (gOf s lp n).toNat)) := by
  have hk' : decide (((lpAt s lp).arch.getG n).toNat > 64) = false := by simpa [gOf] using hk
  rw [repNBody, run_bind_ok (run_getArch ..), run_bind_ok (repChecks_addi i hn hd s), run_bind_ok (run_readG ..), hk',
    run_bind_ok (run_specIf ..), run_bind_ok (tryCatch_ok (repLoop_addi i hn hd _ s hw)), repKeep, run_modify]
  refine congrArg _ (updLp_fixed ?_)
  simp [withRegs, hw, hr]

theorem regsAnswer_congr {f : Form} {g g' : Arch → Arch}
    (h : g (archOf (advanced u lp f.len) lp) = g' (archOf (advanced u lp f.len) lp)) :
    regsAnswer u lp f g = regsAnswer u lp f g' := by
  unfold regsAnswer withRegs updLp
  exact congrArg (fun a => Host.Outcome.next (finish (setLp (advanced u lp f.len) lp
    { lpAt (advanced u lp f.len) lp with arch := a }) lp f)) h

/-- Settles O11: an addition is one iteration, or as many as its count. -/
theorem repeatPrefix : Obligations.RepeatPrefix := by
  intro lp n d i s u hn hd k form
  refine ⟨fun h hm => ?_, fun h hr hk => ?_⟩
  · refine (begins_regs (body := repIBody lp n 0 (repBody lp (.addi lp d d i))) h
      (repI_addi i hn hd (mode_of_advanced hm 8) (by simpa [advanced] using wait_begins h))).trans (regsAnswer_congr ?_)
    have hl : form.len = 8 := rfl
    have hn' : gOf (advanced u lp 8) lp n = k := gOf_advanced ..
    have hd' : (archOf (advanced u lp 8) lp).getG d = gOf u lp d := gOf_advanced ..
    have hk' : (archOf (advanced u lp 8) lp).getG n = k := gOf_advanced ..
    have hp : (archOf (advanced u lp 8) lp).pswa - 8 = (archOf u lp).pswa := by
      simp [archOf, BitVec.add_sub_cancel]
    rw [hn']
    split
    · rfl
    · rename_i h0
      split
      · rename_i h1
        simp [addTimes, hl, hd', hk', h1]
      · rw [hl, hp]
        simp [addTimes, hd', hk']
  · refine (begins_regs (body := repNBody lp n 0 (repBody lp (.addi lp d d i))) h
      (repN_addi i hn hd (by simpa using hk) (by simpa [advanced] using wait_begins h)
        (by simpa [advanced] using hr))).trans (regsAnswer_congr ?_)
    have hl : form.len = 8 := rfl
    have hd' : (archOf (advanced u lp 8) lp).getG d = gOf u lp d := gOf_advanced ..
    have hk' : (archOf (advanced u lp 8) lp).getG n = gOf u lp n := gOf_advanced ..
    simp [addTimes, hl, hd', hk', k]

end Sys2Proof.Machine

/-! Storage to storage (04 R103). -/

namespace Sys2Proof.Machine
-- Proofs one after the other: side by side they take more memory than the check allows.
set_option Elab.async false

variable {s t u v w : State} {lp : Fin 48}

theorem xAddr_run (lp : Fin 48) (b : Fin 32) (d : BitVec 11) (s : State) :
    xAddr lp b d s = .ok (gOf s lp b + d.setWidth 64) s := rfl

/-- The two addresses of a storage-to-storage instruction, from a processor that has moved past it. -/
theorem xAddr_advanced (u : State) (lp : Fin 48) (b : Fin 32) (d : BitVec 11) :
    xAddr lp b d (advanced u lp 8) = .ok (gOf u lp b + d.setWidth 64) (advanced u lp 8) := by
  rw [xAddr_run, gOf_advanced]

/-- A storage-to-storage instruction whose body ends. -/
theorem xForm_leaves {body : Run Unit} {g : Arch → Arch} (h : Begins s lp xForm u)
    (hb : body (advanced u lp 8) = .ok () (withRegs w lp g)) : runInstr lp xForm body s = leaves w lp xForm g :=
  begins_ok h hb

/-- One whose body only stores changes no register. -/
theorem xForm_leaves_id {body : Run Unit} (h : Begins s lp xForm u) (hb : body (advanced u lp 8) = .ok () w) :
    runInstr lp xForm body s = leaves w lp xForm id :=
  xForm_leaves h (by rw [hb, withRegs_id])

theorem stringStore_run {f : Byte → Byte → Byte} {reads : Bool} {l1 : BitVec 8} {b1 b2 : Fin 32} {d1 d2 : BitVec 11}
    {p q : List Piece} {bs cs : List Byte}
    (h : Both u lp ⟨gOf u lp b1 + d1.setWidth 64, l1.toNat + 1, .store⟩ ⟨gOf u lp b2 + d2.setWidth 64, l1.toNat + 1, .load⟩
      p q bs cs v)
    (hs : Stores v lp p (byteWise f (lpByte v (lpAt v lp)) ((pieceAddrs p).zip (pieceAddrs q)) []) w) :
    stringStore f reads lp 0 l1 0 b1 d1 b2 d2 (advanced u lp 8) = .ok () w := by
  obtain ⟨hp, hb, hc⟩ := h
  have hz : specIf (decide ((0 : Fin 32) ≠ 0) || decide ((0 : BitVec 8) ≠ 0)) 0 (advanced u lp 8) =
      .ok () (advanced u lp 8) := by simp
  have hd (bs : List Byte) : stringStore.discardBytes bs v = .ok () v := rfl
  rw [stringStore, run_bind_ok hz, run_bind_ok (xAddr_advanced ..), run_bind_ok (xAddr_advanced ..), run_bind_ok hp]
  cases reads
  · simp only [Bool.false_eq_true, if_false]
    rw [run_bind_ok hc, run_bind_ok (hd cs), run_bind_ok (run_get v)]
    exact hs
  · simp only [if_true]
    rw [run_bind_ok hb, run_bind_ok (hd bs), run_bind_ok hc, run_bind_ok (hd cs), run_bind_ok (run_get v)]
    exact hs

/-- Settles O12: the operands pass their pre-test, are read, and are compared or stored. -/
theorem stringsComplete : Obligations.StringsComplete := by
  intro lp rg b1 b2 l1 d1 d2 p q bs cs s u v w h va1 va2 n
  refine ⟨fun hb => xForm_leaves (body := scmpBody lp rg l1 0 b1 d1 b2 d2) h ?_, fun hb =>
    ⟨fun hs => xForm_leaves_id (body := stringStore (fun _ b => b) false lp 0 l1 0 b1 d1 b2 d2) h (stringStore_run hb hs),
     fun hs => xForm_leaves_id (body := stringStore (fun a b => a ^^^ b) true lp 0 l1 0 b1 d1 b2 d2) h
      (stringStore_run hb hs)⟩⟩
  obtain ⟨hp, hb, hc⟩ := hb
  have hz : specIf (decide ((0 : BitVec 8) ≠ 0)) 0 (advanced u lp 8) = .ok () (advanced u lp 8) := by simp
  rw [scmpBody, run_bind_ok hz, run_bind_ok (xAddr_advanced ..), run_bind_ok (xAddr_advanced ..), run_bind_ok hp]
  show (readPieces lp va1 p >>= fun x => readPieces lp va2 q >>= fun y => writeG lp rg (compareBytes x y)) v = _
  rw [run_bind_ok hb, run_bind_ok hc]
  rfl

end Sys2Proof.Machine

/-! Packed decimal (05). -/

namespace Sys2Proof.Machine
-- Proofs one after the other: side by side they take more memory than the check allows.
set_option Elab.async false

variable {s t u v w w' : State} {lp : Fin 48}

/-! ### Pieces of the decimal instructions -/

theorem decLen_run (h : s.mode.mode ≠ .compat) (n : Nat) : decLen n s = .ok () s := by
  rw [decLen, run_bind_ok (run_get s)]
  simp [h]

theorem binLen_run (h : s.mode.mode ≠ .compat) {n : Nat} (hn : n ∈ [8, 16, 32, 64]) : binLen n s = .ok () s := by
  have hc : [8, 16, 32, 64].contains n = true := by simpa using hn
  rw [binLen, run_bind_ok (run_get s), hc]
  simp [h]

theorem checkedDec_run {f : DecForm} {bs : List Byte} {x : Int} (h : parseDec f bs = .ok x) (k : Nat) (va : Word)
    (s : State) : checkedDec f k va bs s = .ok x s := by
  rw [checkedDec, h]
  rfl

theorem overflowStatus_run {rg : Fin 32} {ovf : Bool} (h : rg = 0 → ovf = false) (reason : Nat) (s : State) :
    overflowStatus lp rg ovf reason s = .ok ⟨⟩ (withRegs s lp fun r => r.setG rg (if ovf then 1 else 0)) := by
  unfold overflowStatus
  split
  · rename_i hz
    simp [h hz, hz]
  · cases ovf <;> rfl

/-- A result is stored, and its overflow status given. -/
theorem decResult_run {f : DecForm} {l : List Piece} {n : Nat} {z : Int} {rg : Fin 32} (hs : Stores v lp l (storeDec f z n) w)
    (hz : rg = 0 → decOverflows f z n = false) : decResult lp rg f l n z v =
      .ok ⟨⟩ (withRegs w lp fun r => r.setG rg (if decOverflows f z n then 1 else 0)) := by
  rw [decResult, run_bind_ok hs, overflowStatus_run hz]

/-! ### The instructions -/

section
variable (hm : (advanced u lp 8).mode.mode ≠ .compat) {x : XFields} {p q : List Piece} {bs cs : List Byte} {y z : Int}
include hm

theorem decArith_run {f : Int → Int → Int} {r : Int} (hb : Both u lp ⟨gOf u lp x.b1 + x.d1.setWidth 64, x.n1, .store⟩
    ⟨gOf u lp x.b2 + x.d2.setWidth 64, x.n2, .load⟩ p q bs cs v) (hy : parseDec .packed bs = .ok y)
    (hz : parseDec .packed cs = .ok z) (hr : f y z = r) (hs : Stores v lp p (storeDec .packed r x.n1) w)
    (ho : x.rg = 0 → decOverflows .packed r x.n1 = false) : decArith f lp x (advanced u lp 8) =
      .ok ⟨⟩ (withRegs w lp fun a => a.setG x.rg (if decOverflows .packed r x.n1 then 1 else 0)) := by
  obtain ⟨hp, hbs, hcs⟩ := hb
  dsimp only [Reads] at hbs hcs
  rw [decArith, run_bind_ok (decLen_run hm _), run_bind_ok (decLen_run hm _), run_bind_ok (xAddr_advanced ..),
    run_bind_ok (xAddr_advanced ..), run_bind_ok hp]
  dsimp only
  rw [run_bind_ok hbs, run_bind_ok hcs,
    run_bind_ok (checkedDec_run hy ..), run_bind_ok (checkedDec_run hz ..), hr, decResult_run hs ho]

theorem decCopy_run {f g : DecForm} (hb : Both u lp ⟨gOf u lp x.b1 + x.d1.setWidth 64, x.n1, .store⟩
    ⟨gOf u lp x.b2 + x.d2.setWidth 64, x.n2, .load⟩ p q bs cs v) (hz : parseDec g cs = .ok z)
    (hs : Stores v lp p (storeDec f z x.n1) w) (ho : x.rg = 0 → decOverflows f z x.n1 = false) :
    decCopy f g lp x (advanced u lp 8) =
      .ok ⟨⟩ (withRegs w lp fun a => a.setG x.rg (if decOverflows f z x.n1 then 1 else 0)) := by
  obtain ⟨hp, -, hcs⟩ := hb
  dsimp only [Reads] at hcs
  rw [decCopy, run_bind_ok (decLen_run hm _), run_bind_ok (decLen_run hm _), run_bind_ok (xAddr_advanced ..),
    run_bind_ok (xAddr_advanced ..), run_bind_ok hp]
  dsimp only
  rw [run_bind_ok hcs, run_bind_ok (checkedDec_run hz ..),
    decResult_run hs ho]

theorem ddiv_run (hb : Both u lp ⟨gOf u lp x.b1 + x.d1.setWidth 64, x.n1, .store⟩
    ⟨gOf u lp x.b2 + x.d2.setWidth 64, x.n2, .store⟩ p q bs cs v) (hrg : x.rg = 0) (hy : parseDec .packed bs = .ok y)
    (hz : parseDec .packed cs = .ok z) (h0 : z ≠ 0) (hs : Stores v lp p (storeDec .packed (y.tdiv z) x.n1) w)
    (hs' : Stores w lp q (storeDec .packed (y.tmod z) x.n2) w') : ddivBody lp x (advanced u lp 8) = .ok ⟨⟩ w' := by
  obtain ⟨hp, hbs, hcs⟩ := hb
  dsimp only [Reads] at hbs hcs
  rw [ddivBody, run_bind_ok (unused_zero _ (by simp [hrg]) _), run_bind_ok (decLen_run hm _),
    run_bind_ok (decLen_run hm _), run_bind_ok (xAddr_advanced ..), run_bind_ok (xAddr_advanced ..), run_bind_ok hp]
  dsimp only
  rw [run_bind_ok hbs, run_bind_ok hcs, run_bind_ok (checkedDec_run hy ..), run_bind_ok (checkedDec_run hz ..), if_neg h0,
    run_bind_ok hs, hs']

theorem dcmp_run (hb : Both u lp ⟨gOf u lp x.b1 + x.d1.setWidth 64, x.n1, .load⟩
    ⟨gOf u lp x.b2 + x.d2.setWidth 64, x.n2, .load⟩ p q bs cs v) (hy : parseDec .packed bs = .ok y)
    (hz : parseDec .packed cs = .ok z) : dcmpBody lp x (advanced u lp 8) = .ok ⟨⟩ (withRegs v lp fun r =>
      r.setG x.rg (if y < z then BitVec.allOnes 64 else if y = z then 0 else 1)) := by
  obtain ⟨hp, hbs, hcs⟩ := hb
  dsimp only [Reads] at hbs hcs
  rw [dcmpBody, run_bind_ok (decLen_run hm _), run_bind_ok (decLen_run hm _), run_bind_ok (xAddr_advanced ..),
    run_bind_ok (xAddr_advanced ..), run_bind_ok hp]
  dsimp only
  rw [run_bind_ok hbs, run_bind_ok hcs,
    run_bind_ok (checkedDec_run hy ..), run_bind_ok (checkedDec_run hz ..), run_writeG]
  rfl

theorem dshr_run (hp : pretest lp ⟨gOf u lp x.b1 + x.d1.setWidth 64, x.n1, .store⟩ (advanced u lp 8) = .ok p v)
    (hbs : Reads v lp (gOf u lp x.b1 + x.d1.setWidth 64) p bs) (hy : parseDec .packed bs = .ok y)
    (hl : x.l2.toNat / 16 ≤ 3) (hl' : x.l2.toNat % 16 = 0) (hd : x.d2 = 0)
    (hs : Stores v lp p (storeDec .packed (shiftDec (x.l2.toNat / 16) y ((gOf u lp x.b2).setWidth 10).toInt) x.n1) w)
    (ho : x.rg = 0 → decOverflows .packed (shiftDec (x.l2.toNat / 16) y ((gOf u lp x.b2).setWidth 10).toInt) x.n1 = false) :
    dshrBody lp x (advanced u lp 8) = .ok ⟨⟩ (withRegs w lp fun a => a.setG x.rg
      (if decOverflows .packed (shiftDec (x.l2.toNat / 16) y ((gOf u lp x.b2).setWidth 10).toInt) x.n1 then 1 else 0)) := by
  have hmode : field x.l2 4 4 = x.l2.toNat / 16 := by
    have := x.l2.isLt
    simp [field]
    omega
  have hlow : field x.l2 0 4 = x.l2.toNat % 16 := by simp [field]
  have hf : (decide (field x.l2 4 4 > 3) || decide (field x.l2 0 4 ≠ 0) || decide (x.d2 ≠ 0)) = false := by
    rw [hmode, hlow, hl', hd]
    simpa using hl
  have hg : (lpAt (advanced u lp 8) lp).arch.getG x.b2 = gOf u lp x.b2 := gOf_advanced ..
  rw [dshrBody, hf, run_bind_ok (run_specIf ..), run_bind_ok (run_readG ..), hg, run_bind_ok (decLen_run hm _),
    run_bind_ok (run_get _)]
  simp only [hm, decide_false, Bool.false_and]
  rw [run_bind_ok (run_specIf ..), run_bind_ok (xAddr_advanced ..), run_bind_ok hp, run_bind_ok hbs,
    run_bind_ok (checkedDec_run hy ..), hmode, decResult_run hs ho]

theorem dtob_run (hb : Both u lp ⟨gOf u lp x.b1 + x.d1.setWidth 64, x.n1, .store⟩
    ⟨gOf u lp x.b2 + x.d2.setWidth 64, x.n2, .load⟩ p q bs cs v) (hz : parseDec .packed cs = .ok z)
    (hn : x.n1 ∈ [8, 16, 32, 64]) (hs : Stores v lp p (beBytes x.n1 (BitVec.ofInt (8 * x.n1) z).toNat) w)
    (ho : x.rg = 0 → decide ((BitVec.ofInt (8 * x.n1) z).toInt ≠ z) = false) : dtobBody lp x (advanced u lp 8) =
      .ok ⟨⟩ (withRegs w lp fun a => a.setG x.rg
        (if decide ((BitVec.ofInt (8 * x.n1) z).toInt ≠ z) then 1 else 0)) := by
  obtain ⟨hp, -, hcs⟩ := hb
  dsimp only [Reads] at hcs
  rw [dtobBody, run_bind_ok (binLen_run hm hn), run_bind_ok (decLen_run hm _), run_bind_ok (xAddr_advanced ..),
    run_bind_ok (xAddr_advanced ..), run_bind_ok hp]
  dsimp only
  rw [run_bind_ok hcs, run_bind_ok (checkedDec_run hz ..)]
  exact (run_bind_ok hs).trans (overflowStatus_run ho ..)

theorem dfrb_run (hb : Both u lp ⟨gOf u lp x.b1 + x.d1.setWidth 64, x.n1, .store⟩
    ⟨gOf u lp x.b2 + x.d2.setWidth 64, x.n2, .load⟩ p q bs cs v) (hn : x.n2 ∈ [8, 16, 32, 64])
    (hs : Stores v lp p (storeDec .packed (BitVec.ofNat (8 * x.n2) (beVal cs)).toInt x.n1) w)
    (ho : x.rg = 0 → decOverflows .packed (BitVec.ofNat (8 * x.n2) (beVal cs)).toInt x.n1 = false) :
    dfrbBody lp x (advanced u lp 8) = .ok ⟨⟩ (withRegs w lp fun a => a.setG x.rg
      (if decOverflows .packed (BitVec.ofNat (8 * x.n2) (beVal cs)).toInt x.n1 then 1 else 0)) := by
  obtain ⟨hp, -, hcs⟩ := hb
  dsimp only [Reads] at hcs
  rw [dfrbBody, run_bind_ok (binLen_run hm hn), run_bind_ok (decLen_run hm _), run_bind_ok (xAddr_advanced ..),
    run_bind_ok (xAddr_advanced ..), run_bind_ok hp]
  dsimp only
  rw [run_bind_ok hcs, decResult_run hs ho]

end

/-- Sixteen digits and a carry. -/
theorem dadj_run {d a b c : Fin 32} (hdc : d ≠ c ∨ d = 0) {x y : Nat} (hx : regDigits (gOf s lp a) = some x)
    (hy : regDigits (gOf s lp b) = some y) : dadjBody lp d a b c s = .ok ⟨⟩ (withRegs s lp fun r =>
      (r.setG d (digitsReg (x + y + (gOf s lp c).toNat % 2))).setG c
        (if x + y + (gOf s lp c).toNat % 2 < 10 ^ 16 then 0 else 1)) := by
  have hr : (decide (d = c) && decide (d ≠ 0)) = false := by rcases hdc with h | h <;> simp [h]
  have hx' : regDigits ((lpAt s lp).arch.getG a) = some x := hx
  have hy' : regDigits ((lpAt s lp).arch.getG b) = some y := hy
  rw [dadjBody, hr, run_bind_ok (run_specIf ..), run_bind_ok (run_readG ..), run_bind_ok (run_readG ..), hx', hy']
  have hb : boolWord (decide (x + y + (gOf s lp c).toNat % 2 ≥ 10 ^ 16)) =
      if x + y + (gOf s lp c).toNat % 2 < 10 ^ 16 then 0 else 1 := by
    unfold boolWord
    by_cases ht : x + y + (gOf s lp c).toNat % 2 < 10 ^ 16
    · rw [if_pos ht, if_neg (by simpa using ht)]
    · rw [if_neg ht, if_pos (by simpa using ht)]
  dsimp only
  rw [run_bind_ok (run_readG ..), ← gOf, hb, run_bind_ok (run_writeG ..), run_writeG, updLp_updLp]
  rfl

/-- Settles O13: the operands pass their pre-test and hold valid fields, and the result is stored. -/
theorem decimalCompletes : Obligations.DecimalCompletes := by
  refine ⟨?_, ?_⟩
  · intro lp rg b1 b2 l1 l2 d1 d2 p q bs cs x y s u v w w' h hm va1 va2 n1 n2 gives
    have hm' := mode_of_advanced (lp := lp) hm 8
    let f : XFields := ⟨rg, l1, l2, b1, d1, b2, d2⟩
    refine ⟨fun hb => ⟨fun hx hy => ⟨?_, ?_, ?_⟩, fun hy => ⟨?_, ?_, ?_⟩, fun hy => ?_, fun hn => ?_⟩, fun hb hx hy => ?_,
      fun hb hx hy h0 hs hs' => ?_, fun hp hr hx hl hl' => ?_⟩
    · exact fun hs ho => xForm_leaves (body := decArith _ lp f) h (decArith_run hm' hb hx hy rfl hs ho)
    · exact fun hs ho => xForm_leaves (body := decArith _ lp f) h (decArith_run hm' hb hx hy rfl hs ho)
    · exact fun hs ho => xForm_leaves (body := decArith _ lp f) h (decArith_run hm' hb hx hy rfl hs ho)
    · exact fun hs ho => xForm_leaves (body := decCopy _ _ lp f) h (decCopy_run hm' hb hy hs ho)
    · exact fun hs ho => xForm_leaves (body := decCopy _ _ lp f) h (decCopy_run hm' hb hy hs ho)
    · exact fun hn hs ho => xForm_leaves (body := dtobBody lp f) h (dtob_run hm' hb hy hn hs ho)
    · exact fun hs ho => xForm_leaves (body := decCopy _ _ lp f) h (decCopy_run hm' hb hy hs ho)
    · exact fun hs ho => xForm_leaves (body := dfrbBody lp f) h (dfrb_run hm' hb hn hs ho)
    · exact xForm_leaves (body := dcmpBody lp f) h (dcmp_run hm' hb hx hy)
    · exact xForm_leaves_id (body := ddivBody lp ⟨0, l1, l2, b1, d1, b2, d2⟩) h (ddiv_run hm' hb rfl hx hy h0 hs hs')
    · exact fun hs ho => xForm_leaves (body := dshrBody lp ⟨rg, l1, l2, b1, d1, b2, 0⟩) h
        (dshr_run hm' hp hr hx hl hl' rfl hs ho)
  · intro lp d a b c x y s u h hdc hx hy t
    have hc : gOf (advanced u lp 4) lp c = gOf u lp c := gOf_advanced ..
    refine begins_regs (body := dadjBody lp d a b c) h ?_
    exact (dadj_run hdc (by simpa using hx) (by simpa using hy)).trans (by rw [hc])

end Sys2Proof.Machine

/-! Binary floating point: arithmetic, compares, moves and conversions (06). -/

namespace Sys2Proof.Machine
-- Proofs one after the other: side by side they take more memory than the check allows.
set_option Elab.async false

variable {s u v : State} {lp : Fin 48} {q : Bool} {d : Fin 32}

/-! ### The end of an operation, and its format -/

/-- The format of a .D or .Q instruction. -/
abbrev formatOf (q : Bool) : Fmt := if q then fmtQ else fmtD

theorem fpFormat_run (h : q = true → s.mode.mode ≠ .compat) : fpFormat q s = .ok (formatOf q) s := by
  cases q
  · rfl
  · rw [fpFormat, if_pos rfl, run_bind_ok (notCompat_run (h rfl))]
    rfl

/-- Where no condition raised is trap-enabled the result is written and the flags are set. -/
theorem fpEnd_run {c : Conds} (h : c &&& field (archOf s lp).fpc 8 5 = 0) (g : Arch → Arch) :
    fpEnd lp c g s = .ok ⟨⟩ (withRegs s lp fun a => { g a with fpc := (g a).fpc ||| BitVec.ofNat 32 c }) := by
  have h' : ¬ c &&& field (lpAt s lp).arch.fpc 8 5 ≠ 0 := Classical.not_not.mpr h
  rw [fpEnd, run_bind_ok (run_getArch ..), if_neg h']
  rfl

theorem fpEnd_advanced {c : Conds} (h : c &&& field (archOf u lp).fpc 8 5 = 0) (n : Nat) (g : Arch → Arch) :
    fpEnd lp c g (advanced u lp n) =
      .ok ⟨⟩ (withRegs (advanced u lp n) lp fun a => { g a with fpc := (g a).fpc ||| BitVec.ofNat 32 c }) :=
  fpEnd_run (by rw [archOf, arch_advanced]; exact h) g

/-- An operation of operands in floating registers answers with its result and flags. -/
theorem fpOp_answer (h : Begins s lp {} u) (hq : q = true → u.mode.mode ≠ .compat) {zero : List (Fin 32)}
    (hz : ∀ i ∈ zero, i = 0) {op : Fmt → Nat → Bool → Arch → Nat × Conds}
    (hop : ∀ f m t a p, op f m t { a with pswa := p } = op f m t a) {r : Nat × Conds}
    (hr : op (formatOf q) (fpMode (archOf u lp)) (fpUTrap (archOf u lp)) (archOf u lp) = r)
    (hc : r.2 &&& field (archOf u lp).fpc 8 5 = 0) : runInstr lp {} (fpOp q lp d zero op) s = regsAnswer u lp {} fun y =>
      { y.setF d (fpPlace (formatOf q) r.1) with fpc := y.fpc ||| BitVec.ofNat 32 r.2 } := by
  have hr' : op (formatOf q) (fpMode (lpAt (advanced u lp 4) lp).arch) (fpUTrap (lpAt (advanced u lp 4) lp).arch)
      (lpAt (advanced u lp 4) lp).arch = r := by
    rw [arch_advanced, hop]
    exact hr
  refine begins_regs h ?_
  show fpOp q lp d zero op (advanced u lp 4) = _
  rw [fpOp, run_bind_ok (fpFormat_run (s := advanced u lp 4) hq), run_bind_ok (unused_zero _ hz _), run_bind_ok (run_getArch ..), hr']
  exact fpEnd_advanced hc 4 _

/-- Settles O14: each form is one operation of operands in floating registers. -/
theorem floatArithmetic : Obligations.FloatArithmetic := by
  intro lp d a b c s u h x m t gives D Q
  have z1 : ∀ i ∈ [(0 : Fin 32)], i = 0 := by simp
  have z2 : ∀ i ∈ [(0 : Fin 32), 0], i = 0 := by simp
  have z0 : ∀ i ∈ ([] : List (Fin 32)), i = 0 := by simp
  have hD : false = true → u.mode.mode ≠ .compat := by simp
  refine ⟨fpOp_answer h hD z1 (fun _ _ _ _ _ => rfl) rfl, fpOp_answer h hD z1 (fun _ _ _ _ _ => rfl) rfl,
    fpOp_answer h hD z1 (fun _ _ _ _ _ => rfl) rfl, fpOp_answer h hD z1 (fun _ _ _ _ _ => rfl) rfl,
    fpOp_answer h hD z2 (fun _ _ _ _ _ => rfl) rfl, fpOp_answer h hD z0 (fun _ _ _ _ _ => rfl) rfl,
    fpOp_answer h hD z0 (fun _ _ _ _ _ => rfl) rfl, fun hm => ?_⟩
  have hQ : true = true → u.mode.mode ≠ .compat := fun _ => hm
  exact ⟨fpOp_answer h hQ z1 (fun _ _ _ _ _ => rfl) rfl, fpOp_answer h hQ z1 (fun _ _ _ _ _ => rfl) rfl,
    fpOp_answer h hQ z1 (fun _ _ _ _ _ => rfl) rfl, fpOp_answer h hQ z1 (fun _ _ _ _ _ => rfl) rfl,
    fpOp_answer h hQ z2 (fun _ _ _ _ _ => rfl) rfl, fpOp_answer h hQ z0 (fun _ _ _ _ _ => rfl) rfl,
    fpOp_answer h hQ z0 (fun _ _ _ _ _ => rfl) rfl⟩

end Sys2Proof.Machine

/-! Compares, moves and the floating control register (06 R138, R144). -/

namespace Sys2Proof.Machine
-- Proofs one after the other: side by side they take more memory than the check allows.
set_option Elab.async false

variable {s u v : State} {lp : Fin 48} {q : Bool} {d a b : Fin 32}

theorem anyNaN_of_signalling {f : Fmt} {x y : FpVal} (h : anySignalling f x y = true) : anyNaN x y = true := by
  cases x <;> cases y <;> simp_all [anySignalling, anyNaN, FpVal.nan?]

theorem signalling_or_anyNaN (f : Fmt) (x y : FpVal) : (anySignalling f x y || anyNaN x y) = anyNaN x y := by
  have := anyNaN_of_signalling (f := f) (x := x) (y := y)
  cases hs : anySignalling f x y
  · rfl
  · rw [this hs, Bool.true_or]

/-- The lesser or greater of two operands raises at most invalid operation. -/
theorem fpMinMax_conds (f : Fmt) (g : Bool) (x y : Nat) : ∃ c : Bool, (fpMinMax f g x y).2 = if c then condV else 0 := by
  unfold fpMinMax
  extract_lets a b
  split
  · unfold nanResult
    split
    · exact ⟨_, rfl⟩
    · exact ⟨false, rfl⟩
  · exact ⟨_, rfl⟩
  · exact ⟨_, rfl⟩
  · exact ⟨false, rfl⟩

/-- A condition of invalid operation alone is raised where its trap is off. -/
theorem invalid_quiet {fpc : BitVec 32} (h : field fpc 12 1 = 0) (p : Prop) [Decidable p] :
    (if p then condV else 0) &&& field fpc 8 5 = 0 := by
  have h16 : 16 &&& field fpc 8 5 = 0 := by
    have hbit : (field fpc 8 5).testBit 4 = false := by
      simp only [field, Nat.testBit_eq_decide_div_mod_eq] at h ⊢
      simp
      omega
    refine Nat.eq_of_testBit_eq fun i => ?_
    rw [show 16 = 2 ^ 4 from rfl, Nat.testBit_and, Nat.testBit_two_pow, Nat.zero_testBit]
    by_cases hi : 4 = i
    · rw [← hi, hbit, Bool.and_false]
    · rw [decide_eq_false hi, Bool.false_and]
  split
  · exact h16
  · simp

/-- A compare answers with its relation and, for a NaN, the flag. -/
theorem fpCmp_answer (h : Begins s lp {} u) (hq : q = true → u.mode.mode ≠ .compat) {rel : FpVal → FpVal → Bool}
    {all : Bool} (ht : field (archOf u lp).fpc 12 1 = 0) {X Y : FpVal} (hX : fpVal (formatOf q) (archOf u lp) a = X)
    (hY : fpVal (formatOf q) (archOf u lp) b = Y) : runInstr lp {} (fpCmp rel all q lp d a b 0) s =
      regsAnswer u lp {} fun r => { r.setG d (if rel X Y then 1 else 0) with
        fpc := r.fpc ||| BitVec.ofNat 32 (if anySignalling (formatOf q) X Y || (all && anyNaN X Y) then 16 else 0) } := by
  subst hX hY
  refine begins_regs h ?_
  show fpCmp rel all q lp d a b 0 (advanced u lp 4) = _
  rw [fpCmp, run_bind_ok (fpFormat_run (s := advanced u lp 4) hq), run_bind_ok (unused_zero _ (by simp) _),
    run_bind_ok (run_getArch ..), arch_advanced]
  refine (fpEnd_advanced (invalid_quiet ht _) 4 _).trans ?_
  simp only [setG_fpc]
  rfl

/-- The lesser or the greater operand, and the flag. -/
theorem fpPick_answer (h : Begins s lp {} u) (hq : q = true → u.mode.mode ≠ .compat)
    (ht : field (archOf u lp).fpc 12 1 = 0) (g : Bool) {r : Nat × Conds}
    (hr : fpMinMax (formatOf q) g (fpOperand (formatOf q) ((archOf u lp).getF a))
      (fpOperand (formatOf q) ((archOf u lp).getF b)) = r) :
    runInstr lp {} (fpPick g q lp d a b 0) s = regsAnswer u lp {} fun y =>
      { y.setF d (fpPlace (formatOf q) r.1) with fpc := y.fpc ||| BitVec.ofNat 32 r.2 } := by
  refine fpOp_answer h hq (by simp) (fun _ _ _ _ _ => rfl) hr ?_
  rw [← hr]
  obtain ⟨c, hc⟩ := fpMinMax_conds (formatOf q) g (fpOperand (formatOf q) ((archOf u lp).getF a))
    (fpOperand (formatOf q) ((archOf u lp).getF b))
  rw [hc]
  exact invalid_quiet ht _

/-- A form that changes registers alone, by a function of its operands. -/
theorem move_answer (h : Begins s lp {} u) {body : Run Unit} {zero : List (Fin 32)} (hz : ∀ i ∈ zero, i = 0)
    {g : Arch → Arch} (hb : body = do unused zero; modArch lp g) {k : Arch → Arch}
    (hg : ∀ p, g { archOf u lp with pswa := p } = k { archOf u lp with pswa := p }) :
    runInstr lp {} body s = regsAnswer u lp {} k := by
  subst hb
  have hb : (do unused zero; modArch lp g : Run Unit) (advanced u lp 4) = .ok () (withRegs (advanced u lp 4) lp g) := by
    rw [run_bind_ok (unused_zero _ hz _)]
    rfl
  exact (begins_regs h hb).trans (regsAnswer_congr (by rw [archOf, show Form.len {} = 4 from rfl, arch_advanced]; exact hg _))

/-- Settles O15: compares and picks are operations with a flag, and the moves copy registers. -/
theorem floatCompareAndMove : Obligations.FloatCompareAndMove := by
  intro lp q d a b s u h hq x f X Y nan sig quiet gd fd pick top
  have z0 : ∀ i ∈ [(0 : Fin 32)], i = 0 := by simp
  have z00 : ∀ i ∈ [(0 : Fin 32), 0], i = 0 := by simp
  have z000 : ∀ i ∈ [(0 : Fin 32), 0, 0], i = 0 := by simp
  refine ⟨fun ht => ⟨?_, ?_, ?_, ?_, ?_, ?_⟩, ?_, ?_, ?_, ?_, ?_, ?_, ?_, ?_, fun hr hm => ?_⟩
  · refine (fpCmp_answer h hq ht rfl rfl).trans ?_
    simp only [Bool.false_and, Bool.or_false]
    rfl
  · refine (fpCmp_answer h hq ht rfl rfl).trans ?_
    simp only [Bool.true_and, signalling_or_anyNaN]
    rfl
  · refine (fpCmp_answer h hq ht rfl rfl).trans ?_
    simp only [Bool.true_and, signalling_or_anyNaN]
    rfl
  · refine (fpCmp_answer h hq ht rfl rfl).trans ?_
    simp only [Bool.false_and, Bool.or_false]
    rfl
  · exact fpPick_answer h hq ht false rfl
  · exact fpPick_answer h hq ht true rfl
  · exact move_answer (body := fmvfBody lp d a b 0) h z0 rfl fun _ => rfl
  · exact move_answer (body := fmvghBody lp d a 0 0) h z00 rfl fun _ => rfl
  · exact move_answer (body := fmvglBody lp d a 0 0) h z00 rfl fun _ => rfl
  · exact move_answer (body := fnegBody lp d a 0 0) h z00 rfl fun _ => rfl
  · exact move_answer (body := fabsBody lp d a 0 0) h z00 rfl fun _ => rfl
  · exact move_answer (body := fcpysgnBody lp d a b 0) h z0 rfl fun _ => rfl
  · exact move_answer (body := fmovBody lp d a 0 0) h z00 rfl fun _ => rfl
  · exact move_answer (body := mffpcBody lp d 0 0 0) h z000 rfl fun _ => rfl
  · refine begins_regs (body := mtfpcBody lp 0 a 0 0) h ?_
    have hg : (lpAt (advanced u lp 4) lp).arch.getG a = gOf u lp a := gOf_advanced ..
    have hz : (decide (gOf u lp a &&& ~~~0x71F1F ≠ 0) || decide (field (gOf u lp a) 16 3 > 4)) = false := by
      rw [hr]
      simpa using hm
    show mtfpcBody lp 0 a 0 0 (advanced u lp 4) = _
    rw [mtfpcBody, run_bind_ok (unused_zero _ z000 _), run_bind_ok (run_readG ..), hg, hz, run_bind_ok (run_specIf ..)]
    rfl

end Sys2Proof.Machine

/-! Floating conversions (06 R145 to R147). -/

namespace Sys2Proof.Machine
-- Proofs one after the other: side by side they take more memory than the check allows.
set_option Elab.async false

variable {s u v : State} {lp : Fin 48} {q : Bool} {d a c : Fin 32}

/-- An instruction whose body ends as a floating operation does. -/
theorem fpEnd_answer (h : Begins s lp {} u) {body : Run Unit} {k : Conds} {g g' : Arch → Arch}
    (hb : body (advanced u lp 4) = fpEnd lp k g (advanced u lp 4)) (hk : k &&& field (archOf u lp).fpc 8 5 = 0)
    (hg : ∀ y, g' y = { g y with fpc := (g y).fpc ||| BitVec.ofNat 32 k }) :
    runInstr lp {} body s = regsAnswer u lp {} g' := by
  rw [show g' = _ from funext hg]
  exact begins_regs h (hb.trans (fpEnd_advanced hk 4 g))

theorem nextReg_eq (i : Fin 32) : nextReg i = i + 1 := rfl

theorem fcvt_run (hm : u.mode.mode ≠ .compat) (k : Fin 6) {r : Nat × Conds}
    (hr : fpConvert (fcvtFormats k).1 (fcvtFormats k).2 (fpMode (archOf u lp)) (fpUTrap (archOf u lp))
      (fpOperand (fcvtFormats k).1 ((archOf u lp).getF a)) = r) :
    fcvtBody lp k d a 0 0 (advanced u lp 4) =
      fpEnd lp r.2 (fun y => y.setF d (fpPlace (fcvtFormats k).2 r.1)) (advanced u lp 4) := by
  subst hr
  have hn : notCompat (advanced u lp 4) = .ok () (advanced u lp 4) := notCompat_run (mode_of_advanced hm 4)
  have hz : ∀ i ∈ [(0 : Fin 32), 0], i = 0 := by simp
  rw [fcvtBody]
  dsimp only
  split
  · rw [run_bind_ok hn, run_bind_ok (unused_zero _ hz _), run_bind_ok (run_getArch ..), arch_advanced]
    rfl
  · rw [run_bind_ok (unused_zero _ hz _), run_bind_ok (run_getArch ..), arch_advanced]
    rfl

theorem fpToReg_run (hm : u.mode.mode ≠ .compat) (hc : c.val ≤ 5) (lo hi : Int) {r : Int × Conds}
    (hr : fpToInt (formatOf q) (if c = 0 then fpMode (archOf u lp) else c.val - 1) lo hi
      (fpOperand (formatOf q) ((archOf u lp).getF a)) = r) :
    fpToReg lo hi q lp d a 0 c (advanced u lp 4) =
      fpEnd lp r.2 (fun y => y.setG d (BitVec.ofInt 64 r.1)) (advanced u lp 4) := by
  subst hr
  have hc' : decide (c.val > 5) = false := by simpa using hc
  rw [fpToReg, run_bind_ok (fpFormat_run (s := advanced u lp 4) fun _ => hm), run_bind_ok (unused_zero _ (by simp) _), hc',
    run_bind_ok (run_specIf ..), run_bind_ok (run_getArch ..), arch_advanced]
  rfl

theorem fpFromReg_answer (h : Begins s lp {} u) (hm : u.mode.mode ≠ .compat) (val : Word → Int) {r : Nat × Conds}
    (hr : fpFromInt (formatOf q) (fpMode (archOf u lp)) (fpUTrap (archOf u lp)) (val (gOf u lp a)) = r)
    (hk : r.2 &&& field (archOf u lp).fpc 8 5 = 0) :
    runInstr lp {} (fpFromReg val q lp d a 0 0) s = regsAnswer u lp {} fun y =>
      { y.setF d (fpPlace (formatOf q) r.1) with fpc := y.fpc ||| BitVec.ofNat 32 r.2 } :=
  fpOp_answer h (fun _ => hm) (by simp) (fun _ _ _ _ _ => rfl) hr hk

theorem ftopd_run (hm : u.mode.mode ≠ .compat) (hd : d.val % 2 = 0) {r : (Word × Word) × Conds}
    (hr : fpToPacked (formatOf q) (fpMode (archOf u lp)) c.val (fpOperand (formatOf q) ((archOf u lp).getF a)) = r) :
    ftopdBody q lp d a 0 c (advanced u lp 4) =
      fpEnd lp r.2 (fun y => (y.setG d r.1.1).setG (d + 1) r.1.2) (advanced u lp 4) := by
  subst hr
  have hd' : decide (d.val % 2 = 1) = false := by simp [hd]
  rw [ftopdBody, run_bind_ok (fpFormat_run (s := advanced u lp 4) fun _ => hm), run_bind_ok (unused_zero _ (by simp) _), hd',
    run_bind_ok (run_specIf ..), run_bind_ok (run_getArch ..), arch_advanced]
  rfl

/-- What FFRPD does once its digits are read. -/
theorem ffrpd_run (hm : u.mode.mode ≠ .compat) (ha : a.val % 2 = 0) {neg : Bool} {mag : Nat}
    (hp : unpackPair (gOf u lp a) (gOf u lp (a + 1)) = some (neg, mag)) :
    ffrpdBody q lp d a 0 c (advanced u lp 4) =
      if mag = 0 then
        fpEnd lp 0 (fun x => x.setF d (fpPlace (formatOf q) (fpZero (formatOf q) (neg && bit (freeNow u) 0))))
          (if neg then taken (advanced u lp 4) else advanced u lp 4)
      else
        fpEnd lp (fpRound (formatOf q) (fpMode (archOf u lp)) (fpUTrap (archOf u lp)) neg mag (10 ^ c.val) 0).2
          (fun x => x.setF d (fpPlace (formatOf q)
            (fpRound (formatOf q) (fpMode (archOf u lp)) (fpUTrap (archOf u lp)) neg mag (10 ^ c.val) 0).1))
          (advanced u lp 4) := by
  have ha' : decide (a.val % 2 = 1) = false := by simp [ha]
  have hp' : unpackPair ((lpAt (advanced u lp 4) lp).arch.getG a) ((lpAt (advanced u lp 4) lp).arch.getG (nextReg a)) =
      some (neg, mag) := by rw [arch_advanced]; exact hp
  rw [ffrpdBody, run_bind_ok (fpFormat_run (s := advanced u lp 4) fun _ => hm), run_bind_ok (unused_zero _ (by simp) _), ha',
    run_bind_ok (run_specIf ..), run_bind_ok (run_getArch ..), hp', arch_advanced]
  dsimp only
  by_cases h0 : mag = 0
  · simp only [h0, if_true]
    cases neg <;> rfl
  · simp only [h0, if_false]
    rfl

/-- A zero in its position: nothing but its sign. -/
theorem fpPlace_zero (q neg : Bool) :
    fpPlace (formatOf q) (fpZero (formatOf q) neg) = if neg then ((1 <<< 127 : Nat) : Quad) else 0 := by
  cases q <;> cases neg <;> decide +kernel

/-- Settles O16: each conversion is one operation, and only the sign of a packed zero is free. -/
theorem floatConversions : Obligations.FloatConversions := by
  intro lp q k d a c s u h hm x m t f g gives toF toG round
  refine ⟨?_, fun hc => ⟨?_, ?_⟩, ?_, ?_, fun hd => ?_, fun ha neg mag hp => ⟨fun h0 => ?_, fun h0 hn => ?_, fun h0 hn => ?_⟩⟩
  · exact fun hk => fpEnd_answer h (fcvt_run hm k rfl) hk fun _ => rfl
  · have hr : fpToInt f round (-9223372036854775808) 9223372036854775807 (fpOperand f (x.getF a)) =
        fpToInt f round (-(2 ^ 63)) (2 ^ 63 - 1) (fpOperand f (x.getF a)) := by simp
    exact fun hk => fpEnd_answer (body := fcvtiBody q lp d a 0 c) h (fpToReg_run hm hc _ _ hr) hk fun _ => rfl
  · have hr : fpToInt f round 0 18446744073709551615 (fpOperand f (x.getF a)) =
        fpToInt f round 0 (2 ^ 64 - 1) (fpOperand f (x.getF a)) := by simp
    exact fun hk => fpEnd_answer (body := fcvtuBody q lp d a 0 c) h (fpToReg_run hm hc _ _ hr) hk fun _ => rfl
  · exact fun hk => fpFromReg_answer h hm BitVec.toInt rfl hk
  · exact fun hk => fpFromReg_answer h hm (fun v => (v.toNat : Int)) rfl hk
  · exact fun hk => fpEnd_answer (body := ftopdBody q lp d a 0 c) h (ftopd_run hm hd rfl) hk fun _ => rfl
  · have hr := (ffrpd_run (q := q) (d := d) (c := c) hm ha hp).trans (if_neg h0)
    exact fun hk => fpEnd_answer (body := ffrpdBody q lp d a 0 c) h hr hk fun _ => rfl
  · have hr := (ffrpd_run (q := q) (d := d) (c := c) hm ha hp).trans (if_pos h0)
    rw [hn] at hr
    refine fpEnd_answer (body := ffrpdBody q lp d a 0 c) h hr (by simp) fun y => ?_
    rw [Bool.false_and, fpPlace_zero, BitVec.ofNat_eq_ofNat, BitVec.or_zero]
    rfl
  · have hr := (ffrpd_run (q := q) (d := d) (c := c) hm ha hp).trans (if_pos h0)
    rw [hn, if_pos rfl, fpEnd_run (by simp)] at hr
    refine ⟨bit (freeNow u) 0, (begins_ok (body := ffrpdBody q lp d a 0 c) h hr).trans ?_⟩
    rw [Bool.true_and, fpPlace_zero]
    simp only [BitVec.ofNat_eq_ofNat, BitVec.or_zero]

end Sys2Proof.Machine

/-! Atomic instructions (07 R169 to R173). -/

namespace Sys2Proof.Machine
-- Proofs one after the other: side by side they take more memory than the check allows.
set_option Elab.async false

variable {s u v w y : State} {lp : Fin 48} {a b c d : Fin 32} {pa : Nat} {bs : List Byte}

/-- A reservation on a granule is dropped by an atomic that stores there. -/
def dropReserved (s : State) (lp : Fin 48) (line : Nat) : State :=
  updLp s lp fun x => if x.reservation = some line then { x with reservation := none, resHold := false } else x

theorem dropReservation_run (line : Nat) (s : State) : dropReservation lp line s = .ok ⟨⟩ (dropReserved s lp line) := rfl

theorem atomOperand_run {acc : Access} {n : Nat} (ha : (gOf u lp a).toNat % n = 0)
    (ht : translate lp (gOf u lp a) acc false false (advanced u lp 4) = .ok (pa, .normal) v) :
    atomOperand lp acc a n (advanced u lp 4) = .ok (gOf u lp a, pa) v := by
  have hg : (lpAt (advanced u lp 4) lp).arch.getG a = gOf u lp a := gOf_advanced ..
  have ha' : decide ((gOf u lp a).toNat % n ≠ 0) = false := by simp [ha]
  rw [atomOperand, run_bind_ok (run_readG ..), hg, ha', run_bind_ok (run_specAt ..), run_bind_ok ht]
  rfl

theorem atomRead_run {va : Word} {n : Nat} (h : Reads s lp va [⟨pa, n, .normal⟩] bs) :
    atomRead lp va pa n s = .ok (beVal bs) s := by
  rw [atomRead, run_bind_ok h]
  rfl

/-- The width an atomic of two widths selects is one that exists. -/
theorem width_run {k : Fin 32} (hk : k.val ≤ 1) (s : State) : specIf (decide (k.val > 1)) 0 s = .ok () s := by
  rw [decide_eq_false (by omega), run_specIf]
  rfl

section
variable {k : Fin 32} (hk : k.val ≤ 1) (ha : (gOf u lp a).toNat % (if k = 1 then 4 else 8) = 0)
include hk ha

theorem ldrsv_run (ht : translate lp (gOf u lp a) .load false false (advanced u lp 4) = .ok (pa, .normal) v)
    (hc : (pairOf v lp).bind (fun p => readCopy v p (lineOf pa)) = some w)
    (hr : Reads w lp (gOf u lp a) [⟨pa, if k = 1 then 4 else 8, .normal⟩] bs) :
    ldrsvBody lp d a 0 k (advanced u lp 4) = .ok ⟨⟩ (updLp (withRegs w lp fun r => r.setG d (BitVec.ofNat 64 (beVal bs))) lp
      fun x => { x with reservation := some (lineOf pa), resHold := true }) := by
  rw [ldrsvBody, run_bind_ok (unused_zero _ (by simp) _), run_bind_ok (width_run hk _), run_bind_ok (atomOperand_run ha ht)]
  dsimp only
  rw [run_bind_ok (run_get _), hc]
  dsimp only
  rw [run_bind_ok (run_set ..), run_bind_ok (atomRead_run hr), run_bind_ok (run_writeG ..)]
  rfl

theorem stcnd_unreserved (ht : translate lp (gOf u lp a) .store false false (advanced u lp 4) = .ok (pa, .normal) v)
    (hr : (lpAt v lp).reservation ≠ some (lineOf pa)) : stcndBody lp d a b k (advanced u lp 4) =
      .ok ⟨⟩ (withRegs (updLp v lp fun x => { x with reservation := none, resHold := false }) lp fun r => r.setG d 0) := by
  rw [stcndBody, run_bind_ok (width_run hk _), run_bind_ok (atomOperand_run ha ht)]
  dsimp only
  rw [run_bind_ok (run_get _), if_neg hr]
  rw [run_bind_ok (run_get _), run_bind_ok (run_readG ..), if_neg (by simpa using hr), run_bind_ok (run_modify ..),
    run_writeG, decide_eq_false hr]
  rfl

theorem stcnd_reserved (ht : translate lp (gOf u lp a) .store false false (advanced u lp 4) = .ok (pa, .normal) v)
    (ho : ownLine lp (lineOf pa) v = .ok ⟨⟩ w) (hr : (lpAt v lp).reservation = some (lineOf pa))
    (hr' : (lpAt w lp).reservation = some (lineOf pa))
    (hs : Stores w lp [⟨pa, if k = 1 then 4 else 8, .normal⟩] (beBytes (if k = 1 then 4 else 8) (gOf w lp b).toNat) y) :
    stcndBody lp d a b k (advanced u lp 4) =
      .ok ⟨⟩ (withRegs (updLp y lp fun x => { x with reservation := none, resHold := false }) lp fun r => r.setG d 1) := by
  rw [stcndBody, run_bind_ok (width_run hk _), run_bind_ok (atomOperand_run ha ht)]
  dsimp only
  rw [run_bind_ok (run_get _), if_pos hr, run_bind_ok ho, run_bind_ok (run_get _), run_bind_ok (run_readG ..),
    if_pos (by simpa using hr')]
  refine (run_bind_ok hs).trans ?_
  rw [run_bind_ok (run_modify ..), run_writeG, decide_eq_true hr']
  rfl

end

section
variable (ha : (gOf u lp a).toNat % 8 = 0)
  (ht : translate lp (gOf u lp a) .store false false (advanced u lp 4) = .ok (pa, .normal) v)
  (ho : ownLine lp (lineOf pa) v = .ok ⟨⟩ w) (hr : Reads w lp (gOf u lp a) [⟨pa, 8, .normal⟩] bs)
include ha ht ho hr

theorem cswp_differs (h : BitVec.ofNat 64 (beVal bs) ≠ gOf w lp c) : cswpBody lp d a b c (advanced u lp 4) =
    .ok ⟨⟩ (withRegs (dropReserved w lp (lineOf pa)) lp fun r => r.setG d (BitVec.ofNat 64 (beVal bs))) := by
  rw [cswpBody, run_bind_ok (atomOperand_run ha ht)]
  dsimp only
  rw [run_bind_ok ho, run_bind_ok (atomRead_run hr), run_bind_ok (run_readG ..), run_bind_ok (run_readG ..), ← gOf, ← gOf, if_neg h,
    run_bind_ok (dropReservation_run ..), run_writeG]
  rfl

theorem cswp_stores (h : BitVec.ofNat 64 (beVal bs) = gOf w lp c)
    (hs : Stores w lp [⟨pa, 8, .normal⟩] (beBytes 8 (gOf w lp b).toNat) y) : cswpBody lp d a b c (advanced u lp 4) =
      .ok ⟨⟩ (withRegs (dropReserved y lp (lineOf pa)) lp fun r => r.setG d (BitVec.ofNat 64 (beVal bs))) := by
  rw [cswpBody, run_bind_ok (atomOperand_run ha ht)]
  dsimp only
  rw [run_bind_ok ho, run_bind_ok (atomRead_run hr), run_bind_ok (run_readG ..), run_bind_ok (run_readG ..), ← gOf, ← gOf, if_pos h]
  refine (run_bind_ok hs).trans ?_
  rw [run_bind_ok (dropReservation_run ..), run_writeG]
  rfl

theorem fadd_run (hs : Stores w lp [⟨pa, 8, .normal⟩] (beBytes 8 (BitVec.ofNat 64 (beVal bs) + gOf w lp b).toNat) y) :
    faddBody lp d a b 0 (advanced u lp 4) =
      .ok ⟨⟩ (withRegs (dropReserved y lp (lineOf pa)) lp fun r => r.setG d (BitVec.ofNat 64 (beVal bs))) := by
  rw [faddBody, run_bind_ok (unused_zero _ (by simp) _), run_bind_ok (atomOperand_run ha ht)]
  dsimp only
  rw [run_bind_ok ho, run_bind_ok (atomRead_run hr), run_bind_ok (run_readG ..)]
  refine (run_bind_ok hs).trans ?_
  rw [run_bind_ok (dropReservation_run ..), run_writeG]
  rfl

end

/-- Settles O18: the operand is reached, its line obtained, and the value read or stored. -/
theorem atomicsComplete : Obligations.AtomicsComplete := by
  intro lp d a b c k pa bs s u v w y hk va old n place drop
  refine ⟨fun ha h ht hc hr => ?_, fun h ht => ⟨fun ha hr => ?_, fun ho => ⟨fun ha hr hr' hs => ?_, fun ha hr =>
    ⟨fun hne => ?_, fun heq hs => ?_, fun hs => ?_⟩⟩⟩⟩
  · exact begins_ok (body := ldrsvBody lp d a 0 k) h (ldrsv_run hk ha ht hc hr)
  · exact begins_ok (body := stcndBody lp d a b k) h (stcnd_unreserved hk ha ht hr)
  · exact begins_ok (body := stcndBody lp d a b k) h (stcnd_reserved hk ha ht ho hr hr' hs)
  · exact begins_ok (body := cswpBody lp d a b c) h (cswp_differs ha ht ho hr hne)
  · exact begins_ok (body := cswpBody lp d a b c) h (cswp_stores ha ht ho hr heq hs)
  · exact begins_ok (body := faddBody lp d a b 0) h (fadd_run ha ht ho hr hs)

end Sys2Proof.Machine

/-! Maintenance of caches and of translation caches (08 R193, 09 R216 to R224). -/

namespace Sys2Proof.Machine
-- Proofs one after the other: side by side they take more memory than the check allows.
set_option Elab.async false

variable {s u v w y : State} {lp p : Fin 48} {a b c d : Fin 32} {pa : Nat} {ty : MemType} {k : MaintOp}

theorem pairOf_advanced (u : State) (lp : Fin 48) (n : Nat) : pairOf (advanced u lp n) lp = pairOf u lp := rfl

/-- Manager state may use every form. -/
theorem manager_run {n : Nat} (hp : privOf (archOf u lp).psws = 2) (hn : n ≤ 2) :
    needPriv lp n (advanced u lp 4) = .ok ⟨⟩ (advanced u lp 4) :=
  needPriv_run (by rw [privOf_advanced, hp]; exact hn)

theorem lpCtx_manager (hp : privOf (archOf u lp).psws = 2) : lpCtx (advanced u lp 4) lp = mgrCtx := by
  rw [lpCtx, if_pos]
  rw [← hp]
  exact privOf_advanced u lp 4

theorem specIf_run {x : Bool} (h : x = false) (r : Nat) (s : State) : specIf x r s = .ok () s := by
  rw [h, run_specIf]
  rfl

/-- The register operand of an instruction that has moved on. -/
theorem readG_advanced (u : State) (lp : Fin 48) (i : Fin 32) :
    readG lp i (advanced u lp 4) = .ok (gOf u lp i) (advanced u lp 4) := by
  rw [run_readG, ← gOf, gOf_advanced]

theorem maintPriv_le (k : MaintOp) (c : Fin 32) : maintPriv k c ≤ 2 := by
  unfold maintPriv
  split
  · exact Nat.le_refl 2
  · split <;> omega

theorem maint_addr (hp : privOf (archOf u lp).psws = 2) (hl : pairOf u lp = some p) (hc : c.val < 6) (h2 : c.val % 2 = 0)
    (ht : translate lp (gOf u lp a) .load false (decide (k = .inval)) (advanced u lp 4) = .ok (pa, ty) v)
    (hs : storesDone v lp = true) (hw : ty = .normal → maintWaits v (lineOf pa) = false) :
    maintBody k lp 0 a 0 c (advanced u lp 4) = .ok ⟨⟩
      (if ty ≠ .normal then v
       else if c.val = 4 then maintLine v k (lineOf pa) else maintL1 v p k (decide (c.val = 2)) (lineOf pa)) := by
  have h3 : (decide (c.val / 2 % 4 = 3) || decide (c.val / 8 ≠ 0)) = false := by
    rw [Bool.or_eq_false_iff, decide_eq_false_iff_not, decide_eq_false_iff_not]
    omega
  have hodd : decide (c.val % 2 = 1) = false := by simp [h2]
  rw [maintBody, run_bind_ok (manager_run hp (maintPriv_le k c)), run_bind_ok (unused_zero _ (by simp) _)]
  dsimp only
  rw [run_bind_ok (specIf_run h3 ..), run_bind_ok (readG_advanced ..), run_bind_ok (specIf_run (by rw [hodd, Bool.false_and]) ..),
    run_bind_ok (run_get _), pairOf_advanced, hl]
  dsimp only
  rw [if_neg (by omega), run_bind_ok ht]
  dsimp only
  rw [run_bind_ok (run_get _), hs, if_neg (by simp)]
  by_cases hn : ty = .normal
  · have h4 : c.val = 0 ∨ c.val = 2 ∨ c.val = 4 := by omega
    rw [if_neg (Classical.not_not.mpr hn), if_neg (Classical.not_not.mpr hn), hw hn, if_neg (by simp)]
    rcases h4 with h | h | h <;> simp [h]
  · rw [if_pos hn, if_pos hn]
    rfl

/-- The line of an L2 that a set and a way name. -/
def l2Named (s : State) (p : Fin 48) (va : Word) : Option (Nat × L2Line) :=
  (pairAt s p).l2.find? fun e => decide (e.1 % 2048 = va.toNat / 16) && decide (e.2.way = va.toNat % 16)

/-- The line of an L1 that a set and a way name. -/
def l1Named (s : State) (p : Fin 48) (instr : Bool) (va : Word) : Option (Nat × Nat) :=
  (if instr then (pairAt s p).l1i else (pairAt s p).l1d).find? fun e =>
    decide (e.1 % 64 = va.toNat / 16) && decide (e.2 = va.toNat % 16)

/-- The fields of the register by set and way. -/
theorem setWay_fields {ga : Word} (h : ga.toNat < 2 ^ 15) :
    field ga 15 49 = 0 ∧ field ga 0 4 = ga.toNat % 16 ∧ field ga 4 11 = ga.toNat / 16 := by
  simp only [field]
  omega

section
variable (hp : privOf (archOf u lp).psws = 2) (hl : pairOf u lp = some p) (h2 : c.val % 2 = 1)
  (hs : storesDone (advanced u lp 4) lp = true)
include hp hl h2 hs

/-- By set and way of the L2. -/
theorem maint_l2 (h5 : c.val = 5) (hva : (gOf u lp a).toNat < 2 ^ 15) : maintBody k lp 0 a 0 c (advanced u lp 4) =
    match l2Named (advanced u lp 4) p (gOf u lp a) with
    | some e => if e.2.leaving then .error .wait (advanced u lp 4) else .ok ⟨⟩ (maintL2 (advanced u lp 4) p k e.1)
    | none => .ok ⟨⟩ (advanced u lp 4) := by
  obtain ⟨hhigh, hway, hset⟩ := setWay_fields hva
  have hcache : c.val / 2 % 4 = 2 := by omega
  have h3 : (decide (c.val / 2 % 4 = 3) || decide (c.val / 8 ≠ 0)) = false := by simp [h5]
  have hbad : (decide (c.val % 2 = 1) && (decide (field (gOf u lp a) 15 49 ≠ 0) || (decide (c.val / 2 % 4 ≠ 2) &&
      decide (field (gOf u lp a) 0 4 > 7 ∨ field (gOf u lp a) 4 11 > 63)))) = false := by simp [hhigh, hcache]
  rw [maintBody, run_bind_ok (manager_run hp (maintPriv_le k c)), run_bind_ok (unused_zero _ (by simp) _)]
  dsimp only
  rw [run_bind_ok (specIf_run h3 ..), run_bind_ok (readG_advanced ..), run_bind_ok (specIf_run hbad ..),
    run_bind_ok (run_get _), pairOf_advanced, hl]
  dsimp only
  rw [if_pos h2, hs, if_neg (by simp), if_pos hcache, hset, hway, l2Named]
  split
  · rename_i e he
    rw [he]
    exact run_ite ..
  · rename_i he
    rw [he]
    rfl

/-- By set and way of an L1. -/
theorem maint_l1 (hc : c.val < 6) (h5 : c.val ≠ 5) (hw : (gOf u lp a).toNat % 16 ≤ 7) (hset : (gOf u lp a).toNat / 16 ≤ 63) :
    maintBody k lp 0 a 0 c (advanced u lp 4) = .ok ⟨⟩
      (match l1Named (advanced u lp 4) p (decide (c.val = 3)) (gOf u lp a) with
        | some e => maintL1 (advanced u lp 4) p k (decide (c.val = 3)) e.1
        | none => advanced u lp 4) := by
  obtain ⟨hhigh, hway, hset'⟩ := setWay_fields (ga := gOf u lp a) (by omega)
  have hcache : c.val / 2 % 4 ≠ 2 := by omega
  have hone : decide (c.val / 2 % 4 = 1) = decide (c.val = 3) := decide_eq_decide.2 (by omega)
  have h3 : (decide (c.val / 2 % 4 = 3) || decide (c.val / 8 ≠ 0)) = false := by
    rw [Bool.or_eq_false_iff, decide_eq_false_iff_not, decide_eq_false_iff_not]
    omega
  have hbad : (decide (c.val % 2 = 1) && (decide (field (gOf u lp a) 15 49 ≠ 0) || (decide (c.val / 2 % 4 ≠ 2) &&
      decide (field (gOf u lp a) 0 4 > 7 ∨ field (gOf u lp a) 4 11 > 63)))) = false := by
    simp [hhigh, hway, hset']
    omega
  rw [maintBody, run_bind_ok (manager_run hp (maintPriv_le k c)), run_bind_ok (unused_zero _ (by simp) _)]
  dsimp only
  rw [run_bind_ok (specIf_run h3 ..), run_bind_ok (readG_advanced ..), run_bind_ok (specIf_run hbad ..),
    run_bind_ok (run_get _), pairOf_advanced, hl]
  dsimp only
  rw [if_pos h2, hs, if_neg (by simp), if_neg hcache, hset', hway, hone]
  have hcond : (c.val / 2 % 4 = 1) = (c.val = 3) := propext (by omega)
  simp only [hcond, l1Named, decide_eq_true_eq]
  generalize List.find? _ _ = o
  cases o <;> rfl

end

theorem crstat_run (hp : privOf (archOf u lp).psws = 2) (h4 : c.val % 4 = 0) (hd : c.val / 4 ≤ 4) :
    crstatBody lp d 0 0 c (advanced u lp 4) = .ok ⟨⟩ (withRegs (advanced u lp 4) lp fun r =>
      r.setG d (burinStatus (burinAt u (burinDie u lp c)) lp)) := by
  have hbad : (decide (c.val % 4 ≠ 0) || decide (c.val / 4 > 4)) = false := by simp [h4, hd]
  rw [crstatBody, run_bind_ok (manager_run hp (by omega)), run_bind_ok (unused_zero _ (by simp) _),
    run_bind_ok (specIf_run hbad ..), run_bind_ok (run_get _), run_writeG]
  rfl

theorem crange_run (hp : privOf (archOf u lp).psws = 2) (hs : storesDone (advanced u lp 4) lp = true)
    (h4 : c.val % 4 ≠ 0) (hd : c.val / 4 ≤ 4) (ha : (gOf u lp a).toNat % 256 = 0) (hb : (gOf u lp b).toNat % 256 = 0)
    (hn : (gOf u lp b).toNat ≠ 0)
    (hr : rangeCheck lp (gOf u lp a) (gOf u lp b).toNat (advanced u lp 4) = .ok pa (advanced u lp 4)) :
    crangeBody lp d a b c (advanced u lp 4) = .ok ⟨⟩
      (if (burinAt u (burinDie u lp c)).busy then withRegs (advanced u lp 4) lp fun r => r.setG d 0
       else withRegs (updBurin (advanced u lp 4) (burinDie u lp c) fun _ =>
            { Burin.reset with busy := true, op := c.val % 4, start := pa, len := (gOf u lp b).toNat, owner := some lp,
                               ownerCtx := mgrCtx, paused := u.mode.quiesce }) lp fun r => r.setG d 1) := by
  have hbad : (decide (c.val % 4 = 0) || decide (c.val / 4 > 4) || decide ((gOf u lp b).toNat = 0) ||
      decide ((gOf u lp b).toNat % 256 ≠ 0) || decide ((gOf u lp a).toNat % 256 ≠ 0)) = false := by
    simp [h4, hd, hn, ha, hb]
  have hpriv : (if c.val % 4 = 2 then 2 else 1) ≤ 2 := by split <;> omega
  have hdie : burinAt (advanced u lp 4) (burinDie (advanced u lp 4) lp c) = burinAt u (burinDie u lp c) := rfl
  have hdie' : burinDie (advanced u lp 4) lp c = burinDie u lp c := rfl
  rw [crangeBody, run_bind_ok (manager_run hp hpriv), run_bind_ok (readG_advanced ..), run_bind_ok (readG_advanced ..)]
  dsimp only
  rw [run_bind_ok (specIf_run hbad ..), run_bind_ok hr, run_bind_ok (run_get _), hs, if_neg (by simp), hdie, hdie',
    lpCtx_manager hp, run_ite]
  split <;> rfl

/-- Removal that nothing need wait for. -/
theorem tlbiWhenDone_run {k : TlbiKind} {va : Word} {asid : BitVec 16} {ctx : Nat} (hs : storesDone s lp = true)
    (ht : stillUsed (tlbiAll s k va asid ctx) ctx (closesNow (tlbiAll s k va asid ctx)) = false) :
    tlbiWhenDone lp k va asid ctx s = .ok ⟨⟩ (tlbiAll s k va asid ctx) := by
  rw [tlbiWhenDone, run_bind_ok (run_get _), if_pos hs, run_bind_ok (run_set ..), if_neg (by simp [ht])]
  rfl

/-- Settles O19: each form passes its checks and has its effect. -/
theorem maintenanceCompletes : Obligations.MaintenanceCompletes := by
  intro lp p d a b c pa ty s u v h hp hl now va done code
  have hcode (k : MaintOp) : exec (code k) s = runInstr lp .serial (maintBody k lp 0 a 0 c) s := by cases k <;> rfl
  refine ⟨fun hc k => ⟨fun h2 ht hs hw => ?_, fun h2 hs => ⟨?_, ?_⟩⟩, fun h4 hd => ?_, fun hs => ⟨?_, ?_, ?_, ?_⟩⟩
  · rw [hcode, begins_ok (body := maintBody k lp 0 a 0 c) h (maint_addr hp hl hc h2 ht hs hw)]
  · intro h5 hva e
    have hm := maint_l2 (k := k) hp hl h2 hs h5 hva
    have hl2 : l2Named now p va = e := rfl
    rw [hl2] at hm
    refine ⟨fun he => ?_, fun x he hx => ?_⟩
    · rw [hcode, begins_ok (body := maintBody k lp 0 a 0 c) h (hm.trans (by rw [he]))]
    · rw [hcode, begins_ok (body := maintBody k lp 0 a 0 c) h (hm.trans (by rw [he]; exact if_neg (by simp [hx])))]
  · intro h5 hway hset t e
    have he : l1Named now p (decide (c.val = 3)) va = e := by simp only [l1Named, decide_eq_true_eq]; rfl
    have hm := maint_l1 (k := k) hp hl h2 hs hc h5 hway hset
    rw [hcode, begins_ok (body := maintBody k lp 0 a 0 c) h hm, he] <;> rfl
  · exact begins_regs (body := crstatBody lp d 0 0 c) h (crstat_run hp h4 hd)
  · intro h4 hd ha hb hr hn die
    refine (begins_ok (body := crangeBody lp d a b c) h (crange_run hp hs h4 hd ha hb hn hr)).trans ?_
    split <;> rfl
  · intro hc t ht
    refine begins_ok (body := tlbiVaBody lp 0 a b c) h ?_
    show tlbiVaBody lp 0 a b c (advanced u lp 4) = _
    rw [tlbiVaBody, run_bind_ok (manager_run hp (by omega)), run_bind_ok (unused_zero _ (by simp) _),
      run_bind_ok (specIf_run (decide_eq_false (by omega)) ..), run_bind_ok (readG_advanced ..),
      run_bind_ok (readG_advanced ..), run_bind_ok (run_get _), lpCtx_manager hp, tlbiWhenDone_run hs ht]
  · intro ht
    refine begins_ok (body := tlbiAsidBody lp 0 a 0 0) h ?_
    show tlbiAsidBody lp 0 a 0 0 (advanced u lp 4) = _
    rw [tlbiAsidBody, run_bind_ok (manager_run hp (by omega)), run_bind_ok (unused_zero _ (by simp) _),
      run_bind_ok (readG_advanced ..), run_bind_ok (run_get _), lpCtx_manager hp, tlbiWhenDone_run hs ht]
  · intro ha t ht
    refine begins_ok (body := tlbiPartBody lp 0 a 0 0) h ?_
    have hp' : privOf (lpAt (advanced u lp 4) lp).arch.psws = 2 := (privOf_advanced ..).trans hp
    show tlbiPartBody lp 0 a 0 0 (advanced u lp 4) = _
    rw [tlbiPartBody, run_bind_ok (manager_run hp (by omega)), run_bind_ok (unused_zero _ (by simp) _),
      run_bind_ok (run_get _), if_pos hp', run_bind_ok (readG_advanced ..)]
    rw [run_bind_ok (specIf_run (decide_eq_false (Nat.not_lt.2 ha)) ..), tlbiWhenDone_run hs ht]

end Sys2Proof.Machine

/-! The instructions of input and output (12 R288 to R309). -/

namespace Sys2Proof.Machine
-- Proofs one after the other: side by side they take more memory than the check allows.
set_option Elab.async false
open Sys2Proof.Tests (sIo modBlk begun begins_of ok_of left ioW performAll_of)

/-- A processor about to store a subchannel's record at 300000h, whose pair has that line leaving its L2. -/
def storingAway : State := updPair (sIo modBlk) 0 fun x =>
  { x with l2 := [(lineOf 0x300000, { st := .e, way := 0, leaving := true, wbm := false, acked := false })] }

def storingBegun : State := begun storingAway 0 .serial

/-- The address of the block is translated. -/
def storingBlock : State :=
  left (translate 0 (gOf storingBegun 0 2) .store false false (advanced storingBegun 0 4))

/-- Where processor 0 stands. -/
def addressAfter (r : Answer) : Option Word :=
  match r with
  | .next y => some (archOf y 0).pswa
  | _ => none

/-- Refutes O20: a block whose line is leaving an L2 is not stored yet, though no transaction blocks the line, and the
instruction waits. -/
theorem not_ioInstructionsComplete : ¬ Obligations.IoInstructionsComplete := by
  intro h
  obtain ⟨-, -, -, hstore, -⟩ := h 0 3 1 2 0x300000 [] storingAway storingBegun storingBlock (ioW storingBlock)
    (begins_of (by decide +kernel)) (by decide +kernel) (by decide +kernel) (by decide +kernel)
  have hanswer := hstore ⟨by decide +kernel, ok_of (by decide +kernel)⟩ (performAll_of (by decide +kernel)) (by decide +kernel)
  have hwaits : addressAfter (exec (.iostore 0 3 1 2 0) storingAway) = some 0x200000 := by decide +kernel
  rw [hanswer] at hwaits
  exact absurd hwaits (by decide +kernel)

end Sys2Proof.Machine

/-! Inputs of time: PPS edges, time codes and time transfer (02 R23 to R31). -/

namespace Sys2Proof.Machine
-- Proofs one after the other: side by side they take more memory than the check allows.
set_option Elab.async false

variable {s t : State} {b : Bool}

@[simp] theorem time_todEvent (s : State) (code sub detail : Nat) : (todEvent s code sub detail).time = s.time :=
  congrArg (·.time) (steady_todEvent s code sub detail : steady (todEvent s code sub detail) = steady s)

/-! ### PPS inputs -/

/-- The run that an accepted edge ends: one more where it lies 1 s ± 1 µs after the edge before. -/
def edgeRun (x : PpsIn) (t : Nat) : Nat :=
  match x.last with
  | some l => if l + 15999984000 ≤ t ∧ t ≤ l + 16000016000 then x.run + 1 else 1
  | none => 1

/-- An edge of an input that is not selected is counted, and qualifies it as the tenth of a run. -/
theorem acceptEdge_unselected (h : s.time.src ≠ ppsCode b) (t : Nat) :
    acceptEdge s b t = setPps s b
      { last := some t, run := edgeRun (ppsAt s b) t, outliers := 0,
        qualified := (ppsAt s b).qualified || decide (edgeRun (ppsAt s b) t ≥ 10) } := by
  have hs (x : PpsIn) : steersTo (setPps s b x) b = false := by cases b <;> exact decide_eq_false h
  unfold acceptEdge edgeRun
  simp only [hs, Bool.and_false, Bool.false_eq_true, if_false, Bool.not_false, Bool.true_or, if_true]
  cases (ppsAt s b).last with
  | none => rfl
  | some l =>
    have hd : (-16000 ≤ (t : Int) - l - secSteps ∧ (t : Int) - l - secSteps ≤ 16000) =
        (l + 15999984000 ≤ t ∧ t ≤ l + 16000016000) := by
      simp only [secSteps]
      exact propext (by omega)
    simp only [hd, decide_eq_true_eq]

/-! ### Numbers as bytes -/

theorem beVal_cons (a : Byte) (l : List Byte) : beVal (a :: l) = a.toNat * 256 ^ l.length + beVal l := by
  have h (l : List Byte) (n : Nat) : l.foldl (fun a b => a * 256 + b.toNat) n = n * 256 ^ l.length + beVal l := by
    induction l generalizing n with
    | nil => simp [beVal]
    | cons x l ih =>
      rw [beVal, List.foldl_cons, ih, List.foldl_cons, ih, List.length_cons, Nat.pow_succ]
      grind
  rw [beVal, List.foldl_cons, h]
  simp

theorem beVal_lt (l : List Byte) : beVal l < 256 ^ l.length := by
  induction l with
  | nil => simp [beVal]
  | cons a l ih =>
    have ha : a.toNat ≤ 255 := by have := a.isLt; omega
    rw [beVal_cons, List.length_cons, Nat.pow_succ]
    have := Nat.mul_le_mul_right (256 ^ l.length) ha
    omega

/-- A number beyond the bytes asked for does not show in them. -/
theorem beBytes_add (n v k : Nat) : beBytes n (v + k * 256 ^ n) = beBytes n v := by
  induction n generalizing k with
  | zero => rfl
  | succ n ih =>
    have hk : k * 256 ^ (n + 1) = k * 256 * 256 ^ n := by rw [Nat.pow_succ']; grind
    have hd : (v + k * 256 * 256 ^ n) / 256 ^ n = v / 256 ^ n + k * 256 := Nat.add_mul_div_right _ _ (Nat.pow_pos (by decide))
    rw [beBytes, beBytes, hk, ih, hd]
    congr 1
    apply BitVec.eq_of_toNat_eq
    simp only [BitVec.toNat_ofNat]
    omega

@[simp] theorem length_leBytes (n v : Nat) : (leBytes n v).length = n := by
  induction n generalizing v with
  | zero => rfl
  | succ n ih => simp [leBytes, ih]

theorem beBytes_beVal (l : List Byte) : beBytes l.length (beVal l) = l := by
  induction l with
  | nil => rfl
  | cons a l ih =>
    have hd : (a.toNat * 256 ^ l.length + beVal l) / 256 ^ l.length = a.toNat := by
      rw [Nat.add_comm, Nat.add_mul_div_right _ _ (Nat.pow_pos (by decide)), Nat.div_eq_of_lt (beVal_lt l), Nat.zero_add]
    rw [List.length_cons, beVal_cons, beBytes, hd, Nat.add_comm, beBytes_add, ih, BitVec.ofNat_toNat]
    simp

theorem leVal_leBytes (n v : Nat) : leVal (leBytes n v) = v % 256 ^ n := by
  induction n generalizing v with
  | zero => simp [leBytes, leVal, beVal, Nat.mod_one]
  | succ n ih =>
    have h : leVal (leBytes (n + 1) v) = leVal (leBytes n (v / 256)) * 256 + (BitVec.ofNat 8 v).toNat := by
      simp [leVal, beVal, leBytes]
    rw [h, ih, Nat.pow_succ', Nat.mod_mul, BitVec.toNat_ofNat]
    omega

/-- R23 to R26 for an edge: what the first part of the statement says of it. -/
theorem ppsEdge_accepted (hk : keeperRuns s = true) {off : Fin 160000} {high : Nat} (hh : 50 ≤ high)
    (hsrc : s.time.src ≠ ppsCode b)
    (hx : (ppsAt s b).last = none ∨ ∃ l, (ppsAt s b).last = some l ∧ s.time.loop ≠ .locked ∧
      l + 8000000000 ≤ (instant s off.val : Int)) :
    exec (.ppsEdge b off high) s = .next (setPps s b
      { last := some (instant s off.val), run := edgeRun (ppsAt s b) (instant s off.val), outliers := 0,
        qualified := (ppsAt s b).qualified || decide (edgeRun (ppsAt s b) (instant s off.val) ≥ 10) }) := by
  rw [← acceptEdge_unselected hsrc]
  show execPpsEdge b off high s = _
  have hn : ¬ (decide (high < 50) || !keeperRuns s) = true := by simp [hk, hh]
  unfold execPpsEdge
  dsimp only
  rw [if_neg hn]
  rcases hx with hx | ⟨l, hx, hl, ht⟩
  · simp only [hx]
  · simp only [hx]
    rw [if_neg (by simp only [secSteps]; omega), if_neg (by simp [hl])]

/-- An edge that does not lie where it must is counted, and the third such one unlocks the loop of its input. -/
theorem ppsEdge_ignored (hk : keeperRuns s = true) {off : Fin 160000} {high : Nat} (hh : 50 ≤ high) {l : Int}
    (hx : (ppsAt s b).last = some l) :
    ((instant s off.val : Int) < l + 8000000000 → exec (.ppsEdge b off high) s = .next (countIgnored s b)) ∧
    (l + 8000000000 ≤ (instant s off.val : Int) → s.time.loop = .locked → offPrediction l (instant s off.val) > 16000 →
      exec (.ppsEdge b off high) s = .next (
        let v := countIgnored (setPps s b { ppsAt s b with outliers := (ppsAt s b).outliers + 1 }) b
        if (ppsAt s b).outliers ≥ 2 ∧ s.time.src = ppsCode b then
          updTime (setPps v b { ppsAt v b with outliers := 0 }) fun t =>
            { t with loop := .acquiring, within := 0, lostLock := true }
        else v)) := by
  have he : exec (.ppsEdge b off high) s = execPpsEdge b off high s := rfl
  have hn : ¬ (decide (high < 50) || !keeperRuns s) = true := by simp [hk, hh]
  rw [he]
  unfold execPpsEdge
  dsimp only
  rw [if_neg hn]
  split
  · rename_i h
    rw [hx] at h
    exact absurd h (by simp)
  rename_i l' h
  obtain rfl : l = l' := Option.some.inj (hx.symm.trans h)
  refine ⟨fun ht => ?_, fun ht hl ho => ?_⟩
  · rw [if_pos (by simp only [secSteps]; omega)]
  · rw [if_neg (by simp only [secSteps]; omega), if_pos (by simp [hl, ho])]
    have hsrc : steersTo (countIgnored (setPps s b { ppsAt s b with outliers := (ppsAt s b).outliers + 1 }) b) b =
        decide (s.time.src = ppsCode b) := by cases b <;> rfl
    have hc : (decide ((ppsAt s b).outliers + 1 ≥ 3) && decide (s.time.src = ppsCode b)) =
        decide ((ppsAt s b).outliers ≥ 2 ∧ s.time.src = ppsCode b) := by
      rw [← Bool.decide_and]
      exact decide_eq_decide.2 (and_congr_left' (by omega))
    rw [hsrc, hc]
    simp only [decide_eq_true_eq]

/-- An input that has shown no edge for 1.5 s is lost. -/
theorem qualificationLoss (hk : keeperRuns s = true) {off : Fin 160000} {l : Int} (hq : (ppsAt s b).qualified = true)
    (hx : (ppsAt s b).last = some l) (ht : l + 24000000000 ≤ (instant s off.val : Int)) :
    let v := setPps s b { ppsAt s b with qualified := false, run := 0 }
    exec (.ppsQualificationLoss b off) s = .next (if s.time.src = ppsCode b then
      sourceLost (updTime v fun t => { t with label := none }) b else v) := by
  intro v
  have he : exec (.ppsQualificationLoss b off) s = execPpsQualificationLoss b off s := rfl
  have hsrc : steersTo v b = decide (s.time.src = ppsCode b) := by cases b <;> rfl
  have hlost (h : s.time.src ≠ ppsCode b) : sourceLost v b = v := by
    rw [sourceLost, hsrc, decide_eq_false h]
    rfl
  rw [he]
  unfold execPpsQualificationLoss
  extract_lets x late w
  have hlate : late = true := by
    have h3 : secSteps * 3 / 2 = 24000000000 := rfl
    dsimp only [late, x]
    rw [hx, h3]
    exact decide_eq_true (by omega)
  have hw : w = v := rfl
  rw [if_neg (by simp [x, hq, hlate, hk]), hw, hsrc]
  by_cases h : s.time.src = ppsCode b
  · rw [if_pos h, if_pos (decide_eq_true h)]
  · rw [if_neg h, if_neg (by simpa using h), hlost h]

/-- With AUTO the loop goes to the other input where that is qualified. -/
theorem sourceLost_switches (hs : s.time.src = ppsCode b) (hl : s.time.loop = .locked) (ha : todAuto s = true)
    (ho : (ppsAt s !b).qualified = true) :
    (sourceLost s b).time = { s.time with src := ppsCode !b, active := ppsCode !b, loop := .acquiring, within := 0,
                                          freqBad := false, lostLock := false, label := none } := by
  have hst : steersTo s b = true := decide_eq_true hs
  rw [sourceLost, hst, hl, if_neg (by simp), ha, ho, Bool.and_self, if_pos rfl, time_todEvent]
  rfl

theorem time_enterHoldover (s : State) : (enterHoldover s).time =
    { s.time with
      loop := .holdover, active := 0, slew := 0, within := 0, lostLock := false,
      freq := if s.time.freqHist.isEmpty then s.time.freq
        else s.time.freqHist.foldl (· + ·) 0 / (s.time.freqHist.length : Int) } := by
  unfold enterHoldover
  dsimp only
  rw [time_todEvent]
  rfl

theorem sourceLost_holdover (hs : s.time.src = ppsCode b) (hl : s.time.loop = .locked) (ha : todAuto s = false) :
    sourceLost s b = enterHoldover s := by
  have hst : steersTo s b = true := decide_eq_true hs
  rw [sourceLost, hst, hl, if_neg (by simp), ha, if_neg (by simp), if_neg (by simp)]

theorem reacquireTimeout (hk : keeperRuns s = true) (hl : s.time.loop = .acquiring) (hlost : s.time.lostLock = true) :
    ∃ b, exec .reacquireTimeout s = .next (enterHoldover (setPps s b { ppsAt s b with run := 0 })) := by
  refine ⟨decide (s.time.src = 2), ?_⟩
  show execReacquireTimeout s = _
  rw [execReacquireTimeout, hl, hlost, hk]
  rfl

/-! ### Time codes and time transfer -/

/-- The message that labels a second. -/
def codeBody (flags : Byte) (sec utc : Nat) : List Byte :=
  [0x5A, 0xA5, 1, flags] ++ leBytes 8 sec ++ leBytes 2 utc ++ [0, 0]

def codeMessage (flags : Byte) (sec utc : Nat) : List Byte :=
  codeBody flags sec utc ++ leBytes 4 (crc32c (codeBody flags sec utc)).toNat

theorem bytes_of_message (flags : Byte) (sec utc : Nat) :
    beBytes 20 (BitVec.ofNat 160 (beVal (codeMessage flags sec utc))).toNat = codeMessage flags sec utc := by
  have hl : (codeMessage flags sec utc).length = 20 := by simp [codeMessage, codeBody]
  have hlt := beVal_lt (codeMessage flags sec utc)
  rw [hl] at hlt
  rw [BitVec.toNat_ofNat, Nat.mod_eq_of_lt (by simpa using hlt), ← hl, beBytes_beVal]

theorem length_codeBody (flags : Byte) (sec utc : Nat) : (codeBody flags sec utc).length = 16 := by simp [codeBody]

theorem take_codeMessage (flags : Byte) (sec utc : Nat) :
    (codeMessage flags sec utc).take 16 = codeBody flags sec utc :=
  List.take_left' (length_codeBody ..)

theorem crc_codeMessage (flags : Byte) (sec utc : Nat) :
    leVal (((codeMessage flags sec utc).drop 16).take 4) = (crc32c (codeBody flags sec utc)).toNat := by
  have hd : (codeMessage flags sec utc).drop 16 = leBytes 4 (crc32c (codeBody flags sec utc)).toNat :=
    List.drop_left' (length_codeBody ..)
  rw [hd, List.take_of_length_le (by simp), leVal_leBytes]
  exact Nat.mod_eq_of_lt (crc32c (codeBody flags sec utc)).isLt

theorem label_codeMessage (flags : Byte) (sec : Word) (utc : Nat) :
    BitVec.ofNat 64 (leVal (((codeMessage flags sec.toNat utc).drop 4).take 8)) = sec := by
  have hd : (codeMessage flags sec.toNat utc).drop 4 = leBytes 8 sec.toNat ++
      (leBytes 2 utc ++ [0, 0] ++ leBytes 4 (crc32c (codeBody flags sec.toNat utc)).toNat) := by
    simp [codeMessage, codeBody]
  rw [hd, List.take_left' (length_leBytes ..), leVal_leBytes, Nat.mod_eq_of_lt (by simpa using sec.isLt)]
  simp

theorem marks_codeMessage (flags : Byte) (sec utc : Nat) :
    ((codeMessage flags sec utc).drop 0).take 2 = [0x5A, 0xA5] ∧ ((codeMessage flags sec utc).drop 2).take 1 = [1] :=
  ⟨rfl, rfl⟩

/-- A message that passes its checks, in its time after the edge, gives its label. -/
theorem timeCode_accepted (hk : keeperRuns s = true) {flags : Byte} {sec : Word} {utc ms : Nat} {l : Int}
    (hl : (if s.time.src = 1 then s.time.ppsA.last else if s.time.src = 2 then s.time.ppsB.last else none) = some l)
    (h1 : 100 ≤ ms) (h2 : ms ≤ 900) :
    exec (.timeCodeMessage (BitVec.ofNat 160 (beVal (codeMessage flags sec.toNat utc))) ms true) s = .next (
      if running s then
        let v := updTime s fun t => { t with labelOk := decide ((sec.toNat : Int) = (l + 24000000000) / 16000000000) }
        if (sec.toNat : Int) = (l + 24000000000) / 16000000000 then v else todEvent v 0x2014
      else if s.mode.mode = .init then updTime s fun t => { t with label := some sec }
      else s) := by
  have he (m : BitVec 160) : exec (.timeCodeMessage m ms true) s = execTimeCodeMessage m ms true s := rfl
  rw [he]
  unfold execTimeCodeMessage
  extract_lets bs part last good label v
  have hbs : bs = codeMessage flags sec.toNat utc := bytes_of_message ..
  have hlast : last = some l := hl
  rw [hlast]
  have hgood : good = true := by
    have hpart (o n : Nat) : part o n = ((codeMessage flags sec.toNat utc).drop o).take n := by rw [← hbs]
    obtain ⟨hm, hv⟩ := marks_codeMessage flags sec.toNat utc
    dsimp only [good]
    rw [hpart, hpart, hpart, hbs, hm, hv, crc_codeMessage, take_codeMessage]
    simp [h1, h2]
  have hsec : label = sec := by
    rw [← label_codeMessage flags sec utc, ← hbs]
  have hnext : (l + (secSteps + secSteps / 2 : Nat)) / (secSteps : Nat) = (l + 24000000000) / 16000000000 := rfl
  dsimp only
  rw [hgood, hk, if_neg (by simp), hsec, hnext]
  simp only [decide_eq_true_eq]
  rfl

/-- Bit 0 of the flags of a message says whether the loop is locked. -/
theorem lockedFlag (p : Prop) [Decidable p] (n : Nat) :
    (BitVec.ofNat 8 ((if p then 1 else 0) + n % 2 * 2)).getLsbD 0 = decide p := by
  rw [BitVec.getLsbD_ofNat]
  split <;> rename_i h <;> simp [h, Nat.testBit_zero]

/-- Half a second of the time after a rise of PPS_OUT the message that labels the next edge is due. -/
theorem timeCodeOutput_due (he : tcoEnabled s = true) (ho : s.time.ppsOut = true) (ht : s.time.tcSent = false)
    (hk : keeperRuns s = true) (h1 : 1600000000 ≤ s.time.steps) (h2 : s.time.steps ≤ 8000000000) :
    let h : List Byte := [0x5A, 0xA5, 1,
        BitVec.ofNat 8 ((if s.time.loop = .locked then 1 else 0) + (freeNow s).toNat % 2 * 2)] ++
      leBytes 8 (s.time.seconds.toNat + 1) ++ leBytes 2 (cell s (regKey todPage 0x06C)).toNat ++ [0, 0]
    exec .timeCodeOutput s = .next (updTime (emit (.timeCode (h ++ leBytes 4 (crc32c h).toNat)) (taken s))
      fun t => { t with tcSent := true }) := by
  intro h
  have hd : secSteps / 10 ≤ s.time.steps ∧ s.time.steps ≤ secSteps / 2 := ⟨h1, h2⟩
  have hn : ¬ (!tcoEnabled s || !s.time.ppsOut || s.time.tcSent || !keeperRuns s ||
      !decide (secSteps / 10 ≤ s.time.steps ∧ s.time.steps ≤ secSteps / 2)) = true := by
    rw [he, ho, ht, hk, decide_eq_true hd]
    simp
  show execTimeCodeOutput s = _
  unfold execTimeCodeOutput
  rw [if_neg hn]

/-- The settings of a slave that takes its time over a link. -/
theorem steer_time (s : State) (src : BitVec 2) (err freq : Int) :
    (steer s src err freq).time.phaseErr = err ∧ (steer s src err freq).time.active = src ∧
    (steer s src err freq).time.freq = freq ∧
    (steer s src err freq).time.slew = max (-5000000) (min 5000000 (-(err * 125 / 2))) := by
  unfold steer
  extract_lets near within was locks v
  have hv : (if locks then todEvent v 0x0012 else v).time = v.time := by
    split
    · exact time_todEvent ..
    · rfl
  rw [hv]
  exact ⟨rfl, rfl, rfl, rfl⟩

/-- Settles O22: an edge is accepted or ignored, a lost input switches or holds over, and a code or a message is
answered. -/
theorem timeInputs : Obligations.TimeInputs := by
  refine ⟨?_, ?_⟩
  · intro s b off high l hk x t put
    refine ⟨fun hh hsrc => ⟨fun hx => ?_, fun hx hl h1 h2 => ?_⟩, fun hh hx => ⟨(ppsEdge_ignored hk hh hx).1,
      fun ht hl ho hn => ?_, fun ht hl ho hn hsrc => ?_⟩, fun hh => ?_, fun hq hx ht => ⟨fun hsrc => ?_,
      fun hsrc hl ha ho => ?_, fun hsrc hl ha => ?_⟩, fun hl hlost hne => ?_⟩
    · rw [ppsEdge_accepted hk hh hsrc (.inl hx), edgeRun, hx]
      simp [put, x, t]
    · have hr : edgeRun x t = x.run + 1 := by rw [edgeRun, hx]; exact if_pos ⟨h1, h2⟩
      have hq : decide (x.run + 1 ≥ 10) = decide (x.run ≥ 9) := decide_eq_decide.2 (by omega)
      rw [ppsEdge_accepted hk hh hsrc (.inr ⟨l, hx, hl, by omega⟩), hr, hq]
    · rw [(ppsEdge_ignored hk hh hx).2 ht hl ho]
      have ho' : ¬ ((ppsAt s b).outliers ≥ 2 ∧ s.time.src = ppsCode b) := fun h => absurd hn (Nat.not_lt.2 h.1)
      exact congrArg _ (if_neg ho')
    · refine ⟨_, ((ppsEdge_ignored hk hh hx).2 ht hl ho).trans (congrArg _ (if_pos ⟨Nat.le_of_eq hn.symm, hsrc⟩)), rfl, ?_⟩
      cases b <;> rfl
    · have hn : (decide (high < 50) || !keeperRuns s) = true := by simp [hh]
      exact congrArg _ (if_pos hn)
    · rw [qualificationLoss hk hq hx ht, if_neg hsrc]
    · refine ⟨_, (qualificationLoss hk hq hx ht).trans (congrArg _ (if_pos hsrc)), ?_⟩
      have hv := sourceLost_switches (b := b) (s := updTime (setPps s b { ppsAt s b with qualified := false, run := 0 })
        fun t => { t with label := none }) (by cases b <;> exact hsrc) (by cases b <;> exact hl)
        (by cases b <;> exact ha) (by cases b <;> exact ho)
      dsimp only
      rw [hv]
      refine ⟨rfl, rfl, rfl, ?_⟩
      rw [ppsAt, hv]
      cases b <;> rfl
    · refine ⟨_, (qualificationLoss hk hq hx ht).trans (congrArg _ (if_pos hsrc)), ?_⟩
      have hv := time_enterHoldover (updTime (setPps s b { ppsAt s b with qualified := false, run := 0 })
        fun t => { t with label := none })
      rw [sourceLost_holdover (by cases b <;> exact hsrc) (by cases b <;> exact hl) (by cases b <;> exact ha)]
      dsimp only
      rw [hv]
      refine ⟨by cases b <;> rfl, rfl, rfl, rfl, ?_⟩
      rw [ppsAt, hv]
      cases b <;> rfl
    · obtain ⟨b', he⟩ := reacquireTimeout hk hl hlost
      refine ⟨_, he, ?_⟩
      dsimp only
      rw [time_enterHoldover]
      refine ⟨rfl, rfl, ?_⟩
      cases b' <;> exact if_neg (by simpa [setPps, updTime] using hne)
  · intro s sec utc ms flags k l go back hk body msg m
    refine ⟨fun hl h1 h2 => ⟨fun hm => ?_, fun hr hs => ?_, fun hr hs => ?_⟩, fun he ho ht h1 h2 => ?_,
      fun hu hf => ⟨?_, fun hs => ?_⟩⟩
    · refine (timeCode_accepted hk hl h1 h2).trans (congrArg _ ((if_neg ?_).trans (if_pos hm)))
      simp [running, hm]
    · refine (timeCode_accepted hk hl h1 h2).trans (congrArg _ ((if_pos hr).trans ((if_pos hs).trans ?_)))
      rw [decide_eq_true hs]
      rfl
    · refine ⟨_, (timeCode_accepted hk hl h1 h2).trans (congrArg _ ((if_pos hr).trans (if_neg hs))), ?_⟩
      dsimp only
      rw [time_todEvent, decide_eq_false hs]
      rfl
    · exact ⟨_, timeCodeOutput_due he ho ht hk h1 h2, rfl, _, _, rfl, lockedFlag .., rfl⟩
    · intro hs hsrc hkl err
      have hn : ¬ (!(vget s.links Link.reset k.val).up || (vget s.links Link.reset k.val).failed || !keeperRuns s) = true := by
        simp [hu, hf, hk]
      obtain ⟨h1, h2, h3, h4⟩ := steer_time s 3 err s.time.freq
      have ht : (isSlave s && decide (k.val = timeLink s)) = true := by simp [hs, hkl]
      exact ⟨_, congrArg Host.Outcome.next ((if_neg hn).trans ((if_pos ht).trans (if_pos hsrc))), h1, h2, h3, h4⟩
    · have hn : ¬ (!(vget s.links Link.reset k.val).up || (vget s.links Link.reset k.val).failed || !keeperRuns s) = true := by
        simp [hu, hf, hk]
      have hs' : ¬ (isSlave s && decide (k.val = timeLink s)) = true := by
        rcases hs with h | h <;> simp [h]
      exact congrArg _ ((if_neg hn).trans (if_neg hs'))

end Sys2Proof.Machine

/-! Events of the clock, the dies, a lane and an imbalance, and a record of the Almanac (01, 02, 21). -/

namespace Sys2Proof.Machine
-- Proofs one after the other: side by side they take more memory than the check allows.
set_option Elab.async false

variable {s t : State}

/-! ### Modes entered and checkstop -/

theorem mode_enterMode (s : State) (m : ModeKind) (phase : Nat) :
    (enterMode s m phase).mode = { s.mode with mode := m, phase := phase, transition := .none } := by
  unfold enterMode
  exact congrArg (·.mode) (logEvent_logged ..).eq

theorem stop_enterMode (s : State) (m : ModeKind) (phase : Nat) :
    (enterMode s m phase).err.stopCode = s.err.stopCode ∧ (enterMode s m phase).err.stopPage = s.err.stopPage := by
  unfold enterMode
  have h := (logEvent_logged { s with mode := { s.mode with mode := m, phase := phase, transition := .none } }
    { page := keeperPage, code := 0x0194, sub := m.code }).err
  exact ⟨congrArg (·.stopCode) h, congrArg (·.stopPage) h⟩

/-- A checkstop is entered, and the first cause latched. -/
theorem checkstopNow_first (hm : s.mode.mode ≠ .checkstop) (h0 : s.err.stopCode = 0) (code page : Nat) :
    (checkstopNow s code page).mode.mode = .checkstop ∧ (checkstopNow s code page).err.stopCode = code ∧
      (checkstopNow s code page).err.stopPage = page := by
  unfold checkstopNow
  rw [if_neg hm]
  extract_lets _ u _ v
  have hv : v.err.stopCode = code ∧ v.err.stopPage = page := by
    dsimp only [v]
    rw [if_pos (show u.err.stopCode = 0 from h0)]
    exact ⟨rfl, rfl⟩
  obtain ⟨hc, hp⟩ := stop_enterMode v .checkstop 0
  exact ⟨congrArg (·.mode) (mode_enterMode v .checkstop 0), hc.trans hv.1, hp.trans hv.2⟩

/-- An error of class 4 is recorded and checkstops the package. -/
theorem raise_checkstops {e : Event} (h : classOf e.code = 4) : raise s e = checkstopNow (logEvent s e) e.code e.page := by
  rw [raise, h]
  rfl

theorem stopCode_logEvent (s : State) (e : Event) : (logEvent s e).err.stopCode = s.err.stopCode :=
  congrArg (·.stopCode) (logEvent_logged s e).err

theorem mode_logEvent (s : State) (e : Event) : (logEvent s e).mode = s.mode :=
  congrArg (·.mode) (logEvent_logged s e).eq

/-! ### The statement -/

theorem keeperDieLoss (hm : s.mode.mode ≠ .off) (hd : s.err.degKeeper = false) :
    Gives .keeperDieLoss s fun v =>
      v.time = { s.time with dieHoldover := true, slew := 0 } ∧ v.err = { s.err with degKeeper := true } ∧
      v.strike.st ≠ .armed ∧ v.regs = s.regs := by
  have hn : ¬ (s.mode.mode = .off ∨ s.err.degKeeper = true) := by simp [hm, hd]
  refine ⟨_, congrArg Host.Outcome.next (if_neg hn), rfl, rfl, ?_, rfl⟩
  show (if s.strike.st = .armed then { s.strike with st := .idle, waitAcks := [] } else s.strike).st ≠ .armed
  split
  · simp
  · assumption

/-- A third failing lane loses the die. -/
theorem laneRemap_loses {link : Fin 13} {inbound : Bool} {far : Nat}
    (hfar : (if inbound then (linkEnds link.val).1 else (linkEnds link.val).2) = far) (hd : dieOn s far = true)
    (hn : Tab.read (fun _ => 0) s.lanes (link.val * 2 + inbound.toNat) ≥ 2) (hm : s.mode.mode ≠ .checkstop)
    (h0 : s.err.stopCode = 0) : Gives (.laneRemap link inbound) s fun v =>
      v.mode.mode = .checkstop ∧ v.err.stopCode = 0x8177 ∧ v.err.stopPage = errlogPage far := by
  subst hfar
  have hd' : ¬ (!dieOn s (if inbound then (linkEnds link.val).1 else (linkEnds link.val).2)) = true := by simp [hd]
  refine ⟨_, congrArg Host.Outcome.next ((if_neg hd').trans (if_pos hn)), ?_⟩
  rw [raise_checkstops (show classOf 0x8177 = 4 by decide)]
  exact checkstopNow_first (by rwa [mode_logEvent]) (by rwa [stopCode_logEvent]) ..

/-- Settles O23: each event changes what it names, and a record is written where its ring says. -/
theorem timeEvents : Obligations.TimeEvents := by
  refine ⟨?_, ?_⟩
  · intro s d link inbound cls index time
    refine ⟨rfl, fun hk => ⟨fun ho => ?_, fun ho => ?_⟩, keeperDieLoss, ?_, ?_⟩
    · exact congrArg Host.Outcome.next (if_neg (by simp [ho, hk]))
    · exact congrArg Host.Outcome.next (if_pos (by simp [ho, hk]))
    · intro far k n hd
      have hd' : ¬ (!dieOn s far) = true := by simp [hd]
      refine ⟨fun hn => ?_, fun hn hm h0 => laneRemap_loses rfl hd hn hm h0⟩
      exact congrArg Host.Outcome.next ((if_neg hd').trans (if_neg (Nat.not_le.2 hn)))
    · intro k hk hr
      exact congrArg Host.Outcome.next (if_neg (by simpa using ⟨hk, hr⟩))
  · intro s t d r l hd hw wp a hc hs
    show execAlmanacRecordWritten d s = _
    unfold execAlmanacRecordWritten
    have hn : ¬ (!dieOn s d.val || !canWriteAll s [(a, 256 * r.lines)]) = true := by simp [hd, hc]
    dsimp only
    rw [hw]
    dsimp only
    rw [if_neg hn, hs]

end Sys2Proof.Machine

/-! Writes of the service space (03 R54 to R60). -/

namespace Sys2Proof.Machine
-- Proofs one after the other: side by side they take more memory than the check allows.
set_option Elab.async false

variable {s : State} {m : Master}

/-- A word written to a page that may be written. -/
theorem writeService_word {off : Nat} (hw : writable s m (off / 4096) = true) (h4 : off % 4 = 0) (v : Word) :
    writeService s m off 4 v = writeOne s m (off / 4096) (off % 4096) 4 v := by
  have hn : ¬ (¬(4 = 4 ∨ 4 = 8) ∨ off % 4 ≠ 0 ∨ writable s m (off / 4096) = false) := by simp [hw, h4]
  unfold writeService
  rw [if_neg hn, if_pos rfl]

theorem writeService_refused {off : Nat} (hw : writable s m (off / 4096) = false) (size : Nat) (v : Word) :
    writeService s m off size v = discard s m off true := by
  unfold writeService
  rw [if_pos (.inr (.inr hw))]

/-- A word written to a register below the drafts, by its type. -/
theorem writeOne_word {p lo e : Nat} {r : RegDef} (hlo : lo < 0x800) (hr : regAt p lo = some (r, e)) (v : Word) :
    writeOne s m p lo 4 v = match r.ty with
      | .st _ => writeSt s m p e r lo 4 (v &&& 0xFFFFFFFF) (p * 4096 + lo)
      | .lv => writeLv s m p e r lo 4 (v &&& 0xFFFFFFFF) (p * 4096 + lo)
      | .w1c => setCell s (regKey p e (regIx s p e)) (cell s (regKey p e (regIx s p e)) &&&
          ~~~(if r.bytes = 8 then putHalf 0 lo 4 (v &&& 0xFFFFFFFF) else v &&& 0xFFFFFFFF))
      | .sc =>
        if e = 0x00C then writeCommand s m p (field (v &&& 0xFFFFFFFF) 0 8) (field (v &&& 0xFFFFFFFF) 8 24)
        else if e = 0x04C then writeProofCmd s m (bit (v &&& 0xFFFFFFFF) 0)
        else writeStrikeCmd s m (field (v &&& 0xFFFFFFFF) 0 2)
      | .ro => s := by
  have hd : decide (lo ≥ 0x800) = false := decide_eq_false (Nat.not_le.2 hlo)
  unfold writeOne
  simp only [hd, if_true, Bool.false_eq_true, if_false, hr]
  cases r.ty <;> rfl

/-- A word written to a register of 4 bytes takes the bits that are not reserved. -/
theorem mergeReg_word {r : RegDef} (h : r.bytes = 4) (old v : Word) (off : Nat) :
    mergeReg r old off 4 v = v &&& BitVec.ofNat 64 r.mask := by
  rw [mergeReg, if_neg (by omega)]

/-- A register of no block of its own takes what is written. -/
theorem writeLv_plain {p e off size : Nat} {r : RegDef} {v : Word} {full : Nat}
    (hp : pageType p ∉ [0x01, 0x08, 0x11, 0x38, 0x3C]) :
    writeLv s m p e r off size v full = setCell s (regKey p e) (mergeReg r (cell s (regKey p e)) off size v) := by
  unfold writeLv
  split
  · rename_i h; exact absurd (by simp [h]) hp
  · rename_i h; exact absurd (by simp [h]) hp
  · rename_i h; exact absurd (by simp [h]) hp
  · rename_i h; exact absurd (by simp [h]) hp
  · rename_i h; exact absurd (by simp [h]) hp
  · rfl

theorem cell_setCell (s : State) (k j : Nat) (v : Word) : cell (setCell s k v) j = if j = k then v else cell s j :=
  read_write ..

theorem command_run {p : Nat} {f : State → State} (hw : writable s m p = true) (hc : Tab.look s.cmds p = none) :
    command s m p true f = f s := by
  have hr : Tab.read (fun _ => (0 : Word)) s.cmds p = 0 := by rw [Tab.read, hc]; rfl
  unfold command
  rw [hw, hr]
  rfl

/-- COMMAND 01h is that of every page. -/
theorem writeCommand_clear (s : State) (m : Master) (p arg : Nat) :
    writeCommand s m p 1 arg = command s m p true fun s => errClear s p := by
  unfold writeCommand
  exact (if_neg (by decide)).trans (if_pos rfl)

/-- COMMAND of every page. -/
theorem regAt_command (p : Nat) : ∃ r : RegDef, r.ty = .sc ∧ regAt p 0x00C = some (r, 0x00C) :=
  ⟨⟨0x00C, 4, .sc, m32, 0, 1, 8⟩, rfl, rfl⟩

/-- Settles O25: a word is written by the type of its register. -/
theorem registerWrites : Obligations.RegisterWrites := by
  intro s m off r e v p lo
  refine ⟨fun hw h4 hlo hr hb => ?_, fun hw => ?_, fun page hw hc => ?_⟩
  · have hword := (writeService_word (s := s) (m := m) hw h4 v).trans (writeOne_word hlo hr v)
    have he : exec (.registerWrite m off 4 v) s = .next (writeService s m off.toNat 4 v) := rfl
    have hd : exec (.draftWrite m off 4 v) s = .next (writeService s m off.toNat 4 v) := rfl
    refine ⟨fun c ht ho => ⟨?_, rfl⟩, fun c ht ho => ?_, fun ht hp => ?_, fun ht => ?_, fun ht => ?_⟩
    · rw [hd, hword, ht]
      dsimp only
      rw [writeSt, if_pos ho]
      dsimp only
      rw [mergeReg_word hb]
    · have hoff : off.toNat / 4096 * 4096 + off.toNat % 4096 = off.toNat := by omega
      rw [hd, hword, ht]
      dsimp only
      rw [writeSt, ho, if_neg (by simp), hoff]
    · rw [he, hword, ht]
      dsimp only
      rw [writeLv_plain hp, mergeReg_word hb]
    · rw [he, hword, ht]
      dsimp only
      rw [if_neg (by omega)]
    · rw [he, hword, ht]
  · have he : exec (.registerWrite m off 4 v) s = .next (writeService s m off.toNat 4 v) := rfl
    rw [he, writeService_refused hw]
  · obtain ⟨r, hr, hreg⟩ := regAt_command page.toNat
    have hp : (page.toNat * 4096 + 0x00C) / 4096 = page.toNat := by omega
    have hlo : (page.toNat * 4096 + 0x00C) % 4096 = 0x00C := by omega
    have h := writeService_word (m := m) (v := 1) (off := page.toNat * 4096 + 0x00C) (by rwa [hp]) (by omega)
    rw [hp, hlo, writeOne_word (by omega) hreg, hr] at h
    have h1 : writeCommand s m page.toNat 1 0 = errClear s page.toNat := (writeCommand_clear ..).trans (command_run hw hc)
    refine ⟨_, congrArg Host.Outcome.next (h.trans h1), ?_⟩
    have hk : regKey page.toNat 0x010 ≠ regKey page.toNat 0x018 := by simp [regKey]
    dsimp only [errClear]
    rw [cell_setCell, cell_setCell, cell_setCell, if_neg hk, if_pos rfl, if_pos rfl]
    exact ⟨rfl, rfl⟩

end Sys2Proof.Machine

/-! Reads of the service space, the event queue's read pointers, the sideband and the test port (03, 17, 21). -/

namespace Sys2Proof.Machine
-- Proofs one after the other: side by side they take more memory than the check allows.
set_option Elab.async false

variable {s : State} {m : Master} {b : Bool}

/-! ### Test port -/

theorem idcode_bits : idcodeValue.getLsbD 0 = true ∧ idcodeValue.toNat / 2 ^ 12 % 2 ^ 16 = 0x0A74 := by
  refine ⟨by simp [idcodeValue], ?_⟩
  have h : idcodeValue.extractLsb' 12 16 = 0x0A74#16 := by
    rw [idcodeValue, BitVec.extractLsb'_or, BitVec.extractLsb'_and]
    have h0 : (0xF0000FFE#32).extractLsb' 12 16 = 0#16 := by decide
    rw [h0, BitVec.and_zero, BitVec.zero_or]
    decide
  have := congrArg BitVec.toNat h
  simpa [BitVec.extractLsb'_toNat, Nat.shiftRight_eq_div_pow] using this

theorem tapLoad_run (h : s.mode.mode ≠ .off) (i : TapInstr) : tapLoad s i = { s with tap := { s.tap with instr := i } } := by
  rw [tapLoad, if_neg h]

theorem tapTest_run (h : s.mode.mode ≠ .off) (i : TapInstr) : tapTest s i =
    if s.mode.mode = .init ∧ s.mode.phase = 2 then { s with tap := { instr := i, used := true } }
    else { s with tap := { s.tap with instr := .bypass } } := by
  rw [tapTest, tapLoad_run h]
  simp only [Bool.and_eq_true, decide_eq_true_eq]

/-! ### Reads -/

theorem readEffect_elsewhere {off : Nat} (h : off / 4096 ≠ csPage 6) (size : Nat) : readEffect s m off size = s := by
  unfold readEffect
  rw [if_neg (by simp [h])]

/-- A word of a page that is reached and powered, or zero from one that is not there. -/
theorem readService_word {off : Nat} (h4 : off % 4 = 0) : readService s m off 4 =
    if reaches m (off / 4096) = false then .value 0
    else if dieOn s (pageDie (off / 4096)) = false then .value (BitVec.ofNat 64 (2 ^ (8 * 4) - 1))
    else .value (BitVec.ofNat 64 (readWord s (off / 4096) (off % 4096))) := by
  unfold readService
  rw [if_neg (show ¬ (¬(4 = 4 ∨ 4 = 8) ∨ off % 4 ≠ 0) by simp [h4])]
  simp only [Bool.not_eq_true', if_true]

theorem readBy_value {off size : Nat} {v : Word} (hp : portLost s m = false) (h : readService s m off size = .value v)
    (hcs : off / 4096 ≠ csPage 6) : readBy s m off size = { s with out := .reply m v :: s.out } := by
  unfold readBy
  rw [hp, if_neg (by simp), h, readEffect_elsewhere hcs]
  rfl

/-! ### The event queue's read pointers -/

theorem writable_keeper (hm : s.mode.mode ≠ .off) (hd : s.err.degKeeper = false) (m : Master) :
    writable s m keeperPage = true := by
  have hr : reaches m keeperPage = true := by cases m <;> decide
  have hl : portLost s m = false := by rw [portLost, hd, Bool.false_and]
  have hdie : dieOn s (pageDie keeperPage) = true := by
    rw [dieOn, if_pos (by decide), hd]
    simpa using hm
  rw [writable, hr, hl, hdie]
  simp

/-- The read pointer of a port, written by that port within the queue. -/
theorem writeRp_port (h : m = if b then .portB else .portA) {v : BitVec 32} (hv : (s.err.wp - v).toNat ≤ 256) (full : Nat) :
    writeRp s m b v full = { s with err := if b then { s.err with rpB := v } else { s.err with rpA := v } } := by
  unfold writeRp
  rw [if_pos ⟨h, hv⟩]

theorem evqReadPointerWrite (hm : s.mode.mode ≠ .off) (hd : s.err.degKeeper = false)
    (h : m = if b then .portB else .portA) {v : BitVec 32} (hv : (s.err.wp - v).toNat ≤ 256) :
    exec (.evqReadPointerWrite m b v) s =
      .next { s with err := if b then { s.err with rpB := v } else { s.err with rpA := v } } := by
  have he : exec (.evqReadPointerWrite m b v) s =
    .next (writeService s m (keeperPage * 4096 + (if b then 0x108 else 0x104)) 4 (v.setWidth 64)) := rfl
  have hword : (v.setWidth 64 &&& 0xFFFFFFFF : Word).setWidth 32 = v := by
    rw [BitVec.setWidth_and, BitVec.setWidth_setWidth_of_le _ (by omega), BitVec.setWidth_eq]
    exact BitVec.and_allOnes
  rw [he, ← writeRp_port h hv 0]
  cases b
  · have hreg : regAt keeperPage 0x104 = some (⟨0x104, 4, .lv, m32, 0, 1, 8⟩, 0x104) := rfl
    have hw := writeService_word (v := v.setWidth 64) (off := keeperPage * 4096 + 0x104) (writable_keeper hm hd m) rfl
    have hlv (x : Word) (full : Nat) : writeLv s m keeperPage 0x104 ⟨0x104, 4, .lv, m32, 0, 1, 8⟩ 0x104 4 x full =
        writeRp s m false (x.setWidth 32) full := rfl
    exact congrArg Host.Outcome.next (hw.trans ((writeOne_word (by decide) hreg _).trans
      ((hlv ..).trans (by rw [hword, writeRp_port h hv, writeRp_port h hv]))))
  · have hreg : regAt keeperPage 0x108 = some (⟨0x108, 4, .lv, m32, 0, 1, 8⟩, 0x108) := rfl
    have hw := writeService_word (v := v.setWidth 64) (off := keeperPage * 4096 + 0x108) (writable_keeper hm hd m) rfl
    have hlv (x : Word) (full : Nat) : writeLv s m keeperPage 0x108 ⟨0x108, 4, .lv, m32, 0, 1, 8⟩ 0x108 4 x full =
        writeRp s m true (x.setWidth 32) full := rfl
    exact congrArg Host.Outcome.next (hw.trans ((writeOne_word (by decide) hreg _).trans
      ((hlv ..).trans (by rw [hword, writeRp_port h hv, writeRp_port h hv]))))

/-! ### The sideband -/

/-- The pointer that the bytes of a pointer write leave. -/
theorem sidebandPointerWrite (hm : s.mode.mode ≠ .off) (hd : s.err.degKeeper = false) {bytes : List Byte} {ptr : Option Nat}
    (hp : (match bytes with
      | [p, h, l] =>
        let o := h.toNat * 256 + l.toNat
        if 1 ≤ p.toNat ∧ p.toNat ≤ 3 ∧ o % 4 = 0 ∧ o < 4096 then some (p.toNat * 4096 + o) else none
      | _ => none) = ptr) :
    exec (.sidebandPointerWrite b bytes) s = .next (setSide s b { sideOf s b with ptr := ptr }) := by
  have hn : ¬ (s.mode.mode = .off ∨ s.err.degKeeper = true) := by simp [hm, hd]
  subst hp
  exact congrArg Host.Outcome.next (if_neg hn)

theorem sidebandRead_within (hm : s.mode.mode ≠ .off) (hd : s.err.degKeeper = false) (hr : (sideOf s b).reads < 16) :
    exec (.sidebandRead b) s = .next (
      let t := setSide s b { sideOf s b with reads := (sideOf s b).reads + 1 }
      match (sideOf s b).ptr with
      | none => emit (.sideband b (List.replicate 8 0xFF)) t
      | some a =>
        match readService t (if b then .portB else .portA) (pageIx 6 (a / 4096) 0 * 4096 + a % 4096)
          (if a % 8 = 0 then 8 else 4) with
        | .value v => emit (.sideband b (beBytes (if a % 8 = 0 then 8 else 4) v.toNat)) t
        | .refused => t) := by
  have hn : ¬ (s.mode.mode = .off ∨ s.err.degKeeper = true ∨ (sideOf s b).reads ≥ 16) := by
    simp [hm, hd, hr]
  exact congrArg Host.Outcome.next (if_neg hn)

theorem sidebandRead_beyond (hr : 16 ≤ (sideOf s b).reads) : exec (.sidebandRead b) s = .next s :=
  congrArg Host.Outcome.next (if_pos (.inr (.inr hr)))

/-- Settles O26: reads, read pointers, the sideband and the test port each answer as their state says. -/
theorem portsAndSideband : Obligations.PortsAndSideband := by
  refine ⟨?_, ?_⟩
  · intro s m b off v p h l bytes page side port
    have hside : side = sideOf s b := rfl
    refine ⟨fun h4 hl hr hd hcs => ?_, fun h4 hl hr hcs => ?_, fun hm hd hp hv => evqReadPointerWrite hm hd hp hv, rfl, rfl,
      fun hm hd => ⟨?_, fun hb => ?_, fun hr => ?_, fun hr => sidebandRead_beyond hr⟩⟩
    · refine congrArg Host.Outcome.next (readBy_value hl ((readService_word h4).trans ?_) hcs)
      have hr' : reaches m (off.toNat / 4096) = true := hr
      have hd' : dieOn s (pageDie (off.toNat / 4096)) = true := hd
      rw [if_neg (by simp [hr']), if_neg (by simp [hd'])]
    · exact congrArg Host.Outcome.next (readBy_value hl ((readService_word h4).trans (if_pos hr)) hcs)
    · intro h1 h2 h3 h4
      exact sidebandPointerWrite hm hd (if_pos ⟨h1, h2, h3, h4⟩)
    · refine sidebandPointerWrite hm hd ?_
      split
      · exact absurd rfl hb
      · rfl
    · have ht := sidebandRead_within hm hd hr
      have hout (x : Sideband) : (setSide s b x).out = s.out := by cases b <;> rfl
      refine ⟨fun hp => ?_, fun a x hp ha hv => ?_⟩
      · rw [← hside, hp] at ht
        refine ht.trans ?_
        dsimp only
        rw [emit, hout]
      · rw [← hside, hp] at ht
        have h8 : ¬ a % 8 = 0 := by omega
        dsimp only at ht
        rw [if_neg h8, hv] at ht
        refine ht.trans ?_
        dsimp only
        rw [emit, hout]
  · intro s hm load test
    have hload (i : TapInstr) : Host.Outcome.next (tapLoad s i) = load i := congrArg Host.Outcome.next (tapLoad_run hm i)
    have htest (i : TapInstr) : Host.Outcome.next (tapTest s i) = test i := by
      rw [tapTest_run hm]
      dsimp only [test]
      split <;> rfl
    refine ⟨hload _, hload _, ⟨idcodeValue, ?_, idcode_bits⟩, htest _, htest _, htest _, htest _, htest _⟩
    refine congrArg Host.Outcome.next ((if_neg hm).trans ?_)
    rw [tapLoad_run hm]
    rfl

end Sys2Proof.Machine

/-! The Pen, Proof and Strike (03 R63 to R74). -/

namespace Sys2Proof.Machine
-- Proofs one after the other: side by side they take more memory than the check allows.
set_option Elab.async false

variable {s t : State} {m h : Master}

/-! ### What ends a Strike or a grant -/

theorem steady_logged (h : Logged s t) : steady t = steady s := by
  rw [h.eq]
  rfl

/-- A view of the state that no event changes, after a Strike has ended. -/
theorem strikeEnds_steady (s : State) (st : StrikeState) (reason : Nat) :
    steady (strikeEnds s st reason) = steady { s with strike := { s.strike with
      st := st, reason := reason, tick := BitVec.ofNat 32 s.time.transit.toNat, waitAcks := [] } } := by
  unfold strikeEnds
  exact steady_logEvent ..

theorem strike_strikeEnds (s : State) (st : StrikeState) (reason : Nat) :
    (strikeEnds s st reason).strike.st = st ∧ (strikeEnds s st reason).strike.reason = reason ∧
      (strikeEnds s st reason).drafts = s.drafts := by
  have h := strikeEnds_steady s st reason
  have hs := congrArg (·.strike) h
  refine ⟨congrArg (·.st) hs, congrArg (·.reason) hs, congrArg (·.drafts) h⟩

theorem cancelStrike_armed (h : s.strike.st = .armed) (reason : Nat) :
    cancelStrike s reason = strikeEnds s .cancelled reason := by
  rw [cancelStrike, if_pos h]

/-- What is left of a grant: no holder, no draft, no Proof and no armed Strike. -/
structure Emptied (s t : State) : Prop where
  pen : t.pen = { s.pen with holder := none, lease := 0 }
  drafts : t.drafts = []
  code : t.proof.code = 0
  busy : t.proof.busy = false
  strike : t.strike.st ≠ .armed

theorem emptied_of_steady {u : State} (h : Emptied s t) (hu : steady u = steady t) : Emptied s u := by
  have hpen : u.pen = t.pen := congrArg (·.pen) hu
  have hproof : u.proof = t.proof := congrArg (·.proof) hu
  have hstrike : u.strike = t.strike := congrArg (·.strike) hu
  exact ⟨hpen.trans h.pen, (congrArg (·.drafts) hu).trans h.drafts, hproof ▸ h.code, hproof ▸ h.busy,
    hstrike ▸ h.strike⟩

theorem releasePen_emptied (s : State) (reason : Nat) : Emptied s (releasePen s reason) := by
  unfold releasePen cancelStrike
  split
  · have hs := strikeEnds_steady { s with
      drafts := [], proof := { s.proof with code := 0, busy := false, proofed := false },
      pen := { s.pen with holder := none, lease := 0 } } .cancelled reason
    exact emptied_of_steady (t := { s with
      drafts := [], proof := { s.proof with code := 0, busy := false, proofed := false },
      pen := { s.pen with holder := none, lease := 0 }, strike := { s.strike with
        st := .cancelled, reason := reason, tick := BitVec.ofNat 32 s.time.transit.toNat, waitAcks := [] } })
      ⟨rfl, rfl, rfl, rfl, by simp⟩ hs
  · rename_i h
    exact ⟨rfl, rfl, rfl, rfl, h⟩

theorem penEvent_emptied (h : Emptied s t) (former : Nat) (brk : Bool) : Emptied s (penEvent t former brk) :=
  emptied_of_steady h (by unfold penEvent; exact steady_logEvent ..)

/-! ### The Pen -/

/-- The KEEPER page takes the writes of every master, or of none. -/
theorem writable_keeper_all (hw : writable s m keeperPage = true) (x : Master) : writable s x keeperPage = true := by
  simp only [writable, Bool.and_eq_true] at hw
  obtain ⟨⟨⟨-, -⟩, hd⟩, -⟩ := hw
  have hkeeper : (s.mode.mode != .off && !s.err.degKeeper) = true := hd
  simp only [Bool.and_eq_true, bne_iff_ne, ne_eq, Bool.not_eq_true'] at hkeeper
  exact writable_keeper hkeeper.1 hkeeper.2 x

theorem penTake_free (hw : writable s m keeperPage = true) (hp : s.pen.holder = none) {l : List Master} {w : Master}
    (hc : contendWinner s l = some w) : exec (.penTake l) s = .next (grantPen s w) := by
  have hn : ¬ (l.any fun m => !writable s m keeperPage) = true := by
    simp [writable_keeper_all hw]
  refine congrArg Host.Outcome.next ((if_neg hn).trans ?_)
  rw [hp, hc]

/-- The contender of the lesser rank, the former of two that are equal. -/
def lesser (s : State) (b x : Master) : Master := if contendRank s x < contendRank s b then x else b

theorem contendWinner_cons (s : State) (x : Master) (l : List Master) :
    contendWinner s (x :: l) = some (l.foldl (lesser s) x) := by
  have key (l : List Master) (b : Master) : l.foldl (fun b m => match b with
      | some x => if contendRank s m < contendRank s x then some m else some x
      | none => some m) (some b) = some (l.foldl (lesser s) b) := by
    induction l generalizing b with
    | nil => rfl
    | cons x l ih =>
      rw [List.foldl_cons, List.foldl_cons, ← ih, lesser]
      dsimp only
      split <;> rfl
  exact key l x

theorem lesser_least (s : State) (l : List Master) (b : Master) :
    (l.foldl (lesser s) b = b ∨ l.foldl (lesser s) b ∈ l) ∧
      ∀ m, (m = b ∨ m ∈ l) → contendRank s (l.foldl (lesser s) b) ≤ contendRank s m := by
  induction l generalizing b with
  | nil => simp
  | cons x l ih =>
    obtain ⟨hin, hle⟩ := ih (lesser s b x)
    have hb : contendRank s (lesser s b x) ≤ contendRank s b ∧ contendRank s (lesser s b x) ≤ contendRank s x := by
      unfold lesser
      split <;> omega
    have hw := hle _ (.inl rfl)
    rw [List.foldl_cons]
    refine ⟨?_, ?_⟩
    · rcases hin with hin | hin
      · rw [hin]
        unfold lesser
        split <;> simp
      · exact .inr (List.mem_cons_of_mem _ hin)
    · rintro m (rfl | hm)
      · omega
      · rcases List.mem_cons.1 hm with rfl | hm
        · omega
        · exact hle m (.inr hm)

theorem rank_new (h : m ∉ s.pen.history) : contendRank s m ≤ 3 := by
  have hn : s.pen.history.findIdx? (· = m) = none := by
    rw [List.findIdx?_eq_none_iff]
    intro x hx
    simpa using fun he : x = m => h (he ▸ hx)
  rw [contendRank, hn]
  show m.code ≤ 3
  cases m <;> decide

theorem rank_held (h : m ∈ s.pen.history) : 10 ≤ contendRank s m := by
  unfold contendRank
  split
  · exact Nat.le_add_right ..
  · rename_i hn
    rw [List.findIdx?_eq_none_iff] at hn
    simpa using hn m h

/-- A contender that has never held the Pen is outranked by none that has. -/
theorem winner_new {l : List Master} (hm : m ∈ l) (hnew : m ∉ s.pen.history) :
    ∃ w ∈ l, contendWinner s l = some w ∧ w ∉ s.pen.history := by
  obtain ⟨x, l, rfl⟩ := List.exists_cons_of_ne_nil (List.ne_nil_of_mem hm)
  obtain ⟨hin, hle⟩ := lesser_least s l x
  refine ⟨l.foldl (lesser s) x, ?_, contendWinner_cons s x l, fun hold => ?_⟩
  · rcases hin with hin | hin
    · rw [hin]; exact List.mem_cons_self
    · exact List.mem_cons_of_mem _ hin
  · have hr := hle m (List.mem_cons.1 hm)
    have hlow := rank_new hnew
    have hhigh := rank_held hold
    omega

theorem writePen_refused {code : Nat} (hp : s.pen.holder = some h) (hne : h ≠ m) :
    writePen s m code false = discard s m (keeperOff 0x040) true := by
  rw [writePen, hp]
  dsimp only
  rw [if_neg hne, if_neg (by simp)]

theorem atKeeper_run (hw : writable s m keeperPage = true) (off : Nat) (t : State) : atKeeper s m off t = t := if_pos hw

theorem atKeeper_refused (hw : writable s m keeperPage = false) (off : Nat) (t : State) :
    atKeeper s m off t = discard s m (keeperOff off) true := if_neg (by simp [hw])

/-- Settles O27: the Pen passes by `grantPen` and `releasePen`, and every other write is discarded. -/
theorem penMoves : Obligations.PenMoves := by
  intro s m h granted emptied
  have hempty {t : State} (ht : Emptied s t) : emptied t := ⟨ht.drafts, ht.code, ht.busy, ht.strike⟩
  refine ⟨fun hw => ?_, fun hw hp => ⟨?_, fun l hm hnew => ?_⟩, fun hw hp => ⟨?_, ?_⟩, fun hw hp hne => ⟨?_, ?_, fun hmgr => ?_⟩,
    fun hp hl => ?_⟩
  · intro refused
    refine ⟨congrArg Host.Outcome.next (if_pos (by simp [hw])), congrArg Host.Outcome.next (atKeeper_refused hw ..),
      congrArg Host.Outcome.next (atKeeper_refused hw ..)⟩
  · exact ⟨_, penTake_free hw hp rfl, ⟨rfl, rfl, rfl⟩, rfl, rfl⟩
  · obtain ⟨w, hin, hc, hw'⟩ := winner_new hm hnew
    exact ⟨_, penTake_free hw hp hc, w, hin, ⟨rfl, rfl, rfl⟩, hw'⟩
  · have hr : writePen s m 0 false = releasePen s := by
      rw [writePen, hp]
      exact (if_pos rfl).trans (if_pos rfl)
    have he := releasePen_emptied s 8
    exact ⟨_, congrArg Host.Outcome.next ((atKeeper_run hw ..).trans hr), congrArg (·.holder) he.pen, hempty he⟩
  · exact congrArg Host.Outcome.next ((atKeeper_run hw ..).trans (if_pos hp))
  · have hn : ¬ ([m].any fun m => !writable s m keeperPage) = true := by simp [hw]
    refine congrArg Host.Outcome.next ((if_neg hn).trans ?_)
    rw [hp]
    exact writePen_refused hp hne
  · have hn : s.pen.holder ≠ some m := by rw [hp]; simpa using hne
    exact congrArg Host.Outcome.next ((atKeeper_run hw ..).trans (if_neg hn))
  · have hr : writePen s m m.code true = grantPen (penEvent (releasePen s) h.code true) m := by
      rw [writePen, hp]
      exact (if_neg hne).trans (if_pos (by simp [hmgr]))
    have he := penEvent_emptied (releasePen_emptied s 8) h.code true
    refine ⟨_, congrArg Host.Outcome.next ((atKeeper_run hw ..).trans hr), ⟨rfl, rfl, ?_⟩,
      ⟨he.drafts, he.code, he.busy, he.strike⟩⟩
    exact congrArg (fun p => p.grantSeq + 1) he.pen
  · have hr : (match s.pen.holder with
        | some h => if s.pen.lease = 0 then penEvent (releasePen s) h.code false else s
        | none => s) = penEvent (releasePen s) h.code false := by
      rw [hp]
      exact if_pos hl
    have he := penEvent_emptied (releasePen_emptied s 8) h.code false
    exact ⟨_, congrArg Host.Outcome.next hr, congrArg (·.holder) he.pen, hempty he⟩

end Sys2Proof.Machine

/-! Proof and Strike (03 R67 to R74). -/

namespace Sys2Proof.Machine
-- Proofs one after the other: side by side they take more memory than the check allows.
set_option Elab.async false

variable {s t : State} {m h : Master}

/-! ### Proof -/

/-- A register that fails no check is not found. -/
theorem proofFinds_none (h : ∀ e ∈ s.drafts, checkReg s e.1 = []) : proofFinds s = none := by
  unfold proofFinds
  generalize s.drafts = l at h
  induction l with
  | nil => rfl
  | cons e l ih =>
    rw [List.foldl_cons, h e List.mem_cons_self]
    exact ih fun e he => h e (List.mem_cons_of_mem _ he)

/-- The first code of a list is the one reported where none ranks lower. -/
theorem firstCode_least {c : Nat} {l : List Nat} (h : ∀ x ∈ l, codeRank c ≤ codeRank x) : firstCode (c :: l) = some c := by
  unfold firstCode
  rw [List.foldl_cons]
  induction l with
  | nil => rfl
  | cons x l ih =>
    have hx : ¬ codeRank x < codeRank c := Nat.not_lt.2 (h x List.mem_cons_self)
    rw [List.foldl_cons]
    dsimp only
    rw [if_neg hx]
    exact ih fun y hy => h y (List.mem_cons_of_mem _ hy)

theorem leaveIndex_steady (s : State) (k : Nat) : steady (leaveIndex s k) = steady s := by
  unfold leaveIndex
  exact steady_ite (steady_setCell ..) (steady_ite (steady_setCell ..) rfl)

/-- The result of a Proof that a register fails. -/
def failing (s : State) (k c : Nat) : State :=
  { s with proof := { code := c, busy := false, page := keyPage k, off := keyOff k, proofed := false,
                      inInit := decide (s.mode.mode = .init) } }

theorem proofComplete_found {k c : Nat} (hb : s.proof.busy = true) (hf : proofFinds s = some (k, c)) :
    exec .proofComplete s = .next (leaveIndex (failing s k c) k) := by
  have hb' : ¬ (!s.proof.busy) = true := by simp [hb]
  refine congrArg Host.Outcome.next ((if_neg hb').trans ?_)
  rw [hf]
  rfl

/-- Settles O28: a Proof starts for the holder, and posts the first code of the register that fails. -/
theorem proofRuns : Obligations.ProofRuns := by
  intro s m
  refine ⟨fun hw hp hb => ?_, fun hn => ?_, fun hb => ⟨fun hc => ?_, fun k v c rest hd hc hr => ?_⟩⟩
  · have hn : ¬ (s.pen.holder ≠ some m ∨ s.proof.busy = true) := by simp [hp, hb]
    exact congrArg Host.Outcome.next ((atKeeper_run hw ..).trans ((if_neg hn).trans (if_pos rfl)))
  · have hr : writeProofCmd s m true = discard s m (keeperOff 0x04C) true := if_pos hn
    refine congrArg Host.Outcome.next ?_
    unfold atKeeper
    rw [hr, ite_self]
  · have hb' : ¬ (!s.proof.busy) = true := by simp [hb]
    refine congrArg Host.Outcome.next ((if_neg hb').trans ?_)
    rw [proofFinds_none hc]
  · have hf : proofFinds s = some (k, c) := by
      rw [proofFinds, hd, List.foldl_cons, List.foldl_nil, hc, firstCode_least hr]
    have hl := leaveIndex_steady (failing s k c) k
    have hproof := congrArg (·.proof) hl
    exact ⟨_, proofComplete_found hb hf, congrArg (·.code) hproof, congrArg (·.page) hproof, congrArg (·.off) hproof,
      congrArg (·.busy) hproof, congrArg (·.proofed) hproof, congrArg (·.drafts) hl⟩

/-! ### Strike -/

theorem refusal_zero {c n : Nat} (hc : s.proof.code = 1) (he : earliest s c ≤ n) (hl : n ≤ s.time.transit.toNat + 100000)
    (hd : s.time.deviating = []) (hm : strikeMode s = true) (hi : initDirty s = false ∨ s.mode.mode = .init) :
    refusal s c n = 0 := by
  have hi' : (!strikeMode s || (initDirty s && s.mode.mode != .init)) = false := by
    rcases hi with h | h <;> simp [hm, h]
  rw [refusal, if_neg (by simp [hc]), if_neg (Nat.not_lt.2 he), if_neg (Nat.not_lt.2 hl), if_neg (by simp [hd]), hi']
  rfl

theorem orderStrike_run (hp : s.pen.holder = some m) (ho : strikeOrdered s = false) (c n : Nat) :
    orderStrike s m c n = if refusal s c n ≠ 0 then strikeEnds s .refused (refusal s c n)
      else { s with strike := { st := .armed, reason := 0, tick := BitVec.ofNat 32 n, target := BitVec.ofNat 64 n,
                                cls := strikeClass s, waitAcks := dirtyDies s, vals := [] } } := by
  have hn : ¬ (s.pen.holder ≠ some m ∨ strikeOrdered s = true) := by simp [hp, ho]
  exact if_neg hn

theorem earliest_le (s : State) (c : Nat) : earliest s c ≤ s.time.transit.toNat + 100000 := by
  unfold earliest
  split <;> split <;> omega

/-- What a fold of changes leaves alone. -/
theorem foldl_view {β : Type} {g : State → β} {f : State → α → State} (hf : ∀ s x, g (f s x) = g s) (l : List α)
    (s : State) : g (l.foldl f s) = g s := by
  induction l generalizing s with
  | nil => rfl
  | cons x l ih => rw [List.foldl_cons, ih, hf]

theorem closeInterval_mode (s : State) (lp : Fin 48) :
    (closeInterval s lp).mode = s.mode ∧ (closeInterval s lp).strike = s.strike := by
  unfold closeInterval markClean
  split <;> simp

/-- A unit that is neither a pair nor a Burin reports at once. -/
theorem unitQuiesced_other {unit : Nat} (hq : s.mode.quiesce = true) (hu : unit ∉ s.mode.quiet)
    (hpair : ∀ p : Fin 48, pairPage p.val ≠ unit) (hburin : ∀ i, i < 4 → burinPage i ≠ unit) :
    exec (.unitQuiesced unit) s = .next { s with mode := { s.mode with quiet := unit :: s.mode.quiet } } := by
  have hn : ¬ (!s.mode.quiesce || s.mode.quiet.contains unit) = true := by simp [hq, hu]
  have hf : (all48.find? fun p => decide (pairPage p.val = unit)) = none := by
    rw [List.find?_eq_none]
    intro p _
    simpa using hpair p
  have hb : ((List.range 4).find? fun d => decide (burinPage d = unit)) = none := by
    rw [List.find?_eq_none]
    intro d hd
    simpa using hburin d (List.mem_range.1 hd)
  have hquiet : unitQuiet s unit = true := by rw [unitQuiet, hf]
  refine congrArg Host.Outcome.next ((if_neg hn).trans ?_)
  rw [hf]
  dsimp only
  rw [hquiet, if_neg (by simp), hb]

/-- Settles O29: an order is armed or refused, and an armed Strike is cancelled, acknowledged, committed and quiesced. -/
theorem strikeRuns : Obligations.StrikeRuns := by
  intro s m c d unit target armed
  refine ⟨fun hw hp ho => ⟨fun hc he hl hd hm hi => ?_, fun hc hd hm hi => ?_, fun hc => ?_⟩, fun hp => ?_,
    fun ha => ⟨fun hw hp => ?_, ?_, fun ht => ⟨fun hk => ?_, fun hk hq hm => ?_⟩, fun hq ht hn => ?_⟩, fun hc => ?_,
    fun hq ho => ?_, fun hq hu hpair hburin => unitQuiesced_other hq hu hpair hburin⟩
  · refine congrArg Host.Outcome.next ((atKeeper_run hw ..).trans ((orderStrike_run hp ho ..).trans (if_neg ?_)))
    rw [refusal_zero hc he hl hd hm hi]
    simp
  · refine congrArg Host.Outcome.next ((atKeeper_run hw ..).trans ((orderStrike_run hp ho ..).trans (if_neg ?_)))
    rw [refusal_zero hc (Nat.le_refl _) (earliest_le s c.val) hd hm hi]
    simp
  · have hr : refusal s c.val target = 1 := if_pos hc
    refine ⟨_, congrArg Host.Outcome.next ((atKeeper_run hw ..).trans ((orderStrike_run hp ho ..).trans (if_pos ?_))), ?_⟩
    · rw [hr]
      simp
    · rw [hr]
      exact strike_strikeEnds s .refused 1
  · have hr (n : Nat) : orderStrike s m c.val n = discard s m (keeperOff 0x058) true := if_pos (.inl hp)
    refine congrArg Host.Outcome.next ?_
    unfold atKeeper
    rw [hr, ite_self]
  · have hr : cancelOrder s m = strikeEnds s .cancelled 7 := (if_pos ⟨hp, ha⟩).trans (cancelStrike_armed ha 7)
    exact ⟨_, congrArg Host.Outcome.next ((atKeeper_run hw ..).trans hr), strike_strikeEnds s .cancelled 7⟩
  · exact congrArg Host.Outcome.next (if_pos ha)
  · refine ⟨_, congrArg Host.Outcome.next ((if_pos ⟨ha, ht⟩).trans ((if_pos (by simpa using hk)).trans
      (cancelStrike_armed ha 5))), ?_, ?_⟩
    · exact (strike_strikeEnds s .cancelled 5).1
    · exact (strike_strikeEnds s .cancelled 5).2.1
  · exact congrArg Host.Outcome.next (if_pos ⟨ha, ht, hk, hq, hm⟩)
  · refine ⟨_, congrArg Host.Outcome.next (if_pos ⟨ha, hq, ht, hn⟩), ?_⟩
    have hstep (s : State) (lp : Fin 48) : (fun s : State => (s.mode, s.strike))
        (if (lpAt s lp).run = .running && closeRoom (lpAt s lp) then closeInterval s lp else s) = (s.mode, s.strike) := by
      split
      · exact Prod.ext (closeInterval_mode s lp).1 (closeInterval_mode s lp).2
      · rfl
    have h := foldl_view (g := fun s : State => (s.mode, s.strike)) hstep all48
      { s with mode := { s.mode with quiesce := true, quiet := [] } }
    obtain ⟨hmode, hstrike⟩ := Prod.mk.inj h
    dsimp only
    rw [hmode, hstrike]
    exact ⟨rfl, rfl, rfl⟩
  · have hr : cancelOrder s m = discard s m (keeperOff 0x058) true := if_neg (by simp [hc])
    refine congrArg Host.Outcome.next ?_
    unfold atKeeper
    rw [hr, ite_self]
  · refine ⟨_, congrArg Host.Outcome.next (if_pos (by simp [hq, ho])), rfl, fun i => ?_⟩
    simp [endQuiesce]

end Sys2Proof.Machine

/-! The stores that leave a processor (07 R159, R160, R165; 15 R382). -/

namespace Sys2Proof.Machine
-- Proofs one after the other: side by side they take more memory than the check allows.
set_option Elab.async false
open Sys2Proof.Tests (op ge)

/-- A processor with a released Uncached store to 500000h, whose line is leaving the L2 of its pair. -/
def uncachedAway : State := updPair (updLp op 0 fun x => { x with released := [ge .uncached 0x500000] }) 0 fun x =>
  { x with l2 := [(lineOf 0x500000, { st := .e, way := 0, leaving := true, wbm := false, acked := false })] }

/-- How many released stores processor 0 has left. -/
def releasedAfter (r : Answer) : Option Nat :=
  match r with
  | .next y => some (lpAt y 0).released.length
  | _ => none

/-- Refutes O30: an Uncached store of a line that is leaving an L2 stays in the released part, though no transaction
blocks the line. -/
theorem not_storesLeave : ¬ Obligations.StoresLeave := by
  intro h
  obtain ⟨-, -, hdrain⟩ := h.1 uncachedAway 0 0 (ge .uncached 0x500000) []
  have hleaves := ((hdrain (by decide +kernel)).2.1 rfl).1 (by decide +kernel) (by decide +kernel)
  have hstays : releasedAfter (exec (.releasedEntryDrain 0) uncachedAway) = some 1 := by decide +kernel
  rw [hleaves] at hstays
  exact absurd hstays (by decide +kernel)

end Sys2Proof.Machine

/-! Device stores and loads (07 R153 to R157, R165 to R168). -/

namespace Sys2Proof.Machine
-- Proofs one after the other: side by side they take more memory than the check allows.
set_option Elab.async false

variable {s : State} {lp : Fin 48}

/-! ### The functions behind a port -/

@[simp] theorem funcAt_updFunc (s : State) (port : Nat) (rid : BitVec 16) (g : Func → Func) :
    funcAt (updFunc s port rid g) port rid = g (funcAt s port rid) := by
  simp [funcAt, updFunc]

@[simp] theorem lpAt_updFunc (s : State) (port : Nat) (rid : BitVec 16) (g : Func → Func) (lp : Fin 48) :
    lpAt (updFunc s port rid g) lp = lpAt s lp := rfl

@[simp] theorem funcAt_logEvent (s : State) (e : Event) (port : Nat) (rid : BitVec 16) :
    funcAt (logEvent s e) port rid = funcAt s port rid := by
  rw [(logEvent_logged s e).eq]; rfl

@[simp] theorem funcAt_updLp (s : State) (lp : Fin 48) (f : Lp → Lp) (port : Nat) (rid : BitVec 16) :
    funcAt (updLp s lp f) port rid = funcAt s port rid := rfl

@[simp] theorem funcAt_closeInterval (s : State) (lp : Fin 48) (port : Nat) (rid : BitVec 16) :
    funcAt (closeInterval s lp) port rid = funcAt s port rid := by
  unfold closeInterval markClean; split <;> rfl

/-! ### The end of a Device load -/

/-- A load of one instruction whose data is all there writes its register, goes on and waits for nothing. -/
theorem endDevLoad_once {ld : DevLoad} {bs : List Byte} (hrep : ld.rep = none)
    (hroom : closeRoom (lpAt s lp) = true) :
    endDevLoad s lp ld bs =
      closeInterval (updLp s lp fun x =>
        { x with arch := loadedArch (lpAt s lp).arch ld bs, ckpt := loadedArch (lpAt s lp).arch ld bs, wait := .none,
                 repN := none }) lp := by
  have hone : moreToLoad (loadedArch (lpAt s lp).arch ld bs) ld = false := by simp [moreToLoad, hrep]
  unfold endDevLoad
  dsimp only
  rw [hone, if_neg Bool.false_ne_true]
  exact if_pos (by simpa [closeRoom] using hroom)

theorem loadedArch_once {ld : DevLoad} (hrep : ld.rep = none) (hupd : ld.upd = none) (a : Arch) (bs : List Byte) :
    loadedArch a ld bs = { putLoad a ld.dst bs with pswa := (putLoad a ld.dst bs).pswa + 4 } := by
  simp [loadedArch, hrep, hupd]

theorem archOf_endDevLoad {ld : DevLoad} {bs : List Byte} (hrep : ld.rep = none)
    (hroom : closeRoom (lpAt s lp) = true) :
    archOf (endDevLoad s lp ld bs) lp = loadedArch (archOf s lp) ld bs := by
  rw [endDevLoad_once hrep hroom, archOf_closeInterval]; simp [archOf]

theorem wait_endDevLoad {ld : DevLoad} {bs : List Byte} (hrep : ld.rep = none) (hroom : closeRoom (lpAt s lp) = true) :
    (lpAt (endDevLoad s lp ld bs) lp).wait = .none := by
  rw [endDevLoad_once hrep hroom, wait_closeInterval]; simp

theorem funcAt_endDevLoad {ld : DevLoad} {bs : List Byte} (hrep : ld.rep = none) (hroom : closeRoom (lpAt s lp) = true)
    (port : Nat) (rid : BitVec 16) : funcAt (endDevLoad s lp ld bs) port rid = funcAt s port rid := by
  rw [endDevLoad_once hrep hroom, funcAt_closeInterval]; rfl

@[simp] theorem length_beBytes (n v : Nat) : (beBytes n v).length = n := by
  induction n with
  | zero => rfl
  | succ n ih => simp [beBytes, ih]

/-! ### O31 -/

/-- What a processor's first Device store at a port becomes. -/
theorem deviceStore_front {e : GateEntry} {l : List GateEntry} {a : Nat} {b : Byte} {rest : Tab Byte} {port : Nat}
    (hq : (lpAt s lp).toPort = e :: l) (hb : e.bytes = (a, b) :: rest) (hp : portOf a = port) (rid : BitVec 16) :
    exec (.deviceStore lp rid) s = .next (barrierCheck (portStore (updLp s lp fun x => { x with toPort := l }) port rid
      ⟨a, e.bytes.map (·.2), some lp, e.ctx, e.grp⟩) lp) := by
  show execDeviceStore lp rid s = _
  rw [execDeviceStore, hq, ← hp]
  simp only [hb]

/-- Settles O31: by the branches of each event of a port, and the end of a load. -/
theorem deviceAccesses : Obligations.DeviceAccesses := by
  constructor
  · intro s lp port rid n a b rest e l
    intro f put
    refine ⟨?_, ?_, ?_, ?_, ?_, ?_⟩
    · intro hq hb hp
      intro t w gives
      have hstore := deviceStore_front hq hb hp rid
      refine ⟨fun hu hc hg hh hr => ?_, fun hu hc hw => ?_, fun hd => ?_⟩
      · refine hstore.trans (congrArg (fun t => Host.Outcome.next (barrierCheck t lp)) ?_)
        have hf : funcAt (updLp s lp fun x => { x with toPort := l }) port.val rid = f := rfl
        simp only [portStore, hf, hu, hc, hg, hh]
        exact (if_neg (by decide)).trans (if_pos (by simpa using hr))
      · refine hstore.trans (congrArg (fun t => Host.Outcome.next (barrierCheck t lp)) ?_)
        have hf : funcAt (updLp s lp fun x => { x with toPort := l }) port.val rid = f := rfl
        simp only [portStore, hf, hu, hc]
        refine (if_neg (by decide)).trans (if_neg ?_)
        simp only [Bool.and_eq_true, decide_eq_true_eq, List.isEmpty_iff, Bool.not_eq_true', not_and]
        intro ⟨hr, hh⟩
        rcases hw with h0 | h0 | h0
        · omega
        · exact absurd hh h0
        · simp [h0]
      · refine hstore.trans (congrArg (fun t => Host.Outcome.next (barrierCheck t lp)) ?_)
        have hf : funcAt (updLp s lp fun x => { x with toPort := l }) port.val rid = f := rfl
        simp only [portStore, hf]
        exact if_pos (by rcases hd with h | h <;> simp [h])
    · intro hu hc hg hh
      show execPostedCreditReturn port rid n s = _
      have hf : funcAt s port.val rid = f := rfl
      simp [execPostedCreditReturn, hf, hu, hc, hg, hh, forwardHeld, put]
      rfl
    · intro hu hc hh
      exact if_pos (by simpa [f] using ⟨⟨hu, hc⟩, hh⟩)
    · intro hg hh
      show execContainmentComplete port rid s = _
      have hf : funcAt s port.val rid = f := rfl
      simp [execContainmentComplete, hf, hg, hh, put]
    · rfl
    · intro w hg hh
      show execContainmentComplete port rid s = _
      have hf : funcAt s port.val rid = f := rfl
      simp [execContainmentComplete, hf, hg, hh]
  · intro s lp rid ld data hwait
    intro port f
    have hload : loadOf s lp = some ld := by simp [loadOf, hwait]
    refine ⟨fun hi hbehind => ?_, fun hi hgot hrep hupd => ⟨fun h1 h8 hroom => ?_, fun hlocal hroom => ?_⟩⟩
    · intro t
      refine ⟨fun hlocal hheld hc hu => ?_, fun hfar hlost => ?_⟩
      · show execDeviceLoad lp rid s = _
        have hf : funcAt s (portOf ld.addr) rid = f := rfl
        have hnone : f.held.any (fun w => decide (w.lp = some lp)) = false := by simpa using hheld
        simp [execDeviceLoad, hload, hlocal, hi, hbehind, hf, hnone, hc, hu, port, t]
      · show execDeviceLoad lp rid s = _
        simp [execDeviceLoad, hload, hfar, hi, hbehind, hlost, t]
    · have hend : exec (.deviceLoadCompletion lp data false) s =
          .next (endDevLoad s lp ld (beBytes ld.size data.toNat)) := by
        show execDeviceLoadCompletion lp data false s = _
        simp [execDeviceLoadCompletion, hload, hi, hgot, Nat.min_eq_right h8, length_beBytes]
      refine ⟨_, hend, ?_, wait_endDevLoad hrep hroom⟩
      rw [archOf_endDevLoad hrep hroom, loadedArch_once hrep hupd]
    · let t := updFunc (funcEvent s port rid 0x2102) port rid fun f =>
        if f.contained then f else { f with containing := true }
      have hend : exec (.deviceLoadTimeout lp) s = .next (endDevLoad t lp ld (List.replicate ld.size 0xFF)) := by
        show execDeviceLoadTimeout lp s = _
        simp [execDeviceLoadTimeout, hload, hi, hlocal, t, port]
      have hlp : lpAt t lp = lpAt s lp := lpAt_logEvent ..
      have hroom' : closeRoom (lpAt t lp) = true := by rw [hlp]; exact hroom
      refine ⟨_, hend, ?_, wait_endDevLoad hrep hroom', ?_⟩
      · rw [archOf_endDevLoad hrep hroom', loadedArch_once hrep hupd, archOf, hlp]; rfl
      · rw [funcAt_endDevLoad hrep hroom']
        simp only [t, funcAt_updFunc, funcEvent, funcAt_logEvent]
        cases hc : (funcAt s port rid).contained <;> simp [f]

end Sys2Proof.Machine

/-! Links of the root ports and the requests of the functions behind them (07 R166; 08 R200 to R204; 15 R382). -/

namespace Sys2Proof.Machine
-- Proofs one after the other: side by side they take more memory than the check allows.
set_option Elab.async false

variable {s : State} {lp : Fin 48}

/-! ### What leaves the functions alone -/

theorem funcAt_of_funcs {s t : State} (h : t.funcs = s.funcs) (port : Nat) (rid : BitVec 16) :
    funcAt t port rid = funcAt s port rid := by rw [funcAt, h]; rfl

@[simp] theorem funcs_toPkg (name : String) (pkg dest line : Nat) (s : State) :
    (toPkg name pkg dest line s).funcs = s.funcs := by
  unfold toPkg toPkgData
  split
  · rfl
  · split
    · rfl
    · extract_lets
      refine (foldl_view (g := State.funcs) ?_ _ _).trans ?_
      · exact fun _ _ => rfl
      · rfl

@[simp] theorem funcs_tlbiAll (s : State) (k : TlbiKind) (va : Word) (asid : BitVec 16) (ctx : Nat) :
    (tlbiAll s k va asid ctx).funcs = s.funcs := by
  have hsend := foldl_view (g := State.funcs) (f := fun s p => toPkg "invalidate" p p (va.toNat / 256) s)
    (fun s p => funcs_toPkg ..) s.mode.coupled s
  unfold tlbiAll
  cases k <;> exact hsend

@[simp] theorem funcs_closeInterval (s : State) (lp : Fin 48) : (closeInterval s lp).funcs = s.funcs := by
  unfold closeInterval markClean; split <;> rfl

@[simp] theorem funcs_endWait (s : State) (lp : Fin 48) : (endWait s lp).funcs = s.funcs := by
  unfold endWait closeDue
  split
  · exact funcs_closeInterval ..
  · rfl

@[simp] theorem funcs_waitCheck (s : State) (lp : Fin 48) : (waitCheck s lp).funcs = s.funcs := by
  unfold waitCheck
  split
  · split <;> simp
  · split
    · unfold tlbiRemove; dsimp only; split <;> simp
    · rfl
  · split <;> simp
  · rfl

@[simp] theorem funcs_barrierAll (s : State) : (barrierAll s).funcs = s.funcs :=
  foldl_view (g := State.funcs) funcs_waitCheck all48 s

@[simp] theorem funcs_setLink (s : State) (port : Nat) (sub : Fin 4) (rate width : Nat) :
    (setLink s port sub rate width).funcs = s.funcs := rfl

/-! ### O32 -/

/-- A function that is up, not contained, of a package that is not quiesced makes requests. -/
theorem funcTalks_run {port : Nat} {rid : BitVec 16} (hu : (funcAt s port rid).up = true)
    (hc : (funcAt s port rid).contained = false) (hq : s.mode.quiesce = false) : funcTalks s port rid = true := by
  simp [funcTalks, hu, hc, hq]

/-- Settles O32: by the branches of each event; a link that goes down leaves its function with nothing. -/
theorem functionTraffic : Obligations.FunctionTraffic := by
  intro s t port sub rid addr len part data msg ix runs rate width bars f pg
  have hport : Fin.ofNat 4 port.val = port := Fin.ext (Nat.mod_eq_of_lt port.isLt)
  refine ⟨fun hoff hsub hrate hlanes => ?_, fun hu => ?_, fun hu hc hq hw => ?_⟩
  · refine if_neg ?_
    simp [pg] at hoff hrate
    simp [hoff, hlanes]
    omega
  · refine ⟨_, if_neg (by simpa using hu), ?_⟩
    dsimp only
    rw [funcAt_of_funcs (funcs_barrierAll _)]
    split <;> simp [funcAt_of_funcs (funcs_setLink ..)]
  · have htalks : funcTalks s port.val rid = true := funcTalks_run hu hc hq
    refine ⟨fun hok hp => ?_, fun hok hmsg => ?_, fun herr => ?_, fun hpath hbind hlt hcoal hleft hroom => ?_⟩
    · show Host.Outcome.next _ = _
      rw [inOrder, portOfMsg, hw, if_neg Bool.false_ne_true, openDma, htalks, if_neg (by decide), hok]
      simp [hp]
    · show Host.Outcome.next _ = _
      rw [inOrder, portOfMsg, hw, if_neg Bool.false_ne_true, postedWrite, if_neg hmsg, openDma, htalks,
        if_neg (by decide), hok, hport]
      rfl
    · show Host.Outcome.next _ = _
      rw [inOrder, portOfMsg, hw, if_neg Bool.false_ne_true, openDma, htalks, if_neg (by decide), herr]
      rfl
    · refine ⟨msix s port.val rid msg, ?_, ?_⟩
      · show Host.Outcome.next _ = _
        rw [inOrder, portOfMsg, hw, if_neg Bool.false_ne_true]
      · have hm : (meter s (bindCtx s port.val ix) 13 1).funcs = s.funcs := by unfold meter; split <;> rfl
        have hmq : (meter s (bindCtx s port.val ix) 13 1).msixQ = s.msixQ := by unfold meter; split <;> rfl
        have hmr : (meter s (bindCtx s port.val ix) 13 1).regs = s.regs := by unfold meter; split <;> rfl
        rw [msix, htalks, if_neg (by decide), hpath, if_neg Bool.false_ne_true, hbind]
        dsimp only
        generalize meter s (bindCtx s port.val ix) 13 1 = m at hm hmq hmr
        have hf : funcAt s port.val rid = f := rfl
        rw [if_neg (by omega), hmq, hf, if_neg (by simp [hcoal, hleft]; omega)]
        have hfm : funcAt m port.val rid = f := funcAt_of_funcs hm ..
        refine ⟨?_, ?_⟩
        · show m.msixQ ++ [_] = _
          rw [hmq]
          simp [cellField, cell, updFunc, hmr, pg]
        · let g := fun f : Func => { f with msixLeft := f.msixLeft - 1 }
          show (funcAt (updFunc m port.val rid g) port.val rid).msixLeft = _
          rw [funcAt_updFunc, hfm]

end Sys2Proof.Machine

/-! Requests served within a die or opened at their home (10 R232 to R235). -/

namespace Sys2Proof.Machine
-- Proofs one after the other: side by side they take more memory than the check allows.
set_option Elab.async false

variable {s t : State} {r : Req} {line : Nat} {p q : Fin 48}

/-! ### What a home decides by -/

/-- What a home looks at when a request comes: registers, transactions, slices, directory and the packages. -/
structure HomeView where
  regs : Tab Word
  txns : Tab Txn
  slices : Tab Slice
  dir : Tab DirEntry
  fenced : List Nat
  coupled : List Nat

/-- That part of a state. -/
def homeView (s : State) : HomeView :=
  { regs := s.regs, txns := s.txns, slices := s.slices, dir := s.dir, fenced := s.fenced, coupled := s.mode.coupled }

theorem txnAt_of_view (h : homeView t = homeView s) (line : Nat) : txnAt t line = txnAt s line :=
  congrArg (fun v : HomeView => Tab.look v.txns line) h

theorem cell_of_view (h : homeView t = homeView s) (k : Nat) : cell t k = cell s k :=
  congrArg (fun v : HomeView => Tab.read regReset v.regs k) h

theorem pkgId_of_view (h : homeView t = homeView s) : pkgId t = pkgId s := by
  simp only [pkgId, cellField, cell_of_view h]

theorem homeHere_of_view (h : homeView t = homeView s) (line : Nat) : homeHere t line = homeHere s line := by
  simp only [homeHere, pkgId_of_view h]

theorem homeSlice_of_view (h : homeView t = homeView s) (line : Nat) : homeSlice t line = homeSlice s line := by
  simp only [homeSlice, salt, cell_of_view h]

theorem snoopDies_of_view (h : homeView t = homeView s) (r : Req) : snoopDies t r = snoopDies s r := by
  obtain ⟨-, -, -, hd, hf, hc⟩ := HomeView.mk.inj h
  simp only [snoopDies, dirMode, allDies, agentDie, pairDie, cellBit, pkgId_of_view h, cell_of_view h, hd, hf, hc]
  all_goals rfl

theorem homeFree_of_view (h : homeView t = homeView s) (hs : HomeFree s r) : HomeFree t r := by
  obtain ⟨-, ht, hl, hd, -, -⟩ := HomeView.mk.inj h
  obtain ⟨hhome, htxn, hslice, hbuf, hway⟩ := hs
  refine ⟨(homeHere_of_view h _).trans hhome, (txnAt_of_view h _).trans htxn, ?_, ?_, ?_⟩
  · rw [hl, homeSlice_of_view h]; exact hslice
  · simpa only [buffersUsed, sliceAt, homeSlice_of_view h, ht, hl] using hbuf
  · refine Eq.trans ?_ hway
    simp only [wayShort, waysUsed, sameSet, dirMode, cellBit, homeSlice_of_view h, cell_of_view h, ht, hd]
    all_goals rfl

theorem opensTxn_of_view (h : homeView s = homeView t) {u : State} (ho : OpensTxn s u r) : OpensTxn t u r := by
  obtain ⟨x, hx, hr, hw, hm, hp⟩ := ho
  exact ⟨x, hx, hr, hw.trans (snoopDies_of_view h r), hm, hp⟩

@[simp] theorem homeView_updPair (s : State) (p : Fin 48) (f : Pair → Pair) : homeView (updPair s p f) = homeView s :=
  rfl
@[simp] theorem homeView_updLp (s : State) (lp : Fin 48) (f : Lp → Lp) : homeView (updLp s lp f) = homeView s := rfl
@[simp] theorem homeView_countFg (s : State) (c i n : Nat) : homeView (countFg s c i n) = homeView s := rfl
@[simp] theorem homeView_l3Remove (s : State) (die line : Nat) : homeView (l3Remove s die line) = homeView s := rfl

@[simp] theorem homeView_countHops (s : State) (a b : Nat) (data : Bool) :
    homeView (countHops s a b data) = homeView s :=
  foldl_view (g := homeView) (by exact fun _ _ => rfl) _ s

@[simp] theorem homeView_countTo (s : State) (die line : Nat) (data back : Bool) :
    homeView (countTo s die line data back) = homeView s := by
  unfold countTo; dsimp only; split <;> split <;> simp

@[simp] theorem homeView_loseReservation (s : State) (p : Fin 48) (line : Nat) :
    homeView (loseReservation s p line) = homeView s := by
  unfold loseReservation; split <;> rfl

@[simp] theorem homeView_dieRemove (s : State) (die line : Nat) (keep : Option (Fin 48)) :
    homeView (dieRemove s die line keep) = homeView s := by
  refine (homeView_l3Remove ..).trans (foldl_view (g := homeView) (fun s p => ?_) _ s)
  split
  · rfl
  · rw [homeView_loseReservation]; split <;> rfl

/-! ### A transaction opens -/

/-- Messages leave the transactions, and the pairs, alone. -/
theorem sendDie_kept (name : String) (die line : Nat) (s : State) :
    (sendDie name die line s).txns = s.txns ∧ (sendDie name die line s).pairs = s.pairs := by
  unfold sendDie toPkg toPkgData
  split
  · exact ⟨rfl, rfl⟩
  · split
    · exact ⟨rfl, rfl⟩
    · split
      · exact ⟨rfl, rfl⟩
      · extract_lets
        exact ⟨(foldl_view (g := State.txns) (by exact fun _ _ => rfl) ..).trans rfl,
          (foldl_view (g := State.pairs) (by exact fun _ _ => rfl) ..).trans rfl⟩

theorem countHops_kept (s : State) (a b : Nat) (data : Bool) :
    (countHops s a b data).txns = s.txns ∧ (countHops s a b data).pairs = s.pairs :=
  ⟨foldl_view (g := State.txns) (by exact fun _ _ => rfl) ..,
    foldl_view (g := State.pairs) (by exact fun _ _ => rfl) ..⟩

theorem answer_kept (a : Agent) (name : String) (line : Nat) (s : State) :
    (answer a name line s).txns = s.txns ∧ (answer a name line s).pairs = s.pairs := by
  unfold answer
  split
  · exact ⟨rfl, rfl⟩
  · exact sendDie_kept ..
  · exact ⟨rfl, rfl⟩

/-- Snoops go out from a home; the transactions and the pairs stay. -/
theorem snoops_kept (r : Req) (home : Nat) (l : List Nat) (s : State) :
    let t := l.foldl (fun s d => sendDie r.kind.snoop.name d r.line
      (if d / 4 = pkgId s then countHops s home (d % 4) false else s)) s
    t.txns = s.txns ∧ t.pairs = s.pairs := by
  have hone (s : State) (d : Nat) : (if d / 4 = pkgId s then countHops s home (d % 4) false else s).txns = s.txns ∧
      (if d / 4 = pkgId s then countHops s home (d % 4) false else s).pairs = s.pairs := by
    split
    · exact countHops_kept ..
    · exact ⟨rfl, rfl⟩
  exact ⟨foldl_view (g := State.txns) (by exact fun s d => ((sendDie_kept ..).1.trans (hone s d).1)) l s,
    foldl_view (g := State.pairs) (by exact fun s d => ((sendDie_kept ..).2.trans (hone s d).2)) l s⟩

theorem countTo_pairs (s : State) (die line : Nat) (data back : Bool) :
    (countTo s die line data back).pairs = s.pairs := by
  unfold countTo; dsimp only; split <;> split <;> exact (countHops_kept ..).2

theorem countSlice_kept (s : State) (line : Nat) :
    (countSlice s line).txns = s.txns ∧ (countSlice s line).pairs = s.pairs := by
  unfold countSlice; split <;> exact ⟨rfl, rfl⟩

theorem openTxn_opens (s : State) (r : Req) : OpensTxn s (openTxn s r) r ∧ (openTxn s r).pairs = s.pairs := by
  unfold openTxn
  extract_lets ds t home u
  obtain ⟨hcount, hcountp⟩ := countSlice_kept s r.line
  obtain ⟨htx, hpr⟩ := snoops_kept r home ds (putTxn (countSlice s r.line) r.line t)
  have hu : txnAt u r.line = some t := by
    rw [txnAt, htx]; simp [putTxn]
  have hup : u.pairs = s.pairs := hpr.trans hcountp
  split
  · obtain ⟨ha, hap⟩ := answer_kept r.who "Ack" r.line u
    exact ⟨⟨t, by rw [txnAt, ha]; exact hu, rfl, rfl, rfl, rfl⟩, hap.trans hup⟩
  · exact ⟨⟨t, hu, rfl, rfl, rfl, rfl⟩, hup⟩

/-- A request that nothing hinders opens its transaction when it comes to its home, and the pairs stay. -/
theorem arrive_opens (h : HomeFree s r) : OpensTxn s (arrive s r) r ∧ (arrive s r).pairs = s.pairs := by
  obtain ⟨hhome, htxn, hslice, hbuf, hway⟩ := h
  have hx : sliceAt s (homeSlice s r.line) = sliceNone := by simp [sliceAt, Tab.read, hslice]
  have haccept : accept s r = some (openTxn s r) := by
    have hw : ¬ (((txnAt s r.line).isSome || (sliceAt s (homeSlice s r.line)).waiting.any fun w => w.line = r.line) =
        true) := by rw [htxn, hx]; simp [sliceNone]
    have htry : tryOpen s r = some (openTxn s r) := by simp [tryOpen, htxn, hway]
    rw [accept, if_neg (by omega), if_neg hw, htry]
  have hr : arrive s r = updSlice (openTxn s r) (homeSlice s r.line) fun x =>
      { x with refused := x.refused.filter fun e => !(e.1 = r.who && e.2.1 = r.line) } := by
    rw [arrive, hx, haccept]; rfl
  rw [hr]
  exact openTxn_opens s r

/-- A request of a pair's own goes out to a home that nothing hinders, and the pair's miss is open. -/
theorem toHome_opens {k : ReqKind} (h : HomeFree s ⟨k, .pair p, line, [], none, false⟩) :
    OpensTxn s (toHome s p k line) ⟨k, .pair p, line, [], none, false⟩ ∧
    (missAt (toHome s p k line) p line).isSome = true ∧
    ∀ q, l2State (toHome s p k line) q line = l2State s q line := by
  let r : Req := ⟨k, .pair p, line, [], none, false⟩
  let m : Miss := { kind := k, retries := 0, ticket := none, filled := false, refused := false, backoff := false,
                    poisoned := false }
  let u := updPair (countTo s (p.val / 12) line false false) p fun x => { x with misses := Tab.put x.misses line m }
  have hview : homeView u = homeView s := homeView_countTo ..
  have hu : HomeFree u r := homeFree_of_view hview h
  have hgo : toHome s p k line = arrive u r := if_pos ((homeHere_of_view hview line).trans h.1)
  obtain ⟨hopens, hpairs⟩ := arrive_opens hu
  have hpair (q : Fin 48) : pairAt (arrive u r) q = pairAt u q := pairAt_congr hpairs q
  rw [hgo]
  refine ⟨opensTxn_of_view hview hopens, ?_, fun q => ?_⟩
  · rw [missAt, hpair, pairAt_updPair]; simp
  · have hl2 : (pairAt u q).l2 = (pairAt s q).l2 := by
      have hcount : pairAt (countTo s (p.val / 12) line false false) q = pairAt s q := pairAt_congr (countTo_pairs ..) q
      by_cases hq : q = p
      · subst hq; rw [pairAt_updPair, ← hcount]
      · rw [pairAt_updPair_ne _ _ hq, hcount]
    simp only [l2State, l2Find, hpair, hl2]

/-! ### What a die drops -/

theorem l2Find_l2Drop (s : State) (p q : Fin 48) (line : Nat) :
    l2Find (l2Drop s p line) q line = if q = p then none else l2Find s q line := by
  by_cases hq : q = p
  · subst hq; simp [l2Find, l2Drop, l1Drop, look_del]
  · simp [l2Find, l2Drop, l1Drop, pairAt_updPair_ne _ _ hq, hq]

theorem l2State_loseReservation (s : State) (p q : Fin 48) (line : Nat) :
    l2State (loseReservation s p line) q line = l2State s q line := by
  unfold loseReservation; split <;> rfl

/-- One pair of a die that gives a line up. -/
def dropFrom (keep : Option (Fin 48)) (line : Nat) (s : State) (p : Fin 48) : State :=
  if keep = some p then s
  else loseReservation (if (l2State s p line).isSome then l2Drop s p line else s) p line

theorem l2State_dropFrom_self {keep : Option (Fin 48)} (h : keep ≠ some p) (s : State) :
    l2State (dropFrom keep line s p) p line = none := by
  rw [dropFrom, if_neg h, l2State_loseReservation]
  split
  case isTrue => simp [l2State, l2Find_l2Drop]
  case isFalse hn => exact Option.not_isSome_iff_eq_none.mp hn

theorem l2State_dropFrom_none {keep : Option (Fin 48)} (h : l2State s q line = none) :
    l2State (dropFrom keep line s p) q line = none := by
  unfold dropFrom
  split
  · exact h
  · rw [l2State_loseReservation]
    split
    · unfold l2State at h ⊢
      rw [l2Find_l2Drop]
      split <;> simp_all
    · exact h

/-- No pair among those that give a line up holds it afterwards. -/
theorem l2State_dropAll {keep : Option (Fin 48)} (hk : keep ≠ some q) (l : List (Fin 48)) (s : State)
    (hq : q ∈ l ∨ l2State s q line = none) : l2State (l.foldl (dropFrom keep line) s) q line = none := by
  induction l generalizing s with
  | nil => simpa using hq
  | cons p l ih =>
    refine ih _ ?_
    rcases hq with hq | hq
    · rcases List.mem_cons.mp hq with rfl | hq
      · exact .inr (l2State_dropFrom_self hk s)
      · exact .inl hq
    · exact .inr (l2State_dropFrom_none hq)

/-- A die that gives a line up holds it in no L2 but the one it keeps it in. -/
theorem l2State_dieRemove {die : Nat} {keep : Option (Fin 48)} (hk : keep ≠ some q) (hd : q.val / 12 = die)
    (s : State) :
    l2State (dieRemove s die line keep) q line = none :=
  l2State_dropAll (line := line) hk (pairsOfDie die) s (.inl (by simp [pairsOfDie, all48, hd]))

/-! ### O33 -/

theorem placeOr_some {u v : State} {st : CohSt} (h : l2Place v p line st = some u) : placeOr s v p line st = u := by
  rw [placeOr, h]; rfl

/-- An agent's request of storage comes to its home of this package. -/
theorem agentRequest_arrives
    (hfar : ∀ d, r.who = .remote d → d.val / 4 ≠ pkgId s ∧ s.mode.coupled.contains (d.val / 4) = true ∧
      s.fenced.contains (d.val / 4) = false)
    (hstore : (regionOf s (r.line * 256)).isStorage = true) (h : HomeFree s r) : agentRequest s r = arrive s r := by
  have hhome := h.1
  unfold agentRequest
  extract_lets away
  have haway : away = false := by
    dsimp only [away]
    split
    next d hd =>
      obtain ⟨h1, h2, h3⟩ := hfar d hd
      rw [h2, h3]; simp [h1]
    next => rfl
  rw [if_neg (by simp [haway, hstore]), if_pos hhome]

/-- Settles O33: by where the line is held; a request for its home opens its transaction there. -/
theorem coherenceRequests : Obligations.CoherenceRequests := by
  intro s t p q who line off bs cmp bad die
  have hd : heldOn s die line (some p) = heldOn s (p.val / 12) line (some p) := rfl
  refine ⟨fun hmay => ⟨fun hl2 hm hplace => ?_, fun hl2 hm he hl3 hfree => ?_, fun hl2 hheld hm hplace => ?_,
    fun hl2 hheld hm he hl hl3e hl3l hfree => ?_, fun hl2 hheld hfree => ?_⟩,
    fun hfar hstore => ⟨fun hfree => ?_, ?_, ?_⟩⟩
  · refine congrArg Host.Outcome.next ((if_neg (by simp [hmay, hl2])).trans ?_)
    rw [hm]
    exact congrArg (mergeOwning · p line) (placeOr_some hplace)
  · obtain ⟨hopens, hmiss, -⟩ := toHome_opens hfree
    refine ⟨_, congrArg Host.Outcome.next ((if_neg (by simp [hmay, hl2])).trans ?_), hopens, hmiss⟩
    rw [hm, he]
    exact if_neg (by simp [hl3])
  · refine congrArg Host.Outcome.next ((if_neg (by simp [hmay, hl2, ← hd, hheld])).trans ?_)
    refine (if_pos (by simp [hm])).trans ?_
    exact congrArg (mergeOwning · p line) (placeOr_some hplace)
  · have hview : homeView (dieRemove s die line (some p)) = homeView s := homeView_dieRemove ..
    obtain ⟨hopens, hmiss, -⟩ := toHome_opens (homeFree_of_view hview hfree)
    refine ⟨_, congrArg Host.Outcome.next ((if_neg ?_).trans ((if_neg ?_).trans ((if_neg ?_).trans (if_neg ?_)))),
      opensTxn_of_view hview hopens, hmiss⟩
    · simp [hmay, hl2, ← hd, hheld]
    · simp [hm]
    · simp [he, hl3e]
    · simp [hl, hl3l]
  · have hview : homeView (dieRemove s die line (some p)) = homeView s := homeView_dieRemove ..
    obtain ⟨hopens, -, hrest⟩ := toHome_opens (homeFree_of_view hview hfree)
    refine ⟨_, congrArg Host.Outcome.next (if_neg ?_), opensTxn_of_view hview hopens, fun q hne hd => ?_⟩
    · rcases hl2 with h | h <;> simp [hmay, h, ← hd, hheld]
    · rw [hrest]
      exact l2State_dieRemove (by simpa using hne.symm) hd s
  · refine ⟨_, ?_, (arrive_opens hfree).1⟩
    exact congrArg Host.Outcome.next (agentRequest_arrives hfar hstore hfree)
  · intro r hlen hfree
    refine ⟨arrive s r, ?_, (arrive_opens hfree).1⟩
    refine congrArg Host.Outcome.next ?_
    rw [List.take_of_length_le (by omega)]
    exact agentRequest_arrives (r := r) hfar hstore hfree
  · intro r hlen hfree
    refine ⟨arrive s r, ?_, (arrive_opens hfree).1⟩
    refine congrArg Host.Outcome.next ?_
    rw [List.take_of_length_le (by omega)]
    exact agentRequest_arrives (r := r) hfar hstore hfree

end Sys2Proof.Machine

/-! Answers to snoops (10 R238 to R240). -/

namespace Sys2Proof.Machine
-- Proofs one after the other: side by side they take more memory than the check allows.
set_option Elab.async false
open Sys2Proof.Tests (op txn wTx)

/-- A transaction in the record of line 5000h whose request is of line 5001h. -/
def strayTxn : Txn := txn .rdS (.pair 0) fun x => { x with req := { x.req with line := 0x5001 }, waitFor := [1, 2] }

/-- The dies that the transaction at line 5000h still waits for. -/
def waitsAfter (r : Answer) : Option (List Nat) :=
  match r with
  | .next y => (txnAt y 0x5000).map Txn.waitFor
  | _ => none

/-- Refutes O34: an answer is recorded at the line of the transaction's own request, and the statement also speaks of a
state whose record at the snooped line holds the request of another line. -/
theorem not_coherenceSnoops : ¬ Obligations.CoherenceSnoops := by
  intro h
  obtain ⟨hanswers, -⟩ := h (wTx op strayTxn) 0 1 0x5000 strayTxn (by decide +kernel)
  obtain ⟨hnone, -⟩ := hanswers (by decide +kernel) (by decide +kernel) (by decide +kernel) rfl
  have hanswer := hnone rfl (by decide +kernel) (by decide +kernel)
  have hwaits : waitsAfter (exec (.snps 1 0x5000) (wTx op strayTxn)) = some [1, 2] := by decide +kernel
  rw [hanswer] at hwaits
  exact absurd hwaits (by decide +kernel)

end Sys2Proof.Machine

/-! What a home does with memory, and how a requester takes what it is sent (10 R239, R241, R242, R245). -/

namespace Sys2Proof.Machine
-- Proofs one after the other: side by side they take more memory than the check allows.
set_option Elab.async false

variable {s t : State} {line : Nat} {p q : Fin 48}

/-! ### What accounting and messages change -/

theorem bankAccess_changes (s : State) (c r u b w : Nat) :
    ∃ regs mcs, bankAccess s c r u b w = { s with regs := regs, mcs := mcs } := by
  unfold bankAccess
  extract_lets _ _ _ _ _ _ v
  have hv : ∃ regs, v = { s with regs := regs } := by
    dsimp only [v]; split
    · exact ⟨_, rfl⟩
    · exact ⟨s.regs, rfl⟩
  obtain ⟨regs, hv⟩ := hv
  rw [hv]
  exact ⟨_, _, rfl⟩

/-- The definition is rewritten by `delta` and its place left general: the kernel does not evaluate `dramAt` there. -/
theorem lineAccess_changes (s : State) (line : Nat) :
    ∃ regs mcs, lineAccess s line = { s with regs := regs, mcs := mcs } := by
  suffices key : ∀ f, f = lineAccess → ∃ regs mcs, f s line = { s with regs := regs, mcs := mcs } from key _ rfl
  intro f hf
  delta lineAccess at hf
  rw [congrFun (congrFun hf s) line]
  extract_lets o
  clear_value o
  generalize dramAt s o = place
  cases place
  exact bankAccess_changes ..

theorem countDram_changes (s : State) (line : Nat) :
    ∃ regs mcs bud, countDram s line = { s with regs := regs, mcs := mcs, bud := bud } := by
  unfold countDram
  split
  · obtain ⟨regs, mcs, h⟩ := lineAccess_changes (countFg s 0 (channelOf s line) 1) line
    exact ⟨regs, mcs, _, h⟩
  · exact ⟨s.regs, s.mcs, s.bud, rfl⟩

theorem wroteDram_changes (s : State) (line : Nat) :
    ∃ regs mcs bud, wroteDram s line = { s with regs := regs, mcs := mcs, bud := bud } := by
  obtain ⟨regs, mcs, bud, h⟩ := countDram_changes s line
  unfold wroteDram
  rw [h]
  split
  · exact ⟨_, mcs, bud, rfl⟩
  · exact ⟨regs, mcs, bud, rfl⟩

theorem emits_change {α : Type} (f : α → Output) (l : List α) (s : State) :
    ∃ out, l.foldl (fun s x => emit (f x) s) s = { s with out := out } := by
  induction l generalizing s with
  | nil => exact ⟨s.out, rfl⟩
  | cons x l ih => exact (ih (emit (f x) s)).imp fun _ h => h

theorem toPkgData_changes (name : String) (pkg dest line : Nat) (data : List Byte) (s : State) :
    ∃ out links ctr, toPkgData name pkg dest line data s = { s with out := out, links := links, freeCtr := ctr } := by
  unfold toPkgData
  split
  · exact ⟨s.out, s.links, s.freeCtr, rfl⟩
  · split
    · exact ⟨s.out, s.links, s.freeCtr, rfl⟩
    next l _ =>
      extract_lets k fl buf c k' _ v w
      have hw : ∃ out, w = { v with out := out } := by
        dsimp only [w]; split
        · exact ⟨v.out, rfl⟩
        · exact ⟨_, rfl⟩
      obtain ⟨_, hw⟩ := hw
      obtain ⟨out, h⟩ := emits_change (fun f : BitVec 12 × List Byte => .flit l f.1.toNat f.2) fl w
      rw [h, hw]
      exact ⟨out, _, _, rfl⟩

theorem sendDie_changes (name : String) (die line : Nat) (s : State) :
    ∃ out links ctr, sendDie name die line s = { s with out := out, links := links, freeCtr := ctr } := by
  unfold sendDie
  split
  · exact ⟨s.out, s.links, s.freeCtr, rfl⟩
  · exact toPkgData_changes ..

theorem answer_changes (a : Agent) (name : String) (line : Nat) (s : State) :
    ∃ out links ctr, answer a name line s = { s with out := out, links := links, freeCtr := ctr } := by
  unfold answer
  split
  · exact ⟨s.out, s.links, s.freeCtr, rfl⟩
  · exact sendDie_changes ..
  · exact ⟨_, s.links, s.freeCtr, rfl⟩

/-! ### Copies and reservations -/

theorem loseReservation_changes (s : State) (p : Fin 48) (line : Nat) :
    ∃ lps, loseReservation s p line = { s with lps := lps } := by
  unfold loseReservation
  split
  · exact ⟨_, rfl⟩
  · exact ⟨s.lps, rfl⟩

theorem dropAll_changes (keep : Option (Fin 48)) (line : Nat) (l : List (Fin 48)) (s : State) :
    ∃ lps pairs, l.foldl (dropFrom keep line) s = { s with lps := lps, pairs := pairs } := by
  induction l generalizing s with
  | nil => exact ⟨s.lps, s.pairs, rfl⟩
  | cons p l ih =>
    have hone : ∃ lps pairs, dropFrom keep line s p = { s with lps := lps, pairs := pairs } := by
      unfold dropFrom
      split
      · exact ⟨s.lps, s.pairs, rfl⟩
      · split
        · obtain ⟨lps, h⟩ := loseReservation_changes (l2Drop s p line) p line
          exact ⟨lps, _, h⟩
        · obtain ⟨lps, h⟩ := loseReservation_changes s p line
          exact ⟨lps, s.pairs, h⟩
    obtain ⟨_, _, hone⟩ := hone
    rw [List.foldl_cons, hone]
    exact (ih _).imp fun _ h => h

theorem dieRemove_changes (s : State) (die line : Nat) (keep : Option (Fin 48)) :
    ∃ lps pairs l3, dieRemove s die line keep = { s with lps := lps, pairs := pairs, l3 := l3 } := by
  obtain ⟨lps, pairs, h⟩ := dropAll_changes keep line (pairsOfDie die) s
  exact ⟨lps, pairs, _, congrArg (l3Remove · die line) h⟩

theorem removeCopies_changes (s : State) (line : Nat) (keep : Option (Fin 48)) :
    ∃ lps pairs l3, removeCopies s line keep = { s with lps := lps, pairs := pairs, l3 := l3 } := by
  have key (l : List Nat) (s : State) :
      ∃ lps pairs l3, l.foldl (fun s d => dieRemove s d line keep) s =
        { s with lps := lps, pairs := pairs, l3 := l3 } := by
    induction l generalizing s with
    | nil => exact ⟨s.lps, s.pairs, s.l3, rfl⟩
    | cons d l ih =>
      obtain ⟨_, _, _, h⟩ := dieRemove_changes s d line keep
      rw [List.foldl_cons, h]
      exact (ih _).imp fun _ h => h
  exact key _ s

theorem loseReservations_changes (s : State) (line : Nat) (keep : Option (Fin 48)) :
    ∃ lps, loseReservations s line keep = { s with lps := lps } := by
  have key (l : List (Fin 48)) (s : State) : ∃ lps, l.foldl (fun s lp => if keep = some lp then s else
      updLp s lp fun x => if x.reservation = some line then { x with reservation := none, resHold := false } else x) s =
      { s with lps := lps } := by
    induction l generalizing s with
    | nil => exact ⟨s.lps, rfl⟩
    | cons d l ih =>
      rw [List.foldl_cons]
      split
      · exact ih s
      · exact (ih _).imp fun _ h => h
  exact key _ s

/-! ### Memory -/

theorem failedChannel_memPut (s : State) (a : Nat) (b : Byte) (line : Nat) :
    failedChannel (memPut s a b) line = failedChannel s line := by
  unfold memPut; split <;> rfl

/-- A byte written into memory whose channels work is read there. -/
theorem memByte_memWrite_in (a : Nat) (bs : List Byte) (s : State)
    (h : ∀ k < bs.length, failedChannel s (lineOf (a + k)) = false) {j : Nat} (hj : j < bs.length) :
    memByte (memWrite s a bs) (a + j) = bs.getD j 0 := by
  induction bs generalizing s a j with
  | nil => exact absurd hj (Nat.not_lt_zero j)
  | cons b bs ih =>
    rw [memWrite]
    cases j with
    | zero =>
      rw [memByte_memWrite_out _ _ _ _ (.inl (by omega)), Nat.add_zero,
        memByte_memPut _ _ _ _ (by simpa using h 0 (by simp))]
      simp
    | succ j =>
      have hnext := ih (a + 1) (memPut s a b) (fun k hk => ?_) (j := j) (by simpa using hj)
      · rw [show a + (j + 1) = a + 1 + j by omega, hnext]; simp
      · rw [failedChannel_memPut, show a + 1 + k = a + (k + 1) by omega]
        exact h (k + 1) (by simpa using hk)

theorem memWrite_changes (s : State) (a : Nat) (bs : List Byte) : ∃ mem, memWrite s a bs = { s with mem := mem } := by
  induction bs generalizing s a with
  | nil => exact ⟨s.mem, rfl⟩
  | cons b bs ih =>
    have hone : ∃ mem, memPut s a b = { s with mem := mem } := by
      unfold memPut; split
      · exact ⟨s.mem, rfl⟩
      · exact ⟨_, rfl⟩
    obtain ⟨_, hone⟩ := hone
    rw [memWrite, hone]
    exact (ih _ _).imp fun _ h => h

theorem lineOf_within {j : Nat} (hj : j < 256) : lineOf (line * 256 + j) = line := by unfold lineOf; omega

theorem look_filter_away {α : Type} (m : List (Nat × α)) {k : Nat} {f : Nat → Bool} (h : f k = false) :
    Tab.look (m.filter fun e => f e.1 : List (Nat × α)) k = none := by
  induction m with
  | nil => rfl
  | cons e m ih =>
    by_cases he : f e.1 = true
    · simp only [List.filter_cons, he, if_true]
      have hne : e.1 ≠ k := by rintro rfl; simp [h] at he
      simp [Tab.look, hne, ih]
    · simp only [List.filter_cons, he]; exact ih

/-- A line cleared for a write of all of it: its dirty bytes, its copies, reservations and directory entry go. -/
theorem cleared_changes (s : State) (line : Nat) :
    ∃ lps pairs l3, dirFree (loseReservations (removeCopies (discardDirty s line) line) line) line =
      { s with lps := lps, pairs := pairs, l3 := l3, dirty := s.dirty.filter fun e => e.1 / 256 != line,
               dir := Tab.del s.dir line } := by
  obtain ⟨lps, pairs, l3, hcopies⟩ := removeCopies_changes (discardDirty s line) line none
  rw [hcopies]
  obtain ⟨lps', hres⟩ := loseReservations_changes
    { discardDirty s line with lps := lps, pairs := pairs, l3 := l3 } line none
  rw [hres]
  exact ⟨lps', pairs, l3, rfl⟩

theorem failedChannel_cleared (s : State) (lps : Vector Lp 48) (pairs : Vector Pair 48) (l3 : Tab L3Line)
    (dirty : Tab Byte) (dir : Tab DirEntry) (line : Nat) :
    failedChannel { s with lps := lps, pairs := pairs, l3 := l3, dirty := dirty, dir := dir } line =
      failedChannel s line := by
  rfl

/-- A whole line written is what the line then reads; no directory entry of it stays. -/
theorem writeLine_whole {bs : List Byte} (hlen : bs.length = 256) (hf : failedChannel s line = false) (bad : Bool) :
    (∀ j < 256, curByte (writeLine s (line * 256) bs bad) (line * 256 + j) = bs.getD j 0) ∧
    (writeLine s (line * 256) bs bad).txns = s.txns ∧ (writeLine s (line * 256) bs bad).slices = s.slices ∧
    Tab.look (writeLine s (line * 256) bs bad).dir line = none := by
  have hline : lineOf (line * 256) = line := by unfold lineOf; omega
  obtain ⟨lps, pairs, l3, hclear⟩ := cleared_changes s line
  have hwrite : writeLine s (line * 256) bs bad = setPoison (memWrite { s with
      lps := lps, pairs := pairs, l3 := l3, dirty := s.dirty.filter fun e => e.1 / 256 != line,
      dir := Tab.del s.dir line } (line * 256) bs) line bad := by
    rw [← hclear]
    unfold writeLine
    simp only [hline, hlen, List.take_of_length_le (Nat.le_of_eq hlen)]
    simp
  have hfail := failedChannel_cleared s lps pairs l3 (s.dirty.filter fun e => e.1 / 256 != line) (Tab.del s.dir line)
  rw [hwrite]
  generalize hu : ({ s with
      lps := lps, pairs := pairs, l3 := l3, dirty := s.dirty.filter fun e => e.1 / 256 != line,
      dir := Tab.del s.dir line } : State) = u at hfail
  have hdirty : u.dirty = s.dirty.filter fun e => e.1 / 256 != line := by rw [← hu]
  have hdir : u.dir = Tab.del s.dir line := by rw [← hu]
  have htxns : u.txns = s.txns := by rw [← hu]
  have hslices : u.slices = s.slices := by rw [← hu]
  clear hu hclear hwrite
  have hread (j : Nat) (hj : j < 256) : memByte (memWrite u (line * 256) bs) (line * 256 + j) = bs.getD j 0 :=
    memByte_memWrite_in _ bs u (fun k hk => by rw [lineOf_within (by omega), hfail, hf]) (by omega)
  obtain ⟨mem, hmem⟩ := memWrite_changes u (line * 256) bs
  have hclean (j : Nat) (hj : j < 256) : Tab.look (memWrite u (line * 256) bs).dirty (line * 256 + j) = none := by
    rw [hmem]
    simp only [hdirty]
    exact look_filter_away (f := fun k => k / 256 != line) s.dirty (by simp; omega)
  refine ⟨fun j hj => ?_, ?_, ?_, ?_⟩
  · show (Tab.look (memWrite u (line * 256) bs).dirty (line * 256 + j)).getD
      (memByte (memWrite u (line * 256) bs) (line * 256 + j)) = _
    rw [hclean j hj, hread j hj]
    rfl
  · rw [hmem]; exact htxns
  · rw [hmem]; exact hslices
  · rw [hmem]
    show Tab.look u.dir line = none
    simp [hdir, look_del]

/-! ### The end of a transaction -/

theorem pump_idle (h : s.slices = []) (sl : Nat) : ∃ slices, pump s sl = { s with slices := slices } := by
  have hx : sliceAt s sl = sliceNone := by rw [sliceAt, h]; rfl
  have hy : sliceAt (updSlice s sl fun x => { x with waiting := [] }) sl = sliceNone := by
    rw [sliceAt, updSlice, hx]; simp [sliceNone]
  unfold pump
  rw [hx]
  simp only [sliceNone, List.foldl_nil, hy]
  exact ⟨_, rfl⟩

/-- Where nothing waits at a home, a transaction with nothing parked ends by leaving the record. -/
theorem endTxn_alone {x : Txn} (hx : txnAt s line = some x) (hw : x.parkedWbm = none) (he : x.parkedEvc = [])
    (hs : s.slices = []) : ∃ slices, endTxn s line = { s with txns := Tab.del s.txns line, slices := slices } := by
  obtain ⟨slices, h⟩ := pump_idle (s := { s with txns := Tab.del s.txns line }) hs
    (homeSlice { s with txns := Tab.del s.txns line } line)
  rw [endTxn, hx]
  simp only [hw, he, List.foldl_nil]
  exact ⟨slices, h⟩

theorem map_reqBytes (a : Nat) (bs : List Byte) : (reqBytes a bs).map (·.2) = bs := by
  induction bs generalizing a with
  | nil => rfl
  | cons b bs ih => exact congrArg (b :: ·) (ih _)

/-- The bytes of a request that writes a whole line. -/
theorem reqData_whole {r : Req} {bs : List Byte} (hd : r.data = reqBytes (line * 256) bs) (hlen : bs.length = 256) :
    reqData r = (line * 256, bs) := by
  rw [reqData, hd, map_reqBytes]
  cases bs with
  | nil => simp at hlen
  | cons b bs => rfl

/-- A whole line written by a request that every die has answered ends its transaction. -/
theorem mwr_writes {x : Txn} {bs : List Byte} (hx : txnAt s line = some x) (hk : x.req.kind = .wrL)
    (ha : x.answered = true) (hd : x.req.data = reqBytes (line * 256) bs) (hlen : bs.length = 256) :
    exec (.mwr line) s = .next (endTxn (answer x.req.who "Ack" line
      (wroteDram (writeLine s (line * 256) bs x.req.poisoned) line)) line) := by
  show execMwr line s = _
  rw [execMwr, hx]
  dsimp only
  rw [reqData_whole hd hlen, hk]
  exact congrArg Host.Outcome.next (if_neg (by simp [ha]))

/-- A requester that has what it asked to share ends the transaction. -/
theorem compack_ends {x : Txn} {m : Miss} (hhome : homeHere s line = true) (hx : txnAt s line = some x)
    (hmiss : missAt s p line = some m) (hfill : m.filled = true) (hwho : x.req.who = .pair p) (hsent : x.sent = true)
    (hk : x.req.kind = .rdS) : exec (.compack line) s = .next (endTxn (endMiss
      (dirAdd s line ((agentDie s x.req.who).getD 0) (takesE s x)) p line) line) := by
  show execCompack line s = _
  rw [execCompack, if_neg (by simp [hhome]), hx]
  dsimp only
  simp only [hwho, hmiss, hfill, hsent, hk, ReqKind.holds]
  exact congrArg Host.Outcome.next (if_neg (by decide))

theorem dirAdd_changes (s : State) (line die : Nat) (excl : Bool) :
    ∃ regs dir, dirAdd s line die excl = { s with regs := regs, dir := dir } := by
  unfold dirAdd
  split
  · exact ⟨s.regs, s.dir, rfl⟩
  · extract_lets e e' u
    have hu : ∃ regs, u = { s with regs := regs } := by
      dsimp only [u]; split
      · exact ⟨_, rfl⟩
      · exact ⟨s.regs, rfl⟩
    obtain ⟨regs, hu⟩ := hu
    rw [hu]
    exact ⟨regs, _, rfl⟩

/-- A read of memory is recorded. The definition is rewritten by `delta`: the kernel does not evaluate `dramAt`. -/
theorem mrd_records {x : Txn} (bad : List (Fin 10)) (hx : txnAt s line = some x) (hr : x.req.kind.reads = true)
    (hm : x.mrd = false) : ∃ u, exec (.mrd line bad) s = .next (putTxn u line { x with mrd := true }) := by
  suffices key : ∀ f, f = execMrd →
      ∃ u, f line bad s = Host.Outcome.next (putTxn u line { x with mrd := true }) from key _ rfl
  intro f hf
  delta execMrd at hf
  rw [congrFun (congrFun (congrFun hf line) bad) s]
  split
  next h => rw [hx] at h; cases h
  next y h =>
    obtain rfl : x = y := Option.some.inj (hx.symm.trans h)
    have hgo : ¬ ((!x.req.kind.reads || x.mrd) = true) := by simp [hr, hm]
    rw [if_neg hgo]
    extract_lets _ u
    exact ⟨u, rfl⟩

/-- Settles O35: by the branches of each event at the home and at the requester. -/
theorem coherenceData : Obligations.CoherenceData := by
  intro s p line x bad bs hhome
  refine ⟨fun hx => ⟨fun hr hm => ?_, fun ha hsup hm hsent hgo hk hwho => ?_, fun hm hsup hgo => ?_,
    fun hk ha hdata hlen hw he hs hf => ?_, fun m t hmiss hfill hwho hsent hk hfm hp hplace => ?_,
    fun m hmiss hfill hwho hsent hk hw he hs => ?_⟩, rfl, fun l hl hmiss hleave hack => ?_⟩
  · obtain ⟨u, hu⟩ := mrd_records bad hx hr hm
    exact ⟨_, hu, by simp [txnAt, putTxn]⟩
  · show execMgo line s = _
    simp [execMgo, hx, ha, hsup, hm, hsent, hgo, hk, answerLine, hwho]
  · show execMdrop line s = _
    simp [execMdrop, hx, hm, hsup, hgo]
  · obtain ⟨hread, htxns, hslices, hdir⟩ := writeLine_whole (line := line) hlen hf x.req.poisoned
    have hgo := mwr_writes hx hk ha hdata hlen
    generalize writeLine s (line * 256) bs x.req.poisoned = u at hread htxns hslices hdir hgo
    obtain ⟨regs, mcs, bud, hwrote⟩ := wroteDram_changes u line
    rw [hwrote] at hgo
    obtain ⟨out, links, ctr, hans⟩ := answer_changes x.req.who "Ack" line
      { u with regs := regs, mcs := mcs, bud := bud }
    rw [hans] at hgo
    obtain ⟨slices, hend⟩ := endTxn_alone (x := x)
      (s := { u with regs := regs, mcs := mcs, bud := bud, out := out, links := links, freeCtr := ctr })
      ((congrArg (Tab.look · line) htxns).trans hx) hw he (hslices.trans hs)
    rw [hend] at hgo
    exact ⟨_, hgo, by simp [txnAt, look_del], hdir, hread⟩
  · show execDataFill p line s = _
    have hgiven : fillGiven s p m line = some (.e, false) := by
      simp [fillGiven, hhome, hx, hwho, hsent, hk, hfm, hp]
    simp [execDataFill, hmiss, hgiven, hfill, hhome, hplace]
  · have hgo := compack_ends hhome hx hmiss hfill hwho hsent hk
    obtain ⟨regs, dir, hadd⟩ := dirAdd_changes s line ((agentDie s x.req.who).getD 0) (takesE s x)
    rw [hadd] at hgo
    obtain ⟨slices, hend⟩ := endTxn_alone (line := line) (x := x)
      (s := endMiss { s with regs := regs, dir := dir } p line) hx hw he hs
    rw [hend] at hgo
    refine ⟨_, hgo, by simp [txnAt, look_del], ?_⟩
    have hpair := pairAt_updPair { s with regs := regs, dir := dir } p fun x =>
      { x with misses := Tab.del x.misses line }
    show Tab.look (pairAt (endMiss { s with regs := regs, dir := dir } p line) p).misses line = none
    rw [endMiss, hpair]
    simp [look_del]
  · show execAck p line false false false false false s = _
    have hlost : lostHome s line = false := by simp [lostHome, hhome]
    simp [execAck, hlost, hl, hmiss, hleave, ackEviction, hhome, hack]

end Sys2Proof.Machine

/-! Refusals, probes, held transactions, and the silence of dies and homes (10 R236, R237, R245, R251 to R253). -/

namespace Sys2Proof.Machine
-- Proofs one after the other: side by side they take more memory than the check allows.
set_option Elab.async false

variable {s t u : State} {line : Nat} {p q : Fin 48}

/-! ### A directory's probe -/

theorem homeView_spend (s : State) (a : Activity) (costs : List (Nat × Nat)) :
    homeView (spend s a costs).1 = homeView s := by
  unfold spend
  dsimp only
  split
  · exact foldl_view (g := homeView) (by exact fun _ _ => rfl) ..
  · exact foldl_view (g := homeView) (by exact fun _ _ => rfl) ..

/-- The dies that a probe snoops are those of the line's entry that no package is cut off from. -/
theorem snoopDies_probe {e : DirEntry} (hd : dirMode s = true) (he : Tab.look s.dir line = some e)
    (ho : e.ovf = false) :
    snoopDies s ⟨.probe, .almanac 0, line, [], none, false⟩ = e.dies.filter fun d => !s.fenced.contains (d / 4) := by
  simp [snoopDies, hd, he, ho, agentDie]
  rfl

/-- A probe of an entry that names no die frees it. -/
theorem directoryProbe_empty {e : DirEntry} (hd : dirMode s = true) (he : Tab.look s.dir line = some e)
    (hx : txnAt s line = none) (ho : e.ovf = false) (hdies : e.dies = []) :
    exec (.directoryProbe line) s = .next (dirFree s line) := by
  have hspend : spend s .dir [] = (s, true) := rfl
  have hsnoop := snoopDies_probe hd he ho
  show execDirectoryProbe line s = _
  rw [execDirectoryProbe, he]
  dsimp only
  rw [if_neg (by simp [hd, hx]), ho, if_neg Bool.false_ne_true, hdies, List.flatMap_nil, hspend]
  exact congrArg Host.Outcome.next (if_pos (by rw [hsnoop, hdies]; rfl))

/-- A probe of an entry of one die of this package snoops it, where the budget bears the messages. -/
theorem directoryProbe_one {e : DirEntry} {d : Nat} (hd : dirMode s = true) (he : Tab.look s.dir line = some e)
    (hx : txnAt s line = none) (ho : e.ovf = false) (hdies : e.dies = [d]) (hp : d / 4 = pkgId s)
    (hf : pkgId s ∉ s.fenced)
    (hs : spend s .dir (msgCost (homeSlice s line / 24) (d % 4) ++ msgCost (d % 4) (homeSlice s line / 24)) =
      (t, true)) :
    exec (.directoryProbe line) s = .next (openTxn t ⟨.probe, .almanac 0, line, [], none, false⟩) := by
  have hview : homeView t = homeView s := by rw [← homeView_spend s .dir, hs]
  have hsnoop := snoopDies_probe hd he ho
  rw [← snoopDies_of_view hview] at hsnoop
  show execDirectoryProbe line s = _
  rw [execDirectoryProbe, he]
  dsimp only
  rw [if_neg (by simp [hd, hx]), ho, if_neg Bool.false_ne_true, hdies, List.flatMap_cons, if_pos hp, List.flatMap_nil,
    List.append_nil, hs]
  exact congrArg Host.Outcome.next (if_neg (by rw [hsnoop, hdies]; simp [hp, hf]))

/-! ### Silence -/

theorem homeView_discardDirty (s : State) (line : Nat) : homeView (discardDirty s line) = homeView s := rfl

/-- The copies of a line in the dies of this package that did not answer go. -/
def dropSilent (line : Nat) (s : State) (d : Nat) : State :=
  if d / 4 = pkgId s then dieRemove s (d % 4) line else s

theorem homeView_dropSilent (line : Nat) (s : State) (d : Nat) : homeView (dropSilent line s d) = homeView s := by
  unfold dropSilent; split <;> simp

theorem l2State_of_find (h : l2Find t q line = l2Find s q line) : l2State t q line = l2State s q line := by
  simp only [l2State, h]

/-- A line that a die gives up comes back nowhere. -/
theorem l2State_dieRemove_none (h : l2State s q line = none) (die : Nat) :
    l2State (dieRemove s die line) q line = none :=
  l2State_dropAll (line := line) (keep := none) (by simp) (pairsOfDie die) s (.inr h)

theorem l2State_dropSilent (l : List Nat) (s : State)
    (h : (∃ d ∈ l, d / 4 = pkgId s ∧ q.val / 12 = d % 4) ∨ l2State s q line = none) :
    l2State (l.foldl (dropSilent line) s) q line = none := by
  induction l generalizing s with
  | nil => simpa using h
  | cons d l ih =>
    have hpkg : pkgId (dropSilent line s d) = pkgId s := pkgId_of_view (homeView_dropSilent ..)
    refine ih _ ?_
    rcases h with ⟨e, he, hp, hq⟩ | h
    · rcases List.mem_cons.mp he with rfl | he
      · refine .inr ?_
        rw [dropSilent, if_pos hp]
        exact l2State_dieRemove (by simp) hq s
      · exact .inl ⟨e, he, by rw [hpkg]; exact hp, hq⟩
    · refine .inr ?_
      unfold dropSilent
      split
      · exact l2State_dieRemove_none h _
      · exact h

/-- What a home records of a request that its dies leave unanswered. -/
def silenced (x : Txn) : Txn :=
  { x with waitFor := [], crossing := [], crossed := [], sent := true, poisoned := true }

/-- The state in which a home gives the dies up that did not answer, before the event. -/
def silencedState (s : State) (line : Nat) (l : List Nat) : State :=
  dirFree (setPoison (l.foldl (dropSilent line) (discardDirty s line)) line true) line

/-- The event of a die that did not answer. -/
def silentEvent (s : State) (line d : Nat) : Event :=
  { page := slicePage (homeSlice s line), code := 0x40A1, sub := d, owner := granuleCtx s (line * 256), kind := .phys,
    addr := BitVec.ofNat 64 (line * 256) }

theorem snoopTimeout_run {x : Txn} (hx : txnAt s line = some x) (hk : x.req.kind.holds = true) (hw : x.waitFor ≠ [])
    (hwho : x.req.who = .pair p) :
    ∃ e, exec (.snoopTimeout line) s =
      .next (putTxn (logEvent (silencedState s line x.waitFor) e) line (silenced x)) := by
  show ∃ e, execSnoopTimeout line s = _
  rw [execSnoopTimeout, hx]
  cases hl : x.waitFor with
  | nil => exact absurd hl hw
  | cons d l =>
    cases hkind : x.req.kind <;> simp [hkind, ReqKind.holds] at hk
    all_goals
      refine ⟨silentEvent (silencedState s line x.waitFor) line d, ?_⟩
      simp only [hl, hkind, answerLine, answer, hwho]
      rfl

/-- Settles O36: by the branches of each event at the home and at the requester. -/
theorem coherenceEdges : Obligations.CoherenceEdges := by
  intro s t p c sl line m x e
  refine ⟨rfl, fun hmiss hfill => ⟨fun hhome hb hr hs => ?_, fun hhome hb => ?_⟩, fun hd he hx ho => ⟨fun hdies => ?_,
    fun d hdies hp hf hs => ?_⟩, fun hx => ⟨fun hwho hk => ?_, fun hk hw hwho => ?_⟩, fun hhome hf hmiss hk => ?_⟩
  · show execRetry p line s = _
    have hslice : sliceAt s (homeSlice s line) = sliceNone := by simp [sliceAt, Tab.read, hs]
    simp [execRetry, hmiss, hfill, hb, hr, hhome, lostHome, hslice, sliceNone]
  · show execRetryReissue p line s = _
    have hhome' : homeHere (updMiss s p line fun m => { m with backoff := false }) line = true := hhome
    simp [execRetryReissue, hmiss, hfill, hb, hhome']
  · exact directoryProbe_empty hd he hx ho hdies
  · exact directoryProbe_one hd he hx ho hdies hp hf hs
  · show execTransactionHold line s = _
    simp [execTransactionHold, hx, hk, ReqKind.isWork, hwho, answer, agentNo]
  · obtain ⟨e, hgo⟩ := snoopTimeout_run hx hk hw hwho
    have hlog := (logEvent_logged (silencedState s line x.waitFor) e).eq
    rw [hlog] at hgo
    refine ⟨_, hgo, ?_, ?_, by simp [txnAt, putTxn, silenced], fun d q hd hp hq => ?_⟩
    · show line ∈ (setPoison _ line true).poison
      unfold setPoison
      dsimp only
      rw [if_pos rfl]
      split
      case isTrue h => simpa using h
      case isFalse => exact List.mem_cons_self
    · show Tab.look (dirFree _ line).dir line = none
      simp [dirFree, look_del]
    · exact l2State_dropSilent (line := line) x.waitFor (discardDirty s line) (.inl ⟨d.val, hd, hp, hq⟩)
  · obtain ⟨e, hgo⟩ : ∃ e, exec (.requesterTimeout (.pair p) line) s = .next (logEvent (endMiss s p line) e) := by
      have hgo : exec (.requesterTimeout (.pair p) line) s = .next (lostEvent (pairTimeout s p line) (.pair p) line
          ((pairAt s p).lp.map fun lp => lpPart s lp)) :=
        congrArg Host.Outcome.next (if_neg (by simp [hhome, hf]))
      have hdrop : pairTimeout s p line = endMiss s p line := by
        unfold pairTimeout
        rw [hmiss]
        exact if_pos hk
      rw [hdrop] at hgo
      exact ⟨_, hgo⟩
    refine ⟨_, hgo, ?_, ?_⟩
    · rw [missAt, pairAt_logEvent, endMiss, pairAt_updPair]; simp [look_del]
    · rw [(logEvent_logged (endMiss s p line) e).eq]; rfl

end Sys2Proof.Machine

/-! The Burin, evictions, the prefetcher, array errors and the accessed and dirty bits (08 R190; 09 R208 to R222). -/

namespace Sys2Proof.Machine
-- Proofs one after the other: side by side they take more memory than the check allows.
set_option Elab.async false

variable {s t u : State} {line : Nat} {p q lp : Fin 48}

/-! ### A line leaves an L2 -/

theorem sendLine_changes (name : String) (die line : Nat) (s : State) :
    ∃ out links ctr, sendLine name die line s = { s with out := out, links := links, freeCtr := ctr } := by
  unfold sendLine
  split
  · exact ⟨s.out, s.links, s.freeCtr, rfl⟩
  · exact toPkgData_changes ..

theorem countHops_changes (s : State) (a b : Nat) (data : Bool) :
    ∃ bud, countHops s a b data = { s with bud := bud } := by
  have key (n : Nat) (l : List Nat) (s : State) :
      ∃ bud, l.foldl (fun s r => countFg s 2 (r - 32) n) s = { s with bud := bud } := by
    induction l generalizing s with
    | nil => exact ⟨s.bud, rfl⟩
    | cons r l ih => exact (ih _).imp fun _ h => h
  exact key ..

theorem countTo_changes (s : State) (die line : Nat) (data back : Bool) :
    ∃ bud, countTo s die line data back = { s with bud := bud } := by
  unfold countTo
  dsimp only
  cases back <;> exact countHops_changes ..

theorem l2Find_put (s : State) (p : Fin 48) (line : Nat) (l : L2Line) :
    l2Find (updPair s p fun x => { x with l2 := Tab.put x.l2 line l }) p line = some l := by
  simp [l2Find]

/-- The message that a line has left, or its data. -/
theorem leaveMessage_changes (s : State) (p : Fin 48) (line : Nat) (m : Prop) [Decidable m] :
    ∃ bud out links ctr,
      (if m then sendLine "WbM" (homeDie s line) line (countTo s (p.val / 12) line true false)
       else sendDie "EvC" (homeDie s line) line s) =
        { s with bud := bud, out := out, links := links, freeCtr := ctr } := by
  split
  · obtain ⟨bud, hc⟩ := countTo_changes s (p.val / 12) line true false
    obtain ⟨out, links, ctr, h⟩ := sendLine_changes "WbM" (homeDie s line) line { s with bud := bud }
    rw [hc, h]
    exact ⟨bud, out, links, ctr, rfl⟩
  · obtain ⟨out, links, ctr, h⟩ := sendDie_changes "EvC" (homeDie s line) line s
    exact ⟨s.bud, out, links, ctr, h⟩

theorem l2Evict_leaves {x : L2Line} (hx : l2Find s p line = some x) (hl : x.leaving = false) :
    l2Find (l2Evict s p line) p line = some { x with leaving := true, wbm := decide (x.st = .m) } ∧
      (l2Evict s p line).dirty = s.dirty := by
  unfold l2Evict
  rw [hx]
  dsimp only
  rw [if_neg (by simp [hl])]
  let v := updPair (l1Drop s p line) p fun y =>
    { y with l2 := Tab.put y.l2 line { x with leaving := true, wbm := decide (x.st = .m) } }
  obtain ⟨lps, hres⟩ := loseReservation_changes v p line
  obtain ⟨bud, out, links, ctr, h⟩ := leaveMessage_changes (loseReservation v p line) p line (x.st = .m)
  rw [h, hres]
  exact ⟨l2Find_put .., rfl⟩

/-! ### O37 -/

theorem l2Remove_gone (s : State) (p : Fin 48) (line : Nat) :
    l2Find (l2Remove s p line) p line = none ∧ (l2Remove s p line).mem = s.mem := by
  obtain ⟨lps, h⟩ := loseReservation_changes (l2Drop s p line) p line
  have hgone : l2Find (l2Drop s p line) p line = none := by simp [l2Find_l2Drop]
  rw [l2Remove, h]
  exact ⟨hgone, rfl⟩

theorem leaving_of_l2State {st : CohSt} (h : l2State s p line = some st) :
    ∃ x, l2Find s p line = some x ∧ x.leaving = false ∧ x.st = st := by
  unfold l2State at h
  split at h
  next x hx =>
    split at h
    · cases h
    next hl => exact ⟨x, hx, by simpa using hl, Option.some.inj h⟩
  next => cases h

theorem l2State_of_staying {x : L2Line} (hx : l2Find s p line = some x) (hl : x.leaving = false) :
    l2State s p line = some x.st := by simp [l2State, hx, hl]

/-- Settles O37: by the branches of each event of the caches. -/
theorem cachesWork : Obligations.CachesWork := by
  refine ⟨fun s lp p d line va store => ⟨?_, ?_, ?_, ?_⟩, ?_⟩
  · intro b
    refine ⟨fun hbusy hpause hq => ⟨fun hc => ?_, fun hc hcur hfull => ?_⟩, fun hbusy hcur hleave => ?_⟩
    · refine congrArg Host.Outcome.next ((if_neg ?_).trans (if_pos hc))
      simpa [hq] using ⟨hbusy, hpause⟩
    · refine congrArg Host.Outcome.next ((if_neg ?_).trans ((if_neg ?_).trans (if_neg ?_)))
      · simpa [hq] using ⟨hbusy, hpause⟩
      · simpa using hc
      · simpa using ⟨hcur, hfull⟩
    · exact congrArg Host.Outcome.next (if_pos (by simpa [hleave] using ⟨hbusy, hcur⟩))
  · intro x hx hl hn htx hm
    refine ⟨l2Evict s p line, congrArg Host.Outcome.next (if_pos ?_), l2Evict_leaves hx hl⟩
    rw [txnAt] at htx
    rw [missAt] at hm
    simp [l2State_of_staying hx hl, hn, htx, hm]
  · intro ctl hp hon
    refine ⟨fun hs => ?_, fun hr => ?_⟩
    · have hon' : bit (cell s (regKey (clusterPage p.val) 0x040)) 31 = true := hon
      simp [trainStream, hon', hs]
    · intro found
      have hgo : ¬ ((!bit ctl 31 || !lpReady s lp) = true) := by simp [hon, hr]
      refine ⟨fun hf => ?_, fun x hf h1 h0 => ?_⟩
      · show execPrefetch lp va store s = _
        rw [execPrefetch, hp]
        refine congrArg Host.Outcome.next ((if_neg hgo).trans ?_)
        have hf' : ((pairAt s p).streams.find? fun t =>
          t.line = va.toNat / 256 && t.store = store && decide (t.misses ≥ 3)) = none := hf
        rw [hf']
      · show execPrefetch lp va store s = _
        rw [execPrefetch, hp]
        refine congrArg Host.Outcome.next ((if_neg hgo).trans ?_)
        have hf' : ((pairAt s p).streams.find? fun t =>
          t.line = va.toNat / 256 && t.store = store && decide (t.misses ≥ 3)) = some x := hf
        have h1' : field (cell s (regKey (clusterPage p.val) 0x040)) 8 5 = 1 := h1
        have h0' : field (cell s (regKey (clusterPage p.val) 0x040)) 0 3 = 0 := h0
        rw [hf']
        dsimp only
        rw [h1', h0']
        simp [List.range_succ]
  · intro he
    let v := codelessEvent s (pairPage p.val) 1 (pairOwner s p) (line * 256)
    have hv : v.mem = s.mem := by
      dsimp only [v, codelessEvent]
      rw [(logEvent_logged (taken s) _).eq]
      rfl
    obtain ⟨hgone, hmem⟩ := l2Remove_gone v p line
    refine ⟨l2Remove v p line, ?_, hgone, hmem.trans hv⟩
    show execArraySweepRead false p.val line 2 s = _
    simp [execArraySweepRead, he, v]
  · intro s t u lp va k expected hr hbit hcan hwalk hne hswap
    show execAccessedDirtyUpdate lp va true expected s = _
    have hgo : ¬ ((!lpReady s lp || !bit (lpAt s lp).arch.psws 60 || !canonical va) = true) := by
      rw [archOf] at hbit
      simp [hr, hbit, hcan]
    simp only [execAccessedDirtyUpdate, if_neg hgo, if_true, hwalk]
    rw [if_neg hne, hswap]
    rfl

end Sys2Proof.Machine

/-! Flits, replay, retraining, failure and departure on coherence links (10 R253, R255, R256). -/

namespace Sys2Proof.Machine
-- Proofs one after the other: side by side they take more memory than the check allows.
set_option Elab.async false

variable {s t u : State}

/-! ### Places of a vector -/

theorem vget_vset {n : Nat} (v : Vector α n) (d x : α) (i j : Nat) :
    vget (vset v i x) d j = if i = j ∧ j < n then x else vget v d j := by
  simp only [vget, vset, Vector.toArray_setIfInBounds, Array.getD_eq_getD_getElem?, Array.getElem?_setIfInBounds,
    Vector.size_toArray]
  by_cases h : i = j
  · subst h
    by_cases hn : i < n
    · simp [hn]
    · have : v.toArray[i]? = none := by simp [Nat.not_lt.mp hn]
      simp [hn]
  · simp [h]

theorem vget_vset_self {n : Nat} (v : Vector α n) (d x : α) {i : Nat} (h : i < n) : vget (vset v i x) d i = x := by
  rw [vget_vset, if_pos ⟨rfl, h⟩]

theorem linkAt_updLink (s : State) {l : Nat} (h : l < 4) (f : Link → Link) :
    linkAt (updLink s l f) l = f (linkAt s l) :=
  vget_vset_self _ _ _ h

/-! ### A flit's bytes -/

theorem beVal_beBytes (n v : Nat) : beVal (beBytes n v) = v % 256 ^ n := by
  induction n generalizing v with
  | zero => simp [beBytes, beVal, Nat.mod_one]
  | succ n ih =>
    rw [beBytes, beVal_cons, length_beBytes, ih]
    have h : v / 256 ^ n % 256 * 256 ^ n + v % 256 ^ n = v % 256 ^ (n + 1) := by
      rw [Nat.pow_succ, Nat.mod_mul, Nat.mul_comm]; omega
    simpa using h

/-- A flit carries the 256 bytes it is made of. -/
theorem flitRaw_ofBytes {l : List Byte} (h : l.length = 256) : flitRaw (BitVec.ofNat 2048 (beVal l)) = l := by
  have hlt : beVal l < 2 ^ 2048 := by
    have := beVal_lt l
    rw [h] at this
    calc beVal l < 256 ^ 256 := this
      _ = 2 ^ 2048 := (Nat.pow_mul 2 8 256).symm
  rw [flitRaw, BitVec.toNat_ofNat, Nat.mod_eq_of_lt hlt, ← h, beBytes_beVal]

/-- A flit with its code is taken by its header. -/
theorem flit_whole {l : Fin 4} (hflow : flitsFlow (linkAt s l.val) = true) {h : Nat} {body : List Byte}
    (hb : body.length = 240) (hh : h < 2 ^ 48) :
    exec (.flit l (BitVec.ofNat 2048 (beVal (beBytes 6 h ++ body ++ beBytes 4 (crc32c (beBytes 6 h ++ body)).toNat ++
      List.replicate 6 0)))) s = .next (takeFlit s l.val h) := by
  show execFlit l _ s = _
  have hbs : (beBytes 6 h ++ body).length = 246 := by simp [hb]
  have hcrc : beVal (beBytes 4 (crc32c (beBytes 6 h ++ body)).toNat) = (crc32c (beBytes 6 h ++ body)).toNat := by
    rw [beVal_beBytes]; exact Nat.mod_eq_of_lt (crc32c (beBytes 6 h ++ body)).isLt
  have hhead : beVal (beBytes 6 h) = h := by rw [beVal_beBytes]; exact Nat.mod_eq_of_lt (by omega)
  have hraw := flitRaw_ofBytes (l := beBytes 6 h ++ body ++ beBytes 4 (crc32c (beBytes 6 h ++ body)).toNat ++
    List.replicate 6 0) (by simp [hb])
  have htake6 : (beBytes 6 h ++ body ++ beBytes 4 (crc32c (beBytes 6 h ++ body)).toNat ++
      List.replicate 6 0).take 6 = beBytes 6 h := by
    rw [List.append_assoc, List.append_assoc, List.take_left' (by simp)]
  have htake : (beBytes 6 h ++ body ++ beBytes 4 (crc32c (beBytes 6 h ++ body)).toNat ++
      List.replicate 6 0).take 246 = beBytes 6 h ++ body := by
    rw [List.append_assoc, List.take_left' hbs]
  have hdrop : ((beBytes 6 h ++ body ++ beBytes 4 (crc32c (beBytes 6 h ++ body)).toNat ++
      List.replicate 6 0).drop 246).take 4 = beBytes 4 (crc32c (beBytes 6 h ++ body)).toNat := by
    rw [List.append_assoc, List.drop_left' hbs, List.take_left' (by simp)]
  simp only [execFlit, hflow, hraw, htake6, htake, hdrop, hcrc, hhead]
  exact congrArg Host.Outcome.next ((if_neg (by decide)).trans (if_pos trivial))

/-! ### Messages leave a link's state alone -/

/-- Whether each link is up, and whether it has failed. -/
def linkState (s : State) (l : Nat) : Bool × Bool := ((linkAt s l).up, (linkAt s l).failed)

theorem linkState_toPkgData (name : String) (pkg dest line : Nat) (data : List Byte) (s : State) (l : Nat) :
    linkState (toPkgData name pkg dest line data s) l = linkState s l := by
  unfold toPkgData
  split
  · rfl
  · split
    · rfl
    next i _ =>
      extract_lets k fl buf c k' _ v w
      have hv : linkState v l = linkState s l := by
        show (fun k : Link => (k.up, k.failed)) (vget (vset s.links i k') Link.reset l) = _
        rw [vget_vset]
        split
        case isTrue h => obtain ⟨rfl, -⟩ := h; rfl
        case isFalse => rfl
      have hw : linkState w l = linkState v l := by dsimp only [w]; split <;> rfl
      refine (foldl_view (g := (linkState · l)) ?_ _ _).trans (hw.trans hv)
      exact fun _ _ => rfl

theorem linkState_timeLinkLost (s : State) (i l : Nat) : linkState (timeLinkLost s i) l = linkState s l := by
  have hlog (u : State) (e : Event) : linkState (logEvent u e) l = linkState u l := by
    rw [(logEvent_logged u e).eq]; rfl
  unfold timeLinkLost
  split
  case isTrue => rfl
  case isFalse =>
    extract_lets ok
    split
    next f _ => exact hlog (updTime s fun t => { t with route := some f, within := 0 }) _
    next =>
      split
      case isTrue => rfl
      case isFalse => exact hlog (updTime s _) _

theorem linkState_moveFlits (s : State) (i l : Nat) : linkState (moveFlits s i) l = linkState s l := by
  unfold moveFlits
  extract_lets buf first u
  have hu : linkState u l = linkState s l := by
    show (fun k : Link => (k.up, k.failed)) (vget (vset s.links i _) Link.reset l) = _
    rw [vget_vset]
    split
    case isTrue h => obtain ⟨rfl, -⟩ := h; rfl
    case isFalse => rfl
  refine (foldl_view (g := (linkState · l)) ?_ _ _).trans hu
  intro s e
  split
  · rfl
  · exact linkState_toPkgData ..

/-! ### A package that departs -/

theorem fenceDir_poison (s : State) (pkg : Nat) : (fenceDir s pkg false).poison = s.poison ∧
    (fenceDir s pkg false).fenced = s.fenced ∧ (fenceDir s pkg false).txns = s.txns ∧
    (fenceDir s pkg false).slices = s.slices := by
  let g := fun s : State => (s.poison, s.fenced, s.txns, s.slices)
  have h : g (fenceDir s pkg false) = g s := by
    refine foldl_view ?_ _ _
    intro s e
    dsimp only
    split
    · rfl
    · rw [Bool.and_false, if_neg Bool.false_ne_true]
      split <;> rfl
  obtain ⟨hp, h⟩ := Prod.mk.inj h
  obtain ⟨hf, h⟩ := Prod.mk.inj h
  obtain ⟨ht, hs⟩ := Prod.mk.inj h
  exact ⟨hp, hf, ht, hs⟩

/-- The fence of a package that departs from an idle home leaves the poisoned lines as they are. -/
theorem fencePkg_departed {pkg : Nat} (hf : pkg ∉ s.fenced) (hne : pkg ≠ pkgId s) (htx : s.txns = []) :
    pkg ∈ (fencePkg s pkg false).fenced ∧ (fencePkg s pkg false).poison = s.poison := by
  unfold fencePkg
  rw [if_neg (by simp [hf, hne])]
  extract_lets sls u v
  obtain ⟨hp, hfen, ht, -⟩ := fenceDir_poison { s with fenced := pkg :: s.fenced } pkg
  let g := fun s : State => (s.poison, s.fenced, s.txns)
  have hv : g v = g u := foldl_view (g := g) (by
    intro s sl
    show g (logEvent s _) = g s
    rw [(logEvent_logged s _).eq]) sls u
  obtain ⟨hvp, hv⟩ := Prod.mk.inj hv
  obtain ⟨hvf, hvt⟩ := Prod.mk.inj hv
  have hnone : v.txns = [] := hvt.trans (ht.trans htx)
  have hidle : (fenceTxns v pkg).poison = v.poison ∧ (fenceTxns v pkg).fenced = v.fenced := by
    unfold fenceTxns
    dsimp only
    rw [hnone]
    exact ⟨rfl, rfl⟩
  exact ⟨by rw [hidle.2, hvf]; show pkg ∈ u.fenced; rw [hfen]; exact List.mem_cons_self, hidle.1.trans (hvp.trans hp)⟩

/-- A link by which no package is reached fails alone. -/
theorem failLink_down {l : Nat} (hl : l < 4) (hroute : ∀ q, linkTo s q ≠ some l) :
    linkState (failLink s l) l = (false, true) := by
  unfold failLink
  extract_lets uses pkgs u back v
  have hpkgs : pkgs = [] := by
    dsimp only [pkgs]
    rw [List.filter_eq_nil_iff]
    intro p _
    simp [uses, hroute]
  have hv : v = u := if_neg (by simp [back, hpkgs])
  rw [linkState_timeLinkLost, linkState_moveFlits, hpkgs, List.foldl_nil, hv]
  simp only [linkState, u, linkAt_updLink s hl]

/-- Settles O38: by the branches of each event of a link. -/
theorem linksWork : Obligations.LinksWork := by
  intro s l seq h body i us x8 pkg k bs flit put
  refine ⟨fun hflow => ⟨fun hb hh => ⟨fun hseq => ?_, fun hseq => ?_⟩, fun hi => ?_, ?_⟩, fun hr hus => ⟨fun hbuf => ?_,
    fun hn => ?_⟩, fun hup hfail hroute => ?_, fun hne hin hw hd hf htx hsl => ?_⟩
  · refine (flit_whole hflow hb hh).trans (congrArg Host.Outcome.next (if_neg ?_))
    rw [Nat.mod_eq_of_lt (by omega)]
    simpa using hseq
  · refine (flit_whole hflow hb hh).trans (congrArg Host.Outcome.next (if_pos ?_))
    rw [Nat.mod_eq_of_lt (by omega)]
    exact hseq
  · intro again
    show execNak l seq s = _
    have hi' : (linkAt s l.val).replayBuf.findIdx? (fun e => e.seq = seq) = some i := hi
    simp only [execNak]
    rw [if_neg (by simpa using hflow), hi']
  · exact congrArg Host.Outcome.next (if_neg (by simpa using hflow))
  · show execLinkRetrainComplete l true x8 us s = _
    refine congrArg Host.Outcome.next ((if_neg (by simpa using hr)).trans ((if_neg (by simpa using hus)).trans ?_))
    have hbuf' : (linkAt s l.val).replayBuf = [] := hbuf
    simp [hbuf', put]
  · show execLinkRetrainComplete l false x8 us s = _
    have hn' : (linkAt s l.val).failedRetrains < 2 := hn
    refine congrArg Host.Outcome.next ((if_neg (by simpa using hr)).trans ((if_neg ?_).trans (if_pos (by decide))))
    simp
    omega
  · have hdown := failLink_down l.isLt hroute
    obtain ⟨hu, hf⟩ := Prod.mk.inj hdown
    refine ⟨failLink s l.val, congrArg Host.Outcome.next (if_pos (by simpa using ⟨hup, hfail⟩)), hu, hf, ?_⟩
    rw [linkUp]
    rw [linkAt] at hu
    simp [hu]
  · refine ⟨_, congrArg Host.Outcome.next ((if_neg ?_).trans (if_pos hd)), fencePkg_departed hf hne htx⟩
    simp [hne, hin, hw]

end Sys2Proof.Machine

/-! What the stores that leave a processor, and the lines that leave an L2, do not touch. -/

namespace Sys2Proof.Machine
-- Proofs one after the other: side by side they take more memory than the check allows.
set_option Elab.async false

variable {s t u : State} {p q lp : Fin 48} {line : Nat}

/-! ### Lines of an L2 -/

@[simp] theorem steady_l2Remove (s : State) (p : Fin 48) (line : Nat) : steady (l2Remove s p line) = steady s :=
  (steady_loseReservation ..).trans (steady_l2Drop ..)

@[simp] theorem steady_l3Place (s : State) (die line : Nat) (st : CohSt) :
    steady (l3Place s die line st) = steady s := by
  unfold l3Place
  extract_lets
  refine steady_ite rfl ?_
  split <;> rfl

@[simp] theorem steady_l2EvictNow (s : State) (p : Fin 48) (line : Nat) : steady (l2EvictNow s p line) = steady s := by
  unfold l2EvictNow
  split <;> simp

theorem steady_l2Place {st : CohSt} (h : l2Place s p line st = some t) : steady t = steady s := by
  unfold l2Place at h
  split at h
  · split at h
    · cases h
    · cases h; exact steady_l2SetState ..
  · split at h
    · cases h
    · extract_lets put at h
      split at h
      · cases h; rfl
      · split at h
        · cases h
          exact (steady_updPair ..).trans ((steady_taken ..).trans (steady_l2EvictNow ..))
        · cases h

@[simp] theorem steady_flushLine (s : State) (p : Fin 48) (line : Nat) : steady (flushLine s p line) = steady s := by
  unfold flushLine
  exact steady_ite (by simp) (by simp)

@[simp] theorem steady_flushL2 (s : State) (p : Fin 48) : steady (flushL2 s p) = steady s := by
  refine steady_foldl (fun s e => (steady_l2Remove ..).trans ?_) _ s
  exact steady_ite rfl (steady_ite (steady_writeBack ..) (steady_flushLine ..))

/-! ### Ownership -/

@[simp] theorem steady_dirOwn (s : State) (line die : Nat) : steady (dirOwn s line die) = steady s := by
  unfold dirOwn; split <;> rfl

@[simp] theorem steady_countRead (s : State) (p : Fin 48) (line : Nat) : steady (countRead s p line) = steady s := by
  unfold countRead; simp

theorem steady_takeOwnership (h : takeOwnership s p line = some t) : steady t = steady s := by
  unfold takeOwnership at h
  extract_lets die mine kind u at h
  split at h
  · cases h; rfl
  · split at h
    · cases h
    · split at h
      · cases h; simp
      · split at h
        · exact (steady_l2Place h).trans (by simp)
        · split at h
          · cases h
          · obtain ⟨v, hv, rfl⟩ := Option.map_eq_some_iff.mp h
            exact (steady_dirOwn ..).trans ((steady_l2Place hv).trans (by simp [u]))

/-! ### Stores that leave a processor -/

/-- A processor but for its reservation and the stores it has released. -/
def Lp.drained (x : Lp) : Lp :=
  { x with released := [], owning := [], toFar := [], reservation := none, resHold := false }

/-- The part of a state that the stores leaving a processor do not touch either. -/
def settled (s : State) : Steady := { steady s with lps := s.lps.map Lp.drained }

theorem settled_of_steady (h : steady t = steady s) : settled t = settled s := by
  have hl : t.lps.map Lp.drained = s.lps.map Lp.drained := by
    ext1 i hi
    have hx : (lpAt t ⟨i, hi⟩).drained = (lpAt s ⟨i, hi⟩).drained :=
      (congrArg Lp.drained (lpAt_of_steady h ⟨i, hi⟩) :
        (lpAt t ⟨i, hi⟩).unreserved.drained = (lpAt s ⟨i, hi⟩).unreserved.drained)
    simpa [lpAt] using hx
  rw [settled, settled, h, hl]

theorem settled_updLp {f : Lp → Lp} (hf : ∀ x, (f x).drained = x.drained) : settled (updLp s lp f) = settled s := by
  have hl : (updLp s lp f).lps.map Lp.drained = s.lps.map Lp.drained := by
    ext1 i hi
    by_cases h : lp.val = i
    · subst h; simp [updLp, setLp, hf, lpAt]
    · simp [updLp, setLp, h]
  rw [settled, hl]
  rfl

theorem settled_foldl {f : State → α → State} (hf : ∀ s x, settled (f s x) = settled s) (l : List α) (s : State) :
    settled (l.foldl f s) = settled s := foldl_view hf l s

theorem lpAt_of_settled (h : settled t = settled s) (lp : Fin 48) : (lpAt t lp).drained = (lpAt s lp).drained := by
  have hl : t.lps.map Lp.drained = s.lps.map Lp.drained := congrArg (·.lps) h
  have := congrArg (fun v => v[lp]) hl
  simpa [lpAt] using this

@[simp] theorem settled_mergeAll (s : State) (lp : Fin 48) (line : Nat) (es : List GateEntry) :
    settled (mergeAll s lp line es) = settled s :=
  (settled_foldl (by exact fun _ _ => rfl) es _).trans (settled_of_steady (steady_loseReservations ..))

@[simp] theorem settled_mergeWaiting (s : State) (p : Fin 48) (line : Nat) :
    settled (mergeWaiting s p line) = settled s := by
  unfold mergeWaiting
  split
  · rfl
  · extract_lets mine own
    split
    · rfl
    · exact (settled_updLp (by exact fun _ => rfl)).trans
        ((settled_mergeAll ..).trans (settled_of_steady (steady_l2SetState ..)))

theorem settled_ownNow (h : ownNow s p line = some t) : settled t = settled s := by
  obtain ⟨u, hu, rfl⟩ := Option.map_eq_some_iff.mp h
  exact (settled_mergeWaiting ..).trans (settled_of_steady (steady_takeOwnership hu))

@[simp] theorem settled_writeEntry (s : State) (e : GateEntry) : settled (writeEntry s e) = settled s :=
  settled_of_steady (steady_foldl (fun _ _ => steady_agentWrite ..) _ s)

@[simp] theorem settled_sendFar (s : State) (lp : Fin 48) (name : String) (e : GateEntry) :
    settled (sendFar s lp name e) = settled s := by
  unfold sendFar
  extract_lets line who
  split
  · exact settled_of_steady (steady_lostEvent ..)
  · exact (settled_of_steady (steady_foldl (fun _ _ => steady_toPkgData ..) _ _)).trans
      (settled_updLp (by exact fun _ => rfl))

@[simp] theorem settled_drainNormal (s : State) (lp p : Fin 48) (es : List GateEntry) (line : Nat) :
    settled (drainNormal s lp p es line) = settled s := by
  unfold drainNormal
  extract_lets wait
  have hwait : settled (wait s) = settled s := settled_updLp (by exact fun _ => rfl)
  split
  · exact hwait
  · split
    · exact settled_mergeAll ..
    · exact (settled_mergeAll ..).trans (settled_of_steady (steady_l2SetState ..))
    · exact hwait

theorem settled_drainStore (h : drainStore s lp = some t) : settled t = settled s := by
  unfold drainStore at h
  split at h
  · cases h
  · extract_lets line at h
    split at h
    · cases h
    · split at h
      · cases h
        exact (settled_drainNormal ..).trans (settled_updLp (by exact fun _ => rfl))
      · split at h
        · cases h
          exact (settled_sendFar ..).trans (settled_updLp (by exact fun _ => rfl))
        · split at h
          · cases h
          · cases h
            exact (settled_writeEntry ..).trans (settled_updLp (by exact fun _ => rfl))

@[simp] theorem settled_drainStores (n : Nat) (s : State) (lp : Fin 48) : settled (drainStores n s lp) = settled s := by
  induction n generalizing s with
  | zero => rfl
  | succ n ih =>
    unfold drainStores
    split
    next t h => exact (ih t).trans (settled_drainStore h)
    next => rfl

@[simp] theorem settled_ownWaiting (s : State) (lp : Fin 48) : settled (ownWaiting s lp) = settled s := by
  unfold ownWaiting
  split
  · rfl
  · refine settled_foldl (fun s e => ?_) _ s
    cases h : ownNow s _ (e.blk / 4) with
    | none => rfl
    | some t => exact settled_ownNow h

@[simp] theorem settled_drainStorage (s : State) (lp : Fin 48) : settled (drainStorage s lp) = settled s := by
  unfold drainStorage
  exact (settled_foldl settled_writeEntry _ _).trans
    ((settled_updLp (by exact fun _ => rfl)).trans ((settled_ownWaiting ..).trans (settled_drainStores ..)))

/-! ### An L2 that is flushed -/

theorem writeBack_pairs (s : State) (line : Nat) : (writeBack s line).pairs = s.pairs :=
  foldl_view (g := State.pairs) (by intro s e; unfold memPut; split <;> rfl) _ _

theorem flushLine_pairs (s : State) (p : Fin 48) (line : Nat) : (flushLine s p line).pairs = s.pairs := by
  obtain ⟨bud, hc⟩ := countTo_changes s (p.val / 12) line true false
  unfold flushLine
  rw [hc]
  dsimp only
  split
  · obtain ⟨regs, mcs, bud', hw⟩ := wroteDram_changes (writeBack { s with bud := bud } line) line
    rw [hw]
    exact writeBack_pairs ..
  · obtain ⟨out, links, ctr, hs⟩ := sendLine_changes "WbM" (homeDie { s with bud := bud } line) line
      { s with bud := bud }
    rw [hs]
    exact writeBack_pairs ..

theorem l2_l2Remove (s : State) (p : Fin 48) (line : Nat) :
    (pairAt (l2Remove s p line) p).l2 = Tab.del (pairAt s p).l2 line := by
  obtain ⟨lps, h⟩ := loseReservation_changes (l2Drop s p line) p line
  have hdrop : (pairAt (l2Drop s p line) p).l2 = Tab.del (pairAt s p).l2 line := by
    rw [l2Drop, pairAt_updPair, l1Drop, pairAt_updPair]
  rw [l2Remove, h]
  exact hdrop

/-- Deleting the keys of a table leaves nothing of them. -/
theorem mem_foldl_del {α : Type} (l m : Tab α) {x : Nat × α} (h : x ∈ l.foldl (fun m e => Tab.del m e.1) m) :
    x ∈ m ∧ ∀ e ∈ l, x.1 ≠ e.1 := by
  induction l generalizing m with
  | nil => exact ⟨h, fun _ he => absurd he (List.not_mem_nil)⟩
  | cons e l ih =>
    obtain ⟨hx, hl⟩ := ih _ h
    obtain ⟨hm, hne⟩ := List.mem_filter.mp hx
    refine ⟨hm, fun y hy => ?_⟩
    rcases List.mem_cons.mp hy with rfl | hy
    · simpa using hne
    · exact hl y hy

/-- A flushed L2 holds nothing. -/
theorem flushL2_empty (s : State) (p : Fin 48) : (pairAt (flushL2 s p) p).l2 = [] := by
  have hfold (l : List (Nat × L2Line)) (s : State) :
      (pairAt (l.foldl (fun s e => l2Remove (if e.2.st ≠ .m then s
        else if e.2.leaving && !homeHere s e.1 then writeBack s e.1 else flushLine s p e.1) p e.1) s) p).l2 =
        l.foldl (fun m e => Tab.del m e.1) (pairAt s p).l2 := by
    induction l generalizing s with
    | nil => rfl
    | cons e l ih =>
      have hpair : pairAt (if e.2.st ≠ .m then s
          else if e.2.leaving && !homeHere s e.1 then writeBack s e.1 else flushLine s p e.1) p = pairAt s p := by
        split
        · rfl
        · split
          · exact pairAt_congr (writeBack_pairs ..) p
          · exact pairAt_congr (flushLine_pairs ..) p
      rw [List.foldl_cons, ih, l2_l2Remove, hpair]
      rfl
  rw [flushL2, hfold]
  refine List.eq_nil_iff_forall_not_mem.mpr fun x hx => ?_
  obtain ⟨hm, hne⟩ := mem_foldl_del _ _ hx
  exact hne x hm rfl

end Sys2Proof.Machine

/-! Sparing, rotation and the halt of a pair, stage by stage (01 R13; 11 R264 to R283; 17 R427). -/

namespace Sys2Proof.Machine
-- Proofs one after the other: side by side they take more memory than the check allows.
set_option Elab.async false

variable {s t u : State} {p q lp : Fin 48} {m : Master}

/-! ### A pair's identity moves -/

theorem takeIdentity_moves (hl : (pairAt s p).lp = some lp) (hh : (pairAt s p).haltReq = false) (hne : p ≠ q) :
    (pairAt (takeIdentity s p q) q).lp = some lp ∧ (pairAt (takeIdentity s p q) q).role = .active ∧
    (pairAt (takeIdentity s p q) p).lp = none ∧ archOf (takeIdentity s p q) lp = archOf s lp ∧
    (lpAt (takeIdentity s p q) lp).reservation = none := by
  unfold takeIdentity
  dsimp only
  rw [hl, hh]
  refine ⟨?_, ?_, ?_, ?_, ?_⟩
  · rw [pairAt_updLp, pairAt_updPair_ne _ _ hne.symm, pairAt_updPair]
  · rw [pairAt_updLp, pairAt_updPair_ne _ _ hne.symm, pairAt_updPair]; rfl
  · rw [pairAt_updLp, pairAt_updPair]
  · simp [archOf]
  · simp

theorem takeIdentity_sparings (s : State) (p q : Fin 48) : (takeIdentity s p q).sparings = s.sparings := by
  unfold takeIdentity
  dsimp only
  split <;> rfl

theorem loseCycles_logged (s : State) (p : Fin 48) (n : Nat) : steady (loseCycles s p n) = steady s :=
  (steady_taken ..).trans (steady_setCell ..)

@[simp] theorem pairAt_loseCycles (s : State) (p : Fin 48) (n : Nat) (q : Fin 48) :
    pairAt (loseCycles s p n) q = pairAt s q := by
  rw [loseCycles, bump64, pairAt_taken, pairAt_setCell]

@[simp] theorem lpAt_loseCycles (s : State) (p : Fin 48) (n : Nat) (l : Fin 48) :
    lpAt (loseCycles s p n) l = lpAt s l := by
  rw [loseCycles, bump64, lpAt_taken, lpAt_setCell]

/-! ### Sparing -/

/-- Where a pair's stores have all left, they settle, and its L2 is flushed. -/
theorem settleStores_settled (hl : (pairAt s p).lp = some lp) (hg : gateEmpty (lpAt (drainStorage s lp) lp) = true) :
    settleStores s p = (flushL2 (drainStorage s lp) p, true) := by
  rw [settleStores, hl]
  exact if_pos hg

theorem settleStores_keeps (s : State) (p : Fin 48) : settled (settleStores s p).1 = settled s := by
  unfold settleStores
  split
  · exact settled_of_steady (steady_flushL2 ..)
  · dsimp only
    split
    · exact (settled_of_steady (steady_flushL2 ..)).trans (settled_drainStorage ..)
    · exact settled_drainStorage ..

theorem sparing_powered (hs : s.sparings = [⟨p, q, false, false, false⟩]) (hr : s.rotation = none)
    (hp : (pairAt s q).role = .preparing) (hoff : (pairAt s q).powered = false) :
    exec (.domainPowerUpComplete (.pair q)) s =
      .next { (powerPair s q) with sparings := [⟨p, q, false, true, false⟩] } := by
  show execDomainPowerUpComplete (.pair q) s = _
  have hps : (powerPair s q).sparings = [⟨p, q, false, false, false⟩] := hs
  have hpr : (powerPair s q).rotation = none := hr
  simp [execDomainPowerUpComplete, hp, hoff, hps, hpr]

theorem sparing_writtenBack (hs : s.sparings = [⟨p, q, false, true, false⟩]) (hl : (pairAt s p).lp = some lp)
    (hg : gateEmpty (lpAt (drainStorage s lp) lp) = true) :
    Gives (.sparingWritebackComplete p) s fun t =>
      t.sparings = [⟨p, q, true, true, false⟩] ∧ (pairAt t p).l2 = [] := by
  have hset := settleStores_settled hl hg
  have hgo : exec (.sparingWritebackComplete p) s =
      .next (updSparing (flushL2 (drainStorage s lp) p) p fun x => { x with wroteBack := true }) := by
    show execSparingWritebackComplete p s = _
    rw [execSparingWritebackComplete, if_pos (by simp [hs]), hset]
  have hsp : (flushL2 (drainStorage s lp) p).sparings = s.sparings :=
    congrArg (fun v : Steady => v.sparings) ((settled_of_steady (steady_flushL2 ..)).trans (settled_drainStorage s lp))
  refine ⟨_, hgo, ?_, flushL2_empty (drainStorage s lp) p⟩
  simp [updSparing, hsp, hs]

theorem sparing_resumes (hs : s.sparings = [⟨p, q, true, true, true⟩]) (hne : p ≠ q) (hl : (pairAt s p).lp = some lp)
    (hh : (pairAt s p).haltReq = false) (hq : s.mode.quiesce = false) :
    Gives (.sparingResume p) s fun t =>
      t.sparings = [] ∧ (pairAt t q).lp = some lp ∧ (pairAt t q).role = .active ∧ (pairAt t p).lp = none ∧
      (pairAt t p).role = .failed ∧ (pairAt t p).failed = true ∧ archOf t lp = archOf s lp ∧
      (lpAt t lp).reservation = none := by
  let u := loseCycles (pairEvent { s with sparings := [] } p 0x2083 (pairName q)) p 2000000
  have hgo : exec (.sparingResume p) s =
      .next (updPair (takeIdentity u p q) p fun y => { y with role := .failed, failed := true }) := by
    show execSparingResume p s = _
    simp [execSparingResume, hs, hq, u]
  have hup (r : Fin 48) : pairAt u r = pairAt s r := by
    dsimp only [u]; rw [pairAt_loseCycles, pairAt_pairEvent]; rfl
  have hul (l : Fin 48) : lpAt u l = lpAt s l := by
    dsimp only [u]; rw [lpAt_loseCycles, lpAt_pairEvent]; rfl
  obtain ⟨h1, h2, h3, h4, h5⟩ := takeIdentity_moves (s := u) (p := p) (q := q) (lp := lp)
    (by rw [hup]; exact hl) (by rw [hup]; exact hh) hne
  have hst : steady u = steady { s with sparings := [] } := (loseCycles_logged ..).trans (steady_logEvent ..)
  clear_value u
  have hsp : u.sparings = [] := congrArg (fun v : Steady => v.sparings) hst
  have hnone : (takeIdentity u p q).sparings = [] := (takeIdentity_sparings ..).trans hsp
  refine ⟨_, hgo, hnone, ?_, ?_, ?_, ?_, ?_, ?_, ?_⟩
  · rw [pairAt_updPair_ne _ _ hne.symm, h1]
  · rw [pairAt_updPair_ne _ _ hne.symm, h2]
  · rw [pairAt_updPair]; exact h3
  · rw [pairAt_updPair]
  · rw [pairAt_updPair]
  · exact h4.trans (congrArg Lp.arch (hul lp))
  · exact h5

/-! ### Rotation -/

/-- The oldest of a list of pairs is one of them. -/
theorem mem_of_oldest {l : List (Fin 48)} (h : oldest s l = some p) : p ∈ l := by
  have key (l : List (Fin 48)) (b : Option (Fin 48)) (h : l.foldl (fun b q => match b with
      | some r => if (pairAt s q).activeTicks.toNat > (pairAt s r).activeTicks.toNat then some q else some r
      | none => some q) b = some p) : p ∈ l ∨ b = some p := by
    induction l generalizing b with
    | nil => exact .inr h
    | cons x l ih =>
      rcases ih _ h with h' | h'
      · exact .inl (List.mem_cons_of_mem _ h')
      · dsimp only at h'
        split at h'
        · split at h'
          · cases h'; exact .inl List.mem_cons_self
          · exact .inr h'
        · cases h'; exact .inl List.mem_cons_self
  exact (key l none h).resolve_right (by simp)

/-- A rotation that finds a free pair within the wear budget begins. -/
theorem startRotation_begins
    (hb : bestFor s p (all48.filter fun q => (pairAt s q).role = .dormant && !(pairAt s q).failed) = some q)
    (hw : wearBudget s p = true) (update : Bool) :
    startRotation s p update = { (updPair s q fun x => { x with role := .preparing }) with
      rotation := some ⟨p, q, .powering, 0, update, false⟩, rotRetry := none, rotAgain := none } := by
  unfold startRotation
  dsimp only
  rw [hb]
  exact if_pos hw

theorem rotateOldest_begins (ho : oldest s (all48.filter (rotatable s)) = some p)
    (hb : bestFor s p (all48.filter fun q => (pairAt s q).role = .dormant && !(pairAt s q).failed) = some q)
    (hw : wearBudget s p = true) :
    rotateOldest s = { (updPair s q fun x => { x with role := .preparing }) with
      rotation := some ⟨p, q, .powering, 0, false, false⟩, rotRetry := none, rotAgain := none } := by
  rw [rotateOldest, ho]
  exact startRotation_begins hb hw false

/-- A rotation that is tried again begins: the one put off, or that of the oldest pair. -/
theorem rotationRetry_begins (hrun : running s = true) (hr : s.rotation = none)
    (ho : oldest s (all48.filter (rotatable s)) = some p)
    (hb : bestFor s p (all48.filter fun q => (pairAt s q).role = .dormant && !(pairAt s q).failed) = some q)
    (hw : wearBudget s p = true) (hretry : s.rotRetry = some 0)
    (hagain : s.rotAgain = none ∨ s.rotAgain = some (p, false)) :
    ∃ u, exec .rotationRetry s = .next u ∧ (pairAt u q).role = .preparing ∧
      u.rotation = some ⟨p, q, .powering, 0, false, false⟩ ∧ u.rotRetry = none := by
  let t : State := { s with rotRetry := none, rotAgain := none }
  let v := updPair t q fun x => { x with role := .preparing }
  have hp : rotatable s p = true := (List.mem_filter.mp (mem_of_oldest ho)).2
  have hstart : startRotation t p false = { v with
      rotation := some ⟨p, q, .powering, 0, false, false⟩, rotRetry := none, rotAgain := none } :=
    startRotation_begins (s := t) hb hw false
  have hold : rotateOldest t = startRotation t p false := by
    have ho' : oldest t (all48.filter (rotatable t)) = some p := ho
    rw [rotateOldest, ho']
  have hgo : exec .rotationRetry s = .next (startRotation t p false) := by
    show execRotationRetry s = _
    refine congrArg Host.Outcome.next ((if_pos (by simp [hretry, hr, hrun])).trans ?_)
    rcases hagain with h | h
    · rw [h]; exact hold
    · have hf : (some (p, false)).filter (fun a => rotatable s a.1) = some (p, false) := by simp [hp]
      rw [h, hf]
  rw [hstart] at hgo
  refine ⟨_, hgo, ?_, rfl, rfl⟩
  show (pairAt v q).role = .preparing
  rw [pairAt_updPair]

theorem lp_closeInterval (s : State) (l p : Fin 48) : (pairAt (closeInterval s l) p).lp = (pairAt s p).lp := by
  unfold closeInterval markClean
  split
  next q _ =>
    by_cases h : p = q
    · subst h; rw [pairAt_updPair, pairAt_updLp]
    · rw [pairAt_updPair_ne _ _ h, pairAt_updLp]
  next => rfl

theorem ckpt_closeInterval (s : State) (lp : Fin 48) : (lpAt (closeInterval s lp) lp).ckpt = archOf s lp := by
  simp [closeInterval, closeLp, archOf]

theorem rotationSwitch_orders {r : Rotation} (hr : s.rotation = some r) (hst : r.stage = .switchDue)
    (hl : (pairAt s r.src).lp = some lp) (hq : s.mode.quiesce = false) (hrot : rotatable s r.src = true)
    (hretry : (pairAt s r.src).retrying = false) (hb : atBoundary s lp = true) (hrun : running s = true) :
    Gives .rotationSwitch s fun t => t.rotation = some { r with stage := .switching } ∧
      (pairAt t r.src).role = .leaving ∧ (lpAt t lp).ckpt = archOf s lp ∧
      (gateEmpty (lpAt (drainStorage (closeInterval s lp) lp) lp) = true → (pairAt t r.src).l2 = []) := by
  let v := closeInterval s lp
  let w := (settleStores v r.src).1
  let z := updPair w r.src fun x => { x with role := .leaving }
  have hgo : exec .rotationSwitch s = .next { z with rotation := some { r with stage := .switching } } := by
    show execRotationSwitch s = _
    unfold execRotationSwitch
    rw [hr]
    dsimp only
    rw [hl]
    exact congrArg Host.Outcome.next (if_pos (by simp [hst, hq, hrot, hretry, hb, hrun]))
  have hvl : (pairAt v r.src).lp = some lp := by rw [lp_closeInterval]; exact hl
  have hck : (lpAt w lp).ckpt = (lpAt v lp).ckpt :=
    (congrArg Lp.ckpt (lpAt_of_settled (settleStores_keeps v r.src) lp) :
      (lpAt w lp).drained.ckpt = (lpAt v lp).drained.ckpt)
  have hv : (lpAt v lp).ckpt = archOf s lp := ckpt_closeInterval s lp
  have hflush (hg : gateEmpty (lpAt (drainStorage v lp) lp) = true) : (pairAt w r.src).l2 = [] := by
    have hw : w = flushL2 (drainStorage v lp) r.src := congrArg Prod.fst (settleStores_settled hvl hg)
    rw [hw]; exact flushL2_empty ..
  clear_value w
  refine ⟨_, hgo, rfl, ?_, hck.trans hv, fun hg => ?_⟩
  · show (pairAt z r.src).role = .leaving
    rw [pairAt_updPair]
  · show (pairAt z r.src).l2 = []
    rw [pairAt_updPair]; exact hflush hg

theorem rotation_resumes {r : Rotation} (hr : s.rotation = some r) (hst : r.stage = .copied)
    (hq : s.mode.quiesce = false) (hl : (pairAt s r.src).lp = some lp) (hh : (pairAt s r.src).haltReq = false)
    (hne : r.src ≠ r.dst) :
    Gives .rotationResume s fun t => t.rotation = none ∧ t.rotAge = 0 ∧ (pairAt t r.src).role = .dormant ∧
      (pairAt t r.dst).lp = some lp ∧ (pairAt t r.dst).role = .active ∧ archOf t lp = archOf s lp := by
  let u := loseCycles (pairEvent s r.src 0x0084 0) r.src (if r.few then 155000 else 2000000)
  let w := updPair (takeIdentity u r.src r.dst) r.src fun x => { x with role := .dormant }
  have hgo : ∃ cs, exec .rotationResume s =
      .next { w with rotation := none, rotAge := 0, rotRetry := none, cs := cs } := by
    show ∃ cs, execRotationResume s = _
    unfold execRotationResume
    rw [hr]
    exact ⟨_, congrArg Host.Outcome.next (if_pos (by simp [hst, hq]))⟩
  have hup (x : Fin 48) : pairAt u x = pairAt s x := by
    dsimp only [u]; rw [pairAt_loseCycles, pairAt_pairEvent]
  have hul (l : Fin 48) : lpAt u l = lpAt s l := by
    dsimp only [u]; rw [lpAt_loseCycles, lpAt_pairEvent]
  obtain ⟨h1, h2, h3, h4, h5⟩ := takeIdentity_moves (s := u) (p := r.src) (q := r.dst) (lp := lp)
    (by rw [hup]; exact hl) (by rw [hup]; exact hh) hne
  obtain ⟨cs, hgo⟩ := hgo
  clear_value u
  refine ⟨_, hgo, rfl, rfl, ?_, ?_, ?_, h4.trans (congrArg Lp.arch (hul lp))⟩
  · show (pairAt w r.src).role = .dormant
    rw [pairAt_updPair]
  · show (pairAt w r.dst).lp = some lp
    rw [pairAt_updPair_ne _ _ hne.symm, h1]
  · show (pairAt w r.dst).role = .active
    rw [pairAt_updPair_ne _ _ hne.symm, h2]

/-! ### Debug halt -/

theorem reachPair_run (hw : writable s m (pairPage p.val) = true) (off : Nat) (f : State → State) :
    reachPair s m p off f = f s := if_pos hw

/-- A pair asked to halt halts at its next boundary. -/
theorem haltNow_halts (hl : (pairAt s p).lp = some lp) (hh : (pairAt s p).haltReq = true)
    (hr : (pairAt s p).role = .active) (ht : (pairAt s p).retrying = false) (hb : atBoundary s lp = true) :
    haltNow s p = updPair (closeInterval s lp) p fun y => { y with role := .halted } := by
  unfold haltNow
  dsimp only
  rw [hl]
  exact if_pos (by simp [hh, hr, ht, hb])

theorem haltNow_waits (hl : (pairAt s p).lp = some lp) (h : (pairAt s p).role ≠ .active ∨ atBoundary s lp = false) :
    haltNow s p = s := by
  unfold haltNow
  dsimp only
  rw [hl]
  exact if_neg (by rcases h with h | h <;> simp [h])

theorem haltDone_run (hl : (pairAt s p).lp = some lp) (hr : (pairAt s p).role = .halted)
    (hd : storesDone s lp = true) (hs : (pairAt s p).step = false) (ht : s.mode.transition ≠ .serviceStop) :
    exec (.haltDone p) s = .next (updPair s p fun y => { y with haltDone := true }) := by
  show execHaltDone p s = _
  have hstop : serviceStopping (updPair s p fun y => { y with haltDone := true }) = false := by
    simp [serviceStopping, ht]
  rw [execHaltDone, haltNow_waits hl (.inl (by simp [hr]))]
  dsimp only
  rw [hl]
  dsimp only
  rw [if_pos (by simp [hr, hs, hd]), finishStop, hstop]
  rfl

theorem setStep_steps (hl : (pairAt s p).lp = some lp) (hr : (pairAt s p).role = .halted) :
    (pairAt (setStep s p) p).step = true ∧ archOf (setStep s p) lp = (lpAt s lp).ckpt := by
  unfold setStep
  dsimp only
  rw [hl, if_pos hr, pairAt_updPair]
  exact ⟨rfl, by simp [archOf]⟩

theorem clearHalt_resumes (hl : (pairAt s p).lp = some lp) (hr : (pairAt s p).role = .halted)
    (hm : s.mode.mode ≠ .serviceStop) :
    (pairAt (clearHalt s p) p).role = .active ∧ (pairAt (clearHalt s p) p).haltReq = false ∧
      (pairAt (clearHalt s p) p).haltDone = false ∧ archOf (clearHalt s p) lp = (lpAt s lp).ckpt := by
  unfold clearHalt
  dsimp only
  rw [hl]
  simp only [hr, if_true, pairAt_updPair]
  exact ⟨by simp [hr, hm], trivial, by simp [hm], by simp [archOf]⟩

/-- A general register of the checkpoint, written through the window. -/
theorem writeCkpt_register (hl : (pairAt s p).lp = some lp) (hr : (pairAt s p).role = .halted)
    (hw : writable s m (pairPage p.val) = true) (i : Fin 31) (v : Word) :
    writeCkpt s m p (0x398 + 8 * i.val) 8 v = updLp s lp fun x =>
      { x with ckpt := { x.ckpt with g := vset x.ckpt.g (i.val + 1) v },
               arch := { x.ckpt with g := vset x.ckpt.g (i.val + 1) v } } := by
  have hi := i.isLt
  have hput (a : Arch) : ckptPut a (0x398 + 8 * i.val) v = { a with g := vset a.g (i.val + 1) v } := by
    unfold ckptPut
    rw [if_neg (by omega), if_neg (by omega), if_neg (by omega), if_pos (by omega)]
    congr 3
    omega
  have he : (0x398 + 8 * i.val) / 8 * 8 = 0x398 + 8 * i.val := by omega
  unfold writeCkpt
  rw [hl]
  dsimp only
  rw [if_pos (by simp [hr, hw]; omega), if_neg (by omega), he]
  simp [putHalf, hput]

/-- Settles O40: stage by stage. -/
theorem pairsMove : Obligations.PairsMove := by
  refine ⟨fun s p q lp r m arg => ?_, fun s m p lp v hl hw => ?_⟩
  · intro up
    refine ⟨sparing_powered, sparing_writtenBack, fun hs hr => ?_, sparing_resumes, fun hrun hr ho hb hwear => ?_,
      fun hr => ⟨fun hst hdue => ?_, rotationSwitch_orders hr, rotation_resumes hr⟩⟩
    · show execCheckpointCopyComplete p s = _
      simp [execCheckpointCopyComplete, hs, hr]
    · intro begun
      refine ⟨fun hon hretry hage => ?_, fun hretry hagain => ?_, fun harg hwr hc => ?_⟩
      · have hcond : (bit (cell s (regKey keeperPage 0x0C0)) 31 && running s && s.rotation.isNone &&
            s.rotRetry.isNone &&
              decide (s.rotAge ≥ field (cell s (regKey keeperPage 0x0C0)) 0 9 * 8640000000)) = true := by
          rw [cellBit] at hon
          rw [cellField] at hage
          simp [hon, hrun, hr, hretry, hage]
        exact congrArg Host.Outcome.next ((if_pos hcond).trans (rotateOldest_begins ho hb hwear))
      · obtain ⟨u, hu, hpair, hrot⟩ := rotationRetry_begins hrun hr ho hb hwear hretry hagain
        exact ⟨u, hu, hrot.1, hrot.2, hpair⟩
      · show Host.Outcome.next (rotateCommand s m arg.toNat) = _
        have hbit : arg.toNat.testBit 8 = false := by simpa [BitVec.getLsbD] using harg
        unfold rotateCommand
        simp only [hbit]
        rw [if_neg Bool.false_ne_true, ho, command, if_neg (by simp [hwr, Tab.read, hc, hrun, hr])]
        exact congrArg Host.Outcome.next (startRotation_begins hb hwear false)
    · show execPreCleaningEnd s = _
      unfold execPreCleaningEnd
      rw [hr]
      exact congrArg Host.Outcome.next (if_pos (by simpa [hst] using hdue))
  · intro ask
    have hla : (pairAt (updPair s p ask) p).lp = some lp := by rw [pairAt_updPair]; exact hl
    refine ⟨fun hr ht hb => ?_, fun hr hb => ?_, fun hr => ⟨haltDone_run hl hr, ?_, fun hm => ?_, fun i => ?_⟩,
      fun hr hc => ?_⟩
    · refine congrArg Host.Outcome.next ((reachPair_run hw ..).trans
        (haltNow_halts (s := updPair s p ask) hla ?_ ?_ ?_ hb))
      · rw [pairAt_updPair]
      · rw [pairAt_updPair]; exact hr
      · rw [pairAt_updPair]; exact ht
    · exact congrArg Host.Outcome.next ((reachPair_run hw ..).trans
        (haltNow_waits (s := updPair s p ask) hla (.inr hb)))
    · exact ⟨_, congrArg Host.Outcome.next (reachPair_run hw ..), setStep_steps hl hr⟩
    · exact ⟨_, congrArg Host.Outcome.next (reachPair_run hw ..), clearHalt_resumes hl hr hm⟩
    · have hoff : (BitVec.ofNat 12 (0x398 + 8 * i.val)).toNat = 0x398 + 8 * i.val := by
        rw [BitVec.toNat_ofNat]; omega
      refine ⟨writeCkpt s m p (0x398 + 8 * i.val) 8 v, ?_, ?_⟩
      · show Host.Outcome.next (writeCkpt s m p (BitVec.ofNat 12 (0x398 + 8 * i.val)).toNat 8 v) = _
        rw [hoff]
      · rw [writeCkpt_register hl hr hw]
        exact ⟨by simp [archOf], by simp⟩
    · show Host.Outcome.next (takenCommand s m p) = _
      rw [takenCommand, command, if_neg (by simp [hw, Tab.read, hc, hr]), hl]

end Sys2Proof.Machine

/-! Interruptions and their offers (12 R307; 15 R373 to R381; 17 R416 to R420). -/

namespace Sys2Proof.Machine
-- Proofs one after the other: side by side they take more memory than the check allows.
set_option Elab.async false

variable {s t u : State} {p q lp : Fin 48}

/-! ### A write of storage logs no event -/

theorem err_writeBack (s : State) (line : Nat) : (writeBack s line).err = s.err :=
  foldl_view (g := State.err) (by intro s e; unfold memPut; split <;> rfl) _ _

theorem err_writeLine (s : State) (a : Nat) (bs : List Byte) (bad : Bool) : (writeLine s a bs bad).err = s.err := by
  unfold writeLine
  extract_lets line whole u v w
  have hu : u.err = s.err := by
    dsimp only [u]; split
    · rfl
    · exact err_writeBack ..
  have hv : v.err = u.err := by
    obtain ⟨lps, pairs, l3, hc⟩ := removeCopies_changes u line none
    obtain ⟨lps', hr⟩ := loseReservations_changes (removeCopies u line) line none
    dsimp only [v]
    rw [dirFree, hr, hc]
  have hw : w.err = v.err := by
    obtain ⟨mem, hm⟩ := memWrite_changes v a (bs.take 256)
    dsimp only [w]
    rw [hm]
  split
  · exact hw.trans (hv.trans hu)
  · exact hw.trans (hv.trans hu)

theorem err_freeLine (s : State) (line : Nat) : (freeLine s line).err = s.err := by
  obtain ⟨mem, hm⟩ := memWrite_changes (taken s) (line * 256)
    ((List.range 256).map fun i => Config.freeByte s.freeCtr i)
  rw [freeLine, hm]
  rfl

theorem err_sendDie (name : String) (die line : Nat) (s : State) : (sendDie name die line s).err = s.err := by
  obtain ⟨out, links, ctr, h⟩ := sendDie_changes name die line s
  rw [h]

theorem err_farSnoop (s : State) (r : Req) : (farSnoop s r).err = s.err := by
  unfold farSnoop
  extract_lets far excl
  split
  · rfl
  · refine (foldl_view (g := State.err) (by exact fun s d => err_sendDie ..) _ _).trans ?_
    split
    · exact err_freeLine ..
    · rfl

theorem err_countSlice (s : State) (line : Nat) : (countSlice s line).err = s.err := by
  unfold countSlice; split <;> rfl

theorem err_openTxn (s : State) (r : Req) : (openTxn s r).err = s.err := by
  unfold openTxn
  extract_lets ds x home v
  have hv : v.err = s.err := by
    refine (foldl_view (g := State.err) ?_ _ _).trans (err_countSlice ..)
    intro s d
    rw [err_sendDie]
    split
    · obtain ⟨bud, h⟩ := countHops_changes s home (d % 4) false
      rw [h]
    · rfl
  split
  · obtain ⟨out, links, ctr, h⟩ := answer_changes r.who "Ack" r.line v
    rw [h]; exact hv
  · exact hv

theorem err_tryOpen {r : Req} (h : tryOpen s r = some t) : t.err = s.err := by
  unfold tryOpen at h
  split at h
  · cases h
  · cases h; exact err_openTxn ..

theorem err_victimise {line : Nat} (h : victimise s line = some t) : t.err = s.err := by
  dsimp only [victimise] at h
  split at h
  · cases h; rfl
  · split at h
    · cases h
    · split at h
      · cases h; rfl
      · cases h; exact (err_openTxn ..).trans rfl

theorem err_accept {r : Req} (h : accept s r = some t) : t.err = s.err := by
  dsimp only [accept] at h
  split at h
  · cases h
  · split at h
    · cases h; rfl
    · split at h
      next u hu => cases h; exact err_tryOpen hu
      next =>
        obtain ⟨u, hu, rfl⟩ := Option.map_eq_some_iff.mp h
        cases ho : tryOpen u r with
        | none =>
          have hv := err_victimise hu
          exact hv
        | some v => exact (err_tryOpen ho).trans (err_victimise hu)

/-- The home of a line writes, or its package is sent what is written, and no event is logged. -/
theorem err_agentWriteLine (s : State) (d : Fin 2) (a : Nat) (bs : List Byte) :
    (agentWriteLine s (.almanac d) a bs).err = s.err := by
  unfold agentWriteLine
  extract_lets line r
  split
  · split
    · obtain ⟨regs, mcs, bud, h⟩ := wroteDram_changes (writeLine (countSlice (farSnoop s r) line) a bs) line
      rw [h]
      exact (err_writeLine ..).trans ((err_countSlice ..).trans (err_farSnoop ..))
    · cases ho : accept s r with
      | none => rfl
      | some t => exact err_accept ho
  · split
    · rfl
    · obtain ⟨out, links, ctr, h⟩ := toPkgData_changes r.kind.name (linePkg line) (homeDie s line) line bs
        (writeLine s a bs)
      rw [h]
      exact err_writeLine ..

theorem err_agentWrite (s : State) (a : Nat) (bs : List Byte) : (agentWrite s a bs).err = s.err := by
  have key (n : Nat) (s : State) (a : Nat) (bs : List Byte) : (agentWriteAux (.almanac 0) n s a bs).err = s.err := by
    induction n generalizing s a bs with
    | zero => rfl
    | succ n ih =>
      unfold agentWriteAux
      split
      · rfl
      · exact (ih ..).trans (err_agentWriteLine ..)
  exact key ..

/-! ### Offers -/

theorem arch_lines (s : State) (lp l : Fin 48) (ls : List IntLine) :
    (lpAt (updLp s lp fun x => { x with lines := ls }) l).arch = (lpAt s l).arch ∧
    (lpAt (updLp s lp fun x => { x with lines := ls }) l).run = (lpAt s l).run ∧
    (lpAt (updLp s lp fun x => { x with lines := ls }) l).handler = (lpAt s l).handler := by
  by_cases h : l = lp
  · subst h; simp
  · simp [lpAt_updLp_ne _ _ h]

/-- Whether a processor may take what is offered does not turn on its lines, nor on the other offers. -/
theorem offerEnabled_lines (s : State) (lp l : Fin 48) (ls : List IntLine) (os : List Offer) (src : IntSrc)
    (ctx isc : Nat) :
    offerEnabled { (updLp s lp fun x => { x with lines := ls }) with offers := os } l src ctx isc =
      offerEnabled s l src ctx isc := by
  obtain ⟨ha, hr, hh⟩ := arch_lines s lp l ls
  have h1 : runsCtx { (updLp s lp fun x => { x with lines := ls }) with offers := os } l ctx = runsCtx s l ctx := by
    show runsCtx (updLp s lp fun x => { x with lines := ls }) l ctx = _
    rw [runsCtx, lpPart, ha, hr]; rfl
  have h2 : mcEnabled { (updLp s lp fun x => { x with lines := ls }) with offers := os } l = mcEnabled s l := by
    show mcEnabled (updLp s lp fun x => { x with lines := ls }) l = _
    rw [mcEnabled, ha, hh]; rfl
  have h3 : ioEnabled { (updLp s lp fun x => { x with lines := ls }) with offers := os } l isc = ioEnabled s l isc := by
    show ioEnabled (updLp s lp fun x => { x with lines := ls }) l isc = _
    rw [ioEnabled, ha]; rfl
  unfold offerEnabled
  rw [h1, h2, h3]
  rfl

theorem nextLp_lines (s : State) (lp : Fin 48) (ls : List IntLine) (os : List Offer) (src : IntSrc) (ctx isc : Nat) :
    nextLp { (updLp s lp fun x => { x with lines := ls }) with offers := os } src ctx isc = nextLp s src ctx isc := by
  unfold nextLp
  simp only [offerEnabled_lines]
  rfl

/-! ### The edge -/

theorem edge_offers {src : IntSrc} {ctx isc : Nat} (hq : s.mode.quiesce = false)
    (hpend : pendingIo s = [(src, ctx, isc)])
    (hl : (pairAt s p).lp = some lp) (ho : s.offers = []) (hn : nextLp s src ctx isc = some lp) :
    exec (.presentationEdge p) s = .next { (updLp s lp fun x => { x with lines := linesDue s lp }) with
      offers := [⟨src, ctx, isc, lp, false⟩], presLast := Tab.put s.presLast ctx lp.val } := by
  show execPresentationEdge p s = _
  have hn' := (nextLp_lines s lp (linesDue s lp) [] src ctx isc).trans hn
  unfold execPresentationEdge
  rw [hl]
  refine congrArg Host.Outcome.next ((if_neg (by simp [hq])).trans ?_)
  rw [hpend, ho]
  dsimp only
  rw [List.foldl_cons, List.foldl_nil, List.filter_nil, List.map_nil, if_neg (by simp), if_pos hn', makeOffer]
  rfl

theorem edge_ages {src : IntSrc} {ctx isc : Nat} (hq : s.mode.quiesce = false) (hpend : pendingIo s = [(src, ctx, isc)])
    (hl : (pairAt s p).lp = some lp) (ho : s.offers = [⟨src, ctx, isc, lp, false⟩])
    (he : offerEnabled s lp src ctx isc = true) :
    exec (.presentationEdge p) s = .next { (updLp s lp fun x => { x with lines := linesDue s lp }) with
      offers := [⟨src, ctx, isc, lp, true⟩] } := by
  show execPresentationEdge p s = _
  unfold execPresentationEdge
  rw [hl]
  refine congrArg Host.Outcome.next ((if_neg (by simp [hq])).trans ?_)
  simp [hpend, ho, he]

/-! ### The entry -/

theorem err_closeInterval (s : State) (lp : Fin 48) : (closeInterval s lp).err = s.err := by
  unfold closeInterval markClean; split <;> rfl

/-- What the entry of an interruption leaves of a processor. -/
theorem enter_keeps (s : State) (lp : Fin 48) (mgr mce : Bool) (vec : Nat) (cw addr : Word) :
    (enter s lp mgr mce vec cw addr).err = s.err ∧
    (lpAt (enter s lp mgr mce vec cw addr) lp).handler = ((lpAt s lp).handler || mce) ∧
    (lpAt (enter s lp mgr mce vec cw addr) lp).partChanged = (lpAt s lp).partChanged ∧
    (lpAt (enter s lp mgr mce vec cw addr) lp).signal = (lpAt s lp).signal := by
  unfold enter
  refine ⟨err_closeInterval .., ?_, ?_, ?_⟩
  all_goals simp [closeInterval, closeLp]

theorem takeSrc_lps (s : State) (o : Offer) : (takeSrc s o).lps = s.lps ∧ (takeSrc s o).regs = s.regs := by
  unfold takeSrc
  split
  · exact ⟨rfl, rfl⟩
  · exact ⟨rfl, rfl⟩
  · split <;> exact ⟨rfl, rfl⟩
  · exact ⟨rfl, rfl⟩
  · exact ⟨rfl, rfl⟩

theorem IntSrc.addr_of_regs (h : t.regs = s.regs) (i : IntSrc) : IntSrc.addr t i = IntSrc.addr s i := by
  cases i <;> simp [IntSrc.addr, pkgId, cellField, cell, h]

theorem machineCheck_enters {c : Check} (hc : checkFor s lp = some c) :
    Gives (.machineCheck lp) s fun t => t.err.checks = s.err.checks.erase c ∧
      archOf t lp = entryArch (archOf s lp) (decide (c.ctx = 128)) true 0x400 (codeWord c.cls 0 0x400)
        (c.seq.setWidth 64) ∧ (lpAt t lp).handler = true := by
  let u : State := { s with
    err := { s.err with checks := s.err.checks.erase c },
    offers := s.offers.filter fun o => !(o.src = .check c.seq.toNat && o.ctx = c.ctx) }
  have hgo : exec (.machineCheck lp) s = .next
      (enter u lp (decide (c.ctx = mgrCtx)) true 0x400 (codeWord c.cls 0 0x400) (c.seq.setWidth 64)) := by
    show execMachineCheck lp s = _
    rw [execMachineCheck, hc]
  obtain ⟨herr, hhandler, -, -⟩ :=
    enter_keeps u lp (decide (c.ctx = mgrCtx)) true 0x400 (codeWord c.cls 0 0x400) (c.seq.setWidth 64)
  exact ⟨_, hgo, by rw [herr], archOf_enter .., by rw [hhandler, Bool.or_true]⟩

theorem extTurn_run {ctx : Nat} (ht : canTake s lp = true) (hn : checkFor s lp = none)
    (hp : (lpAt s lp).partChanged = none) (hx : extEnabled s lp = true) (hi : intCtx s lp = some ctx) :
    extTurn s lp = some ctx := by
  rw [extTurn, if_pos (by simp [ht, hn, hp, hx]), hi]

theorem ioInterruption_enters {o : Offer} (ht : canTake s lp = true) (hn : checkFor s lp = none)
    (hp : (lpAt s lp).partChanged = none) (ho : ioFor s lp = some o)
    (hfree : extEnabled s lp = true → intCtx s lp = none ∨ (tickShown s lp = false ∧ signalShown s lp = false)) :
    Gives (.ioInterruption lp) s fun t => archOf t lp =
      entryArch (archOf s lp) (decide (o.ctx = 128)) false 0x100 (codeWord o.isc 0 o.src.code)
        (BitVec.ofNat 64 (IntSrc.addr s o.src)) := by
  let u := takeSrc { s with offers := s.offers.erase o } o
  obtain ⟨hlps, hregs⟩ := takeSrc_lps { s with offers := s.offers.erase o } o
  have hgo : exec (.ioInterruption lp) s = .next (enter u lp (decide (o.ctx = mgrCtx)) false 0x100
      (codeWord o.isc 0 o.src.code) (BitVec.ofNat 64 (IntSrc.addr u o.src))) := by
    have hfree' : (extEnabled s lp && (intCtx s lp).isSome && (tickShown s lp || signalShown s lp)) = false := by
      cases hx : extEnabled s lp with
      | false => rfl
      | true =>
        rcases hfree hx with h | ⟨h1, h2⟩
        · simp [h]
        · simp [h1, h2]
    refine congrArg Host.Outcome.next ((if_neg ?_).trans ?_)
    · rw [hfree']; simp [ht, hn, hp]
    · rw [ho]
  have haddr : IntSrc.addr u o.src = IntSrc.addr s o.src := IntSrc.addr_of_regs hregs o.src
  have harch : archOf u lp = archOf s lp := congrArg Lp.arch (lpAt_congr hlps lp)
  clear_value u
  rw [haddr] at hgo
  exact ⟨_, hgo, (archOf_enter ..).trans (by rw [harch]; rfl)⟩

/-- The checks of a record that is in its ring are ready. -/
def readied (s : State) (c : RingCopy) : State :=
  { s with err := { s.err with checks := s.err.checks.map fun k =>
      if k.ctx = c.ctx && k.seq = c.seq then { k with ready := true } else k } }

theorem readied_keeps (s : State) (c : RingCopy) : (readied s c).err.ringWait = s.err.ringWait ∧
    (readied s c).mem = s.mem ∧ (readied s c).regs = s.regs := ⟨rfl, rfl, rfl⟩

theorem bump_regs {u : State} (h : u.regs = s.regs) (p o n i : Nat) :
    (bump u p o n i).regs = (bump s p o n i).regs := by
  have hcell (k : Nat) : cell u k = cell s k := by rw [cell, cell, h]
  rw [bump, bump, hcell, setCell, setCell]
  dsimp only
  rw [h]

theorem setCell_keeps (s : State) (k : Nat) (v : Word) : (setCell s k v).err = s.err ∧ (setCell s k v).mem = s.mem :=
  ⟨rfl, rfl⟩

theorem bump_keeps (s : State) (p o n i : Nat) : (bump s p o n i).err = s.err ∧ (bump s p o n i).mem = s.mem := by
  unfold bump; exact setCell_keeps ..

/-- A record on its way to a ring that is not there is counted. -/
theorem ringWrite_counts {c : RingCopy} {l : List RingCopy} (hr : s.err.ringWait = c :: l) (hk : keeperRuns s = true)
    (hb : bit (cell s (regKey (errlogPage 4) 0x048 c.ctx)) 63 = false) :
    exec .machineCheckRingWrite s =
      .next (readied (bump { s with err := { s.err with ringWait := l } } (errlogPage 4) 0x054 1 c.ctx) c) := by
  show execMachineCheckRingWrite s = _
  unfold execMachineCheckRingWrite
  rw [hk, if_pos rfl, hr]
  dsimp only
  rw [hb, Bool.false_and, if_neg Bool.false_ne_true, if_neg Bool.false_ne_true]
  rfl

/-- A record on its way to a ring is written there. -/
theorem ringWrite_writes {c : RingCopy} {l : List RingCopy} (hr : s.err.ringWait = c :: l) (hk : keeperRuns s = true)
    {a : Nat} (ha : field (cell s (regKey (errlogPage 4) 0x048 c.ctx)) 12 40 * 4096 +
      64 * (c.seq.toNat % 2 ^ (field (cell s (regKey (errlogPage 4) 0x048 c.ctx)) 0 4 + 6)) = a)
    (hb : bit (cell s (regKey (errlogPage 4) 0x048 c.ctx)) 63 = true) (hw : canWriteAll s [(a, 64)] = true)
    {u : State} (hu : { s with err := { s.err with ringWait := l } } = u) :
    exec .machineCheckRingWrite s = .next (readied (agentWrite u a (evBytes u (recordFor s c.ctx c.ev) c.seq)) c) := by
  show execMachineCheckRingWrite s = _
  unfold execMachineCheckRingWrite
  rw [hk, if_pos rfl, hr]
  dsimp only
  rw [ha, hw, hb, if_neg (by decide), if_pos rfl, hu]
  generalize agentWrite u a (evBytes u (recordFor s c.ctx c.ev) c.seq) = v
  rfl

/-- Settles O41: each class enters by the rule of its entry; the edge makes and withdraws offers. -/
theorem interruptionsEnter : Obligations.InterruptionsEnter := by
  refine ⟨fun s lp ctx old c o => ⟨machineCheck_enters, fun htake hnone => ⟨fun hp => ?_, fun hp hx hi => ⟨fun ht => ?_,
    fun ht hsig => ?_⟩, ioInterruption_enters htake hnone⟩⟩, fun s p lp src ctx isc c l => ⟨fun hq hpend =>
    ⟨edge_offers hq hpend, edge_ages hq hpend, fun ho => ?_⟩, fun hr hk => ?_⟩⟩
  · have hgo : exec (.partitionChanged lp) s = .next
        (enter (updLp s lp fun x => { x with partChanged := none }) lp true false 0x300 (codeWord old 0 0x300) 0) := by
      show execPartitionChanged lp s = _
      rw [execPartitionChanged, changedFor, if_pos (by simp [htake, hnone]), hp]
    obtain ⟨-, -, hpart, -⟩ := enter_keeps (updLp s lp fun x => { x with partChanged := none }) lp true false 0x300
      (codeWord old 0 0x300) 0
    refine ⟨_, hgo, hpart.trans (by simp), ?_⟩
    rw [archOf_enter]; simp [archOf]
  · have hgo : exec (.tickCompare lp) s = .next
        (enter s lp (decide (ctx = mgrCtx)) false 0x200 (codeWord 0 0 0x200) s.time.transit) := by
      show execTickCompare lp s = _
      rw [execTickCompare, extTurn_run htake hnone hp hx hi]
      exact congrArg Host.Outcome.next (if_pos ht)
    exact ⟨_, hgo, archOf_enter ..⟩
  · have hgo : exec (.signal lp) s = .next (enter (updLp s lp fun x => { x with signal := false }) lp
        (decide (ctx = mgrCtx)) false 0x200 (codeWord 0 0 0x210) 0) := by
      show execSignal lp s = _
      rw [execSignal, extTurn_run htake hnone hp hx hi]
      exact congrArg Host.Outcome.next (if_pos (by simp [ht, hsig]))
    obtain ⟨-, -, -, hs⟩ := enter_keeps (updLp s lp fun x => { x with signal := false }) lp (decide (ctx = mgrCtx))
      false 0x200 (codeWord 0 0 0x210) 0
    refine ⟨_, hgo, hs.trans (by simp), ?_⟩
    rw [archOf_enter]; simp [archOf, mgrCtx]
    all_goals rfl
  · exact congrArg Host.Outcome.next ((if_neg (by simp [hq])).trans (by rw [ho]; simp))
  · intro ring
    refine ⟨fun hb => ⟨_, ringWrite_counts hr hk hb, ?_⟩, fun hb hw => ?_⟩
    · let u : State := { s with err := { s.err with ringWait := l } }
      have hwait : u.err.ringWait = l := rfl
      have hmem : u.mem = s.mem := rfl
      have hregs : u.regs = s.regs := rfl
      obtain ⟨h1, h2, h3⟩ := readied_keeps (bump u (errlogPage 4) 0x054 1 c.ctx) c
      obtain ⟨h4, h5⟩ := bump_keeps u (errlogPage 4) 0x054 1 c.ctx
      exact ⟨h1.trans (by rw [h4, hwait]), h2.trans (h5.trans hmem), h3.trans (bump_regs hregs ..)⟩
    · intro u
      have hgo := ringWrite_writes (u := u) hr hk rfl hb hw rfl
      have hwait : u.err.ringWait = l := rfl
      clear_value u
      obtain ⟨h1, h2, -⟩ := readied_keeps
        (agentWrite u (field (cell s (regKey (errlogPage 4) 0x048 c.ctx)) 12 40 * 4096 +
        64 * (c.seq.toNat % 2 ^ (field (cell s (regKey (errlogPage 4) 0x048 c.ctx)) 0 4 + 6)))
        (evBytes u (recordFor s c.ctx c.ev) c.seq)) c
      exact ⟨_, hgo, h1.trans (by rw [err_agentWrite, hwait]), h2⟩

end Sys2Proof.Machine

/-! Command Words are fetched and checked, and operations end (12, 13). -/

namespace Sys2Proof.Machine
-- Proofs one after the other: side by side they take more memory than the check allows.
set_option Elab.async false

variable {s t : State}

theorem schAt_updSch (n : Nat) (f : Sch → Sch) : schAt (updSch s n f) n = f (schAt s n) := by
  simp [schAt, updSch, setSch]

@[simp] theorem bump_mode (s : State) (p off n idx : Nat) : (bump s p off n idx).mode = s.mode :=
  mode_of_steady (steady_bump ..)

@[simp] theorem meter_mode (s : State) (c i n : Nat) : (meter s c i n).mode = s.mode :=
  mode_of_steady (steady_meter ..)

@[simp] theorem agentWrite_mode (s : State) (a : Nat) (bs : List Byte) (w : Agent) :
    (agentWrite s a bs w).mode = s.mode :=
  mode_of_steady (steady_agentWrite ..)

@[simp] theorem jrnWrite_mode (s : State) (n : Nat) (o : Op) (st : Nat) (w : Option Osw) :
    (jrnWrite s n o st w).mode = s.mode :=
  mode_of_steady (steady_jrnWrite ..)

@[simp] theorem sendFrame_mode (s : State) (n : Nat) (o : Op) (ty seq flags code len addr : Nat) (m : Bool) :
    (sendFrame s n o ty seq flags code len addr m).mode = s.mode :=
  mode_of_steady (steady_sendFrame ..)

@[simp] theorem setOp_mode (s : State) (n : Nat) (o : Op) : (setOp s n o).mode = s.mode := rfl

@[simp] theorem updSch_mode (s : State) (n : Nat) (f : Sch → Sch) : (updSch s n f).mode = s.mode := rfl

@[simp] theorem freeJob_mode (j : Nat) (x : Job) : (freeJob s j x).mode = s.mode := by
  unfold freeJob
  cases x.zip <;> cases x.crypt <;> simp

/-- The record of an inline job leaves the mode alone. -/
@[simp] theorem inlineRecord_mode (o : Op) (status detail : Nat) :
    (inlineRecord s o status detail).mode = s.mode := by
  unfold inlineRecord
  split
  · rfl
  · split
    · rfl
    · simp

@[simp] theorem postFinal_mode (n : Nat) (o : Op) (w : Osw) : (postFinal s n o w).mode = s.mode := by
  unfold postFinal
  simp only [updSch_mode, setOp_mode, apply_ite State.mode, bump_mode, meter_mode, sendFrame_mode, jrnWrite_mode,
    inlineRecord_mode, ite_self]

/-- What a subchannel shows once its operation has ended. -/
theorem schAt_postFinal (n : Nat) (o : Op) (w : Osw) :
    (schAt (postFinal s n o w) n).func = .none ∧
      ∃ x, (schAt (postFinal s n o w) n).status = some x ∧ x.fsc = w.fsc ∧ x.detail = w.detail ∧
        x.residual = w.residual ∧ x.parm = w.parm := by
  unfold postFinal
  rw [schAt_updSch]
  exact ⟨rfl, _, rfl, rfl, rfl, rfl, rfl⟩

/-- A decided ending is posted. -/
theorem finalStatus_posts {sch : BitVec 18} {o : Op} {w : Osw} (ho : opAt s sch.toNat = some o)
    (hw : o.ending = some w) (hi : s.mode.ipl = .none) (hready : inlineReady s o = true) :
    exec (.finalStatus sch) s = .next (postFinal s sch.toNat o w) := by
  show execFinalStatus sch s = _
  have hgo : iplGoesOn (postFinal s sch.toNat o w) sch.toNat w.fsc = postFinal s sch.toNat o w := by
    simp [iplGoesOn, hi]
  simp only [execFinalStatus, ho, hw, hready, hgo, Bool.not_true, Bool.false_eq_true, if_false]

theorem askedFor_eq (fsc : Nat) : askedFor fsc = decide (fsc ∈ [7, 8, 10, 11]) := by
  simp [askedFor, Bool.or_assoc]

/-- The ending of an operation that has none is the one decided. -/
theorem decide_of_none {n : Nat} {o : Op} (h : o.ending = none) (fsc detail : Nat) :
    decide_ s n o fsc detail = setOp s n { o with ending := some (oswOf s o fsc detail) } := by
  simp only [decide_, h]

section Fetch
variable {sch : BitVec 18} {o : Op} {pa : Nat} (ho : opAt s sch.toNat = some o)
  (hfetch : o.fetchDue = true) (hend : o.ending = none) (hhalt : o.halt = false) (hcancel : o.cancel = none)
  (hrun : o.stage ≠ .ended) (hwait : o.stage ≠ .waiting) (hresync : o.resync = false)
  (hrole : (cpAt s o.cp).role = .active) (hipl : o.ipl = false) (hinline : (inlineAssign s sch.toNat o).2 = false)
  (hpa : opDram (inlineAssign s sch.toNat o).1 o.ctx o.cwaddr 16 = some pa)
  (hclean : anyPoison (inlineAssign s sch.toNat o).1 pa 16 = false)
include ho hfetch hend hhalt hcancel hrun hwait hresync hrole hipl hinline hpa hclean

/-- A Command Word that can be read is checked, and runs where it passes every check. -/
theorem commandWordFetch_checks :
    exec (.commandWordFetch sch) s =
      let u := (inlineAssign s sch.toNat o).1
      .next (freshen (if cwFault u pa o (readCw u pa) = 0 then runCw u sch.toNat o o.cwaddr (readCw u pa)
        else failOp u sch.toNat { o with areas := o.areas ++ [⟨o.cwaddr, readCw u pa, o.carried⟩] } 4
          (cwFault u pa o (readCw u pa)))) := by
  show execCommandWordFetch sch s = _
  simp only [execCommandWordFetch, ho, hfetch, hend, hhalt, hcancel, hrun, hwait, hresync, hrole, hipl, hinline, hpa,
    hclean, Option.isSome_none, Bool.not_true, Bool.false_eq_true, if_false, bne_self_eq_false, Bool.or_false,
    decide_false, Bool.false_and]
  split
  · next h => rw [if_pos h]
  · next h => rw [if_neg h]

end Fetch

/-- Settles O42: a Command Word runs or fails by its first fault, and each ending is the one decided. -/
theorem channelPrograms : Obligations.ChannelPrograms := by
  unfold Obligations.ChannelPrograms
  intro s sch o pa d fsc w ho n ends
  refine ⟨?_, ?_, ?_, ?_⟩
  · intro u hfetch hend hhalt hcancel hrun hwait hresync hrole hipl hinline hpa hclean
    have hchecks :=
      commandWordFetch_checks ho hfetch hend hhalt hcancel hrun hwait hresync hrole hipl hinline hpa hclean
    refine ⟨fun h0 => hchecks.trans ?_, fun hd hne => hchecks.trans ?_⟩
    · exact congrArg (fun x => Host.Outcome.next (freshen x)) (if_pos h0)
    · subst hd
      exact congrArg (fun x => Host.Outcome.next (freshen x)) (if_neg hne)
  · intro hw hi hready
    exact ⟨_, finalStatus_posts ho hw hi hready, schAt_postFinal ..⟩
  · intro hend hstage hfirst hwaited
    have hknown : o.unknown = false := by simp [Op.unknown, hfirst]
    show execNopathWaitExpiry sch s = _
    simp only [execNopathWaitExpiry, ho]
    rw [if_pos (by simp [hstage, hwaited]), hknown]
    exact congrArg _ (decide_of_none hend 9 1)
  · intro hend hcancel hseq
    show execCancelTimeout sch s = _
    simp only [execCancelTimeout, ho, hcancel, askedFor_eq, decide_eq_true_eq]
    exact congrArg _ (decide_of_none hend ..)

end Sys2Proof.Machine

/-! Frames, windows, paths, channel processors and the journal (12, 13). -/

namespace Sys2Proof.Machine
-- Proofs one after the other: side by side they take more memory than the check allows.
set_option Elab.async false

variable {s : State}

theorem inOrder_free {c : PortMsg} (h : portWaits s (portOfMsg c) = false) (go : State → State) :
    inOrder s c go = go s := by
  rw [inOrder, if_neg (by simp [h])]

theorem chan_logEvent (s : State) (e : Event) : (logEvent s e).chan = s.chan := by rw [(logEvent_logged s e).eq]

theorem pathAt_updPath (s : State) (p : Nat) (f : Path → Path) : pathAt (updPath s p f) p = f (pathAt s p) := by
  simp [pathAt, updPath]

theorem updPath_congr {p : Nat} {f g : Path → Path} (h : f (pathAt s p) = g (pathAt s p)) :
    updPath s p f = updPath s p g := by
  simp only [updPath, h]

section Frames
variable {p : Fin 256} {rid : BitVec 16} {frame : BitVec 512} {o : Op}

/-- A frame that passes its checks is handed on, once the path has been heard. -/
theorem inbound_handed {f : InFrame} {ty : Nat} (act : State → InFrame → State) (hf : readFrame frame = f)
    (hok : checkFrame s p.val rid f = .ok) (hty : f.ty = ty) (hcp : cpStopped (heard s p.val) f = false)
    (hbit : f.flags.testBit 11 = false) : inbound s p.val rid frame ty act = act (heard s p.val) f := by
  subst hf hty
  simp only [inbound, hok, hcp, hbit, ne_eq, not_true_eq_false, if_false, Bool.false_eq_true]

theorem cpStopped_active {f : InFrame} (ho : opAt s (f.sch % 262144) = some o) (hrole : (cpAt s o.cp).role = .active) :
    cpStopped (heard s p.val) f = false := by
  have ho' : opAt (heard s p.val) (f.sch % 262144) = some o := ho
  have hrole' : (cpAt (heard s p.val) o.cp).role = .active := hrole
  simp [cpStopped, ho', hrole']

theorem cpStopped_heartbeat {f : InFrame} (hty : f.ty = 5) : cpStopped s f = false := by
  unfold cpStopped
  split <;> simp [hty]


/-- What a heartbeat's frame does to its path's count of beats. -/
theorem updPath_beats : (updPath (heard s p.val) p.val fun x =>
      { x with
        sinceBeat := 0
        beats := if decide ((pathAt (heard s p.val) p.val).sinceBeat ≤ 20) then x.beats + 1 else 1 }) =
    updPath (heard s p.val) p.val fun x =>
      { x with sinceBeat := 0
               beats := if (pathAt s p.val).sinceBeat ≤ 20 then (pathAt s p.val).beats + 1 else 1 } := by
  refine updPath_congr ?_
  simp [heard, pathAt_updPath]

end Frames

/-- The ending of an operation that has no inline job. -/
theorem endNormal_plain {n : Nat} {o : Op} (hjob : o.job = none) : endNormal s n o = decide_ s n o 0 0 := by
  simp [endNormal, inlineVerdict, hjob]

/-- A command that ends normally has no detail. -/
theorem statusEnds_normal {a : Area} {dev len : Nat} {more first halt : Bool} {c : Nat × Nat}
    (h : statusEnds a dev len more first halt = some c) (h0 : c.1 = 0) : c.2 = 0 := by
  unfold statusEnds at h
  grind


/-- The ending decided is read back from the operation. -/
theorem decide_reads {n : Nat} {o : Op} (h : o.ending = none) (fsc detail : Nat) :
    opAt (decide_ s n o fsc detail) n = some { o with ending := some (oswOf s o fsc detail) } := by
  rw [decide_of_none h]
  exact look_put_self ..

/-- An operation that ends, normally or not, has the ending its status gives. -/
theorem ends_reads {n : Nat} {o : Op} {c : Nat × Nat} (hend : o.ending = none) (hjob : o.job = none)
    (hc : c.1 = 0 → c.2 = 0) :
    opAt (if c.1 = 0 then endNormal s n o else decide_ s n o c.1 c.2) n =
      some { o with ending := some (oswOf s o c.1 c.2) } := by
  split
  · next h0 => rw [endNormal_plain hjob, decide_reads hend, h0, hc h0]
  · exact decide_reads hend ..

section Dma
variable {p : Fin 256} {k : Fin 65536} {off : Fin 4096} {rid : BitVec 16} {len n : Nat} {data : List Byte}
  {o : Op} {w : Win} {port : Fin 4}

/-- The bus address of a byte of a window. -/
def busAddr (p : Fin 256) (k : Fin 65536) (off : Fin 4096) : Word :=
  BitVec.ofNat 64 (0x8000000000000000 + p.val * 0x100000000 + k.val * 0x1000 + off.val)

theorem busAddr_toNat (p : Fin 256) (k : Fin 65536) (off : Fin 4096) :
    (busAddr p k off).toNat = 0x8000000000000000 + p.val * 0x100000000 + k.val * 0x1000 + off.val := by
  rw [busAddr, BitVec.toNat_ofNat, Nat.mod_eq_of_lt (by omega)]

/-- What an adapter's request at a byte of a path's slots comes to, by the window it finds. -/
theorem adapterDma_at {addr : Word} (write : Bool) (hin : 0x8000000000000000 ≤ addr.toNat)
    (hpath : (addr.toNat - 0x8000000000000000) / 0x100000000 = p.val)
    (hslot : addr.toNat % 0x100000000 / 0x1000 = k.val) (hoff : addr.toNat % 0x1000 = off.val)
    (hport : p.val / 64 = port.val) (hon : bit (pathCfg s p.val) 63 = true) (hrid : pathRid s p.val = rid) :
    adapterDma port rid addr write len data s =
      match findWin s p.val k.val off.val len with
      | none => blockDma s port.val rid p.val k.val write true
      | some (n, o, w) =>
        if w.toStorage ≠ write then blockDma s port.val rid p.val k.val write true
        else if write then
          if w.skip then s
          else
            match inlineJob s o (firstCmd o) with
            | some x => inlineStore s n o w x port len
            | none => agentWrite s (w.phys + off.val) (data.take len) (.port port)
        else if (if inlineData s o (firstCmd o) then anyPoison s w.phys w.len
            else anyPoison s (w.phys + off.val) len) then
          emit (.dmaAbort port.val rid.toNat) (sendCancel s n o 6 1)
        else
          match inlineJob s o (firstCmd o) with
          | some x => inlineFetch s n o w x port rid len
          | none => freshen (emit (.dmaData port.val rid.toNat (curBytes s (w.phys + off.val) len)) s) := by
  have hp : p.val < 256 := p.isLt
  have hwin : (decide (0x8000000000000000 ≤ addr.toNat ∧ p.val < 256 ∧ p.val / 64 = port.val) &&
      bit (pathCfg s p.val) 63 && pathRid s p.val = rid) = true := by
    simp [hin, hp, hport, hon, hrid]
  unfold adapterDma
  extract_lets a path slot o' inWin
  have hpath' : path = p.val := hpath
  have hslot' : slot = k.val := hslot
  have hoff' : o' = off.val := hoff
  have hwin' : inWin = true := by
    show (decide (0x8000000000000000 ≤ addr.toNat ∧ path < 256 ∧ path / 64 = port.val) &&
      bit (pathCfg s path) 63 && pathRid s path = rid) = true
    rw [hpath', hwin]
  clear_value path slot o' inWin
  subst hpath' hslot' hoff' hwin'
  rfl

theorem inlineJob_plain (hjob : o.job = none) (cmd : Nat) : inlineJob s o cmd = none := by
  simp [inlineJob, hjob]

end Dma

/-- A frame that passes every check is taken by its type. -/
theorem frames_taken {p : Fin 256} {rid : BitVec 16} {frame : BitVec 512} {o : Op}
    (hport : portWaits s (Fin.ofNat 4 (p.val / 64)) = false) {f : InFrame} (hf : readFrame frame = f)
    (hok : checkFrame s p.val rid f = .ok) (ho : opAt s (f.sch % 262144) = some o)
    (hrole : (cpAt s o.cp).role = .active) (hbit : f.flags.testBit 11 = false) :
    (∀ w, f.ty = 2 → o.wins.find? (fun w => w.seq = f.seq) = some w →
      exec (.ackFrame p rid frame) s =
        .next (ackWin (meter (heard s p.val) o.ctx 9 1) (f.sch % 262144) o w (min f.len w.len))) ∧
    (∀ a c, f.ty = 3 → o.stage ≠ .ended → o.area = some a → o.ending = none → o.status = none → o.haltSeq = none →
      o.job = none → statusEnds a f.code f.len (f.flags.testBit 12) (decide (o.seqCmd = 1)) false = some c →
      Gives (.statusFrame p rid frame) s fun t => ∃ x e, opAt t (f.sch % 262144) = some x ∧ x.ending = some e ∧
        e.fsc = c.1 ∧ e.detail = c.2 ∧ e.devstat = f.code ∧ x.status = some f.seq) ∧
    (f.ty = 6 → o.stage = .running → o.ending = none → f.code = 1 →
      exec (.resync p rid frame) s = .next (setOp (heard s p.val) (f.sch % 262144) { o with resync := false })) := by
  have hheard : opAt (heard s p.val) (f.sch % 262144) = some o := ho
  have hcp : cpStopped (heard s p.val) f = false := cpStopped_active ho hrole
  refine ⟨fun w h2 hw => ?_, fun a c h3 hrun ha hend hst hhalt hjob hc => ?_, fun h6 hrun hend hcode => ?_⟩
  · refine congrArg Host.Outcome.next ((inOrder_free hport _).trans ?_)
    rw [frameAck, inbound_handed _ hf hok h2 hcp hbit]
    simp only [hheard, hw, hbit, Bool.false_eq_true, if_false]
  · refine ⟨_, congrArg Host.Outcome.next (inOrder_free hport _), ?_⟩
    rw [frameStatus, inbound_handed _ hf hok h3 hcp hbit]
    simp only [hheard, hbit, Bool.false_eq_true, if_false, hrun, ha, hend, hst, hhalt, hjob, inlineData, inlineJob,
      Option.bind_none, ite_self, Option.isSome_none, hc]
    rw [ends_reads rfl rfl (statusEnds_normal hc)]
    exact ⟨_, _, rfl, rfl, rfl, rfl, rfl, rfl⟩
  · refine congrArg Host.Outcome.next ((inOrder_free hport _).trans ?_)
    rw [frameResync, inbound_handed _ hf hok h6 hcp hbit]
    simp [hheard, hrun, hend, hcode]

/-- A heartbeat counts, and brings up a path that is being brought up. -/
theorem heartbeat_counts {p : Fin 256} {rid : BitVec 16} {frame : BitVec 512}
    (hport : portWaits s (Fin.ofNat 4 (p.val / 64)) = false) {f : InFrame} (hf : readFrame frame = f)
    (hok : checkFrame s p.val rid f = .ok) (hty : f.ty = 5) (h7 : f.flags.testBit 7 = false)
    (hbit : f.flags.testBit 11 = false) {u : State}
    (hu : u = updPath (heard s p.val) p.val fun x =>
      { x with sinceBeat := 0
               beats := if (pathAt s p.val).sinceBeat ≤ 20 then (pathAt s p.val).beats + 1 else 1 }) :
    ((pathAt s p.val).st = .up → exec (.heartbeat p rid frame) s = .next u) ∧
    ((pathAt s p.val).st = .init → f.flags.testBit 8 = true → pathLinked s p.val = true →
      exec (.heartbeat p rid frame) s = .next (resumeWaiting (updPath u p.val fun x =>
        { x with st := .up, segMax := min 3 (f.aux / 2 ^ 60), serves := f.aux % 2 ^ 32 }) p.val)) := by
  have hst : (pathAt (heard s p.val) p.val).st = (pathAt s p.val).st := by rw [heard, pathAt_updPath]
  have hlink : pathLinked u p.val = pathLinked s p.val := by rw [hu]; rfl
  have hgo : exec (.heartbeat p rid frame) s = .next (frameHeartbeat p rid frame s) :=
    congrArg Host.Outcome.next (inOrder_free hport _)
  rw [hgo, frameHeartbeat, inbound_handed _ hf hok hty (cpStopped_heartbeat hty) hbit]
  simp only [updPath_beats, ← hu, h7, hst, hlink, Bool.false_eq_true, if_false]
  refine ⟨fun h => ?_, fun h h8 hl => ?_⟩
  · simp only [h]
  · simp only [h, h8, hl, Bool.and_self, if_true]

/-- A frame that fails a check is discarded. -/
theorem frame_discarded {p : Fin 256} {rid : BitVec 16} {frame : BitVec 512}
    (hport : portWaits s (Fin.ofNat 4 (p.val / 64)) = false) :
    exec (.inboundFrameDiscard p rid frame) s =
      .next (discardFrame s p.val (checkFrame s p.val rid (readFrame frame))) :=
  congrArg Host.Outcome.next (inOrder_free hport _)

theorem discardFrame_bad {p : Nat} (h : (pathAt s p).bad < 4) :
    discardFrame s p .bad = updPath s p fun x => { x with bad := x.bad + 1, resyncDue := true } := by
  rw [discardFrame, if_neg (by rw [pathAt_updPath]; show ¬ (pathAt s p).bad + 1 > 4; omega)]

/-- A path that carries no operation fails alone. -/
theorem failPath_idle {p : Nat} (hup : (pathAt s p).st = .up) (hnone : ∀ e ∈ s.chan.ops, e.2.path ≠ p) :
    failPath s p = logEvent (updPath s p fun x =>
        { x with st := .failed, beats := 0, sinceBeat := 0, bad := 0, resyncDue := false })
      { page := pciePage (p / 64), code := 0x2123, sub := p % 64 } := by
  unfold failPath
  extract_lets st u v
  have hst : st = .up := hup
  have hops : v.chan.ops = u.chan.ops := congrArg Channel.ops (chan_logEvent u _)
  have hidle : (v.chan.ops.filter fun e => e.2.path = p) = [] := by
    rw [hops, List.filter_eq_nil_iff]
    intro e he
    simpa using hnone e he
  rw [if_neg (by simp [hst]), hidle]
  rfl

/-- Settles O43: frames, windows, paths, channel processors and the journal, each by its own rule. -/
theorem channelHardware : Obligations.ChannelHardware := by
  unfold Obligations.ChannelHardware
  refine ⟨?_, ?_⟩
  · intro s p rid frame o w a c f n h beat hport
    refine ⟨fun hok _ ho hrole hbit => ?_, fun hok hty h7 hbit => ?_, fun hbad hfew => ?_, fun hspoof => ?_⟩
    · obtain ⟨hack, hstatus, hresync⟩ := frames_taken hport (f := f) rfl hok ho hrole hbit
      exact ⟨hack w, hstatus a c, hresync⟩
    · exact heartbeat_counts hport (f := f) rfl hok hty h7 hbit rfl
    · rw [frame_discarded hport, show checkFrame s p.val rid (readFrame frame) = .bad from hbad,
        discardFrame_bad hfew]
    · rw [frame_discarded hport, show checkFrame s p.val rid (readFrame frame) = .spoof from hspoof, discardFrame]
  · intro s p k off c rid len n data o w die index e addr port
    have haddr : addr.toNat = 0x8000000000000000 + p.val * 0x100000000 + k.val * 0x1000 + off.val :=
      busAddr_toNat p k off
    have hin : 0x8000000000000000 ≤ addr.toNat := by omega
    have hpath : (addr.toNat - 0x8000000000000000) / 0x100000000 = p.val := by omega
    have hslot : addr.toNat % 0x100000000 / 0x1000 = k.val := by omega
    have hoff : addr.toNat % 0x1000 = off.val := by omega
    have hgo : ∀ write, portWaits s port = false →
        exec (.adapterDma port rid addr write len data) s = .next (adapterDma port rid addr write len data s) :=
      fun _ hport => congrArg Host.Outcome.next (inOrder_free hport _)
    refine ⟨fun hport hon hrid hfind hjob => ?_, fun hport hfind hon hrid => ?_, fun hup hnone => ?_,
      fun hrole hstops => ?_, fun hrole hnone => ?_, fun hj => ?_⟩
    · have hat := fun write => adapterDma_at (s := s) (len := len) (data := data) (port := port) write hin hpath hslot
        hoff rfl hon hrid
      refine ⟨fun hto hskip => ?_, fun hto hskip => ?_, fun hto hclean => ?_, fun hto => ?_⟩
      · refine ((hgo true hport).trans (congrArg _ (hat true))).trans ?_
        simp only [hfind, hto, hskip, inlineJob_plain hjob, ne_eq, not_true_eq_false, if_false, if_true,
          Bool.false_eq_true]
      · refine ((hgo true hport).trans (congrArg _ (hat true))).trans ?_
        simp only [hfind, hto, hskip, ne_eq, not_true_eq_false, if_false, if_true]
      · refine ((hgo false hport).trans (congrArg _ (hat false))).trans ?_
        simp only [hfind, hto, inlineJob_plain hjob, inlineData, hclean, ne_eq, not_true_eq_false, if_false,
          Bool.false_eq_true, Option.isSome_none]
      · refine ((hgo true hport).trans (congrArg _ (hat true))).trans ?_
        simp only [hfind, hto, ne_eq, Bool.false_eq_true, not_false_eq_true, if_true]
    · have hat := adapterDma_at (s := s) (len := len) (data := data) (port := port) true hin hpath hslot hoff rfl hon
        hrid
      refine ((hgo true hport).trans (congrArg _ hat)).trans ?_
      simp only [hfind]
    · exact congrArg Host.Outcome.next (failPath_idle hup hnone)
    · show execCpStop c s = _
      simp [execCpStop, hrole, hstops]
    · show execCpTakeoverComplete c s = _
      have hmine : (s.chan.ops.filter fun e => e.2.cp = c.val) = [] := by
        rw [List.filter_eq_nil_iff]
        simpa using hnone
      have hops : ∀ f, (updCp s c.val f).chan.ops = s.chan.ops := fun _ => rfl
      simp only [execCpTakeoverComplete, hrole, hops, hmine, List.foldl_nil]
      simp only [updCp, hrole, if_true]
    · show execJournalEntryError die index true false s = _
      simp only [execJournalEntryError, hj, Bool.and_false, Bool.false_eq_true, if_false, if_true]

end Sys2Proof.Machine

/-! Doorbells, descriptors and completion records (14). -/

namespace Sys2Proof.Machine
-- Proofs one after the other: side by side they take more memory than the check allows.
set_option Elab.async false

variable {s t u : State}

theorem eng_of_steady (h : steady s = steady t) : s.eng = t.eng := congrArg Steady.eng h

theorem eng_onceEvent (s : State) (key : Nat) (e : Event) : (onceEvent s key e).eng = s.eng := by
  unfold onceEvent
  split
  · rfl
  · exact (eng_of_steady (steady_logEvent ..)).trans rfl

theorem eng_queueSpoof (s : State) (k : Nat) : (queueSpoof s k).eng = s.eng :=
  (eng_onceEvent ..).trans (eng_of_steady (steady_bump ..))

/-! ### Doorbells -/

theorem doorbell_owner {ctx k : Nat} (hown : jqOwner s k = ctx) (hheld : isReleased s 2 k = false)
    (f : JQueue → JQueue) : doorbell s ctx k f = updJq s k f := by
  simp [doorbell, hown, hheld]

theorem doorbell_other {ctx k : Nat} (hown : jqOwner s k ≠ ctx) (f : JQueue → JQueue) :
    doorbell s ctx k f = queueSpoof s k := by
  simp [doorbell, hown]

theorem updJq_congr {k : Nat} {f g : JQueue → JQueue} (h : f (jqAt s k) = g (jqAt s k)) :
    updJq s k f = updJq s k g := by
  simp only [updJq, h]

theorem jqAt_updJq (s : State) (k : Nat) (f : JQueue → JQueue) : jqAt (updJq s k f) k = f (jqAt s k) := by
  simp [jqAt, updJq]

theorem jqAt_congr {k : Nat} (h : s.eng.jqs = t.eng.jqs) : jqAt s k = jqAt t k := by simp only [jqAt, h]

/-! ### The dispatcher -/

/-- What a visit has read: the queue's head has passed one slot, and the new job holds its descriptor. -/
structure Read (s : State) (k pa : Nat) (t : State) : Prop where
  jqs : t.eng.jqs = (updJq s k fun x => { x with head := (x.head + 1) % jqSlots x }).eng.jqs
  next : t.eng.next = s.eng.next
  nextJob : t.eng.nextJob = s.eng.nextJob + 1
  job : ∃ z, Tab.look t.eng.jobs s.eng.nextJob = some z ∧ z.desc = curBytes s pa 128 ∧ z.ctx = jqOwner s k

/-- A new job is the only one of its queue, where the queue had none. -/
theorem mem_jqTaken_setJob {j k : Nat} {y : Job} {e : Nat × Job} (hnone : jqTaken s k = [])
    (hjobs : u.eng.jobs = s.eng.jobs) (he : e ∈ jqTaken (setJob u j y) k) : e = (j, y) := by
  obtain ⟨hmem, hk⟩ := List.mem_filter.mp he
  rcases mem_ins hmem with h | h
  · exact h
  · have hs : e ∈ s.eng.jobs := hjobs ▸ (List.mem_filter.mp h).1
    have : e ∈ jqTaken s k := List.mem_filter.mpr ⟨hs, hk⟩
    rw [hnone] at this
    exact absurd this List.not_mem_nil

/-- Engines assigned to a job change nothing else of it, and a job that finds none ends. -/
theorem assignJob_sets (s : State) (j : Nat) (x : Job) :
    ∃ y, assignJob s j x = setJob s j y ∧ y.desc = x.desc ∧ y.ctx = x.ctx := by
  unfold assignJob
  extract_lets die
  generalize needs x.func = zc
  obtain ⟨z, c⟩ := zc
  dsimp -zeta only
  extract_lets fz fc
  clear_value fz fc
  split
  · exact ⟨_, rfl, rfl, rfl⟩
  · split <;> exact ⟨_, rfl, rfl, rfl⟩

theorem zoneResolve_updJq (k : Nat) (f : JQueue → JQueue) (part : Nat) (e : Word) (off : Nat) (far : Bool) :
    zoneResolve (updJq s k f) part e off far = zoneResolve s part e off far := by
  have hlocal : localPkg (updJq s k f) = localPkg s := rfl
  have howner : granuleOwner (updJq s k f) = granuleOwner s := rfl
  have hreach : reachable (updJq s k f) = reachable s := rfl
  have hscr : scrRange (updJq s k f) = scrRange s := rfl
  have hpkg : pkgId (updJq s k f) = pkgId s := rfl
  have hmode : (updJq s k f).mode = s.mode := rfl
  have hqueue : ownsQueueOf (updJq s k f) = ownsQueueOf s := rfl
  have hentry : ownerEntry (updJq s k f) = ownerEntry s := rfl
  simp only [zoneResolve, hlocal, howner, hreach, hscr, hpkg, hmode, hqueue, hentry]

theorem ctxStorage_updJq (k : Nat) (f : JQueue → JQueue) (ctx a : Nat) :
    ctxStorage (updJq s k f) ctx a = ctxStorage s ctx a := by
  have howner : granuleOwner (updJq s k f) = granuleOwner s := rfl
  have hregion : regionOf (updJq s k f) = regionOf s := rfl
  have hcell : cell (updJq s k f) = cell s := rfl
  have hpoison : anyPoison (updJq s k f) = anyPoison s := rfl
  have hword : curWord (updJq s k f) = curWord s := rfl
  have hfree : freeNow (updJq s k f) = freeNow s := rfl
  simp only [ctxStorage, ctxPhys, zoneResolve_updJq, howner, hregion, hcell, hpoison, hword, hfree]
/-- The runs of a context's range depend on what its storage and the released granules are. -/
theorem ctxRuns_congr {ctx : Nat} (hst : ∀ a, ctxStorage t ctx a = ctxStorage s ctx a)
    (hrel : ∀ i, isReleased t 5 i = isReleased s 5 i) (fuel a n : Nat) :
    ctxRuns t ctx fuel a n = ctxRuns s ctx fuel a n := by
  induction fuel generalizing a n with
  | zero => rfl
  | succ fuel ih => simp only [ctxRuns, hst, hrel, ih]

theorem ctxRange_updJq (k : Nat) (f : JQueue → JQueue) (ctx a n : Nat) :
    ctxRange (updJq s k f) ctx a n = ctxRange s ctx a n := by
  have hrel : ∀ i, isReleased (updJq s k f) 5 i = isReleased s 5 i := fun _ => rfl
  exact ctxRuns_congr (ctxStorage_updJq k f ctx) hrel (n / gib + 2) a n

/-- The slot at the head of a queue becomes a job, whether or not the job ends at once. -/
theorem readSlot_sets {k pa : Nat}
    (hpa : ctxRange s (jqOwner s k) ((jqAt s k).base.toNat + 128 * (jqAt s k).head) 128 = some [(pa, 128)]) :
    ∃ u y, readSlot s k = setJob u s.eng.nextJob y ∧
      u.eng = { (updJq s k fun x => { x with head := (x.head + 1) % jqSlots x }).eng with
        nextJob := s.eng.nextJob + 1 } ∧
      y.desc = curBytes s pa 128 ∧ y.ctx = jqOwner s k := by
  unfold readSlot
  extract_lets x ctx at_ v n w
  rw [show ctxRange v ctx at_ 128 = some [(pa, 128)] from (ctxRange_updJq ..).trans hpa]
  split
  · next pa' heq =>
    obtain rfl : pa = pa' := by simpa using heq
    extract_lets job
    split
    · exact ⟨_, _, rfl, rfl, rfl, rfl⟩
    · split
      · exact ⟨_, _, rfl, rfl, rfl, rfl⟩
      · split
        · exact ⟨_, _, rfl, eng_queueSpoof .., rfl, rfl⟩
        · exact ⟨_, _, rfl, rfl, rfl, rfl⟩
  · next h => exact absurd rfl (h pa)

theorem jqRunning_of_none {k : Nat} (h : jqTaken s k = []) : jqRunning s k = 0 := by
  have hsub : (s.eng.jobs.filter fun e => e.2.q = k && e.2.inline.isNone && e.2.running) =
      (jqTaken s k).filter fun e => e.2.running := by
    rw [jqTaken, List.filter_filter]
    exact List.filter_congr fun e _ => Bool.and_comm ..
  rw [jqRunning, hsub, h]
  rfl

theorem read_setJob {k pa : Nat} {y : Job}
    (hjqs : u.eng.jqs = (updJq s k fun x => { x with head := (x.head + 1) % jqSlots x }).eng.jqs)
    (hnext : u.eng.next = s.eng.next) (hnew : u.eng.nextJob = s.eng.nextJob + 1) (hdesc : y.desc = curBytes s pa 128)
    (hctx : y.ctx = jqOwner s k) : Read s k pa (setJob u s.eng.nextJob y) :=
  ⟨hjqs, hnext, hnew, y, look_put_self .., hdesc, hctx⟩

/-- A visit of a queue with work and no job reads its next slot. -/
theorem visit_reads {k pa : Nat} (hen : (jqAt s k).en = true) (hwork : (jqAt s k).head ≠ (jqAt s k).tail)
    (hnone : jqTaken s k = [])
    (hpa : ctxRange s (jqOwner s k) ((jqAt s k).base.toNat + 128 * (jqAt s k).head) 128 = some [(pa, 128)]) :
    Read s k pa (visit s k) := by
  obtain ⟨u, y, hread, hu, hdesc, hctx⟩ := readSlot_sets hpa
  have hset : ∀ {z : Job}, z.desc = curBytes s pa 128 → z.ctx = jqOwner s k →
      Read s k pa (setJob u s.eng.nextJob z) :=
    read_setJob (by rw [hu]) (by rw [hu]; rfl) (by rw [hu])
  unfold visit
  extract_lets start x waiting
  have hwaiting : waiting = false := by simp [waiting, hnone]
  rw [if_neg (by simp [hwaiting]), if_pos (by simp [x, hen, hwork, jqRunning_of_none hnone]), hread]
  show Read s k pa (match (jqTaken (setJob u s.eng.nextJob y) k).find? fun e => !e.2.running with
    | some (j, x) => if mayStart (setJob u s.eng.nextJob y) k j x &&
        decide (jqRunning (setJob u s.eng.nextJob y) k < 8) then assignJob (setJob u s.eng.nextJob y) j x
      else setJob u s.eng.nextJob y
    | none => setJob u s.eng.nextJob y)
  split
  · next j z hfind =>
    have hjz : (j, z) = (s.eng.nextJob, y) :=
      mem_jqTaken_setJob hnone (by rw [hu]; rfl) (List.mem_of_find?_eq_some hfind)
    obtain ⟨rfl, rfl⟩ := Prod.mk.inj hjz
    split
    · obtain ⟨w, hw, hwdesc, hwctx⟩ := assignJob_sets (setJob u s.eng.nextJob z) s.eng.nextJob z
      rw [hw]
      exact read_setJob (by exact (hset hdesc hctx).jqs) (hset hdesc hctx).next (hset hdesc hctx).nextJob
        (hwdesc.trans hdesc) (hwctx.trans hctx)
    · exact hset hdesc hctx
  · exact hset hdesc hctx

/-- The dispatcher visits its next queue where that one has work. -/
theorem descriptorDispatch_visits {die : Fin 2} {q : Fin 64} (hq : s.mode.quiesce = false)
    (hnext : s.eng.next[die] = q.val) (hen : (jqAt s (die.val * 64 + q.val)).en = true)
    (hwork : (jqAt s (die.val * 64 + q.val)).head ≠ (jqAt s (die.val * 64 + q.val)).tail)
    (hnone : jqTaken s (die.val * 64 + q.val) = []) :
    exec (.descriptorDispatch die) s =
      .next { visit s (die.val * 64 + q.val) with
        eng := { (visit s (die.val * 64 + q.val)).eng with
          next := (visit s (die.val * 64 + q.val)).eng.next.set die ((q.val + 1) % 64) } } := by
  have hvis : visitable s (die.val * 64 + q.val) = true := by
    simp [visitable, hen, hwork, jqRunning_of_none hnone]
  have hfind : (((List.range 64).map fun i => (s.eng.next[die] + i) % 64).find?
      fun q => visitable s (die.val * 64 + q)) = some q.val := by
    have hmod : q.val % 64 = q.val := Nat.mod_eq_of_lt q.isLt
    rw [hnext, List.range_succ_eq_map, List.map_cons, Nat.add_zero, hmod]
    exact List.find?_cons_of_pos hvis
  show execDescriptorDispatch die s = _
  simp only [execDescriptorDispatch, hq, hfind, Bool.false_eq_true, if_false]

/-! ### Completion records -/

theorem eng_freeJob (j : Nat) (x : Job) : (freeJob s j x).eng = { s.eng with jobs := Tab.del s.eng.jobs j } := by
  have hmeter : ∀ (t : State) c i n, (meter t c i n).eng = t.eng := fun _ _ _ _ => eng_of_steady (steady_meter ..)
  have hbump : ∀ (t : State) p o, (bump t p o).eng = t.eng := fun _ _ _ => eng_of_steady (steady_bump ..)
  unfold freeJob
  cases x.zip <;> cases x.crypt <;> simp only [hmeter, hbump]

/-- The record of a job frees it, and tells its queue where it asks for that. -/
theorem completeJob_frees (j : Nat) (x : Job) (e : JobEnd) :
    Tab.look (completeJob s j x e).eng.jobs j = none ∧
      (x.flag 7 = true → (jqAt (completeJob s j x e) x.q).notify = true) := by
  unfold completeJob
  extract_lets v res w z
  have hjobs : Tab.look z.eng.jobs j = none := by
    rw [eng_freeJob, look_del, if_pos rfl]
  split
  · exact ⟨hjobs, fun _ => by rw [jqAt_updJq]⟩
  · next h => exact ⟨hjobs, fun h7 => absurd h7 h⟩

/-- Settles O44: the owner's doorbells, the dispatcher's next slot and an ended job's record. -/
theorem jobQueues : Obligations.JobQueues := by
  unfold Obligations.JobQueues
  intro s ctx die q v pa j x e k y
  refine ⟨fun hown hheld => ⟨?_, fun hen => ?_, fun hen hbit => ?_⟩, fun hown => ?_, ?_, ?_⟩
  · exact congrArg Host.Outcome.next (doorbell_owner hown hheld _)
  · refine congrArg Host.Outcome.next ((doorbell_owner hown hheld _).trans (updJq_congr ?_))
    exact if_neg (Bool.not_eq_true _ ▸ hen)
  · refine congrArg Host.Outcome.next ((doorbell_owner hown hheld _).trans (updJq_congr ?_))
    have hen' : (jqAt s k).en = false := hen
    simp [writeJqCtl, hen', hbit]
  · exact congrArg Host.Outcome.next (doorbell_other hown _)
  · intro hq hnext hen hwork hnone hpa
    obtain ⟨hjqs, hnx, hnew, hjob⟩ := visit_reads hen hwork hnone hpa
    refine ⟨_, descriptorDispatch_visits hq hnext hen hwork hnone, ?_, hnew, ?_, hjob⟩
    · have hhead : jqAt (visit s k) k = jqAt (updJq s k fun x => { x with head := (x.head + 1) % jqSlots x }) k :=
        jqAt_congr hjqs
      exact (congrArg JQueue.head hhead).trans (by rw [jqAt_updJq])
    · simp
  · intro hq hj he hin hcan
    refine ⟨completeJob s j x e, ?_, completeJob_frees ..⟩
    show execJobComplete j s = _
    simp only [execJobComplete, hq, hj, he, hin, hcan, Option.isSome_none, Bool.not_true, Bool.or_self,
      Bool.false_eq_true, if_false]

end Sys2Proof.Machine

/-! Compression and decompression jobs (14). -/

namespace Sys2Proof.Machine
-- Proofs one after the other: side by side they take more memory than the check allows.
set_option Elab.async false

variable {s t : State} {j func : Nat} {x : Job} {e : JobEnd}

/-! ### A job's function -/

theorem checked_ok (a : α) (f : α → Checked β) : (Except.ok a >>= f) = f a := rfl

theorem checked_error (d : Nat × Nat) (f : α → Checked β) : ((Except.error d : Checked α) >>= f) = .error d := rfl

theorem guardJob_true {c : Bool} (h : c = true) (st d : Nat) : guardJob c st d = .ok () := by rw [guardJob, if_pos h]

theorem guardJob_false {c : Bool} (h : c = false) (st d : Nat) : guardJob c st d = .error (st, d) := by
  rw [guardJob, if_neg (by simp [h])]

section Function
variable {f : State → Job → Checked (State × JobEnd)} (h : JobRuns s j x func)
include h

/-- What follows a function that ends its job. -/
theorem runFunc_ends (hf : f s x = .ok (t, e)) : runFunc s j func f =
    .next (endJob (countMoved (undefine t x.agent e) x e.consumed e.produced) j x e) := by
  obtain ⟨hj, hfunc, hengine, hend, hinline, hq, hform⟩ := h
  simp only [runFunc, hj, hfunc, hengine, hend, hinline, hq, hform, hf, ne_eq, not_true_eq_false, decide_false,
    Bool.not_true, Option.isSome_none, Bool.or_self, Bool.false_eq_true, if_false]

/-- What follows a function that finds a fault. -/
theorem runFunc_fails {st d : Nat} (hf : f s x = .error (st, d)) : runFunc s j func f =
    .next (endJob s j x (jobEnd st d)) := by
  obtain ⟨hj, hfunc, hengine, hend, hinline, hq, hform⟩ := h
  simp only [runFunc, hj, hfunc, hengine, hend, hinline, hq, hform, hf, ne_eq, not_true_eq_false, decide_false,
    Bool.not_true, Option.isSome_none, Bool.or_self, Bool.false_eq_true, if_false]

variable {i : Instr} {P : State → JobEnd → Prop} (hi : exec i s = runFunc s j func f)
include hi

theorem jobEnds_ok (hf : f s x = .ok (t, e))
    (hP : P (endJob (countMoved (undefine t x.agent e) x e.consumed e.produced) j x e) e) : JobEnds i s j x P :=
  ⟨_, hi.trans (runFunc_ends h hf), e, look_put_self .., hP⟩

theorem jobEnds_error {st d : Nat} (hf : f s x = .error (st, d)) (hP : P (endJob s j x (jobEnd st d)) (jobEnd st d)) :
    JobEnds i s j x P :=
  ⟨_, hi.trans (runFunc_fails h hf), jobEnd st d, look_put_self .., hP⟩

end Function

/-! ### Streams in one job -/

/-- How a stream that is packed ends. -/
def Packs (x : Job) (e : JobEnd) : Prop :=
  e.status = 1 ∧ e.consumed = x.srcLen ∧ e.produced ≤ x.dstLen ∨ e.status = 0x33 ∧ e.produced = 0 ∧ e.stores = []

/-- How a stream that is unpacked ends. -/
def Unpacks (x : Job) (e : JobEnd) : Prop :=
  Packs x e ∨ (e.status = 0x30 ∨ e.status = 0x31 ∨ e.status = 0x32) ∧ e.consumed ≤ x.srcLen ∧ e.produced ≤ x.dstLen

theorem savedState_first (h : x.flag 6 = true) : savedState s x = .ok [] := by rw [savedState, if_pos h]

theorem verdict_bad {ins : List (List Byte)} (h : verdict x ins ≠ 0) :
    verdict x ins = 0x30 ∨ verdict x ins = 0x31 ∨ verdict x ins = 0x32 := by
  unfold verdict at h ⊢
  split <;> simp_all

theorem zeroed_zero (l : List (Nat × Nat)) : ∀ w ∈ zeroed l, ∀ b ∈ w.2, b = 0 := by
  intro w hw b hb
  obtain ⟨r, -, rfl⟩ := List.mem_map.mp hw
  exact (List.mem_replicate.mp hb).2

/-- The function of a job that packs a stream and enciphers it, as `execCompressThenEncrypt` runs it. -/
def packSealed (s : State) (x : Job) : Checked (State × JobEnd) := do
  let k ← needKey s x x.key [1, 2] uEnc
  let a ← srcBytes s x x.aux x.auxLen 3
  compress s x [k.secret, a]

/-- The function of a job that deciphers a stream and unpacks it, as `execDecryptThenDecompress` runs it. -/
def unpackSealed (s : State) (x : Job) : Checked (State × JobEnd) := do
  guardJob (x.flag 6 && x.flag 5) 0x10 2
  let k ← needKey s x x.key [1, 2] uDec
  let a ← srcBytes s x x.aux x.auxLen 3
  let src ← srcBytes s x x.src x.srcLen 1
  let ins := [beBytes 4 x.param, k.secret, x.iv, a, src]
  let n := Config.engNat (0x51 * 4 + 3) ins
  let l ← dstRuns s x x.dst (min n x.dstLen) 2
  if engBytes (0x51 * 4 + 1) ins 16 ≠ x.tagIn then
    .ok (s, { status := 0x40, detail := 0, consumed := x.srcLen, produced := 0, result := [], stores := zeroed l })
  else if n > x.dstLen then
    .ok (s, { status := 0x33, detail := 0, consumed := 0, produced := 0, result := [], stores := zeroed l })
  else
    let v := verdict x ins
    .ok (s, { status := if v = 0 then 1 else v, detail := 0
              consumed := if v = 0 then x.srcLen else min x.srcLen (Config.engNat 3 ins), produced := n
              result := x.tagIn, stores := splitRuns l (engBytes (0x51 * 4) ins n) })

section Stream
variable {src dict : List Byte} (hfirst : x.flag 6 = true) (hlast : x.flag 5 = true) (hstate : x.stateAt = 0)
  (hsrc : srcBytes s x x.src x.srcLen 1 = .ok src) (hdict : srcBytes s x x.aux x.auxLen 3 = .ok dict)
  (hdst : ∀ n, n ≤ x.dstLen → ∃ l, dstRuns s x x.dst n 2 = .ok l)
include hfirst hlast hstate hsrc hdict hdst

/-- What packing a stream comes to: its bytes where they fit, and else a destination that is too short. -/
def packed (s : State) (x : Job) (out crc : List Byte) (whole : Nat) : Checked (State × JobEnd) :=
  if whole ≤ x.dstLen then do
    let l ← dstRuns s x x.dst whole 2
    .ok (s, done x.srcLen whole (splitRuns l out ++ []) crc)
  else .error (0x33, 0)

omit hdst in
theorem compress_packed (keys : List (List Byte)) (hfunc : x.func ≠ 0x50 → x.func = 3 ∧ x.auxLen ≤ 262144 ∨
    x.func ≠ 3 ∧ x.auxLen = 0) (hlen : x.func = 0x50 → x.dstLen < 2 ^ 32) :
    ∃ out crc whole, compress s x keys = packed s x out crc whole := by
  have hshort : guardJob (x.stateAt != 0) 0x33 0 = .error (0x33, 0) := guardJob_false (by simp [hstate]) ..
  unfold compress packed
  by_cases hchain : x.func = 0x50
  · have hbound : ∀ n, decide (0 + min n x.dstLen ≤ 2 ^ 36 - 32) = true := by
      intro n
      have := hlen hchain
      simp only [decide_eq_true_eq]
      omega
    simp only [savedState_first hfirst, checked_ok, checked_error, hchain, decide_true, Bool.true_or, Bool.not_true,
      Bool.false_or, hsrc, hfirst, hlast, if_true, hbound, guardJob_true, hshort]
    exact ⟨_, _, _, rfl⟩
  · have hdictLen : (decide (x.func = 3) || decide (x.auxLen = 0)) = true ∧
        (!(decide (x.func = 3)) || decide (x.auxLen ≤ 262144)) = true := by
      rcases hfunc hchain with h | h <;> simp [h]
    simp only [savedState_first hfirst, checked_ok, checked_error, hchain, hdict, decide_false, Bool.not_false,
      Bool.true_or, Bool.false_eq_true, if_false, Bool.false_or, guardJob_true hdictLen.1, guardJob_true hdictLen.2,
      hsrc, hfirst, hlast, if_true, guardJob_true, hshort]
    exact ⟨_, _, _, rfl⟩

/-- A stream is packed where it fits, and is too long where it does not. -/
theorem compress_packs (keys : List (List Byte)) (hfunc : x.func ≠ 0x50 → x.func = 3 ∧ x.auxLen ≤ 262144 ∨
    x.func ≠ 3 ∧ x.auxLen = 0) (hlen : x.func = 0x50 → x.dstLen < 2 ^ 32) :
    (∃ e, compress s x keys = .ok (s, e) ∧ Packs x e) ∨ compress s x keys = .error (0x33, 0) := by
  obtain ⟨out, crc, whole, h⟩ := compress_packed hfirst hlast hstate hsrc hdict keys hfunc hlen
  rw [h, packed]
  split
  · next hfit =>
    obtain ⟨l, hl⟩ := hdst _ hfit
    exact .inl ⟨_, by rw [hl, checked_ok], .inl ⟨rfl, rfl, hfit⟩⟩
  · exact .inr rfl

/-- A stream is unpacked where it is well-formed and fits; else it ends by its verdict or is too long. -/
theorem decompress_unpacks (hfunc : x.func = 4 ∧ x.auxLen ≤ 262144 ∨ x.auxLen = 0) :
    (∃ e, decompress s x = .ok (s, e) ∧ Unpacks x e) ∨ decompress s x = .error (0x33, 0) := by
  have hshort : guardJob (x.stateAt != 0) 0x33 0 = .error (0x33, 0) := guardJob_false (by simp [hstate]) ..
  have hdictLen : (decide (x.func = 4) || decide (x.auxLen = 0)) = true ∧ decide (x.auxLen ≤ 262144) = true := by
    rcases hfunc with ⟨h, h'⟩ | h <;> simp [*]
  unfold decompress
  simp only [savedState_first hfirst, checked_ok, checked_error, hdict, guardJob_true hdictLen.1,
    guardJob_true hdictLen.2, hsrc, hlast, if_true, hshort]
  split
  · next hbad =>
    simp only [Bool.and_eq_true, decide_eq_true_eq] at hbad
    obtain ⟨hv, hfit⟩ := hbad
    obtain ⟨l, hl⟩ := hdst _ hfit
    exact .inl ⟨_, by rw [hl, checked_ok], .inr ⟨verdict_bad hv, Nat.min_le_left .., hfit⟩⟩
  · split
    · next hfit =>
      obtain ⟨l, hl⟩ := hdst _ hfit
      exact .inl ⟨_, by rw [hl, checked_ok], .inl (.inl ⟨rfl, rfl, hfit⟩)⟩
    · exact .inr rfl

omit hstate in
/-- The tag of a stream that is deciphered is checked first; what does not pass, or does not fit, leaves zeros. -/
theorem decryptThenDecompress_unpacks {k : KeySlot} (hkey : needKey s x x.key [1, 2] uDec = .ok k) :
    ∃ e, unpackSealed s x = .ok (s, e) ∧
      (e.status ∈ [1, 0x30, 0x31, 0x32] ∧ e.consumed ≤ x.srcLen ∧ e.produced ≤ x.dstLen ∨
        e.status ∈ [0x33, 0x40] ∧ e.produced = 0 ∧ ∀ w ∈ e.stores, ∀ b ∈ w.2, b = 0) := by
  unfold unpackSealed
  simp only [guardJob_true, hfirst, hlast, Bool.and_self, hkey, hdict, hsrc, checked_ok]
  obtain ⟨l, hl⟩ := hdst _ (Nat.min_le_right (Config.engNat (0x51 * 4 + 3)
    [beBytes 4 x.param, k.secret, x.iv, dict, src]) x.dstLen)
  rw [hl, checked_ok]
  split
  · exact ⟨_, rfl, .inr ⟨by simp, rfl, zeroed_zero l⟩⟩
  · split
    · exact ⟨_, rfl, .inr ⟨by simp, rfl, zeroed_zero l⟩⟩
    · next hfit =>
      refine ⟨_, rfl, .inl ⟨?_, ?_, Nat.le_of_not_gt hfit⟩⟩
      · dsimp only
        split
        · simp
        · next hv => rcases verdict_bad hv with h | h | h <;> simp [h]
      · dsimp only
        split
        · exact Nat.le_refl _
        · exact Nat.min_le_left ..

end Stream

/-- A stream that is packed ends its job. -/
theorem jobEnds_stream {f : State → Job → Checked (State × JobEnd)} {i : Instr} {P : JobEnd → Prop}
    (h : JobRuns s j x func) (hi : exec i s = runFunc s j func f)
    (hf : (∃ e, f s x = .ok (s, e) ∧ P e) ∨ f s x = .error (0x33, 0)) (hP : P (jobEnd 0x33 0)) :
    JobEnds i s j x fun _ => P := by
  rcases hf with ⟨e, hf, he⟩ | hf
  · exact jobEnds_ok h hi hf he
  · exact jobEnds_error h hi hf hP

/-- Settles O45: a stream in one job ends done, too long, or by the verdict of its source. -/
theorem compressionJobs : Obligations.CompressionJobs := by
  unfold Obligations.CompressionJobs
  intro s j x dict src k hfirst hlast hstate hsrc hdict hdst packs unpacks
  have hlong : Packs x (jobEnd 0x33 0) := .inr ⟨rfl, rfl, rfl⟩
  have hpack := fun keys hfunc hlen => compress_packs hfirst hlast hstate hsrc hdict hdst keys hfunc hlen
  have hunpack := fun hfunc => decompress_unpacks hfirst hlast hstate hsrc hdict hdst hfunc
  refine ⟨fun h haux => ?_, fun h haux => ?_, fun h haux => ?_, fun h haux => ?_, fun h hlen hkey => ?_,
    fun h hkey => ?_⟩
  · have hfunc : x.func = 1 := h.2.1
    exact jobEnds_stream (f := fun s x => compress s x []) h rfl
      (hpack [] (fun _ => .inr ⟨by simp [hfunc], haux⟩) (by simp [hfunc])) hlong
  · exact jobEnds_stream h rfl (hunpack (.inr haux)) (.inl hlong)
  · have hfunc : x.func = 3 := h.2.1
    exact jobEnds_stream (f := fun s x => compress s x []) h rfl
      (hpack [] (fun _ => .inl ⟨hfunc, haux⟩) (by simp [hfunc])) hlong
  · exact jobEnds_stream h rfl (hunpack (.inl ⟨h.2.1, haux⟩)) (.inl hlong)
  · have hfunc : x.func = 0x50 := h.2.1
    refine jobEnds_stream (f := packSealed) h rfl ?_ hlong
    simp only [packSealed, hkey, hdict, checked_ok]
    exact hpack _ (by simp [hfunc]) fun _ => hlen
  · obtain ⟨e, he, hends⟩ := decryptThenDecompress_unpacks hfirst hlast hsrc hdict hdst hkey
    exact jobEnds_ok (f := unpackSealed) h rfl he hends

end Sys2Proof.Machine

/-! Cipher, digest and random jobs (14). -/

namespace Sys2Proof.Machine
-- Proofs one after the other: side by side they take more memory than the check allows.
set_option Elab.async false

variable {s : State} {j func : Nat} {x : Job} {src aad : List Byte} {l : List (Nat × Nat)}

@[simp] theorem length_engBytes (what : Nat) (ins : List (List Byte)) (n : Nat) :
    (engBytes what ins n).length = n := by
  simp [engBytes]

/-! ### Functions of jobs, as their rows run them -/

def decipherSealed (s : State) (x : Job) : Checked (State × JobEnd) := do
  guardJob (x.flag 6 && x.flag 5) 0x10 2
  guardJob (decide (x.srcLen ≤ x.dstLen)) 0x10 4
  let k ← needKey s x x.key [1, 2] uDec
  let a ← srcBytes s x x.aux x.auxLen 3
  let src ← srcBytes s x x.src x.srcLen 1
  let l ← dstRuns s x x.dst x.srcLen 2
  let ins := [beBytes 4 x.param, k.secret, x.iv, a, src]
  if engBytes (x.func * 4 + 1) ins 16 = x.tagIn then
    .ok (s, done x.srcLen x.srcLen (splitRuns l (engBytes (x.func * 4) ins x.srcLen)) x.tagIn)
  else .ok (s, { status := 0x40, detail := 0, consumed := x.srcLen, produced := 0, result := [], stores := zeroed l })

def xtsCipher (usage : Nat) (s : State) (x : Job) : Checked (State × JobEnd) := do
  guardJob (xtsLen x) 0x10 4
  cipher s x [3, 4] usage false false

def keyedDigest (s : State) (x : Job) : Checked (State × JobEnd) := do
  let k ← needKey s x x.key [5] (uSign + uVerify)
  digest s x k.secret

def randomJob (s : State) (x : Job) : Checked (State × JobEnd) := do
  guardJob (decide (1 ≤ x.dstLen ∧ x.dstLen ≤ 65536)) 0x10 4
  let r ← randomFor s x x.dstLen
  let l ← dstRuns s x x.dst x.dstLen 2
  .ok (drawn s x, done 0 x.dstLen (splitRuns l r))

/-! ### Ciphers, digests and random bytes -/

section Whole
variable (hfirst : x.flag 6 = true) (hlast : x.flag 5 = true) (hsrc : srcBytes s x x.src x.srcLen 1 = .ok src)
include hfirst hlast hsrc

/-- A cipher in one job stores as many bytes as it reads, and with a tag gives that. -/
theorem cipher_whole {k : KeySlot} {types : List Nat} {usage : Nat} {aead tag : Bool} (hfit : x.srcLen ≤ x.dstLen)
    (hlen : x.srcLen < 2 ^ 32) (hdst : dstRuns s x x.dst x.srcLen 2 = .ok l)
    (hkey : needKey s x x.key types usage = .ok k)
    (haad : aead = true → srcBytes s x x.aux x.auxLen 3 = .ok aad) :
    ∃ e, cipher s x types usage aead tag = .ok (s, e) ∧ e.status = 1 ∧ e.consumed = x.srcLen ∧
      e.produced = x.srcLen ∧ e.result.length = if tag then 16 else 0 := by
  have hbound : (!tag || decide (0 + x.srcLen ≤ 2 ^ 36 - 32)) = true := by
    simp only [Bool.or_eq_true, decide_eq_true_eq]
    omega
  unfold cipher
  cases aead with
  | false =>
    simp only [guardJob_true (decide_eq_true hfit), hkey, savedState_first hfirst, hsrc, hfirst, hlast, if_true,
      guardJob_true hbound, hdst, checked_ok, Bool.false_eq_true, if_false]
    refine ⟨_, rfl, rfl, rfl, rfl, ?_⟩
    cases tag <;> simp [done]
  | true =>
    simp only [guardJob_true (decide_eq_true hfit), hkey, savedState_first hfirst, haad rfl, hsrc, hfirst, hlast,
      if_true, guardJob_true hbound, hdst, checked_ok]
    refine ⟨_, rfl, rfl, rfl, rfl, ?_⟩
    cases tag <;> simp [done]

/-- A digest in one job stores its function's length. -/
theorem digest_whole (secret : List Byte) (hfit : digestLen (x.param % 16) ≤ x.dstLen)
    (hdst : dstRuns s x x.dst (digestLen (x.param % 16)) 2 = .ok l) :
    ∃ e, digest s x secret = .ok (s, e) ∧ e.status = 1 ∧ e.consumed = x.srcLen ∧
      e.produced = digestLen (x.param % 16) := by
  unfold digest
  simp only [savedState_first hfirst, hsrc, hlast, if_true, guardJob_true (decide_eq_true hfit), hdst, checked_ok]
  exact ⟨_, rfl, rfl, rfl, rfl⟩

/-- A tag that does not match leaves only zeros. -/
theorem decipher_tag {k : KeySlot} (hfit : x.srcLen ≤ x.dstLen) (hdst : dstRuns s x x.dst x.srcLen 2 = .ok l)
    (hkey : needKey s x x.key [1, 2] uDec = .ok k) (haad : srcBytes s x x.aux x.auxLen 3 = .ok aad) :
    ∃ e, decipherSealed s x = .ok (s, e) ∧ (e.status = 1 ∧ e.produced = x.srcLen ∨
      e.status = 0x40 ∧ e.produced = 0 ∧ ∀ w ∈ e.stores, ∀ b ∈ w.2, b = 0) := by
  unfold decipherSealed
  simp only [guardJob_true, hfirst, hlast, Bool.and_self, guardJob_true (decide_eq_true hfit), hkey, haad, hsrc, hdst,
    checked_ok]
  split
  · exact ⟨_, rfl, .inl ⟨rfl, rfl⟩⟩
  · exact ⟨_, rfl, .inr ⟨rfl, rfl, zeroed_zero l⟩⟩

end Whole

/-- Random bytes fill their destination. -/
theorem randomJob_fills (hmin : 1 ≤ x.dstLen) (hmax : x.dstLen ≤ 65536)
    (hok : (vget s.eng.drbg Drbg.reset x.drbg).ok = true) (hdst : dstRuns s x x.dst x.dstLen 2 = .ok l) :
    ∃ e, randomJob s x = .ok (drawn s x, e) ∧ e.status = 1 ∧ e.consumed = 0 ∧ e.produced = x.dstLen := by
  unfold randomJob
  simp only [guardJob_true (decide_eq_true (And.intro hmin hmax)), randomFor, hok, if_true, hdst, checked_ok]
  exact ⟨_, rfl, rfl, rfl, rfl⟩

/-- A function that ends its job as it should. -/
theorem jobEnds_whole {t : State} {f : State → Job → Checked (State × JobEnd)} {i : Instr} {P : JobEnd → Prop}
    (h : JobRuns s j x func) (hi : exec i s = runFunc s j func f) (hf : ∃ e, f s x = .ok (t, e) ∧ P e) :
    JobEnds i s j x fun _ => P := by
  obtain ⟨e, hf, he⟩ := hf
  exact jobEnds_ok h hi hf he

/-- Settles O46: ciphers, digests and random bytes, each of its length. -/
theorem cipherJobs : Obligations.CipherJobs := by
  unfold Obligations.CipherJobs
  intro s j x src aad k l hfirst hlast hsrc whole
  refine ⟨fun hfit hlen hdst => ⟨fun haad => ⟨fun h hkey => ?_, fun h hkey => ?_⟩,
    fun hunits => ⟨fun h hkey => ?_, fun h hkey => ?_⟩, fun h hkey => ?_⟩, ?_, fun h hmin hmax hok hdst => ?_⟩
  · exact jobEnds_whole (f := fun s x => cipher s x [1, 2] uEnc true true) h rfl
      (cipher_whole hfirst hlast hsrc hfit hlen hdst hkey fun _ => haad)
  · exact jobEnds_whole (f := decipherSealed) h rfl (decipher_tag hfirst hlast hsrc hfit hdst hkey haad)
  · refine jobEnds_whole (t := s) (f := xtsCipher uEnc) h rfl ?_
    simp only [xtsCipher, guardJob_true hunits, checked_ok]
    exact cipher_whole (aad := []) hfirst hlast hsrc hfit hlen hdst hkey (by simp)
  · refine jobEnds_whole (t := s) (f := xtsCipher uDec) h rfl ?_
    simp only [xtsCipher, guardJob_true hunits, checked_ok]
    exact cipher_whole (aad := []) hfirst hlast hsrc hfit hlen hdst hkey (by simp)
  · exact jobEnds_whole (f := fun s x => cipher s x [1, 2] (uEnc + uDec) false false) h rfl
      (cipher_whole (aad := []) hfirst hlast hsrc hfit hlen hdst hkey (by simp))
  · intro n hfit hdst
    refine ⟨fun h => ?_, fun h hkey => ?_⟩
    · exact jobEnds_whole (f := fun s x => digest s x []) h rfl (digest_whole hfirst hlast hsrc [] hfit hdst)
    · refine jobEnds_whole (t := s) (f := keyedDigest) h rfl ?_
      simp only [keyedDigest, hkey, checked_ok]
      exact digest_whole hfirst hlast hsrc k.secret hfit hdst
  · exact jobEnds_whole (f := randomJob) h rfl (randomJob_fills hmin hmax hok hdst)

end Sys2Proof.Machine

/-! Engines that stop, generators, and lost key slots (14). -/

namespace Sys2Proof.Machine
-- Proofs one after the other: side by side they take more memory than the check allows.
set_option Elab.async false

variable {s : State}

theorem eng_logEvent (s : State) (e : Event) : (logEvent s e).eng = s.eng := eng_of_steady (steady_logEvent s e)

@[simp] theorem look_eraseKey (s : State) (slot : Nat) : Tab.look (eraseKey s slot).eng.keys slot = none := by
  rw [eraseKey, look_del, if_pos rfl]

/-- What the error of a compression engine that runs no job leaves: the engine restarts, or from its third stop is
failed. -/
theorem engineError_idle {e : Fin 8} {stops : List Nat} {fails : Bool} (hok : (zipAt s e.val).failed = false)
    (hidle : ∀ j ∈ s.eng.jobs, j.2.zip ≠ some e.val)
    (hstops : (s.time.transit.toNat :: (zipAt s e.val).stops.filter
      fun t => decide (s.time.transit.toNat < t + 100000)) = stops)
    (hfails : decide (stops.length ≥ 3) = fails) :
    exec (.engineError false e) s =
      let u := logEvent (bump { s with eng := { s.eng with
          zips := s.eng.zips.set e { failed := fails, restarting := !fails, stops := stops } } } (zipPage e.val) 0x7D8)
        { page := zipPage e.val, code := 0x2141 }
      .next (if fails then logEvent u { page := zipPage e.val, code := 0x2142 } else u) := by
  have hnone : (s.eng.jobs.find? fun j => j.2.zip = some e.val) = none := by
    rw [List.find?_eq_none]
    simpa using hidle
  show execEngineError false e s = _
  simp only [execEngineError, Bool.false_eq_true, if_false, hok, hstops, hfails, hnone, Option.map_none]

/-- Settles O48: engines stop and restart, generators are seeded, halt and recover, and a lost slot is erased. -/
theorem engineFaults : Obligations.EngineFaults := by
  unfold Obligations.EngineFaults
  intro s e d slot now stopped cell
  refine ⟨fun hok hidle => ⟨fun hstops => ?_, fun hstops => ?_⟩, fun hok hdue => ?_, rfl, fun hfail => ?_, ?_, rfl⟩
  · exact (engineError_idle hok hidle (by rw [hstops, List.filter_nil]) rfl).trans rfl
  · refine (engineError_idle (stops := [now, now, now]) hok hidle ?_ rfl).trans rfl
    rw [hstops]
    simp [now]
  · exact if_pos (Bool.and_eq_true_iff.mpr ⟨hok, decide_eq_true hdue⟩)
  · exact if_pos hfail
  · refine ⟨_, rfl, ?_⟩
    dsimp only
    rw [eng_logEvent, look_eraseKey]

end Sys2Proof.Machine

/-! RELEASE, RECLAIM, partition reset and START (15, 19). -/

namespace Sys2Proof.Machine
-- Proofs one after the other: side by side they take more memory than the check allows.
set_option Elab.async false

variable {s : State} {m : Master} {p : Nat}

theorem command_may {f : State → State} (h : MayCommand s m p) : command s m p true f = f s := by
  obtain ⟨hw, hc⟩ := h
  unfold command
  rw [hw, hc]
  rfl

/-! ### RELEASE and RECLAIM -/

section Held
variable {part : Fin 128} {kind ix : Nat} (hm : MayCommand s m (partPage part.val)) (hkind : kind < 16)
  (hix : ix < 2 ^ 20) (hok : kindOk kind ix = true)
include hm hkind hix hok

/-- RELEASE, by kind and index. -/
theorem release_does : exec (.release m part (BitVec.ofNat 24 (kind * 2 ^ 20 + ix))) s =
    .next (if !holds s part.val kind ix then relResult s part.val 2 ix
      else if busy s part.val kind ix then relResult s part.val 1 ix
      else relResult { s with released := (if s.released.contains (relKey part.val kind ix) then s.released
        else relKey part.val kind ix :: s.released) } part.val 0 ix) := by
  have harg : (BitVec.ofNat 24 (kind * 2 ^ 20 + ix)).toNat = kind * 2 ^ 20 + ix := by
    rw [BitVec.toNat_ofNat, Nat.mod_eq_of_lt (by omega)]
  have hk : (kind * 2 ^ 20 + ix) / 2 ^ 20 % 16 = kind := by omega
  have hi : (kind * 2 ^ 20 + ix) % 2 ^ 20 = ix := by omega
  show Host.Outcome.next (releaseCommand s m part.val _) = _
  simp only [harg, releaseCommand, hk, hi, hok, command_may hm]

theorem reclaim_does : exec (.reclaim m part (BitVec.ofNat 24 (kind * 2 ^ 20 + ix))) s =
    .next (if holds s part.val kind ix then
      { s with released := s.released.filter fun k => k != relKey part.val kind ix } else s) := by
  have harg : (BitVec.ofNat 24 (kind * 2 ^ 20 + ix)).toNat = kind * 2 ^ 20 + ix := by
    rw [BitVec.toNat_ofNat, Nat.mod_eq_of_lt (by omega)]
  have hk : (kind * 2 ^ 20 + ix) / 2 ^ 20 % 16 = kind := by omega
  have hi : (kind * 2 ^ 20 + ix) % 2 ^ 20 = ix := by omega
  show Host.Outcome.next (reclaimCommand s m part.val _) = _
  simp only [harg, reclaimCommand, hk, hi, hok, command_may hm]

end Held

/-! ### Partition reset -/

/-- A processor waits, with registers of zero. -/
def Waits (s : State) (l : Fin 48) : Prop := (lpAt s l).run = .waiting ∧ ∀ i, gOf s l i = 0

theorem lpAt_emptyTlbs (lp i : Fin 48) : lpAt (emptyTlbs s lp) i = lpAt s i := by
  unfold emptyTlbs
  split <;> rfl

theorem getG_beginArch (lp : Fin 48) (pswa psws : Word) (i : Fin 32) : (beginArch s lp pswa psws).getG i = 0 := by
  simp [beginArch, Arch.reset, Arch.getG]

theorem waits_waitLp (l : Fin 48) : Waits (waitLp s l) l := by
  unfold Waits waitLp gOf
  rw [lpAt_updLp]
  exact ⟨rfl, fun _ => getG_beginArch ..⟩

theorem Waits.waitLp {i : Fin 48} (h : Waits s i) (l : Fin 48) : Waits (waitLp s l) i := by
  by_cases hi : i = l
  · subst hi; exact waits_waitLp i
  · obtain ⟨hrun, hregs⟩ := h
    have hlp : lpAt (Machine.waitLp s l) i = lpAt s i := by
      unfold Machine.waitLp
      rw [lpAt_updLp_ne _ _ hi, lpAt_emptyTlbs]
    unfold Waits gOf
    rw [hlp]
    exact ⟨hrun, hregs⟩

theorem foldl_waitLp_waits (ls : List (Fin 48)) (s : State) :
    ∀ l, Waits s l ∨ l ∈ ls → Waits (ls.foldl waitLp s) l := by
  induction ls generalizing s with
  | nil => exact fun l h => h.elim id (by simp)
  | cons a ls ih =>
    intro l h
    refine ih _ l ?_
    rcases h with h | h
    · exact .inl (h.waitLp a)
    · rcases List.mem_cons.mp h with rfl | h
      · exact .inl (waits_waitLp l)
      · exact .inr h

theorem lps_toPkg (name : String) (a b : Nat) (n : Nat) (s : State) : (toPkg name a b n s).lps = s.lps := by
  unfold toPkg toPkgData
  split
  · rfl
  · split
    · rfl
    · extract_lets
      refine (foldl_view (g := State.lps) ?_ _ _).trans ?_
      · exact fun _ _ => rfl
      · rfl

theorem lps_tlbiAll (k : TlbiKind) (va : Word) (asid : BitVec 16) (ctx : Nat) :
    (tlbiAll s k va asid ctx).lps = s.lps := by
  unfold tlbiAll
  extract_lets u v
  have hu : u.lps = s.lps := foldl_view (g := State.lps) (f := fun s p => toPkg "invalidate" p p (va.toNat / 256) s)
    (fun _ _ => lps_toPkg ..) _ _
  cases k <;> exact hu

theorem partAt_updPart (f : PartSt → PartSt) (part : Fin 128) :
    partAt (updPart s part.val f) part.val = f (partAt s part.val) :=
  vget_vset_self _ _ _ part.isLt

/-- A partition reset leaves its processors waiting. -/
theorem resetPartition_waits (part : Fin 128) :
    (partAt (resetPartition s part.val) part.val).resetting = true ∧
      ∀ l ∈ lpsOf s part.val, Waits (resetPartition s part.val) l := by
  unfold resetPartition
  extract_lets lps u v w z
  refine ⟨by rw [partAt_updPart], fun l hl => ?_⟩
  have hz : Waits z l := foldl_waitLp_waits lps w l (.inr hl)
  have hlp : lpAt (updPart (tlbiAll z .part 0 0 part.val) part.val fun x =>
      { x with resetting := true, flags := x.flags ||| 1 }) l = lpAt z l := lpAt_congr (lps_tlbiAll ..) l
  unfold Waits gOf at hz ⊢
  rwa [hlp]

/-! ### START -/

/-- A processor runs from an address. -/
def RunsAt (s : State) (l : Fin 48) (pswa : Word) : Prop :=
  (lpAt s l).run = .running ∧ (archOf s l).pswa = pswa

theorem runsAt_beginAtStart (l : Fin 48) :
    RunsAt (beginAtStart s p l) l (cell s (regKey (partPage p) 0x0B0) &&& 0xFFFFFFFFFFFFFFFC) := by
  unfold RunsAt beginAtStart beginLp archOf
  rw [lpAt_updLp]
  exact ⟨rfl, rfl⟩

theorem RunsAt.beginAtStart {i l : Fin 48}
    (h : RunsAt s i (cell s (regKey (partPage p) 0x0B0) &&& 0xFFFFFFFFFFFFFFFC)) :
    RunsAt (beginAtStart s p l) i (cell s (regKey (partPage p) 0x0B0) &&& 0xFFFFFFFFFFFFFFFC) := by
  by_cases hi : i = l
  · subst hi; exact runsAt_beginAtStart i
  · obtain ⟨hrun, hpc⟩ := h
    have hlp : lpAt (Machine.beginAtStart s p l) i = lpAt s i := by
      unfold Machine.beginAtStart beginLp
      rw [lpAt_updLp_ne _ _ hi, lpAt_emptyTlbs]
    unfold RunsAt archOf
    rw [hlp]
    exact ⟨hrun, hpc⟩

/-- What the start of a processor leaves alone. -/
theorem beginAtStart_keeps (l : Fin 48) :
    (beginAtStart s p l).regs = s.regs ∧ (beginAtStart s p l).parts = s.parts := by
  unfold beginAtStart beginLp emptyTlbs
  split <;> exact ⟨rfl, rfl⟩

theorem cell_of_regs {t : State} (h : t.regs = s.regs) (k : Nat) : cell t k = cell s k := by simp only [cell, h]

/-- The address a partition's processors start at. -/
def startAddress (s : State) (p : Nat) : Word := cell s (regKey (partPage p) 0x0B0) &&& 0xFFFFFFFFFFFFFFFC

/-- The processors that a signal waits for begin too, and the first runs on. -/
theorem foldl_begin (ls : List (Fin 48)) {l : Fin 48} (s : State) (h : RunsAt s l (startAddress s p)) :
    let t := ls.foldl (fun s i => if (lpAt s i).signal then beginAtStart s p i else s) s
    t.parts = s.parts ∧ RunsAt t l (startAddress s p) := by
  induction ls generalizing s with
  | nil => exact ⟨rfl, h⟩
  | cons i ls ih =>
    rw [List.foldl_cons]
    split
    · obtain ⟨hregs, hparts⟩ := beginAtStart_keeps (s := s) (p := p) i
      have hstart : startAddress (beginAtStart s p i) p = startAddress s p := by
        simp only [startAddress, cell_of_regs hregs]
      obtain ⟨hp, hr⟩ := ih (beginAtStart s p i) (by rw [hstart]; exact h.beginAtStart)
      exact ⟨hp.trans hparts, hstart ▸ hr⟩
    · exact ih s h

/-- START of a partition whose reset is over. -/
theorem start_begins {part : Fin 128} (hm : MayCommand s m (partPage part.val))
    (hexists : (partAt s part.val).exists_ = true) (hreset : (partAt s part.val).resetting = true)
    (hdone : resetRuns s part.val = false) (hpriv : cellField s (partPage part.val) 0x0B8 62 2 ≤ 1)
    (hinit : s.mode.mode ≠ .init) (hload : s.mode.mode ≠ .load) :
    Gives (.start m part) s fun t => (partAt t part.val).resetting = false ∧
      ∀ l ls, lpsOf s part.val = l :: ls → RunsAt t l (startAddress s part.val) := by
  have hok : ((partAt s part.val).exists_ && (partAt s part.val).resetting && !resetRuns s part.val &&
      decide (cellField s (partPage part.val) 0x0B8 62 2 ≤ 1) && s.mode.mode != .init && s.mode.mode != .load) =
        true := by
    simp [hexists, hreset, hdone, hpriv, hinit, hload]
  refine ⟨startCommand s m part.val, rfl, ?_⟩
  unfold startCommand
  extract_lets x ok
  rw [show ok = true from hok, command_may hm]
  have hlps : lpsOf (updPart s part.val fun x => { x with resetting := false }) part.val = lpsOf s part.val := rfl
  have hpart : (partAt (updPart s part.val fun x => { x with resetting := false }) part.val).resetting = false := by
    rw [partAt_updPart]
  dsimp only
  rw [hlps]
  generalize hu : (updPart s part.val fun x => { x with resetting := false }) = u at hpart
  have hstart : startAddress u part.val = startAddress s part.val := by rw [← hu]; rfl
  cases hl : lpsOf s part.val with
  | nil => exact ⟨hpart, fun l ls h => absurd h (by simp)⟩
  | cons a as =>
    obtain ⟨hregs, hparts⟩ := beginAtStart_keeps (s := u) (p := part.val) a
    have hb : startAddress (beginAtStart u part.val a) part.val = startAddress u part.val := by
      simp only [startAddress, cell_of_regs hregs]
    obtain ⟨hp, hr⟩ := foldl_begin as (beginAtStart u part.val a) (by rw [hb]; exact runsAt_beginAtStart a)
    refine ⟨?_, fun l ls h => ?_⟩
    · dsimp only
      rw [partAt, hp, hparts]
      exact hpart
    · obtain ⟨rfl, rfl⟩ := List.cons.inj h
      rw [hb, hstart] at hr
      exact hr

/-- Settles O49: instances are released and reclaimed, a reset leaves its processors waiting, and START begins. -/
theorem partitionCommands : Obligations.PartitionCommands := by
  unfold Obligations.PartitionCommands
  intro s m part kind ix hm arg result
  refine ⟨fun hkind hix hok => ⟨fun hnot => ?_, fun hholds hbusy => ?_, fun hholds hidle => ?_, fun hholds => ?_⟩,
    fun hexists => ⟨fun hdone => ?_, fun hreset hdone hpriv hinit hload => ?_⟩⟩
  · rw [release_does hm hkind hix hok, hnot]
    rfl
  · rw [release_does hm hkind hix hok, hholds, hbusy]
    rfl
  · refine ⟨_, release_does hm hkind hix hok, ?_⟩
    rw [hholds, hidle]
    refine ⟨?_, ?_⟩
    · show relKey part.val kind ix ∈ (if s.released.contains (relKey part.val kind ix) then s.released
        else relKey part.val kind ix :: s.released)
      split
      · next h => exact List.contains_iff_mem.mp h
      · exact List.mem_cons_self
    · exact (cell_setCell ..).trans (by simp)
  · rw [reclaim_does hm hkind hix hok, hholds]
    rfl
  · refine ⟨partResetCommand s m part.val, rfl, ?_⟩
    rw [partResetCommand, show ((partAt s part.val).exists_ && !resetRuns s part.val) = true by simp [hexists, hdone],
      command_may hm]
    exact resetPartition_waits part
  · exact start_begins hm hexists hreset hdone hpriv hinit hload

end Sys2Proof.Machine

/-! Memory channels: rows, refresh, heat, Sweep, parity alerts and drift (16). -/

namespace Sys2Proof.Machine
-- Proofs one after the other: side by side they take more memory than the check allows.
set_option Elab.async false

variable {s t : State} {ch : Fin 16}

/-! ### Channels -/

theorem mcAt_updMc (s : State) (ch : Fin 16) (f : Mc → Mc) : mcAt (updMc s ch.val f) ch.val = f (mcAt s ch.val) :=
  vget_vset_self _ _ _ ch.isLt

theorem mcAt_congr (h : t.mcs = s.mcs) (c : Nat) : mcAt t c = mcAt s c := by simp only [mcAt, h]

theorem mcAt_logEvent (s : State) (e : Event) (c : Nat) : mcAt (logEvent s e) c = mcAt s c :=
  mcAt_congr (by rw [(logEvent_logged s e).eq]) c

theorem mcAt_bump (s : State) (p off n i c : Nat) : mcAt (bump s p off n i) c = mcAt s c :=
  mcAt_congr (by rw [(bump_logged s p off n i).eq]) c

/-- What the budgets of background work leave alone. -/
theorem spend_keeps (s : State) (a : Activity) (costs : List (Nat × Nat)) :
    (spend s a costs).1.mcs = s.mcs ∧ (spend s a costs).1.mem = s.mem ∧ (spend s a costs).1.poison = s.poison := by
  have hview : (fun u : State => (u.mcs, u.mem, u.poison)) (spend s a costs).1 = (s.mcs, s.mem, s.poison) := by
    unfold spend
    dsimp -beta only
    split
    · exact foldl_view (g := fun u : State => (u.mcs, u.mem, u.poison)) (by exact fun _ _ => rfl) ..
    · exact foldl_view (g := fun u : State => (u.mcs, u.mem, u.poison)) (by exact fun _ _ => rfl) ..
  obtain ⟨hmcs, hrest⟩ := Prod.mk.inj hview
  obtain ⟨hmem, hpoison⟩ := Prod.mk.inj hrest
  exact ⟨hmcs, hmem, hpoison⟩

/-- The size of a channel depends on what its modules say of themselves. -/
theorem qGib_congr (h : ∀ c, (vget t.mcs t.mcs[0] c).spd = (vget s.mcs s.mcs[0] c).spd) : qGib t = qGib s := by
  simp only [qGib, populated, h]

theorem qGib_updMc (f : Mc → Mc) (hf : ∀ m, (f m).spd = m.spd) : qGib (updMc s ch.val f) = qGib s := by
  refine qGib_congr fun c => ?_
  have hat : mcAt s ch.val = s.mcs[ch] := by simp [mcAt, vget]
  have hz : (vset s.mcs ch.val (f (mcAt s ch.val)))[0].spd = s.mcs[0].spd := by
    simp only [vset, Vector.getElem_setIfInBounds]
    split
    · next h => rw [hf, hat]; simp [h]
    · rfl
  show (vget (vset s.mcs ch.val (f (mcAt s ch.val))) (vset s.mcs ch.val (f (mcAt s ch.val)))[0] c).spd = _
  rw [vget_vset]
  split
  · next h =>
    obtain ⟨rfl, hc⟩ := h
    rw [hf, hat]
    simp [vget, hc]
  · by_cases hc : c < 16
    · simp [vget, hc]
    · simpa [vget, hc] using hz

/-- An access to a bank of a channel changes counters, and of the channels that one's banks. -/
theorem bankAccess_channel (s : State) (ch : Fin 16) (r u b w : Nat) :
    ∃ v banks, (v.mcs = s.mcs ∧ v.mem = s.mem ∧ v.poison = s.poison) ∧
      bankAccess s ch.val r u b w = updMc v ch.val fun m => { m with banks := banks } := by
  unfold bankAccess
  extract_lets _ _ _ _ _ _ v
  have hv : v.mcs = s.mcs ∧ v.mem = s.mem ∧ v.poison = s.poison := by
    dsimp only [v]
    split
    · rw [(bump_logged ..).eq]
      exact ⟨rfl, rfl, rfl⟩
    · exact ⟨rfl, rfl, rfl⟩
  exact ⟨v, _, hv, rfl⟩

/-! ### Sweep -/

theorem dramRead_clean {c sub line : Nat} (hrun : (mcAt s c).st ≠ .failed) (hclean : line ∉ s.poison) :
    dramRead s c sub line [] = (s, .clean) := by
  simp [dramRead, hrun, hclean]

/-- Sweep reads a line that is not poisoned, and moves on. -/
theorem sweepRead_moves (hrun : (mcAt s ch.val).st = .running)
    (hspend : spend s .sweep [(resDram ch.val, 1)] = (t, true))
    (hclean : lineAtLocal t ch.val (mcAt s ch.val).cursor ∉ s.poison)
    (hmore : (mcAt s ch.val).cursor + 1 < qGib s * 4194304) :
    Gives (.sweepRead ch []) s fun v =>
      (mcAt v ch.val).cursor = (mcAt s ch.val).cursor + 1 ∧ v.mem = s.mem ∧ v.poison = s.poison := by
  obtain ⟨hmcs, hmem, hpoison⟩ : t.mcs = s.mcs ∧ t.mem = s.mem ∧ t.poison = s.poison := by
    have h := spend_keeps s .sweep [(resDram ch.val, 1)]
    rwa [hspend] at h
  show ∃ v, execSweepRead ch [] s = .next v ∧ _
  unfold execSweepRead
  extract_lets c m
  rw [if_neg (by simp [m, c, hrun]), hspend]
  dsimp -zeta only
  extract_lets line o p b was r w total
  obtain ⟨v, banks, ⟨hvm, hvmem, hvp⟩, hb⟩ := bankAccess_channel t ch p.rank p.sub p.bank p.row
  have hmc : mcAt v ch.val = mcAt s ch.val := mcAt_congr (hvm.trans hmcs) _
  have hb : b = updMc v ch.val fun m => { m with banks := banks } := hb
  have hat : mcAt b ch.val = { mcAt s ch.val with banks := banks } := by rw [hb, mcAt_updMc, hmc]
  have hline : line ∉ b.poison := by rw [hb]; show line ∉ v.poison; rw [hvp, hpoison]; exact hclean
  have hread : dramRead b c p.sub line [] = (b, .clean) := dramRead_clean (by rw [hat]; simp [hrun]) hline
  have hr : r = b := by
    show (if (dramRead b c p.sub line []).2 = .corrected then _ else (dramRead b c p.sub line []).1) = b
    rw [hread]
    exact if_neg (by simp)
  have hw : w = b := (if_neg (by simpa [was] using hline)).trans hr
  have hsize : qGib b = qGib s := by
    have hv : qGib v = qGib s := qGib_congr fun c => by simp only [hvm.trans hmcs]
    rw [hb]
    exact (qGib_updMc _ (by exact fun _ => rfl)).trans hv
  have htotal : ¬ (mcAt s ch.val).cursor + 1 ≥ total := by
    have : total = qGib s * 4194304 := by
      show qGib w * (gib / 256) = _
      rw [hw, hsize]
      simp [gib]
    omega
  refine ⟨_, rfl, ?_, ?_, ?_⟩
  · rw [mcAt_updMc, hw, hat]
    dsimp only
    rw [if_neg htotal]
  · rw [hw, hb]
    exact hvmem.trans hmem
  · rw [hw, hb]
    exact hvp.trans hpoison

/-! ### Drift -/

/-- Where a lane's drift stands after a step: beyond 16 steps it is retrained. -/
def drifted (d : Int) : Int := if d.natAbs > 16 then 0 else d

/-- A lane after a check of a kind that moves a centre. -/
def laneAfter (kind : CalKind) (dir : Int) (l : Lane) : Lane :=
  match kind with
  | .readWindow => { l with rdDrift := drifted (l.rdDrift + oneStep dir) }
  | .writeTiming => { l with wrDrift := drifted (l.wrDrift + oneStep dir) }
  | .zq => l

theorem lane_driftLane {k : Nat} {l : Lane} (hl : Tab.look (mcAt s ch.val).lanes k = some l) (old new : Int)
    (put : Int → Lane → Lane) :
    Tab.look (mcAt (driftLane s ch.val k old new put) ch.val).lanes k = some (put (drifted new) l) := by
  have hput : ∀ d, Tab.look (mcAt (updMc s ch.val fun m => match Tab.look m.lanes k with
      | some l => { m with lanes := Tab.put m.lanes k (put d l) }
      | none => m) ch.val).lanes k = some (put d l) := by
    intro d
    rw [mcAt_updMc, hl]
    exact look_put_self ..
  unfold driftLane drifted
  split
  · rw [mcAt_logEvent]
    exact hput 0
  · extract_lets _ v
    split
    · rw [mcAt_logEvent]
      exact hput new
    · exact hput new

section Calibration
variable {rank : Fin 8} {sub : Bool} {lane : Fin 5} {dir : Int} {l : Lane} (hrun : (mcAt s ch.val).st = .running)
  (hrank : rank.val < ranksOf (mcAt s ch.val))
  (hl : Tab.look (mcAt s ch.val).lanes (rank.val * 16 + sub.toNat * 8 + lane.val) = some l)
include hrun hrank hl

/-- A calibration check that its budget allows moves the lane's centre by at most a step. -/
theorem calibrationCheck_drifts {kind : CalKind} {u : State} (hkind : kind ≠ .zq)
    (hspend : (if lane = 0 then spend s .cal [(resDram ch.val, if kind = .readWindow then 4 else 2)] else (s, true)) =
      (u, true)) (hu : u.mcs = s.mcs) :
    Gives (.calibrationCheck ch rank sub lane kind dir) s fun v =>
      Tab.look (mcAt v ch.val).lanes (rank.val * 16 + sub.toNat * 8 + lane.val) = some (laneAfter kind dir l) := by
  have hlane : Tab.look (mcAt u ch.val).lanes (rank.val * 16 + sub.toNat * 8 + lane.val) = some l := by
    rw [mcAt_congr hu, hl]
  show ∃ v, execCalibrationCheck ch rank sub lane kind dir s = .next v ∧ _
  unfold execCalibrationCheck
  extract_lets c m k
  rw [if_neg (by simp [m, c, hrun, hrank]), hspend]
  have hm : Tab.look m.lanes k = some l := hl
  rw [hm]
  cases kind with
  | readWindow => exact ⟨_, rfl, lane_driftLane hlane ..⟩
  | writeTiming => exact ⟨_, rfl, lane_driftLane hlane ..⟩
  | zq => exact absurd rfl hkind

end Calibration

/-- What a check spends where its lane is the first, and where it is not. -/
theorem calSpend {lane : Fin 5} {costs : List (Nat × Nat)} (h : lane = 0 → spend s .cal costs = (t, true)) :
    ∃ u, (if lane = 0 then spend s .cal costs else (s, true)) = (u, true) ∧ u.mcs = s.mcs := by
  by_cases h0 : lane = 0
  · refine ⟨t, by rw [if_pos h0, h h0], ?_⟩
    have hkeep := (spend_keeps s .cal costs).1
    rwa [h h0] at hkeep
  · exact ⟨s, if_neg h0, rfl⟩

/-- Settles O50: each event of a channel does what its rule says. -/
theorem channelsRun : Obligations.ChannelsRun := by
  unfold Obligations.ChannelsRun
  intro s t ch rank sub busy bank lane temps dir l hrun x p put step drift close
  have hrun' : ¬ (mcAt s ch.val).st ≠ .running := Classical.not_not.mpr hrun
  refine ⟨rfl, fun hrank => ?_, fun hot hcold => ?_, fun hcool => ?_, sweepRead_moves hrun, fun hfew => ?_,
    fun hmany => ?_, ?_⟩
  · have hgo : ¬ (decide ((mcAt s ch.val).st ≠ .running) || decide (rank.val ≥ ranksOf (mcAt s ch.val))) = true := by
      simp [hrun, show rank.val < ranksOf (mcAt s ch.val) from hrank]
    refine ⟨fun h8 => (if_neg hgo).trans (if_pos h8), fun h8 => ?_, fun h8 => ?_⟩
    · exact (if_neg hgo).trans ((if_neg (Nat.not_le.mpr h8)).trans (if_pos rfl))
    · exact (if_neg hgo).trans ((if_neg (Nat.not_le.mpr h8)).trans (if_neg Bool.false_ne_true))
  · have hany : (temps.any fun t => decide (t > 85)) = true := by simpa using hot
    have hhot : ¬ (mcAt s ch.val).hot = true := fun h => Bool.false_ne_true (hcold.symm.trans h)
    refine ⟨_, (if_neg hrun').trans ((if_pos hany).trans (if_neg hhot)), ?_⟩
    dsimp only
    rw [mcAt_logEvent, mcAt_updMc]
  · have hany : ¬ (temps.any fun t => decide (t > 85)) = true := by
      simp only [List.any_eq_true, decide_eq_true_eq, not_exists, not_and]
      intro n hn
      have := hcool n hn
      omega
    have hall : (temps.all fun t => decide (t ≤ 83)) = true := by simpa using hcool
    exact (if_neg hrun').trans ((if_neg hany).trans (if_pos hall))
  · refine ⟨_, (if_neg hrun').trans (if_neg (Nat.not_le.mpr hfew)), ?_⟩
    dsimp only
    rw [mcAt_logEvent, mcAt_bump, mcAt_updMc]
    exact ⟨rfl, hrun⟩
  · refine ⟨_, (if_neg hrun').trans (if_pos hmany), ?_⟩
    dsimp only
    rw [mcAt_logEvent, mcAt_updMc]
  · intro k hrank hl
    refine ⟨fun hspend => ?_, fun hspend => ?_⟩
    · obtain ⟨u, hu, hmcs⟩ := calSpend hspend
      exact calibrationCheck_drifts (kind := .readWindow) hrun hrank hl (by simp) hu hmcs
    · obtain ⟨u, hu, hmcs⟩ := calSpend hspend
      exact calibrationCheck_drifts (kind := .writeTiming) hrun hrank hl (by simp) hu hmcs

end Sys2Proof.Machine

/-! The start of the package, phase by phase (19). -/

namespace Sys2Proof.Machine
-- Proofs one after the other: side by side they take more memory than the check allows.
set_option Elab.async false

variable {s t : State} {m : Master} {k : Nat}

/-! ### What an event leaves of the registers -/

theorem cell_setCell_ne {j : Nat} (h : j ≠ k) (v : Word) : cell (setCell s k v) j = cell s j :=
  (cell_setCell ..).trans (if_neg h)

theorem cell_bump_ne {p off n i j : Nat} (h : j ≠ regKey p off i) : cell (bump s p off n i) j = cell s j :=
  cell_setCell_ne h _

theorem cell_latch {e : Event} (h10 : k ≠ regKey e.page 0x010) (h18 : k ≠ regKey e.page 0x018) :
    cell (latch s e) k = cell s k := by
  unfold latch
  extract_lets kf kn v
  split
  · exact cell_setCell_ne h10 _
  · split
    · exact cell_setCell_ne h18 _
    · exact cell_setCell_ne h18 _

theorem cell_formRecord {e : Event} (h : k ≠ regKey keeperPage 0x10C) : cell (formRecord s e) k = cell s k := by
  unfold formRecord
  extract_lets _ _ _ _ r _ u v w
  have hv : cell v k = cell s k := by
    dsimp only [v]
    split
    · split <;> rfl
    · rfl
  have hw : cell w k = cell s k := by
    dsimp only [w]
    split <;> exact hv
  split
  · rfl
  · split
    · unfold enterEvq
      split
      · exact (cell_bump_ne h).trans hw
      · exact hw
    · exact hw

/-- An event changes the first and the next code of its page, and what the Keeper counts of its queue. -/
theorem cell_logEvent {e : Event} (h10 : k ≠ regKey e.page 0x010) (h18 : k ≠ regKey e.page 0x018)
    (k10 : k ≠ regKey keeperPage 0x010) (k18 : k ≠ regKey keeperPage 0x018) (k10C : k ≠ regKey keeperPage 0x10C) :
    cell (logEvent s e) k = cell s k := by
  have hrec : ∀ (u : State) (x : Event), cell (formRecord u x) k = cell u k := fun _ _ => cell_formRecord k10C
  unfold logEvent report
  extract_lets v
  split
  · rw [hrec, cell_latch (e := { page := keeperPage, code := 0x0174 }) k10 k18, hrec, cell_latch h10 h18]
  · rw [hrec, cell_latch h10 h18]

/-- The event of a mode that is entered is the Keeper's. -/
theorem cell_enterMode (x : ModeKind) (n : Nat) {off : Nat} (hoff : off ∉ [0x010, 0x018, 0x10C]) :
    cell (enterMode s x n) (regKey keeperPage off) = cell s (regKey keeperPage off) := by
  have hne : ∀ o ∈ [0x010, 0x018, 0x10C], regKey keeperPage off ≠ regKey keeperPage o := by
    intro o ho he
    have : off = o := by unfold regKey at he; omega
    exact hoff (this ▸ ho)
  unfold enterMode
  have h10 := hne 0x010 (by simp)
  have h18 := hne 0x018 (by simp)
  exact (cell_logEvent (e := { page := keeperPage, code := 0x0194, sub := x.code }) h10 h18 h10 h18
    (hne 0x10C (by simp))).trans (by exact rfl)

theorem logEvent_mode (s : State) (e : Event) : (logEvent s e).mode = s.mode := mode_of_steady (steady_logEvent s e)

/-- What the entry of a mode sets, and what it leaves alone. -/
theorem enterMode_enters (s : State) (x : ModeKind) (n : Nat) :
    (enterMode s x n).mode = { s.mode with mode := x, phase := n, transition := .none } ∧
      (enterMode s x n).feed = s.feed ∧ (enterMode s x n).lps = s.lps ∧ (enterMode s x n).mem = s.mem := by
  unfold enterMode
  rw [(logEvent_logged _ _).eq]
  exact ⟨rfl, rfl, rfl, rfl⟩

/-! ### Commands -/

theorem modeCommand_may {ok : Bool} {f : State → State} (h : MayCommand s m keeperPage) (ht : s.mode.transition = .none)
    (hok : ok = true) : modeCommand s m ok f = f s := by
  rw [modeCommand, show (ok && decide (s.mode.transition = .none)) = true by simp [ht, hok], command_may h]

theorem takeFeed_active (s : State) : (takeFeed s).feed.active.isSome = true := by
  unfold takeFeed
  split
  · assumption
  · extract_lets b
    cases hb : b <;> rfl

section PowerOn
variable (hm : MayCommand s m keeperPage) (ht : s.mode.transition = .none)
include hm ht

theorem powerOn_starts (hmode : s.mode.mode = .standby) (hport : m ≠ .manager) (hgood : feedGood s = true)
    (hvsb : s.feed.vsbOk = true) (htrip : s.feed.trip = false) (hpin : s.mode.pkgResetLow = false) :
    Gives (.powerOn m) s fun t => t.mode.mode = .init ∧ t.mode.phase = 1 ∧ t.mode.transition = .powerOn ∧
      t.feed.active.isSome = true := by
  refine ⟨powerOnCommand s m, rfl, ?_⟩
  unfold powerOnCommand
  extract_lets ok
  rw [modeCommand_may hm ht (by simp [ok, hmode, hport, hgood, hvsb, htrip, hpin, isPort])]
  extract_lets held u _ v w _
  obtain ⟨hwmode, hwfeed, -, -⟩ := enterMode_enters v .init 1
  have hv : v.feed.active.isSome = true := by
    have hheld : ¬ held = true := by simp [held, hmode]
    show (if held = true then _ else _ : State).feed.active.isSome = true
    rw [if_neg hheld]
    exact takeFeed_active s
  refine ⟨?_, ?_, rfl, ?_⟩
  · show w.mode.mode = .init
    rw [hwmode]
  · show w.mode.phase = 1
    rw [hwmode]
  · show w.feed.active.isSome = true
    rw [hwfeed, hv]

theorem proceed_goes (hmode : s.mode.mode = .init) (hphase : s.mode.phase = 2 ∨ s.mode.stoppedAt = true)
    (hpen : s.pen.holder = some m) (hstrike : strikeOrdered s = false) (htap : s.tap.used = false) :
    exec (.proceed m) s =
      .next { s with mode := { s.mode with phase := 3, result := 0, stoppedAt := false, heard := [] } } := by
  refine congrArg Host.Outcome.next (modeCommand_may hm ht ?_)
  rcases hphase with h | h <;> simp [hmode, h, hpen, hstrike, htap]

theorem ipl_starts (hrun : running s = true) (hwait : (lpAt s lp0).run = .waiting)
    (hop : startOp (removeStatus s (iplSch s)) (iplSch (removeStatus s (iplSch s)))
      (newOp mgrCtx (bootBase (removeStatus s (iplSch s))) 0 0 none true) = (t, 0)) :
    exec (.ipl m) s = .next { t with mode := { t.mode with
      ipl := .first (iplSch (removeStatus s (iplSch s))) (bootBase (removeStatus s (iplSch s))) } } := by
  refine congrArg Host.Outcome.next ((modeCommand_may hm ht (by simp [hrun, hwait])).trans ?_)
  simp only [startIpl, hop, if_true]

end PowerOn

/-! ### Phases of Initialisation -/

section Phases
variable {inp : PhaseIn} (hinit : s.mode.mode = .init ∧ s.mode.stoppedAt = false ∧ s.err.degKeeper = false)

/-- What a phase that completes does. -/
def phaseEnds (s : State) (inp : PhaseIn) : State :=
  match s.mode.phase with
  | 1 => if s.mode.warmResetLow then s else enterConfig (powerDies s)
  | 3 => readSpds s inp.spds
  | 4 => trainAll s inp
  | 5 => coupleAll s inp.slaveTod
  | 6 =>
    let s := match s.mode.clear with
      | some keep => clearDram s keep
      | none => s
    enterMode { s with mode := { s.mode with clear := none } } .load
      (if slotVerified s (currentSlot s) then 0x11 else 0x10)
  | _ => s

include hinit in
theorem phaseComplete_ends : exec (.initialisationPhaseComplete inp) s = .next (phaseEnds s inp) := by
  obtain ⟨hmode, hstop, hdeg⟩ := hinit
  exact congrArg Host.Outcome.next (if_neg (by simp [hmode, hstop, hdeg]))

/-! #### Phase 01h -/

theorem powered_updPair {p q : Fin 48} {f : Pair → Pair} (hf : ∀ x, x.powered = true → (f x).powered = true)
    (h : (pairAt s p).powered = true) : (pairAt (updPair s q f) p).powered = true := by
  by_cases hp : p = q
  · subst hp; rw [pairAt_updPair]; exact hf _ h
  · rwa [pairAt_updPair_ne _ _ hp]

theorem foldl_powered (act : List (Fin 48)) (s : State) : ∀ p, p ∈ act ∨ (pairAt s p).powered = true →
    (pairAt (act.foldl (fun s p => updPair s p fun x => { x with powered := true }) s) p).powered = true := by
  induction act generalizing s with
  | nil => exact fun p h => h.elim (by simp) id
  | cons a act ih =>
    intro p h
    refine ih _ p ?_
    rcases h with h | h
    · rcases List.mem_cons.mp h with rfl | h
      · exact .inr (by rw [pairAt_updPair])
      · exact .inl h
    · exact .inr (powered_updPair (fun _ _ => rfl) h)

theorem powered_numbered (l : List (Fin 48 × Nat)) {p : Fin 48} (s : State) (h : (pairAt s p).powered = true) :
    (pairAt (l.foldl (fun s (e : Fin 48 × Nat) =>
      updPair s e.1 fun x => { x with lp := if h : e.2 < 48 then some ⟨e.2, h⟩ else none }) s) p).powered = true := by
  induction l generalizing s with
  | nil => exact h
  | cons e l ih => exact ih _ (powered_updPair (fun _ hx => hx) h)

/-- Power comes to the pairs that are active, and changes nothing of the mode. -/
theorem powerDies_powers : (powerDies s).mode = s.mode ∧
    ∀ p : Fin 48, (pairAt s p).role = .active → (pairAt (powerDies s) p).powered = true := by
  unfold powerDies
  extract_lets act u
  have hu : u.mode = s.mode :=
    foldl_view (g := State.mode) (f := fun s p => updPair s p fun x => { x with powered := true })
      (by exact fun _ _ => rfl) act s
  have hp : ∀ p : Fin 48, (pairAt s p).role = .active → (pairAt u p).powered = true := fun p hp =>
    foldl_powered act s p (.inl (List.mem_filter.mpr ⟨List.mem_finRange p, decide_eq_true hp⟩))
  split
  · exact ⟨hu, hp⟩
  · exact ⟨(foldl_view (g := State.mode) (by exact fun _ _ => rfl) _ _).trans hu,
      fun p h => powered_numbered _ _ (hp p h)⟩

include hinit in
theorem phaseOne_ends (hphase : s.mode.phase = 1) (hlow : s.mode.warmResetLow = false) (hwarm : s.mode.warm = false) :
    Gives (.initialisationPhaseComplete inp) s fun t => t.mode.phase = 2 ∧ t.mode.transition = .none ∧
      ∀ p : Fin 48, (pairAt s p).role = .active → (pairAt t p).powered = true := by
  obtain ⟨hmode, hpowered⟩ := powerDies_powers (s := s)
  refine ⟨_, phaseComplete_ends hinit, ?_⟩
  have hends : phaseEnds s inp = enterConfig (powerDies s) := by
    simp only [phaseEnds, hphase, hlow, Bool.false_eq_true, if_false]
  rw [hends]
  refine ⟨?_, rfl, hpowered⟩
  simp [enterConfig, hmode, hwarm]

/-! #### Phases 03h and 04h -/

theorem vget_ofFn {n : Nat} (f : Fin n → α) (d : α) (i : Fin n) : vget (Vector.ofFn f) d i.val = f i := by
  simp [vget]

include hinit in
theorem phaseThree_ends (hphase : s.mode.phase = 3) (hread : ∀ d ∈ inp.spds, d.readable = true)
    (hpop : populationFault s inp.spds = none) :
    Gives (.initialisationPhaseComplete inp) s fun t => t.mode.phase = 4 ∧ t.mode.stoppedAt = false := by
  refine ⟨_, phaseComplete_ends hinit, ?_⟩
  have hany : ¬ (inp.spds.any fun d => !d.readable) = true := by simpa using hread
  have hends : phaseEnds s inp = readSpds s inp.spds := by simp only [phaseEnds, hphase]
  rw [hends]
  unfold readSpds
  extract_lets asleep u
  rw [if_neg hany, show populationFault u inp.spds = none from hpop]
  exact ⟨rfl, hinit.2.1⟩

include hinit in
theorem phaseFour_ends (hphase : s.mode.phase = 4) (hlanes : inp.badLanes = []) (hlinks : inp.badLinks = []) :
    Gives (.initialisationPhaseComplete inp) s fun t => t.mode.phase = 5 ∧ t.dirty = [] ∧ t.txns = [] ∧
      ∀ ch : Fin 16, (mcAt t ch.val).st = .running ∨ (mcAt t ch.val).st = .unpopulated := by
  refine ⟨_, phaseComplete_ends hinit, ?_⟩
  have hends : phaseEnds s inp = trainAll s inp := by simp only [phaseEnds, hphase]
  rw [hends]
  unfold trainAll
  extract_lets _ u v _ w _
  rw [if_neg (by simp [hlanes]), if_neg (by simp [hlinks])]
  have hmcs : ∀ ch : Fin 16, (mcAt u ch.val).st = .running ∨ (mcAt u ch.val).st = .unpopulated := by
    intro ch
    have hat : mcAt u ch.val = if (mcAt s ch.val).st = .unpopulated then mcAt s ch.val
        else { mcAt s ch.val with st := if inp.badLanes.contains ch.val then .failed else .running } := vget_ofFn ..
    rw [hat]
    split
    · next h => exact .inr h
    · exact .inl (by simp [hlanes])
  have hw : w.dirty = [] ∧ w.txns = [] ∧ w.mcs = u.mcs := by
    dsimp only [w]
    split <;> exact ⟨rfl, rfl, rfl⟩
  obtain ⟨hdirty, htxns, hwm⟩ := hw
  have hsend : ∀ {β : Type} (g : State → β), (∀ o u, g (emit o u) = g u) → ∀ u, g (sendConfigs u) = g u :=
    fun g hg u => foldl_view (g := g) (fun s p => hg _ s) _ u
  refine ⟨congrArg Mode.phase (hsend State.mode (fun _ _ => rfl) _),
    (hsend State.dirty (fun _ _ => rfl) _).trans hdirty,
    (hsend State.txns (fun _ _ => rfl) _).trans htxns, fun ch => ?_⟩
  rw [mcAt_congr (hsend State.mcs (fun _ _ => rfl) _)]
  show (mcAt w ch.val).st = .running ∨ (mcAt w ch.val).st = .unpopulated
  rw [mcAt_congr hwm]
  exact hmcs ch

/-! #### Phases 05h and 06h -/

theorem initFails_stops (r ch : Nat) :
    (initFails s r ch).mode.result = r ∧ (initFails s r ch).mode.stoppedAt = true := by
  unfold initFails
  rw [logEvent_mode]
  exact ⟨rfl, rfl⟩

include hinit in
theorem couplingExchange_heard {c : Coupling} (hphase : s.mode.phase = 5) (hothers : others s ≠ []) :
    exec (.couplingExchange c) s = .next (match couplingFault s c with
      | some r => initFails s r 0
      | none => { s with mode := { s.mode with heard := c :: s.mode.heard } }) := by
  obtain ⟨hmode, hstop, -⟩ := hinit
  exact congrArg Host.Outcome.next (if_neg (by simp [hmode, hstop, hphase, hothers]))

include hinit in
theorem phaseFive_ends (hphase : s.mode.phase = 5) (hheard : allHeard s = true) (hmaster : isSlave s = false) :
    exec (.initialisationPhaseComplete inp) s =
      .next { s with mode := { s.mode with phase := 6, coupled := others s } } := by
  rw [phaseComplete_ends hinit]
  simp only [phaseEnds, hphase, coupleAll, hheard, hmaster, Bool.not_true, Bool.false_and, Bool.false_eq_true, if_false]
  cases inp.slaveTod <;> rfl

include hinit in
theorem phaseSix_ends (hphase : s.mode.phase = 6) (hclear : s.mode.clear = none) :
    Gives (.initialisationPhaseComplete inp) s fun t => t.mode.mode = .load ∧ t.mem = s.mem ∧
      t.mode.phase = if slotVerified s (currentSlot s) then 0x11 else 0x10 := by
  refine ⟨_, phaseComplete_ends hinit, ?_⟩
  have hends : phaseEnds s inp = enterMode { s with mode := { s.mode with clear := none } } .load
      (if slotVerified s (currentSlot s) then 0x11 else 0x10) := by
    simp only [phaseEnds, hphase, hclear]
  rw [hends]
  obtain ⟨hmode, -, -, hmem⟩ := enterMode_enters { s with mode := { s.mode with clear := none } } .load
    (if slotVerified s (currentSlot s) then 0x11 else 0x10)
  exact ⟨by rw [hmode], hmem, by rw [hmode]⟩

end Phases

/-! ### Load -/

/-- The processors' reset changes no register of a page and no mode. -/
theorem waitLp_keeps (lp : Fin 48) (s : State) : (waitLp s lp).regs = s.regs ∧ (waitLp s lp).mode = s.mode := by
  unfold waitLp emptyTlbs
  split <;> exact ⟨rfl, rfl⟩

theorem beginLp_begins (lp : Fin 48) (pswa psws : Word) :
    (beginLp s lp pswa psws).mode = s.mode ∧ (lpAt (beginLp s lp pswa psws) lp).run = .running ∧
      (archOf (beginLp s lp pswa psws) lp).pswa = pswa &&& 0xFFFFFFFFFFFFFFFC ∧
      (archOf (beginLp s lp pswa psws) lp).psws = psws &&& maskPsws := by
  unfold beginLp archOf
  rw [lpAt_updLp]
  refine ⟨?_, rfl, rfl, rfl⟩
  unfold emptyTlbs
  split <;> rfl

theorem privOf_manager (w : Word) :
    privOf ((w &&& 0x3FFFFFFFFFFFFFFF ||| 0x8000000000000000) &&& maskPsws) = 2 := by
  have hext : (((w &&& 0x3FFFFFFFFFFFFFFF ||| 0x8000000000000000) &&& maskPsws) >>> 62).setWidth 2 = 2#2 := by
    ext i hi
    have : i = 0 ∨ i = 1 := by omega
    rcases this with rfl | rfl <;> simp [maskPsws]
  have := congrArg BitVec.toNat hext
  simpa [privOf, field, BitVec.toNat_setWidth, BitVec.toNat_ushiftRight] using this

/-- The first processor begins at its start address where BOOT_CTL asks for that. -/
theorem beginPackage_starts (hrun : cellBit s keeperPage 0x148 31 = true)
    (hipl : cellBit s keeperPage 0x148 30 = false) :
    (beginPackage s).mode = s.mode ∧ (lpAt (beginPackage s) lp0).run = .running ∧
      privOf (archOf (beginPackage s) lp0).psws = 2 ∧
      (archOf (beginPackage s) lp0).pswa = cell s (regKey keeperPage 0x150) &&& 0xFFFFFFFFFFFFFFFC := by
  unfold beginPackage
  extract_lets u
  have hregs : u.regs = s.regs := foldl_view (g := State.regs) (fun s l => (waitLp_keeps l s).1) _ s
  have hmode : u.mode = s.mode := foldl_view (g := State.mode) (fun s l => (waitLp_keeps l s).2) _ s
  have hbit : ∀ i, cellBit u keeperPage 0x148 i = cellBit s keeperPage 0x148 i := fun i => by
    simp only [cellBit, cell_of_regs hregs]
  rw [hbit, hbit, hrun, hipl, cell_of_regs hregs, cell_of_regs hregs]
  obtain ⟨hm, hr, hpc, hps⟩ := beginLp_begins (s := u) lp0 (cell s (regKey keeperPage 0x150))
    (cell s (regKey keeperPage 0x158) &&& 0x3FFFFFFFFFFFFFFF ||| 0x8000000000000000)
  exact ⟨hm.trans hmode, hr, hps ▸ privOf_manager _, hpc⟩

section Load
variable (hload : s.mode.mode = .load) (hver : slotVerified s (currentSlot s) = true) (hres : s.mode.result ≠ 0x31)
  (hdeg : s.err.degKeeper = false) (hcompat : compat s = false)

include hcompat in
theorem sectionsOk_native : ¬ (!sectionsOk s) = true := by
  simp [sectionsOk, show cellBit s keeperPage 0x0C4 31 = false from hcompat]

include hload hver hres hdeg hcompat

theorem loadComplete_stops : Gives (.loadComplete false) s fun t => t.mode.mode = .load ∧ t.mode.result = 0x31 := by
  have hgo : ¬ (s.mode.mode ≠ .load ∨ slotVerified s (currentSlot s) = false ∨ s.mode.result = 0x31 ∨
      s.err.degKeeper = true) := by simp [hload, hver, hres, hdeg]
  refine ⟨_, congrArg Host.Outcome.next ((if_neg hgo).trans ((if_neg (sectionsOk_native hcompat)).trans
    (if_pos rfl))), ?_⟩
  dsimp only
  rw [loadFails, logEvent_mode]
  exact ⟨hload, rfl⟩

theorem loadComplete_runs (hrun : cellBit s keeperPage 0x148 31 = true) (hipl : cellBit s keeperPage 0x148 30 = false) :
    Gives (.loadComplete true) s fun t => t.mode.mode = .operating ∧ t.mode.result = 0 ∧
      (lpAt t lp0).run = .running ∧ privOf (archOf t lp0).psws = 2 ∧
      (archOf t lp0).pswa = cell s (regKey keeperPage 0x150) &&& 0xFFFFFFFFFFFFFFFC := by
  have hgo : ¬ (s.mode.mode ≠ .load ∨ slotVerified s (currentSlot s) = false ∨ s.mode.result = 0x31 ∨
      s.err.degKeeper = true) := by simp [hload, hver, hres, hdeg]
  show ∃ t, execLoadComplete true s = .next t ∧ _
  unfold execLoadComplete
  extract_lets slot _ img _ u
  rw [if_neg hgo, if_neg (sectionsOk_native hcompat), if_neg (by simp)]
  have hmode : (if compat u then ModeKind.compat else ModeKind.operating) = .operating := if_neg (by
    rw [show compat u = compat s from rfl, hcompat]; simp)
  rw [hmode]
  have hcell : ∀ {off}, off ∉ [0x010, 0x018, 0x10C] →
      cell (enterMode u .operating) (regKey keeperPage off) = cell s (regKey keeperPage off) :=
    fun h => (cell_enterMode .operating 0 h).trans rfl
  have hbit : ∀ i, cellBit (enterMode u .operating) keeperPage 0x148 i = cellBit s keeperPage 0x148 i := fun i => by
    simp only [cellBit, hcell (off := 0x148) (by simp)]
  obtain ⟨hm, hr, hpriv, hpc⟩ := beginPackage_starts (s := enterMode u .operating) ((hbit 31).trans hrun)
    ((hbit 30).trans hipl)
  refine ⟨_, rfl, ?_, ?_, hr, hpriv, hpc.trans ?_⟩
  · rw [hm, (enterMode_enters ..).1]
  · rw [hm, (enterMode_enters ..).1]
  · rw [hcell (by simp)]

end Load


/-- Settles O51: each phase of the start ends as its rule says. -/
theorem packageStarts : Obligations.PackageStarts := by
  unfold Obligations.PackageStarts
  intro s t m inp c r init mode
  refine ⟨fun hm ht => ⟨?_, ?_, ?_⟩, fun hinit => ⟨phaseOne_ends hinit, phaseThree_ends hinit, phaseFour_ends hinit,
    fun hphase => ⟨fun ho hc => ?_, fun ho hc => ?_, fun hheard => ?_, phaseFive_ends hinit hphase⟩,
    phaseSix_ends hinit⟩, fun hload hver hres hdeg => ⟨?_, ?_⟩⟩
  · exact powerOn_starts hm ht
  · exact proceed_goes hm ht
  · exact fun hrun hwait hop => ipl_starts hm ht hrun hwait hop
  · rw [couplingExchange_heard hinit hphase ho, hc]
  · refine ⟨_, couplingExchange_heard hinit hphase ho, ?_⟩
    rw [hc]
    exact initFails_stops r 0
  · obtain ⟨hmode, hstop, -⟩ := hinit
    exact ⟨_, congrArg Host.Outcome.next (if_pos ⟨hmode, hphase, hstop, hheard⟩), initFails_stops 0x22 0⟩
  · exact loadComplete_runs hload hver hres hdeg
  · exact loadComplete_stops hload hver hres hdeg

end Sys2Proof.Machine

/-! What stopping and draining the package leaves alone (19, Table 19-7). -/

namespace Sys2Proof.Machine
-- Proofs one after the other: side by side they take more memory than the check allows.
set_option Elab.async false

variable {s t : State}

/-! ### Ends of operations -/

theorem steady_decide (s : State) (n : Nat) (o : Op) (fsc d : Nat) : steady (decide_ s n o fsc d) = steady s := by
  unfold decide_; split <;> rfl

theorem steady_sendEnd (s : State) (n : Nat) (o : Op) (cmd : Nat) : steady (sendEnd s n o cmd).1 = steady s := by
  unfold sendEnd jrnBefore sendWin
  dsimp only
  split <;> simp

theorem steady_sendAsked (s : State) (n : Nat) (o : Op) : steady (sendAsked s n o) = steady s := by
  unfold sendAsked
  split
  · rfl
  · split
    · exact (steady_setOp ..).trans (steady_sendEnd ..)
    · split
      · exact (steady_setOp ..).trans (steady_sendEnd ..)
      · rfl

theorem steady_sendCancel (s : State) (n : Nat) (o : Op) (fsc d : Nat) :
    steady (sendCancel s n o fsc d) = steady s := steady_sendAsked ..

theorem steady_endByReset (s : State) (n : Nat) (o : Op) (fsc : Nat) : steady (endByReset s n o fsc) = steady s := by
  unfold endByReset
  exact steady_ite rfl (steady_ite (steady_decide ..) (steady_ite (steady_decide ..) (steady_sendCancel ..)))

theorem steady_endOps (s : State) (ctx : Option Nat) (fsc : Nat) : steady (endOps s ctx fsc) = steady s :=
  steady_foldl (fun _ _ => steady_endByReset ..) _ _

theorem steady_flushAll (s : State) : steady (flushAll s) = steady s := by
  unfold flushAll
  extract_lets u
  have hu : steady u = steady s := steady_foldl (fun _ _ => steady_flushL2 ..) _ _
  clear_value u
  exact (steady_foldl (fun _ _ => steady_memPut ..) _ _).trans hu

/-! ### The mode, the Pen and the fuses -/

/-- What outlives the processors' stop and the ends of operations and jobs. -/
def outer (s : State) : Mode × Pen × Fuses := (s.mode, s.pen, s.fuses)

theorem outer_of_steady (h : steady t = steady s) : outer t = outer s :=
  congrArg (fun x : Steady => (x.mode, x.pen, x.fuses)) h

theorem outer_of_settled (h : settled t = settled s) : outer t = outer s :=
  congrArg (fun x : Steady => (x.mode, x.pen, x.fuses)) h

theorem outer_closeInterval (s : State) (lp : Fin 48) : outer (closeInterval s lp) = outer s := by
  unfold closeInterval markClean
  split <;> rfl

theorem outer_freeJob (j : Nat) (x : Job) : outer (freeJob s j x) = outer s := by
  have hmeter : ∀ (t : State) c i n, outer (meter t c i n) = outer t := fun _ _ _ _ => outer_of_steady (steady_meter ..)
  have hbump : ∀ (t : State) p o, outer (bump t p o) = outer t := fun _ _ _ => outer_of_steady (steady_bump ..)
  unfold freeJob
  extract_lets u v
  have hu : outer u = outer s := by
    dsimp only [u]; split
    · exact hbump ..
    · rfl
  have hv : outer v = outer u := by
    dsimp only [v]; split
    · exact hbump ..
    · rfl
  exact (hmeter ..).trans (hv.trans hu)

theorem outer_completeJob (j : Nat) (x : Job) (e : JobEnd) : outer (completeJob s j x e) = outer s := by
  have hwrite : ∀ (t : State) a bs w, outer (agentWrite t a bs w) = outer t :=
    fun _ _ _ _ => outer_of_steady (steady_agentWrite ..)
  unfold completeJob
  extract_lets u res v w
  have hw : outer w = outer s :=
    (outer_freeJob j x).trans ((hwrite ..).trans
      (foldl_view (g := outer) (fun s (e : Nat × List Byte) => hwrite s e.1 e.2 x.agent) _ s))
  split
  · exact hw
  · exact hw

theorem outer_abortJobs (ctx : Option Nat) (d : Nat) : outer (abortJobs s ctx d) = outer s :=
  foldl_view (g := outer) (fun _ _ => outer_completeJob ..) _ _

theorem outer_drainStorage (lp : Fin 48) : outer (drainStorage s lp) = outer s :=
  outer_of_settled (settled_drainStorage ..)

theorem outer_stopLp (lp : Fin 48) : outer (stopLp s lp) = outer s := rfl

theorem outer_holdOne (l : Fin 48) :
    outer (if (lpAt s l).run ≠ .running then stopLp s l
      else if atBoundary s l then stopLp (drainStorage (closeInterval s l) l) l
      else s) = outer s := by
  split
  · exact outer_stopLp l
  · split
    · exact (outer_stopLp l).trans ((outer_drainStorage l).trans (outer_closeInterval s l))
    · rfl

theorem outer_holdStop (s : State) : outer (holdStop s) = outer s :=
  foldl_view (g := outer) (fun _ l => (outer_holdOne l).trans (outer_drainStorage l)) _ s

theorem outer_announced (h : outer t = outer s) :
    outer { t with mode := { t.mode with announced := true } } =
      ({ s.mode with announced := true }, s.pen, s.fuses) := by
  obtain ⟨hm, hrest⟩ := Prod.mk.inj h
  obtain ⟨hp, hf⟩ := Prod.mk.inj hrest
  simp only [outer, hm, hp, hf]

/-- The flush of Memory hold is announced, and changes nothing else of this. -/
theorem outer_holdFlush (s : State) :
    outer (holdFlush s) = ({ s.mode with announced := true }, s.pen, s.fuses) := by
  unfold holdFlush
  extract_lets u d v
  have hu : outer u = outer s := by
    refine foldl_view (g := outer) (fun s e => ?_) _ s
    split
    · exact outer_of_steady (steady_sendFrame ..)
    · rfl
  have hv : outer v = outer s :=
    (outer_of_steady (steady_flushAll ..)).trans ((outer_abortJobs ..).trans hu)
  exact outer_announced hv

/-! ### The Keeper's BOOT_CTL -/

/-- BOOT_CTL (19 R456). -/
def bootCtl (s : State) : Word := cell s (regKey keeperPage 0x148)

/-- Registers whose offsets in their pages differ are not the same. -/
theorem regKey_ne {p off i : Nat} (h : off % 4096 ≠ 0x148) : regKey keeperPage 0x148 ≠ regKey p off i := by
  unfold regKey keeperPage pageIx
  omega

theorem bootCtl_of_regs (h : t.regs = s.regs) : bootCtl t = bootCtl s := cell_of_regs h _

theorem bootCtl_setCell {p off i : Nat} (h : off % 4096 ≠ 0x148) (v : Word) :
    bootCtl (setCell s (regKey p off i) v) = bootCtl s := cell_setCell_ne (regKey_ne h) v

theorem bootCtl_bump {p off n i : Nat} (h : off % 4096 ≠ 0x148) : bootCtl (bump s p off n i) = bootCtl s :=
  bootCtl_setCell h _

theorem bootCtl_logEvent (s : State) (e : Event) : bootCtl (logEvent s e) = bootCtl s :=
  cell_logEvent (regKey_ne (by decide)) (regKey_ne (by decide)) (regKey_ne (by decide))
    (regKey_ne (by decide)) (regKey_ne (by decide))

theorem bootCtl_ite {c : Prop} [Decidable c] {u : State} (ht : bootCtl t = bootCtl s) (hu : bootCtl u = bootCtl s) :
    bootCtl (if c then t else u) = bootCtl s := by
  split <;> assumption

/-! #### Memory and caches -/

theorem bootCtl_writeBack (s : State) (line : Nat) : bootCtl (writeBack s line) = bootCtl s :=
  bootCtl_of_regs (foldl_view (g := State.regs) (by intro s e; unfold memPut; split <;> rfl) _ _)

theorem bootCtl_bankAccess (s : State) (c r u b w : Nat) : bootCtl (bankAccess s c r u b w) = bootCtl s := by
  unfold bankAccess
  extract_lets _ _ _ _ _ _ v
  have hv : bootCtl v = bootCtl s := bootCtl_ite (bootCtl_bump (by decide)) rfl
  exact hv

/-- The definition is rewritten by `delta` and its place left general: the kernel does not evaluate `dramAt` there. -/
theorem bootCtl_lineAccess (s : State) (line : Nat) : bootCtl (lineAccess s line) = bootCtl s := by
  suffices key : ∀ f, f = lineAccess → bootCtl (f s line) = bootCtl s from key _ rfl
  intro f hf
  delta lineAccess at hf
  rw [congrFun (congrFun hf s) line]
  extract_lets o
  clear_value o
  generalize dramAt s o = place
  cases place
  exact bootCtl_bankAccess ..

theorem bootCtl_wroteDram (s : State) (line : Nat) : bootCtl (wroteDram s line) = bootCtl s := by
  have hcount : bootCtl (countDram s line) = bootCtl s := by
    unfold countDram
    exact bootCtl_ite ((bootCtl_lineAccess ..).trans rfl) rfl
  unfold wroteDram
  exact bootCtl_ite ((bootCtl_bump (by decide)).trans hcount) hcount

theorem bootCtl_writeLine (s : State) (a : Nat) (bs : List Byte) (bad : Bool) :
    bootCtl (writeLine s a bs bad) = bootCtl s := by
  unfold writeLine
  extract_lets line whole u v w
  have hu : bootCtl u = bootCtl s := bootCtl_ite rfl (bootCtl_writeBack ..)
  have hv : v.regs = u.regs := by
    obtain ⟨lps, pairs, l3, hc⟩ := removeCopies_changes u line none
    obtain ⟨lps', hr⟩ := loseReservations_changes (removeCopies u line) line none
    dsimp only [v]
    rw [dirFree, hr, hc]
  have hw : w.regs = v.regs := by
    obtain ⟨mem, hm⟩ := memWrite_changes v a (bs.take 256)
    dsimp only [w]
    rw [hm]
  have hall : bootCtl w = bootCtl s := (bootCtl_of_regs (hw.trans hv)).trans hu
  clear_value w
  exact bootCtl_ite hall hall

/-! #### Homes and agents -/

theorem regs_sendDie (name : String) (die line : Nat) (s : State) : (sendDie name die line s).regs = s.regs := by
  obtain ⟨out, links, ctr, h⟩ := sendDie_changes name die line s
  rw [h]

theorem regs_farSnoop (s : State) (r : Req) : (farSnoop s r).regs = s.regs := by
  unfold farSnoop
  extract_lets far excl
  split
  · rfl
  · refine (foldl_view (g := State.regs) (by exact fun s d => regs_sendDie ..) _ _).trans ?_
    split
    · obtain ⟨mem, hm⟩ := memWrite_changes (taken s) (r.line * 256)
        ((List.range 256).map fun i => Config.freeByte s.freeCtr i)
      rw [freeLine, hm]
      rfl
    · rfl

theorem regs_countSlice (s : State) (line : Nat) : (countSlice s line).regs = s.regs := by
  unfold countSlice; split <;> rfl

theorem regs_openTxn (s : State) (r : Req) : (openTxn s r).regs = s.regs := by
  unfold openTxn
  extract_lets ds x home v
  have hv : v.regs = s.regs := by
    refine (foldl_view (g := State.regs) ?_ _ _).trans (regs_countSlice ..)
    intro s d
    rw [regs_sendDie]
    split
    · obtain ⟨bud, h⟩ := countHops_changes s home (d % 4) false
      rw [h]
    · rfl
  split
  · obtain ⟨out, links, ctr, h⟩ := answer_changes r.who "Ack" r.line v
    rw [h]; exact hv
  · exact hv

theorem bootCtl_tryOpen {r : Req} (h : tryOpen s r = some t) : bootCtl t = bootCtl s := by
  unfold tryOpen at h
  split at h
  · cases h
  · cases h; exact bootCtl_of_regs (regs_openTxn ..)

theorem bootCtl_dirFree (s : State) (line : Nat) : bootCtl (dirFree s line) = bootCtl s := rfl

theorem bootCtl_victimise {line : Nat} (h : victimise s line = some t) : bootCtl t = bootCtl s := by
  have hcount : ∀ p, bootCtl (bump (taken s) p 0x7C8) = bootCtl s := fun _ => bootCtl_bump (by decide)
  dsimp only [victimise] at h
  split at h
  · cases h; rfl
  · split at h
    · cases h
    · split at h
      · cases h; exact (bootCtl_dirFree ..).trans (hcount _)
      · cases h; exact (bootCtl_of_regs (regs_openTxn ..)).trans (hcount _)

theorem bootCtl_accept {r : Req} (h : accept s r = some t) : bootCtl t = bootCtl s := by
  dsimp only [accept] at h
  split at h
  · cases h
  · split at h
    · cases h; rfl
    · split at h
      next u hu => cases h; exact bootCtl_tryOpen hu
      next =>
        obtain ⟨u, hu, rfl⟩ := Option.map_eq_some_iff.mp h
        cases ho : tryOpen u r with
        | none =>
          have hv := bootCtl_victimise hu
          exact hv
        | some v => exact (bootCtl_tryOpen ho).trans (bootCtl_victimise hu)

theorem bootCtl_agentWriteLine (s : State) (w : Agent) (a : Nat) (bs : List Byte) :
    bootCtl (agentWriteLine s w a bs) = bootCtl s := by
  unfold agentWriteLine
  extract_lets line r
  split
  · split
    · exact (bootCtl_wroteDram ..).trans ((bootCtl_writeLine ..).trans
        (bootCtl_of_regs ((regs_countSlice ..).trans (regs_farSnoop ..))))
    · cases ho : accept s r with
      | none => rfl
      | some t => exact bootCtl_accept ho
  · split
    · unfold lostEvent
      split
      · exact bootCtl_logEvent ..
      · rfl
    · obtain ⟨out, links, ctr, h⟩ := toPkgData_changes r.kind.name (linePkg line) (homeDie s line) line bs
        (writeLine s a bs)
      rw [h]
      exact bootCtl_writeLine ..

theorem bootCtl_agentWrite (s : State) (a : Nat) (bs : List Byte) (w : Agent) :
    bootCtl (agentWrite s a bs w) = bootCtl s := by
  have key (n : Nat) (s : State) (a : Nat) (bs : List Byte) : bootCtl (agentWriteAux w n s a bs) = bootCtl s := by
    induction n generalizing s a bs with
    | zero => rfl
    | succ n ih => exact bootCtl_ite rfl ((ih ..).trans (bootCtl_agentWriteLine ..))
  exact key ..

/-! #### Operations -/

theorem bootCtl_meter (s : State) (c i n : Nat) : bootCtl (meter s c i n) = bootCtl s := by
  unfold meter; split <;> rfl

theorem bootCtl_sendFrame (n : Nat) (o : Op) (ty seq flags code len addr : Nat) (m : Bool) :
    bootCtl (sendFrame s n o ty seq flags code len addr m) = bootCtl s := by
  unfold sendFrame
  extract_lets u
  have hu : bootCtl u = bootCtl s := bootCtl_ite (bootCtl_meter ..) rfl
  exact hu

theorem bootCtl_freeJob (j : Nat) (x : Job) : bootCtl (freeJob s j x) = bootCtl s := by
  unfold freeJob
  extract_lets u v
  have hu : bootCtl u = bootCtl s := by
    dsimp only [u]; split
    · exact bootCtl_bump (by decide)
    · rfl
  have hv : bootCtl v = bootCtl u := by
    dsimp only [v]; split
    · exact bootCtl_bump (by decide)
    · rfl
  exact (bootCtl_meter ..).trans (hv.trans hu)

theorem bootCtl_inlineRecord (o : Op) (status detail : Nat) : bootCtl (inlineRecord s o status detail) = bootCtl s := by
  unfold inlineRecord
  split
  · rfl
  · split
    · rfl
    · exact (bootCtl_freeJob ..).trans (bootCtl_agentWrite ..)

theorem bootCtl_jrnWrite (n : Nat) (o : Op) (st : Nat) (w : Option Osw) :
    bootCtl (jrnWrite s n o st w) = bootCtl s := by
  unfold jrnWrite
  extract_lets x e k _ u hi v
  have hv : bootCtl v = bootCtl s := bootCtl_ite (bootCtl_setCell (by decide) _) rfl
  exact hv

theorem bootCtl_postFinal (n : Nat) (o : Op) (w : Osw) : bootCtl (postFinal s n o w) = bootCtl s := by
  unfold postFinal
  extract_lets x late w' a b c d e o' f
  have ha : bootCtl a = bootCtl s := bootCtl_inlineRecord ..
  have hb : bootCtl b = bootCtl s := (bootCtl_jrnWrite ..).trans ha
  have hc : bootCtl c = bootCtl s := bootCtl_ite ((bootCtl_sendFrame ..).trans hb) hb
  have hd : bootCtl d = bootCtl s := (bootCtl_meter ..).trans hc
  have he : bootCtl e = bootCtl s := bootCtl_ite ((bootCtl_bump (by decide)).trans hd) hd
  exact he

theorem bootCtl_endOpsAtBound (s : State) (fsc : Nat) : bootCtl (endOpsAtBound s fsc) = bootCtl s := by
  refine foldl_view (g := bootCtl) (fun s e => ?_) _ s
  unfold endAtBound
  exact bootCtl_ite rfl (bootCtl_postFinal ..)

/-! #### Dirty lines and the pairs -/

theorem bootCtl_flushLine (s : State) (p : Fin 48) (line : Nat) : bootCtl (flushLine s p line) = bootCtl s := by
  obtain ⟨bud, hbud⟩ := countTo_changes s (p.val / 12) line true false
  have hcount : bootCtl (countTo s (p.val / 12) line true false) = bootCtl s := by rw [hbud]; rfl
  unfold flushLine
  extract_lets u
  have hu : bootCtl u = bootCtl s := hcount
  clear_value u
  split
  · exact (bootCtl_wroteDram ..).trans ((bootCtl_writeBack ..).trans hu)
  · obtain ⟨out, links, ctr, h⟩ := sendLine_changes "WbM" (homeDie u line) line u
    rw [bootCtl_writeBack, h]
    exact hu

theorem bootCtl_l2Remove (s : State) (p : Fin 48) (line : Nat) : bootCtl (l2Remove s p line) = bootCtl s := by
  obtain ⟨lps, h⟩ := loseReservation_changes (l2Drop s p line) p line
  rw [l2Remove, h]
  rfl

theorem bootCtl_flushAll (s : State) : bootCtl (flushAll s) = bootCtl s := by
  unfold flushAll
  extract_lets u
  have hu : bootCtl u = bootCtl s := by
    refine foldl_view (g := bootCtl) (fun s p => ?_) _ s
    refine foldl_view (g := bootCtl) (fun s e => (bootCtl_l2Remove ..).trans ?_) _ s
    exact bootCtl_ite rfl (bootCtl_ite (bootCtl_writeBack ..) (bootCtl_flushLine ..))
  clear_value u
  refine (foldl_view (g := bootCtl) (fun s e => bootCtl_of_regs ?_) _ _).trans hu
  unfold memPut
  split <;> rfl

theorem bootCtl_takeIdentity (s : State) (p q : Fin 48) : bootCtl (takeIdentity s p q) = bootCtl s := by
  unfold takeIdentity
  extract_lets lp x u v
  have hv : bootCtl v = bootCtl s := rfl
  clear_value v lp
  split
  · exact hv
  · exact hv

theorem bootCtl_settlePairs (s : State) : bootCtl (settlePairs s) = bootCtl s := by
  unfold settlePairs
  extract_lets u v
  have hu : bootCtl u = bootCtl s := by
    refine foldl_view (g := bootCtl) (fun s x => ?_) _ s
    exact bootCtl_takeIdentity s x.src x.dst
  have hv : bootCtl v = bootCtl s := by
    dsimp only [v]
    split
    · exact hu
    · exact hu
  exact hv

theorem bootCtl_dropPending (s : State) (ctx : Nat) : bootCtl (dropPending s ctx) = bootCtl s := by
  unfold dropPending
  extract_lets _ u v
  have hv : bootCtl v = bootCtl s := by
    refine (foldl_view (g := bootCtl) (fun s e => ?_) _ _).trans (by rfl : bootCtl u = bootCtl s)
    exact bootCtl_ite rfl rfl
  refine (foldl_view (g := bootCtl) (fun s e => ?_) _ _).trans hv
  extract_lets rid
  split
  · exact bootCtl_ite rfl rfl
  · rfl

theorem bootCtl_enterMode (s : State) (x : ModeKind) (n : Nat) : bootCtl (enterMode s x n) = bootCtl s :=
  (bootCtl_logEvent ..).trans rfl

theorem bootCtl_emit (o : Output) (s : State) : bootCtl (emit o s) = bootCtl s := rfl

theorem bootCtl_warmDies (s : State) : bootCtl (warmDies s) = bootCtl s := by
  unfold warmDies
  extract_lets wb u v scr w a b
  have hu : bootCtl u = bootCtl s :=
    bootCtl_ite rfl (bootCtl_ite (bootCtl_flushAll s) ((bootCtl_emit _ _).trans (bootCtl_flushAll s)))
  have hv : bootCtl v = bootCtl s := (bootCtl_settlePairs u).trans hu
  have hw : bootCtl w = bootCtl s := hv
  have ha : bootCtl a = bootCtl s :=
    (foldl_view (g := bootCtl) (fun s l => bootCtl_of_regs (waitLp_keeps l s).1) _ w).trans hw
  have hb : bootCtl b = bootCtl s := (foldl_view (g := bootCtl) bootCtl_dropPending _ a).trans ha
  clear_value b
  exact hb

end Sys2Proof.Machine

/-! The commands and pins that stop the package, hold its memory or reset it (19). -/

namespace Sys2Proof.Machine
-- Proofs one after the other: side by side they take more memory than the check allows.
set_option Elab.async false

variable {s t u : State} {m : Master}

/-! ### What the loss of the dies' power leaves -/

theorem takeIdentity_changes (s : State) (p q : Fin 48) :
    ∃ pairs lps, takeIdentity s p q = { s with pairs := pairs, lps := lps } := by
  unfold takeIdentity
  extract_lets lp x u v
  have hv : ∃ pairs, v = { s with pairs := pairs } := ⟨_, rfl⟩
  obtain ⟨pairs, hv⟩ := hv
  clear_value v
  subst hv
  clear_value u lp
  split
  · exact ⟨pairs, _, rfl⟩
  · exact ⟨pairs, s.lps, rfl⟩

theorem settlePairs_changes (s : State) : ∃ pairs lps, settlePairs s = { s with
    pairs := pairs, lps := lps, sparings := [], rotation := none, rotRetry := none, rotAgain := none } := by
  have key (l : List Sparing) (s : State) : ∃ pairs lps, l.foldl (fun s (x : Sparing) =>
      updPair (takeIdentity s x.src x.dst) x.src fun y => { y with role := .failed, failed := true }) s =
      { s with pairs := pairs, lps := lps } := by
    induction l generalizing s with
    | nil => exact ⟨s.pairs, s.lps, rfl⟩
    | cons x l ih =>
      obtain ⟨pairs, lps, h⟩ := takeIdentity_changes s x.src x.dst
      rw [List.foldl_cons, h]
      exact (ih _).imp fun _ ⟨lps, h⟩ => ⟨lps, h⟩
  obtain ⟨pairs, lps, h⟩ := key s.sparings s
  unfold settlePairs
  rw [h]
  dsimp only
  split
  · exact ⟨_, lps, rfl⟩
  · exact ⟨pairs, lps, rfl⟩

theorem feedsOpen_changes (s : State) : ∃ f, feedsOpen s = { s with feed := f } ∧ f.vsbOk = s.feed.vsbOk := by
  unfold feedsOpen
  split
  · exact ⟨s.feed, rfl, rfl⟩
  · next b _ =>
    extract_lets bad
    refine ⟨_, rfl, ?_⟩
    cases b <;> rfl

/-- What the six dies keep of the package when their power goes. -/
theorem dark_keeps (s : State) (keep : Nat → Bool) (dram : Bool) :
    (dark s keep dram).fuses = s.fuses ∧ (dark s keep dram).pending = s.pending ∧ (dark s keep dram).time = s.time ∧
      (dark s keep dram).feed = s.feed ∧ (dark s keep dram).mem = keepMemory s dram ∧
      (dark s keep dram).mode.pkgResetLow = s.mode.pkgResetLow := by
  obtain ⟨pairs, lps, h⟩ := settlePairs_changes s
  unfold dark
  extract_lets v n r
  have hv : v = _ := h
  clear_value v
  subst hv
  exact ⟨rfl, rfl, rfl, rfl, rfl, rfl⟩

theorem dark_empties (s : State) (keep : Nat → Bool) (dram : Bool) :
    (dark s keep dram).drafts = [] ∧ (dark s keep dram).dirty = [] := ⟨rfl, rfl⟩

/-- No channel runs once the dies' power has gone and DRAM is kept in self-refresh. -/
theorem dark_asleep (s : State) (keep : Nat → Bool) (ch : Fin 16) : (mcAt (dark s keep true) ch.val).st ≠ .running := by
  have hat : mcAt (dark s keep true) ch.val =
      let m := (settlePairs s).mcs[ch]
      if m.st = .running || m.st = .selfRefresh then { m with st := .selfRefresh, banks := [], postponed := [] }
      else m := by
    show vget ((settlePairs s).mcs.map _) Mc.reset ch.val = _
    simp [vget]
  rw [hat]
  dsimp only
  split
  · simp
  · next h =>
    simp only [Bool.or_eq_true, decide_eq_true_eq, not_or] at h
    exact h.1

/-! ### Cold reset -/

/-- Standby is entered where the standby supply is there. -/
theorem toStandby_enters (h : s.feed.vsbOk = true) : toStandby s = enterMode s .standby := by
  rw [toStandby, if_pos h]

theorem enterMode_keeps (s : State) (x : ModeKind) (n : Nat) :
    (enterMode s x n).fuses = s.fuses ∧ (enterMode s x n).pending = s.pending ∧ (enterMode s x n).drafts = s.drafts ∧
      (enterMode s x n).time = s.time ∧ (enterMode s x n).dirty = s.dirty ∧ (enterMode s x n).txns = s.txns ∧
      (enterMode s x n).mcs = s.mcs ∧ (enterMode s x n).pairs = s.pairs := by
  unfold enterMode
  rw [(logEvent_logged _ _).eq]
  exact ⟨rfl, rfl, rfl, rfl, rfl, rfl, rfl, rfl⟩

/-- A cold reset leaves the package in Standby, with its fuses and the time. -/
theorem coldReset_keeps (hvsb : s.feed.vsbOk = true) :
    (coldReset s).mode.mode = .standby ∧ (coldReset s).mode.pkgResetLow = s.mode.pkgResetLow ∧
      (coldReset s).fuses = s.fuses ∧ (coldReset s).pending = s.pending ∧ (coldReset s).drafts = [] ∧
      (coldReset s).time.seconds = s.time.seconds ∧ (coldReset s).time.steps = s.time.steps ∧
      ∀ e ∈ (coldReset s).mem, localPkg s e.1 = false := by
  obtain ⟨f, hf, hfv⟩ := feedsOpen_changes s
  obtain ⟨hfuses, hpending, htime, hfeed, hmem, hpin⟩ := dark_keeps (feedsOpen s) (fun _ => false) false
  have hdrafts := (dark_empties (feedsOpen s) (fun _ => false) false).1
  have hlocal : ∀ a, localPkg (feedsOpen s) a = localPkg s a := fun a => by rw [hf]; rfl
  generalize hd : dark (feedsOpen s) (fun _ => false) false = d at *
  obtain ⟨w, hw, hwfeed, hwf, hwp, hwd, hsec, hstep, hwm, hwpin⟩ : ∃ w, coldReset s = toStandby w ∧ w.feed = d.feed ∧
      w.fuses = d.fuses ∧ w.pending = d.pending ∧ w.drafts = d.drafts ∧ w.time.seconds = d.time.seconds ∧
      w.time.steps = d.time.steps ∧ w.mem = d.mem ∧ w.mode.pkgResetLow = d.mode.pkgResetLow := by
    rw [← hd]
    exact ⟨_, rfl, rfl, rfl, rfl, rfl, rfl, rfl, rfl, rfl⟩
  obtain ⟨hmode, -, -, hm⟩ := enterMode_enters w .standby 0
  obtain ⟨hf', hp', hd', ht', -⟩ := enterMode_keeps w .standby 0
  rw [hw, toStandby_enters (by rw [hwfeed, hfeed, hf]; exact hfv.trans hvsb), hmode, hf', hp', hd', ht', hm]
  refine ⟨rfl, hwpin.trans (hpin.trans ?_), hwf.trans (hfuses.trans ?_), hwp.trans (hpending.trans ?_),
    hwd.trans hdrafts, hsec.trans ?_, hstep.trans ?_, fun e he => ?_⟩
  · rw [hf]
  · rw [hf]
  · rw [hf]
  · rw [htime, hf]
  · rw [htime, hf]
  · have he' : e ∈ keepMemory (feedsOpen s) false := hmem ▸ hwm ▸ he
    have hl := (List.mem_filter.mp he').2
    rw [hlocal] at hl
    simpa using hl

/-! ### Service stop -/

/-- What halting pairs may change of a state. -/
structure Halting (s t : State) : Prop where
  mode : t.mode = s.mode
  strike : t.strike = s.strike
  mem : t.mem = s.mem
  pair : ∀ p, ∃ r c, pairAt t p = { pairAt s p with role := r, cleanSince := c } ∧
    (r = (pairAt s p).role ∨ (pairAt s p).role = .active ∧ r = .halted)

namespace Halting

theorem refl (s : State) : Halting s s := ⟨rfl, rfl, rfl, fun _ => ⟨_, _, rfl, .inl rfl⟩⟩

theorem trans (h : Halting s t) (k : Halting t u) : Halting s u := by
  refine ⟨k.mode.trans h.mode, k.strike.trans h.strike, k.mem.trans h.mem, fun p => ?_⟩
  obtain ⟨r, c, ht, hr⟩ := h.pair p
  obtain ⟨r', c', hu, hr'⟩ := k.pair p
  refine ⟨r', c', by rw [hu, ht], ?_⟩
  rw [ht] at hr'
  rcases hr' with rfl | ⟨hact, rfl⟩
  · exact hr
  · rcases hr with rfl | ⟨-, rfl⟩
    · exact .inr ⟨hact, rfl⟩
    · exact absurd hact (by simp)

end Halting

theorem pairAt_closeInterval (lp p : Fin 48) :
    ∃ c, pairAt (closeInterval s lp) p = { pairAt s p with cleanSince := c } := by
  unfold closeInterval markClean
  split
  · next q _ =>
    by_cases hq : p = q
    · subst hq; exact ⟨true, by rw [pairAt_updPair]; rfl⟩
    · exact ⟨_, by rw [pairAt_updPair_ne _ _ hq]; rfl⟩
  · exact ⟨_, rfl⟩

/-- A pair that halts now does so at a clean close of the interval of the processor it runs. -/
theorem haltNow_cases (s : State) (p : Fin 48) : haltNow s p = s ∨ ∃ lp, (pairAt s p).lp = some lp ∧
    (pairAt s p).role = .active ∧ haltNow s p = updPair (closeInterval s lp) p fun y => { y with role := .halted } := by
  unfold haltNow
  dsimp only
  split
  · next lp hlp =>
    split
    · next h =>
      simp only [Bool.and_eq_true, decide_eq_true_eq] at h
      exact .inr ⟨lp, hlp, h.1.1.2, rfl⟩
    · exact .inl rfl
  · exact .inl rfl

theorem halting_haltNow (s : State) (p : Fin 48) : Halting s (haltNow s p) := by
  rcases haltNow_cases s p with h | ⟨lp, -, hrole, h⟩
  · rw [h]; exact .refl s
  · rw [h]
    obtain ⟨hmode, hstrike⟩ := closeInterval_mode s lp
    refine ⟨hmode, hstrike, ?_, fun q => ?_⟩
    · unfold closeInterval markClean
      split <;> rfl
    · obtain ⟨c, hc⟩ := pairAt_closeInterval (s := s) lp q
      by_cases hq : q = p
      · subst hq
        exact ⟨.halted, c, by rw [pairAt_updPair, hc], .inr ⟨hrole, rfl⟩⟩
      · exact ⟨_, c, by rw [pairAt_updPair_ne _ _ hq, hc], .inl rfl⟩

theorem halting_foldl (ls : List (Fin 48)) (s : State) : Halting s (ls.foldl haltNow s) := by
  induction ls generalizing s with
  | nil => exact .refl s
  | cons p ls ih => exact (halting_haltNow s p).trans (ih _)

/-- The processor of a pair is left alone while other pairs, which do not run it, halt. -/
theorem lpAt_haltNow_ne {q l : Fin 48} (h : (pairAt s q).lp ≠ some l) : lpAt (haltNow s q) l = lpAt s l := by
  rcases haltNow_cases s q with h' | ⟨lp, hlp, -, h'⟩
  · rw [h']
  · have hne : l ≠ lp := fun e => h (e ▸ hlp)
    rw [h', lpAt_updPair]
    unfold closeInterval markClean
    split
    · rw [lpAt_updPair, lpAt_updLp_ne _ _ hne]
    · rw [lpAt_updLp_ne _ _ hne]

section Stop
variable {p l : Fin 48}

/-- What a pair halts on: it runs at a boundary a processor that no other pair runs. -/
structure CanHalt (s : State) (p l : Fin 48) : Prop where
  active : (pairAt s p).role = .active
  steady : (pairAt s p).retrying = false
  runs : (pairAt s p).lp = some l
  alone : ∀ q ≠ p, (pairAt s q).lp ≠ some l
  boundary : atBoundary s l = true
  stopping : serviceStopping s = true

theorem CanHalt.haltNow_ne {q : Fin 48} (h : CanHalt s p l) (hq : q ≠ p) : CanHalt (haltNow s q) p l := by
  have hh := halting_haltNow s q
  have hlp : ∀ x, (pairAt (haltNow s q) x).lp = (pairAt s x).lp := fun x => by
    obtain ⟨r, c, hx, -⟩ := hh.pair x; rw [hx]
  have hpair : pairAt (haltNow s q) p = { pairAt s p with cleanSince := (pairAt (haltNow s q) p).cleanSince } := by
    rcases haltNow_cases s q with h' | ⟨lp, -, -, h'⟩
    · rw [h']
    · obtain ⟨c, hc⟩ := pairAt_closeInterval (s := s) lp p
      rw [h', pairAt_updPair_ne _ _ hq.symm, hc]
  refine ⟨by rw [hpair]; exact h.active, by rw [hpair]; exact h.steady, (hlp p).trans h.runs,
    fun x hx => by rw [hlp]; exact h.alone x hx, ?_, ?_⟩
  · rw [atBoundary, lpAt_haltNow_ne (h.alone q hq)]
    exact h.boundary
  · rw [serviceStopping, hh.mode, hh.strike]
    exact h.stopping

theorem CanHalt.haltNow_self (h : CanHalt s p l) : (pairAt (haltNow s p) p).role = .halted := by
  have hgo : haltNow s p = updPair (closeInterval s l) p fun y => { y with role := .halted } := by
    unfold haltNow
    dsimp only
    rw [h.runs]
    exact if_pos (by simp [h.stopping, h.active, h.steady, h.boundary])
  rw [hgo, pairAt_updPair]

theorem halted_foldl (ls : List (Fin 48)) (s : State) (h : (pairAt s p).role = .halted) :
    (pairAt (ls.foldl haltNow s) p).role = .halted := by
  obtain ⟨r, c, hp, hr⟩ := (halting_foldl ls s).pair p
  rw [hp]
  rcases hr with rfl | ⟨ha, -⟩
  · exact h
  · rw [h] at ha; exact absurd ha (by simp)

theorem CanHalt.foldl (ls : List (Fin 48)) (s : State) (h : CanHalt s p l) (hp : p ∈ ls) :
    (pairAt (ls.foldl haltNow s) p).role = .halted := by
  induction ls generalizing s with
  | nil => exact absurd hp List.not_mem_nil
  | cons q ls ih =>
    by_cases hq : q = p
    · subst hq; exact halted_foldl ls _ h.haltNow_self
    · exact ih _ (h.haltNow_ne hq) ((List.mem_cons.mp hp).resolve_left (Ne.symm hq))

end Stop

/-- Service stop is entered or still under way, and its end waits for a pair that has not halted. -/
theorem finishStop_ends (h : s.mode.transition = .serviceStop) :
    (finishStop s).mode.back = s.mode.back ∧ (finishStop s).mem = s.mem ∧ (finishStop s).pairs = s.pairs ∧
      ((finishStop s).mode.mode = .serviceStop ∨ (finishStop s).mode.transition = .serviceStop) ∧
      (s.strike.st = .committed ∨ (∃ p : Fin 48, (pairAt s p).lp.isSome = true ∧ (pairAt s p).haltDone = false ∧
        ((pairAt s p).role = .active ∨ (pairAt s p).role = .halted)) →
        (finishStop s).mode.transition = .serviceStop) := by
  unfold finishStop
  split
  · next hgo =>
    obtain ⟨hmode, -, -, hmem⟩ := enterMode_enters s .serviceStop 0
    rw [hmode, (enterMode_keeps s .serviceStop 0).2.2.2.2.2.2.2, hmem]
    refine ⟨rfl, rfl, rfl, .inl rfl, fun hwait => absurd hgo ?_⟩
    simp only [Bool.and_eq_true, not_and, List.all_eq_true]
    rcases hwait with hc | ⟨p, hlp, hdone, hrole⟩
    · simp [serviceStopping, hc]
    · intro _ hall
      have := hall p (List.mem_finRange p)
      obtain ⟨lp, hl⟩ := Option.isSome_iff_exists.mp hlp
      rcases hrole with hr | hr <;> simp [hl, hdone, hr] at this
  · exact ⟨rfl, rfl, rfl, .inr h, fun _ => h⟩

section Commands
variable (hm : MayCommand s m keeperPage) (ht : s.mode.transition = .none) (hport : m ≠ .manager)
include hm ht hport

theorem serviceStop_stops (hrun : running s = true) :
    Gives (.serviceStop m) s fun t => t.mode.back = s.mode.mode ∧ t.mem = s.mem ∧
      (t.mode.mode = .serviceStop ∨ t.mode.transition = .serviceStop) ∧
      (s.strike.st = .committed ∨ (∃ p : Fin 48, (pairAt s p).role = .active ∧ (pairAt s p).lp.isSome = true ∧
        (pairAt s p).haltDone = false) → t.mode.transition = .serviceStop) ∧
      (s.strike.st ≠ .committed → ∀ p l : Fin 48, (pairAt s p).role = .active →
        (pairAt s p).retrying = false → (pairAt s p).lp = some l → (∀ q ≠ p, (pairAt s q).lp ≠ some l) →
        atBoundary s l = true → (pairAt t p).role = .halted) := by
  have hgo : exec (.serviceStop m) s =
      .next (stopPairs { s with mode := { s.mode with transition := .serviceStop, back := s.mode.mode } }) :=
    congrArg Host.Outcome.next (modeCommand_may hm ht (by simp [hrun, isPort, hport]))
  generalize hu : ({ s with mode := { s.mode with transition := .serviceStop, back := s.mode.mode } } : State) = u
    at hgo
  refine ⟨_, hgo, ?_⟩
  dsimp only [stopPairs]
  have hpairs : ∀ p, pairAt u p = pairAt s p := fun p => by rw [← hu]; rfl
  have hh := halting_foldl all48 u
  obtain ⟨hback, hmem, hps, hmode, hwait⟩ := finishStop_ends (s := all48.foldl haltNow u)
    (by rw [hh.mode, ← hu])
  refine ⟨?_, ?_, hmode, fun h => hwait ?_, fun hc p l ha hr hl hq hb => ?_⟩
  · rw [hback, hh.mode, ← hu]
  · rw [hmem, hh.mem, ← hu]
  · rcases h with h | ⟨p, ha, hl, hd⟩
    · exact .inl (by rw [hh.strike, ← hu]; exact h)
    · obtain ⟨r, c, hp, hr⟩ := hh.pair p
      refine .inr ⟨p, ?_, ?_, ?_⟩
      · rw [hp, hpairs]; exact hl
      · rw [hp, hpairs]; exact hd
      · rw [hp]
        rcases hr with rfl | ⟨-, rfl⟩
        · exact .inl (by rw [hpairs]; exact ha)
        · exact .inr rfl
  · have hcan : CanHalt u p l := by
      refine ⟨by rw [hpairs]; exact ha, by rw [hpairs]; exact hr, by rw [hpairs]; exact hl,
        fun q h => by rw [hpairs]; exact hq q h, by rw [← hu]; exact hb, ?_⟩
      rw [← hu]
      simp [serviceStopping, hc]
    rw [← hcan.foldl all48 u (List.mem_finRange p)]
    rw [pairAt, hps]
    rfl

end Commands

/-! ### RESUME -/

/-- What RESUME does of one pair. -/
def resumeOne (s : State) (p : Fin 48) : State :=
  let x := pairAt s p
  if x.role = .halted && !x.haltReq then
    let s := match x.lp with | some lp => updLp s lp fun y => { y with arch := y.ckpt } | none => s
    updPair s p fun y => { y with role := .active, haltDone := false }
  else s

theorem resumeOne_mode (s : State) (p : Fin 48) : (resumeOne s p).mode = s.mode := by
  unfold resumeOne
  extract_lets x v
  split
  · dsimp only [v]; split <;> rfl
  · rfl

/-- Whether a pair runs, or is halted by nothing but Service stop. -/
def Resumes (s : State) (p : Fin 48) : Prop :=
  (pairAt s p).role = .active ∨ (pairAt s p).role = .halted ∧ (pairAt s p).haltReq = false

theorem pairAt_resumeOne_ne {p q : Fin 48} (h : p ≠ q) : pairAt (resumeOne s q) p = pairAt s p := by
  unfold resumeOne
  extract_lets x v
  split
  · rw [pairAt_updPair_ne _ _ h]
    dsimp only [v]; split <;> rfl
  · rfl

theorem resumeOne_runs {p : Fin 48} (h : Resumes s p) : (pairAt (resumeOne s p) p).role = .active := by
  unfold resumeOne
  extract_lets x v
  split
  · rw [pairAt_updPair]
  · next hgo =>
    rcases h with h | ⟨h, h'⟩
    · exact h
    · exact absurd (by simp [x, h, h']) hgo

theorem resumeAll_runs (ls : List (Fin 48)) {p : Fin 48} (s : State) (h : Resumes s p)
    (hp : p ∈ ls ∨ (pairAt s p).role = .active) : (pairAt (ls.foldl resumeOne s) p).role = .active := by
  induction ls generalizing s with
  | nil => exact hp.elim (by simp) id
  | cons q ls ih =>
    by_cases hq : p = q
    · subst hq
      have hrun := resumeOne_runs h
      exact ih _ (.inl hrun) (.inr hrun)
    · have hsame := pairAt_resumeOne_ne (s := s) hq
      refine ih _ ?_ ?_
      · unfold Resumes; rw [hsame]; exact h
      · rw [hsame]
        exact hp.imp (fun hp => (List.mem_cons.mp hp).resolve_left hq) id

theorem resume_runs (hm : MayCommand s m keeperPage) (ht : s.mode.transition = .none) (hport : m ≠ .manager)
    (hstop : s.mode.mode = .serviceStop) :
    Gives (.resume m) s fun t => t.mode.mode = s.mode.back ∧ ∀ p : Fin 48,
      (pairAt s p).role = .halted → (pairAt s p).haltReq = false → (pairAt t p).role = .active := by
  have hgo : resumeCommand s m = enterMode (all48.foldl resumeOne s) (all48.foldl resumeOne s).mode.back := by
    unfold resumeCommand
    rw [modeCommand_may hm ht (by simp [hstop, isPort, hport])]
    generalize all48 = l
    rfl
  have hmode : (all48.foldl resumeOne s).mode = s.mode := foldl_view (g := State.mode) resumeOne_mode _ s
  refine ⟨_, congrArg Host.Outcome.next hgo, ?_, fun p hr hq => ?_⟩
  · rw [(enterMode_enters ..).1, hmode]
  · rw [pairAt, (enterMode_keeps ..).2.2.2.2.2.2.2]
    exact resumeAll_runs all48 s (.inr ⟨hr, hq⟩) (.inl (List.mem_finRange p))

/-! ### Memory hold -/

/-- What the entry into Memory hold leaves. -/
theorem enterHold_holds (s : State) (mask : BitVec 8) :
    (enterHold s mask).mode.mode = .hold ∧ (enterHold s mask).mode.clear = some mask ∧ (enterHold s mask).dirty = [] ∧
      (enterHold s mask).fuses = s.fuses ∧ ∀ ch : Fin 16, (mcAt (enterHold s mask) ch.val).st ≠ .running := by
  obtain ⟨hfuses, -⟩ := dark_keeps s (fun k => !isStKey k) true
  have hdirty := (dark_empties s (fun k => !isStKey k) true).2
  have hsleep := dark_asleep s (fun k => !isStKey k)
  unfold enterHold
  extract_lets saved src v w z
  have hv : v.dirty = [] ∧ v.fuses = s.fuses ∧ ∀ ch : Fin 16, (mcAt v ch.val).st ≠ .running := by
    dsimp only [v]
    unfold rekeyPkg
    split
    · exact ⟨hdirty, hfuses, hsleep⟩
    · exact ⟨hdirty, hfuses, hsleep⟩
  obtain ⟨hvd, hvf, hvm⟩ := hv
  have hx : ∃ time, (if src = 0 then z else setSource z 0) = { z with time := time } := by
    split
    · exact ⟨z.time, rfl⟩
    · exact ⟨_, rfl⟩
  obtain ⟨time, hx⟩ := hx
  rw [hx]
  obtain ⟨hmode, -⟩ := enterMode_enters { z with time := time } .hold 0
  obtain ⟨hf, -, -, -, hd, -, hmc, -⟩ := enterMode_keeps { z with time := time } .hold 0
  rw [hmode, hf, hd]
  exact ⟨rfl, rfl, hvd, hvf, fun ch => by rw [mcAt_congr hmc]; exact hvm ch⟩

theorem releasePen_keeps (s : State) (r : Nat) : (releasePen s r).mode = s.mode ∧ (releasePen s r).fuses = s.fuses := by
  unfold releasePen cancelStrike
  split
  · unfold strikeEnds
    rw [(logEvent_logged _ _).eq]
    exact ⟨rfl, rfl⟩
  · exact ⟨rfl, rfl⟩

/-- HOLD of a package that is alone. -/
theorem hold_goes (hm : MayCommand s m keeperPage) (ht : s.mode.transition = .none) (hport : m ≠ .manager)
    (hmode : running s = true ∨ s.mode.mode = .serviceStop) (halone : others s = []) :
    exec (.hold m) s = .next (
      let held := { s with mode := { s.mode with transition := .hold, announced := false } }
      if s.strike.st = .committed then held else holdGoesOn held) := by
  have hgo : holdCommand s m = (
      let held := { s with mode := { s.mode with transition := .hold, announced := false } }
      if s.strike.st = .committed then held else holdGoesOn held) := by
    unfold holdCommand
    extract_lets apart knows ok u
    have hu : u = s := if_pos (by simp [apart, halone])
    rw [hu]
    exact modeCommand_may hm ht (by rcases hmode with h | h <;> simp [ok, apart, halone, h, isPort, hport])
  exact congrArg Host.Outcome.next hgo

/-- Memory hold waits while a processor of the package has not stopped. -/
theorem holdGoesOn_waits (halone : others s = []) (hd : allDrained (holdStop (releasePen s)) = false) :
    holdGoesOn s = holdStop (releasePen s) := by
  simp only [holdGoesOn, halone, hd, decide_true, if_true, Bool.not_false]

theorem fuses_holdStop (s : State) : (holdStop s).fuses = s.fuses :=
  (Prod.mk.inj (Prod.mk.inj (outer_holdStop s)).2).2

theorem fuses_holdFlush (s : State) : (holdFlush s).fuses = s.fuses :=
  (Prod.mk.inj (Prod.mk.inj (outer_holdFlush s)).2).2

/-- Memory hold goes on when every processor of a package that is alone has stopped. -/
theorem holdGoesOn_holds (halone : others s = []) (hd : allDrained (holdStop (releasePen s)) = true) :
    (holdGoesOn s).mode.mode = .hold ∧ (holdGoesOn s).dirty = [] ∧ (holdGoesOn s).fuses = s.fuses ∧
      ∀ ch : Fin 16, (mcAt (holdGoesOn s) ch.val).st ≠ .running := by
  have hgo : holdGoesOn s = enterHold (holdFlush (holdStop (releasePen s)))
      (holdMask (holdFlush (holdStop (releasePen s)))) := by
    simp only [holdGoesOn, halone, hd, decide_true, if_true, Bool.not_true, Bool.false_eq_true, if_false]
  have hfuses : (holdFlush (holdStop (releasePen s))).fuses = s.fuses := by
    rw [fuses_holdFlush, fuses_holdStop, (releasePen_keeps s 8).2]
  obtain ⟨hmode, -, hdirty, hf, hmc⟩ := enterHold_holds (holdFlush (holdStop (releasePen s)))
    (holdMask (holdFlush (holdStop (releasePen s))))
  rw [hgo]
  exact ⟨hmode, hdirty, hf.trans hfuses, hmc⟩

/-! ### Warm reset -/

/-- The steps that drain the package for a warm reset. -/
theorem warmDrain_drains (s : State) : (warmDrain s).mode.transition = s.mode.transition ∧
    (warmDrain s).mode.warmDrained = true ∧ (warmDrain s).mode.warmResetLow = s.mode.warmResetLow ∧
    (warmDrain s).pen.holder = none := by
  unfold warmDrain
  extract_lets stopped _ u v w _ x y _ z
  have hu : u.mode = s.mode := by
    dsimp only [u]; split <;> rfl
  have hv : v.mode = s.mode := (releasePen_keeps u 8).1.trans hu
  have hpen : v.pen.holder = none := by rw [show v.pen = _ from (releasePen_emptied u 8).pen]
  have hw : outer w = outer v := by
    refine foldl_view (g := outer) (fun s l => ?_) _ v
    split
    · exact outer_stopLp l
    · exact (outer_drainStorage l).trans (outer_stopLp l)
  have hy : outer y = outer x := (outer_abortJobs ..).trans (outer_of_steady (steady_endOps ..))
  obtain ⟨hwm, hwrest⟩ := Prod.mk.inj hw
  obtain ⟨hym, hyrest⟩ := Prod.mk.inj hy
  have hym' : y.mode = { s.mode with ipl := .none, quiesce := false, quiet := [] } := by
    rw [hym]
    show { w.mode with ipl := .none, quiesce := false, quiet := [] } = _
    rw [hwm, hv]
  have hyp : y.pen.holder = none := by
    rw [(Prod.mk.inj hyrest).1]
    show w.pen.holder = none
    rw [(Prod.mk.inj hwrest).1, hpen]
  have hz : z.mode = { y.mode with warmDrained := true } := rfl
  have hzp : z.pen = y.pen := rfl
  have hlast : ∀ c : Prop, ∀ _ : Decidable c, ∀ o, (if c then z else emit o z).mode = z.mode ∧
      (if c then z else emit o z).pen = z.pen := by
    intro c _ o
    split <;> exact ⟨rfl, rfl⟩
  rw [(hlast _ _ _).1, (hlast _ _ _).2, hz, hym', hzp]
  exact ⟨rfl, rfl, rfl, hyp⟩

/-- A warm reset that no Strike holds back drains the package. -/
theorem warmBegin_drains (h : s.strike.st ≠ .committed ∨ s.mode.mode = .checkstop) :
    (warmBegin s).mode.transition = .warm ∧ (warmBegin s).mode.warmDrained = true ∧
      (warmBegin s).mode.warmResetLow = s.mode.warmResetLow ∧ (warmBegin s).pen.holder = none := by
  have hgo : warmBegin s =
      warmDrain { s with mode := { s.mode with transition := .warm, warmDrained := false } } :=
    if_neg (by rcases h with h | h <;> simp [h])
  rw [hgo]
  exact warmDrain_drains _

/-- A warm reset waits for a committed Strike to apply. -/
theorem warmBegin_waits (hst : s.strike.st = .committed) (hmode : s.mode.mode ≠ .checkstop) :
    warmBegin s = { s with mode := { s.mode with transition := .warm, warmDrained := false } } :=
  if_pos (by simp [hst, hmode])

/-- Either way the transition is that of a warm reset, and the pin stays as it was. -/
theorem warmBegin_transition (s : State) :
    (warmBegin s).mode.transition = .warm ∧ (warmBegin s).mode.warmResetLow = s.mode.warmResetLow := by
  by_cases h : s.strike.st = .committed ∧ s.mode.mode ≠ .checkstop
  · rw [warmBegin_waits h.1 h.2]
    exact ⟨rfl, rfl⟩
  · obtain ⟨ht, -, hlow, -⟩ := warmBegin_drains (s := s) (by simpa only [Classical.not_and_iff_not_or_not, Classical.not_not] using h)
    exact ⟨ht, hlow⟩

theorem warmReset_begins (hm : MayCommand s m keeperPage) (h : warmAccepted s = true) :
    exec (.warmReset m) s = .next (warmBegin s) := by
  have ht : s.mode.transition = .none := by
    unfold warmAccepted at h
    simpa using (Bool.and_eq_true_iff.mp h).1
  exact congrArg Host.Outcome.next (modeCommand_may hm ht h)

/-! #### The end of the writeback -/

theorem outer_agentWrite (s : State) (a : Nat) (bs : List Byte) (w : Agent) : outer (agentWrite s a bs w) = outer s :=
  outer_of_steady (steady_agentWrite ..)

theorem outer_inlineRecord (o : Op) (status detail : Nat) : outer (inlineRecord s o status detail) = outer s := by
  unfold inlineRecord
  split
  · rfl
  · split
    · rfl
    · exact (outer_freeJob ..).trans (outer_agentWrite ..)

theorem outer_jrnWrite (n : Nat) (o : Op) (st : Nat) (w : Option Osw) : outer (jrnWrite s n o st w) = outer s :=
  outer_of_steady (steady_jrnWrite ..)

theorem outer_postFinal (n : Nat) (o : Op) (w : Osw) : outer (postFinal s n o w) = outer s := by
  unfold postFinal
  extract_lets x late w' a b c d e o' f
  have hb : outer b = outer s := (outer_jrnWrite ..).trans (outer_inlineRecord ..)
  have hc : outer c = outer s := by
    dsimp only [c]
    split
    · exact (outer_of_steady (steady_sendFrame ..)).trans hb
    · exact hb
  have hd : outer d = outer s := (outer_of_steady (steady_meter ..)).trans hc
  have he : outer e = outer s := by
    dsimp only [e]
    split
    · exact (outer_of_steady (steady_bump ..)).trans hd
    · exact hd
  exact he

theorem outer_endOpsAtBound (s : State) (fsc : Nat) : outer (endOpsAtBound s fsc) = outer s := by
  refine foldl_view (g := outer) (fun s e => ?_) _ s
  unfold endAtBound
  split
  · rfl
  · exact outer_postFinal ..

/-- The dirty lines, the transactions, the mode and the fuses. -/
def dieView (s : State) : Tab Byte × Tab Txn × Mode × Fuses := (s.dirty, s.txns, s.mode, s.fuses)

theorem dieView_waitLp (l : Fin 48) (s : State) : dieView (waitLp s l) = dieView s := by
  unfold waitLp emptyTlbs
  split <;> rfl

/-- What dropping a context's interruptions leaves: this view, and the processors. -/
theorem dropPending_keeps (s : State) (ctx : Nat) :
    (dieView (dropPending s ctx), (dropPending s ctx).lps) = (dieView s, s.lps) := by
  unfold dropPending
  extract_lets _ u v
  have hv : (dieView v, v.lps) = (dieView u, u.lps) := by
    refine foldl_view (g := fun s => (dieView s, s.lps)) (fun s e => ?_) _ u
    split <;> rfl
  refine (foldl_view (g := fun s => (dieView s, s.lps)) (fun s e => ?_) _ v).trans (hv.trans rfl)
  extract_lets rid
  split
  · split <;> rfl
  · rfl

theorem allLps_of_fuses {t : State} (h : t.fuses = s.fuses) : allLps t = allLps s := by
  unfold allLps lpCount
  rw [h]

theorem outer_emit (o : Output) (s : State) : outer (emit o s) = outer s := rfl

/-- What the reset of the dies leaves: no dirty line and no transaction, and every processor waiting. -/
theorem warmDies_resets (s : State) :
    dieView (warmDies s) = ([], [], s.mode, s.fuses) ∧ ∀ l ∈ allLps s, (lpAt (warmDies s) l).run = .waiting := by
  unfold warmDies
  extract_lets wb u v scr w a b
  have hu : outer u = outer s := by
    dsimp only [u]
    split
    · rfl
    · split
      · exact outer_of_steady (steady_flushAll s)
      · exact (outer_emit ..).trans (outer_of_steady (steady_flushAll s))
  clear_value u
  obtain ⟨pairs, lps, hset⟩ := settlePairs_changes u
  have hw : dieView w = ([], [], s.mode, s.fuses) := by
    show (([], [], (settlePairs u).mode, (settlePairs u).fuses) : Tab Byte × Tab Txn × Mode × Fuses) = _
    rw [hset]
    exact congrArg (fun x : Mode × Pen × Fuses => (([], [], x.1, x.2.2) : Tab Byte × Tab Txn × Mode × Fuses)) hu
  have hlps : allLps w = allLps s := by
    clear_value w
    obtain ⟨-, h⟩ := Prod.mk.inj hw
    obtain ⟨-, h⟩ := Prod.mk.inj h
    exact allLps_of_fuses (Prod.mk.inj h).2
  have ha : dieView a = dieView w := foldl_view (g := dieView) (fun s l => dieView_waitLp l s) _ w
  have hb : (dieView b, b.lps) = (dieView a, a.lps) :=
    foldl_view (g := fun s => (dieView s, s.lps)) dropPending_keeps _ a
  obtain ⟨hbv, hbl⟩ := Prod.mk.inj hb
  have hwait : ∀ l ∈ allLps s, (lpAt a l).run = .waiting := fun l hl =>
    (foldl_waitLp_waits (allLps w) w l (.inr (hlps ▸ hl))).1
  clear_value b a
  have hlp : ∀ l, lpAt b l = lpAt a l := fun l => congrArg (fun v : Vector Lp 48 => v[l]) hbl
  refine ⟨(hbv.trans (ha.trans hw) : dieView b = _), fun l hl => ?_⟩
  exact (congrArg Lp.run (hlp l)).trans (hwait l hl)

/-- Where a warm reset goes on once Initialisation is entered. -/
theorem enterConfig_keeps (s : State) : ∃ x, enterConfig s = { s with mode := x } ∧ x.mode = s.mode.mode ∧
    x.phase = if s.mode.warm && cellBit s keeperPage 0x148 29 then 3 else 2 := ⟨_, rfl, rfl, rfl⟩

/-- BOOT_CTL's AUTO (bit 29) is as it was once the writeback is complete. -/
theorem cellBit_of_bootCtl (h : bootCtl t = bootCtl s) :
    cellBit t keeperPage 0x148 29 = cellBit s keeperPage 0x148 29 :=
  congrArg (fun v : Word => v.getLsbD 29) h

theorem writeback_completes (ht : s.mode.transition = .warm) (hd : s.mode.warmDrained = true)
    (h : s.mode.mode = .checkstop ∨ allDrained s = true) :
    Gives .warmResetWritebackComplete s fun t => t.mode.mode = .init ∧ t.dirty = [] ∧ t.txns = [] ∧
      (t.mode.phase = if s.mode.warmResetLow then 1 else if cellBit s keeperPage 0x148 29 then 3 else 2) ∧
      ∀ l ∈ allLps s, (lpAt t l).run = .waiting := by
  have hout := outer_endOpsAtBound s 11
  have hboot : bootCtl (warmDies (endOpsAtBound s 11)) = bootCtl s :=
    (bootCtl_warmDies _).trans (bootCtl_endOpsAtBound s 11)
  obtain ⟨hview, hwait⟩ := warmDies_resets (endOpsAtBound s 11)
  obtain ⟨humode, hfuses⟩ := Prod.mk.inj hout
  rw [allLps_of_fuses (Prod.mk.inj hfuses).2] at hwait
  obtain ⟨hdirty, hview⟩ := Prod.mk.inj hview
  obtain ⟨htxns, hview⟩ := Prod.mk.inj hview
  have hmode := (Prod.mk.inj hview).1.trans humode
  obtain ⟨w, hw, hwm, hwd, hwt, hwl, hwr⟩ : ∃ w : State,
      exec .warmResetWritebackComplete s = .next (if w.mode.warmResetLow then w else enterConfig w) ∧
      w.mode = { (enterMode (warmDies (endOpsAtBound s 11)) .init 1).mode with
        warm := true, held := false, result := 0, stoppedAt := false, clear := none, heard := [], coupled := [],
        flushed := [], announced := false, warmDrained := false } ∧
      w.dirty = (enterMode (warmDies (endOpsAtBound s 11)) .init 1).dirty ∧
      w.txns = (enterMode (warmDies (endOpsAtBound s 11)) .init 1).txns ∧
      w.lps = (enterMode (warmDies (endOpsAtBound s 11)) .init 1).lps ∧
      w.regs = (enterMode (warmDies (endOpsAtBound s 11)) .init 1).regs :=
    ⟨_, congrArg Host.Outcome.next (if_pos (by rcases h with h | h <;> simp [ht, hd, h])), rfl, rfl, rfl, rfl, rfl⟩
  obtain ⟨hemode, -, helps, -⟩ := enterMode_enters (warmDies (endOpsAtBound s 11)) .init 1
  obtain ⟨-, -, -, -, hed, het, -, -⟩ := enterMode_keeps (warmDies (endOpsAtBound s 11)) .init 1
  have hauto := cellBit_of_bootCtl ((bootCtl_of_regs hwr).trans ((bootCtl_enterMode _ .init 1).trans hboot))
  rw [hemode, hmode] at hwm
  have hrun : ∀ l ∈ allLps s, (lpAt w l).run = .waiting := fun l hl => by
    rw [lpAt, hwl, helps]; exact hwait l hl
  refine ⟨_, hw, ?_⟩
  have hlow : w.mode.warmResetLow = s.mode.warmResetLow := by rw [hwm]
  rw [hlow]
  by_cases hl : s.mode.warmResetLow = true
  · rw [if_pos hl, if_pos hl]
    exact ⟨by rw [hwm], hwd.trans (hed.trans hdirty), hwt.trans (het.trans htxns), by rw [hwm], hrun⟩
  · obtain ⟨x, hx, hxm, hxp⟩ := enterConfig_keeps w
    rw [if_neg hl, if_neg hl, hx]
    refine ⟨by rw [show ({ w with mode := x } : State).mode = x from rfl, hxm, hwm], hwd.trans (hed.trans hdirty),
      hwt.trans (het.trans htxns), hxp.trans ?_, hrun⟩
    rw [hauto, hwm, Bool.true_and]

/-! ### Announcements and pins -/

theorem holdAnnouncement_counts (pkg : Fin 4) (hp : pkg.val ∈ others s) :
    exec (.holdFlushAnnouncement pkg) s = .next (holdIfFlushed
      { s with mode := { s.mode with flushed := pkg.val :: s.mode.flushed.filter (· ≠ pkg.val) } }) :=
  congrArg Host.Outcome.next (if_pos (by simpa using hp))

/-- The announcement of the last package ends the wait of Memory hold. -/
theorem holdAnnouncement_holds (pkg : Fin 4) (hp : pkg.val ∈ others s) (ht : s.mode.transition = .hold)
    (ha : s.mode.announced = true) (hall : ∀ p ∈ others s, p = pkg.val ∨ p ∈ s.mode.flushed) :
    Gives (.holdFlushAnnouncement pkg) s fun t => t.mode.mode = .hold ∧ t.mode.clear = some (holdMask s) := by
  refine ⟨_, holdAnnouncement_counts pkg hp, ?_⟩
  unfold holdIfFlushed
  rw [if_pos]
  · obtain ⟨hmode, hclear, -⟩ := enterHold_holds
      { s with mode := { s.mode with flushed := pkg.val :: s.mode.flushed.filter (· ≠ pkg.val) } } (holdMask s)
    exact ⟨hmode, hclear⟩
  · simp only [ht, ha, decide_true, Bool.true_and, List.all_eq_true, List.contains_iff_mem]
    intro p hpo
    by_cases hpp : p = pkg.val
    · exact List.mem_cons.mpr (.inl hpp)
    · exact List.mem_cons_of_mem _ (List.mem_filter.mpr ⟨(hall p hpo).resolve_left hpp, by simpa using hpp⟩)

theorem lowActs_of_short {ns : Nat} (acts : Bool) (h : ns < 9980) : lowActs ns acts = false := if_pos h

theorem lowActs_of_long {ns : Nat} (acts : Bool) (h : 10020 ≤ ns) : lowActs ns acts = true := by
  rw [lowActs, if_neg (by omega), if_pos h]

theorem pkgReset_pins {ns : Nat} {acts : Bool} (h : 10020 ≤ ns) (hk : keeperRuns s = true) (hv : s.feed.vsbOk = true) :
    Gives (.pkgResetN ns acts) s fun t =>
      t.mode.mode = .standby ∧ t.mode.pkgResetLow = true ∧ t.fuses = s.fuses ∧ t.pending = s.pending ∧
      t.drafts = [] ∧ t.time.seconds = s.time.seconds ∧ t.time.steps = s.time.steps := by
  have hgo : exec (.pkgResetN ns acts) s =
      .next (coldReset { s with mode := { s.mode with pkgResetLow := true } }) := by
    refine congrArg Host.Outcome.next ?_
    rw [lowActs_of_long acts h]
    exact if_pos hk
  refine ⟨_, hgo, ?_⟩
  obtain ⟨hmode, hlow, hf, hp, hd, hsec, hst, -⟩ :=
    coldReset_keeps (s := { s with mode := { s.mode with pkgResetLow := true } }) hv
  exact ⟨hmode, hlow, hf, hp, hd, hsec, hst⟩

theorem warmResetPin_acts {ns : Nat} {acts : Bool} (h : 10020 ≤ ns) :
    exec (.warmResetN ns acts) s = .next (
      let low := { s with mode := { s.mode with warmResetLow := true } }
      if warmAccepted s && keeperRuns s then warmBegin low else low) := by
  refine congrArg Host.Outcome.next ?_
  rw [lowActs_of_long acts h]
  rfl

/-- Settles O52: each command, announcement and pin does what its rule says. -/
theorem packageStops : Obligations.PackageStops := by
  unfold Obligations.PackageStops
  intro s m pkg ns acts mode
  refine ⟨fun hm => ⟨?_, ?_, ?_, ?_, fun hw => ⟨?_, ?_⟩⟩, writeback_completes, fun hp => ⟨?_, ?_⟩, ?_, ?_,
    fun h => ⟨pkgReset_pins h, ?_, ?_⟩, rfl, rfl⟩
  · intro hport hoff hstandby hvsb
    have hgo : coldResetCommand s m = coldReset s := by
      unfold coldResetCommand
      rw [show (s.mode.mode != .off && s.mode.mode != .standby && isPort m) = true by
        simp [hoff, hstandby, isPort, hport]]
      exact command_may hm
    obtain ⟨hmode, -, hrest⟩ := coldReset_keeps hvsb
    exact ⟨_, congrArg Host.Outcome.next hgo, hmode, hrest⟩
  · exact fun ht hport hrun => serviceStop_stops hm ht hport hrun
  · exact fun ht hport hstop => resume_runs hm ht hport hstop
  · intro ht hport hmode halone held stopped
    have hgo := hold_goes hm ht hport hmode halone
    refine ⟨fun hst => ?_, fun hst hd => ?_, fun hst hd => ?_⟩
    · rw [hgo]
      exact congrArg Host.Outcome.next (if_pos hst)
    · rw [hgo]
      exact congrArg Host.Outcome.next ((if_neg hst).trans (holdGoesOn_waits halone hd))
    · obtain ⟨hmode, hdirty, hf, hmc⟩ := holdGoesOn_holds (s := held) halone hd
      exact ⟨_, hgo.trans (congrArg Host.Outcome.next (if_neg hst)), hmode, hdirty, hf, hmc⟩
  · intro hst hmode
    rw [warmReset_begins hm hw, warmBegin_waits hst hmode]
  · intro h
    obtain ⟨ht, hd, -, hpen⟩ := warmBegin_drains h
    exact ⟨_, warmReset_begins hm hw, ht, hd, hpen⟩
  · intro ht
    rw [holdAnnouncement_counts pkg hp]
    exact congrArg Host.Outcome.next (if_neg (by simp [ht]))
  · exact fun ht ha hall => holdAnnouncement_holds pkg hp ht ha hall
  · intro ht ha
    obtain ⟨hmode, hclear, -⟩ := enterHold_holds s 0
    exact ⟨_, congrArg Host.Outcome.next (if_pos (by simp [ht, ha])), hmode, hclear⟩
  · intro h
    have hshort : ∀ {f g : State}, (if !lowActs ns acts then f else g) = f := by
      simp [lowActs_of_short acts h]
    exact ⟨congrArg Host.Outcome.next hshort, congrArg Host.Outcome.next hshort⟩
  · intro ha
    rw [warmResetPin_acts h, ha]
    rfl
  · intro ha hk
    refine ⟨_, warmResetPin_acts h, ?_⟩
    rw [ha, hk]
    obtain ⟨ht, hlow⟩ := warmBegin_transition { s with mode := { s.mode with warmResetLow := true } }
    exact ⟨ht, hlow⟩

end Sys2Proof.Machine

/-! What takes the package out of its mode from outside (19, 20). -/

namespace Sys2Proof.Machine
-- Proofs one after the other: side by side they take more memory than the check allows.
set_option Elab.async false

variable {s t : State}

/-! ### Checkstop -/

/-- What a checkstop leaves of the package: the first cause latched, no dirty line, memory as it was, every processor
stopped. -/
def Checkstopped (s t : State) (code page : Nat) : Prop :=
  t.mode.mode = .checkstop ∧ t.err.stopCode = code ∧ t.err.stopPage = page ∧ t.dirty = [] ∧ t.mem = s.mem ∧
    ∀ l : Fin 48, (lpAt t l).run = .stopped

theorem checkstopNow_stops (code page : Nat) (hm : s.mode.mode ≠ .checkstop) (h0 : s.err.stopCode = 0) :
    Checkstopped s (checkstopNow s code page) code page := by
  obtain ⟨hmode, hcode, hpage⟩ := checkstopNow_first hm h0 code page
  suffices h : (checkstopNow s code page).dirty = [] ∧ (checkstopNow s code page).mem = s.mem ∧
      ∀ l : Fin 48, (lpAt (checkstopNow s code page) l).run = .stopped from ⟨hmode, hcode, hpage, h⟩
  unfold checkstopNow
  rw [if_neg hm]
  extract_lets _ u _ v
  have hlps : ∀ l : Fin 48, (lpAt u l).run = .stopped := fun l => by simp [u, lpAt]
  obtain ⟨hvd, hvm, hvl⟩ : v.dirty = u.dirty ∧ v.mem = u.mem ∧ v.lps = u.lps := by
    dsimp only [v]
    split <;> exact ⟨rfl, rfl, rfl⟩
  obtain ⟨-, -, hl, hmem⟩ := enterMode_enters v .checkstop 0
  obtain ⟨-, -, -, -, hdirty, -⟩ := enterMode_keeps v .checkstop 0
  refine ⟨hdirty.trans hvd, hmem.trans hvm, fun l => ?_⟩
  show ((enterMode v .checkstop).lps[l]).run = .stopped
  rw [hl, hvl]
  exact hlps l

/-- An event of class 4 checkstops the package. -/
theorem raise_stops {e : Event} (hclass : classOf e.code = 4) (hm : s.mode.mode ≠ .checkstop)
    (h0 : s.err.stopCode = 0) : Checkstopped s (raise s e) e.code e.page := by
  rw [raise_checkstops hclass]
  obtain ⟨hmode, hcode, hpage, hdirty, hmem, hlps⟩ := checkstopNow_stops e.code e.page (s := logEvent s e)
    (by rwa [mode_logEvent]) (by rwa [stopCode_logEvent])
  exact ⟨hmode, hcode, hpage, hdirty, hmem.trans (by rw [(logEvent_logged s e).eq]), hlps⟩

/-! ### Fencing a package in directory mode -/

theorem steady_answerLine (x : Txn) (name : String) (s : State) : steady (answerLine x name s) = steady s := by
  unfold answerLine
  extract_lets line
  split
  · rfl
  · exact steady_sendLine ..
  · rfl

theorem steady_ackLeaving (s : State) (die line : Nat) (stale : Bool) :
    steady (ackLeaving s die line stale) = steady s := by
  unfold ackLeaving
  refine steady_ite (steady_sendDie ..) (steady_foldl (fun s p => ?_) _ s)
  split
  · rfl
  · exact steady_ite rfl (steady_l3Place ..)

theorem steady_serveEviction (s : State) (die line : Nat) (wbm : Bool) :
    steady (serveEviction s die line wbm) = steady s := by
  unfold serveEviction
  refine (steady_ackLeaving ..).trans (steady_ite rfl (steady_ite ?_ ?_))
  · simp
  · simp

/-- A fold over a state and a list that goes with it. -/
theorem steady_foldl_pair {f : State × List Req → Req → State × List Req}
    (hf : ∀ acc r, steady (f acc r).1 = steady acc.1) (l : List Req) (acc : State × List Req) :
    steady (l.foldl f acc).1 = steady acc.1 := by
  induction l generalizing acc with
  | nil => rfl
  | cons r l ih => rw [List.foldl_cons, ih, hf]

theorem steady_updSlice (s : State) (sl : Nat) (f : Slice → Slice) : steady (updSlice s sl f) = steady s := rfl

theorem steady_pump (s : State) (sl : Nat) : steady (pump s sl) = steady s := by
  have hwait : ∀ (acc : State × List Req) (r : Req), steady (
      if acc.2.any fun w => w.line = r.line then (acc.1, acc.2 ++ [r])
      else
        match tryOpen acc.1 r with
        | some s => (s, acc.2)
        | none =>
          (if (txnAt acc.1 r.line).isSome then acc.1 else (victimise acc.1 r.line).getD acc.1, acc.2 ++ [r])).1 =
      steady acc.1 := by
    intro acc r
    split
    · rfl
    · cases ho : tryOpen acc.1 r with
      | some t => exact steady_tryOpen ho
      | none => exact steady_ite rfl (steady_getD steady_victimise rfl)
  have hreserve : ∀ (acc : State × List Req) (r : Req), steady (
      if !acc.2.isEmpty then (acc.1, acc.2 ++ [r])
      else
        match accept acc.1 r with
        | some s => (s, [])
        | none => (acc.1, [r])).1 = steady acc.1 := by
    intro acc r
    split
    · rfl
    · cases ho : accept acc.1 r with
      | some t => exact steady_accept ho
      | none => rfl
  unfold pump
  exact (steady_updSlice ..).trans ((steady_foldl_pair hreserve _ _).trans
    ((steady_updSlice ..).trans (steady_foldl_pair hwait _ _)))

theorem steady_endTxn (s : State) (line : Nat) : steady (endTxn s line) = steady s := by
  unfold endTxn
  split
  · rfl
  · next x hx =>
    extract_lets u v w
    have hv : steady v = steady s := by
      dsimp only [v]
      split
      · exact steady_serveEviction ..
      · rfl
    have hw : steady w = steady v := steady_foldl (fun _ _ => steady_serveEviction ..) _ _
    exact (steady_pump ..).trans (hw.trans hv)

theorem steady_homeSettle (s : State) (line : Nat) : steady (homeSettle s line) = steady s := by
  unfold homeSettle
  split
  · rfl
  · next x hx =>
    refine steady_ite rfl ?_
    split
    · exact (steady_answer ..).trans (steady_putTxn ..)
    · exact steady_ite ((steady_answerLine ..).trans (steady_putTxn ..)) rfl
    · exact steady_ite ((steady_answerLine ..).trans (steady_putTxn ..)) rfl
    · exact steady_ite ((steady_endTxn ..).trans (steady_answerLine ..)) rfl
    · rfl
    · rfl
    · exact (steady_endTxn ..).trans (steady_dirFree ..)
    · split
      · exact (steady_endTxn ..).trans (steady_ite (steady_dirFree ..) rfl)
      · exact steady_endTxn ..

theorem steady_fenceTxns (s : State) (pkg : Nat) : steady (fenceTxns s pkg) = steady s := by
  unfold fenceTxns
  extract_lets lost gone drop u
  refine (steady_foldl (fun s e => ?_) _ u).trans rfl
  split
  · rfl
  · next x hx =>
    extract_lets y v
    exact steady_ite ((steady_endTxn ..).trans (steady_putTxn ..)) ((steady_homeSettle ..).trans (steady_putTxn ..))

theorem steady_fenceDir (s : State) (pkg : Nat) (poison : Bool) : steady (fenceDir s pkg poison) = steady s := by
  unfold fenceDir
  refine steady_foldl (fun s e => ?_) _ s
  extract_lets mine dies
  refine steady_ite rfl (steady_ite ?_ (steady_ite (steady_dirFree ..) rfl))
  rw [steady_dirFree, steady_setPoison, steady_discardDirty]

/-- The fence of a package that is not fenced yet. -/
theorem fencePkg_fences {pkg : Nat} (poison : Bool) (hf : s.fenced.contains pkg = false) (hne : pkg ≠ pkgId s) :
    pkg ∈ (fencePkg s pkg poison).fenced ∧ (fencePkg s pkg poison).mode = s.mode := by
  have h : steady (fencePkg s pkg poison) = steady { s with fenced := pkg :: s.fenced } := by
    unfold fencePkg
    rw [if_neg (by simp only [hf, hne, Bool.false_or, decide_false, not_false_eq_true, Bool.false_eq_true])]
    extract_lets sls u v
    have hu : steady u = steady { s with fenced := pkg :: s.fenced } := steady_fenceDir ..
    exact (steady_fenceTxns ..).trans ((steady_foldl (fun _ _ => steady_logEvent ..) _ _).trans hu)
  obtain ⟨hfenced, hmode⟩ : (fencePkg s pkg poison).fenced = pkg :: s.fenced ∧
      (fencePkg s pkg poison).mode = s.mode := ⟨congrArg Steady.fenced h, congrArg Steady.mode h⟩
  rw [hfenced, hmode]
  exact ⟨List.mem_cons_self, rfl⟩

theorem otherCheckstops_fences (pkg : Fin 4) (hne : pkg.val ≠ pkgId s) (hc : s.mode.coupled.contains pkg.val = true)
    (hf : s.fenced.contains pkg.val = false) (hm : s.mode.mode ≠ .checkstop) (ht : s.mode.transition ≠ .warm) :
    otherCheckstops s pkg.val = if dirMode s then fencePkg s pkg.val true
      else raise s { page := clinkPage ((linkTo s pkg.val).getD 0), code := 0x80A5 } := by
  unfold otherCheckstops
  exact if_neg (by simp only [hne, hc, hf, hm, ht, decide_false, Bool.not_true, Bool.or_self, Bool.false_eq_true,
    not_false_eq_true])

/-! ### Supplies and heat -/

/-- What the verdicts on the feeds leave. -/
def supply (s : State) : Mode × Fuses × Bool := (s.mode, s.fuses, s.feed.vsbOk)

theorem supply_updFeed (s : State) (b : Bool) (f : FeedIn → FeedIn) : supply (updFeed s b f) = supply s := by
  cases b <;> rfl

theorem supply_logEvent (s : State) (e : Event) : supply (logEvent s e) = supply s := by
  rw [(logEvent_logged s e).eq]
  rfl

theorem supply_degrade (s : State) (c : Degraded) : supply (degrade s c) = supply s := by
  cases c with
  | feed =>
    unfold degrade
    dsimp only
    split
    · rfl
    · exact supply_logEvent ..
  | spares =>
    unfold degrade
    dsimp only
    split
    · rfl
    · exact supply_logEvent ..
  | keeper => rfl

theorem supply_judgeOther (s : State) (b : Bool) : supply (judgeOther s b) = supply s := by
  have hite : ∀ {c : Prop} [Decidable c] {t u : State}, supply t = supply s → supply u = supply s →
      supply (if c then t else u) = supply s := by
    intro c _ t u ht hu
    split <;> assumption
  unfold judgeOther
  exact hite rfl (hite (hite (supply_updFeed ..) rfl) (hite (supply_updFeed ..)
    (hite ((supply_degrade ..).trans ((supply_logEvent ..).trans (supply_updFeed ..)))
      (hite (supply_updFeed ..) (hite (supply_updFeed ..) rfl)))))

theorem goOff_keeps (s : State) : (goOff s).mode.mode = .off ∧ (goOff s).fuses = s.fuses ∧
    (goOff s).pending = s.pending ∧ (goOff s).feed.vsbOk = false ∧ (goOff s).feed.trip = s.feed.trip ∧
    (goOff s).feed.active = none ∧ (goOff s).drafts = [] := ⟨rfl, rfl, rfl, rfl, rfl, rfl, rfl⟩

theorem feedsOpen_opens (s : State) : ∃ f, feedsOpen s = { s with feed := f } ∧ f.active = none ∧
    f.vsbOk = s.feed.vsbOk ∧ f.trip = s.feed.trip := by
  unfold feedsOpen
  split
  · next h => exact ⟨s.feed, rfl, h, rfl, rfl⟩
  · next b _ =>
    extract_lets bad
    refine ⟨_, rfl, ?_⟩
    cases b <;> exact ⟨rfl, rfl, rfl⟩

theorem toStandby_darkens (h : s.feed.active = none) : (toStandby s).feed.active = none ∧
    (toStandby s).fuses = s.fuses ∧ (s.drafts = [] → (toStandby s).drafts = []) ∧
    (toStandby s).feed.trip = s.feed.trip ∧ (toStandby s).mode.mode = if s.feed.vsbOk then .standby else .off := by
  by_cases hvsb : s.feed.vsbOk = true
  · obtain ⟨hmode, hfeed, -⟩ := enterMode_enters s .standby 0
    obtain ⟨hf, -, hd, -⟩ := enterMode_keeps s .standby 0
    rw [toStandby_enters hvsb, hmode, hfeed, hf, hd, if_pos hvsb]
    exact ⟨h, rfl, id, rfl, rfl⟩
  · obtain ⟨hmode, hfuses, -, -, htrip, hactive, hdrafts⟩ := goOff_keeps s
    rw [toStandby, if_neg hvsb, if_neg hvsb]
    exact ⟨hactive, hfuses, fun _ => hdrafts, htrip, hmode⟩

theorem feed_releasePen (s : State) (r : Nat) : (releasePen s r).feed = s.feed := by
  unfold releasePen cancelStrike
  split
  · unfold strikeEnds
    rw [(logEvent_logged _ _).eq]
  · rfl

/-- The loss of the dies' power. -/
theorem powerDown_darkens (s : State) (cause : Nat) : (powerDown s cause).feed.active = none ∧
    (powerDown s cause).fuses = s.fuses ∧ (powerDown s cause).drafts = [] ∧
    (powerDown s cause).feed.trip = s.feed.trip ∧
    (powerDown s cause).mode.mode = if s.feed.vsbOk then .standby else .off := by
  obtain ⟨f, hf, hactive, hvsb, htrip⟩ := feedsOpen_opens (releasePen s)
  have hrel : (releasePen s).feed = s.feed := feed_releasePen s 8
  obtain ⟨hfuses, -, -, hfeed, -⟩ := dark_keeps (feedsOpen (releasePen s)) (fun _ => true) false
  have hdrafts := (dark_empties (feedsOpen (releasePen s)) (fun _ => true) false).1
  generalize hd : dark (feedsOpen (releasePen s)) (fun _ => true) false = d at *
  obtain ⟨w, hw, hwfeed, hwfuses, hwdrafts⟩ : ∃ w, powerDown s cause = toStandby w ∧ w.feed = d.feed ∧
      w.fuses = d.fuses ∧ w.drafts = d.drafts := by
    refine ⟨feedEvent d 0x21A6 cause, by rw [← hd]; rfl, ?_⟩
    rw [feedEvent, (logEvent_logged _ _).eq]
    exact ⟨rfl, rfl, rfl⟩
  have hw' : w.feed = f := by rw [hwfeed, hfeed, hf]
  obtain ⟨h1, h2, h3, h4, h5⟩ := toStandby_darkens (s := w) (by rw [hw', hactive])
  rw [hw]
  refine ⟨h1, h2.trans (hwfuses.trans (hfuses.trans ?_)), h3 (hwdrafts.trans hdrafts), h4.trans ?_, h5.trans ?_⟩
  · rw [hf]
    exact (releasePen_keeps s 8).2
  · rw [hw', htrip, hrel]
  · rw [hw', hvsb, hrel]

/-- Settles O53: each loss from outside does what its rule says. -/
theorem packageLosses : Obligations.PackageLosses := by
  unfold Obligations.PackageLosses
  intro s b die copy pkg page code
  refine ⟨fun hon hm h0 => ?_, fun hoff => ?_, fun hclass hpage hon hm h0 => ?_, fun hne hc hf hm ht => ⟨fun hd => ?_,
    fun hd h0 => ?_⟩, rfl, fun hoff => ?_, fun hoff => ?_, fun hfeed => ?_, fun hfeed => ?_,
    fun hfeed hbad hother => ?_,
    fun hk hfeed hvsb hhot => ?_⟩
  · exact ⟨_, congrArg Host.Outcome.next (if_pos hon), raise_stops (by simp [classOf]) hm h0⟩
  · exact congrArg Host.Outcome.next (if_neg (by simp [hoff]))
  · exact ⟨_, congrArg Host.Outcome.next (if_pos (by simp [hclass, hpage, hon])), raise_stops hclass hm h0⟩
  · obtain ⟨hin, hmode⟩ := fencePkg_fences true hf hne
    exact ⟨_, congrArg Host.Outcome.next ((otherCheckstops_fences pkg hne hc hf hm ht).trans (if_pos hd)), hin, hmode⟩
  · obtain ⟨hmode, hcode, -, hdirty, hmem, -⟩ := raise_stops
      (e := { page := clinkPage ((linkTo s pkg.val).getD 0), code := 0x80A5 }) (by simp [classOf]) hm h0
    exact ⟨_, congrArg Host.Outcome.next ((otherCheckstops_fences pkg hne hc hf hm ht).trans (if_neg (by simp [hd]))),
      hmode, hcode, hdirty, hmem⟩
  · refine ⟨_, congrArg Host.Outcome.next (if_pos hoff), ?_⟩
    obtain ⟨hmode, hvfeed, -⟩ := enterMode_enters { s with feed := { s.feed with vsbOk := true } } .standby 0
    have hf := (enterMode_keeps { s with feed := { s.feed with vsbOk := true } } .standby 0).1
    have h := (supply_judgeOther
      (judgeOther (enterMode { s with feed := { s.feed with vsbOk := true } } .standby) false)
      true).trans (supply_judgeOther (enterMode { s with feed := { s.feed with vsbOk := true } } .standby) false)
    obtain ⟨hm, h⟩ := Prod.mk.inj h
    obtain ⟨hfuses, hv⟩ := Prod.mk.inj h
    exact ⟨(congrArg Mode.mode hm).trans (congrArg Mode.mode hmode), hv.trans (congrArg Feeds.vsbOk hvfeed),
      hfuses.trans hf⟩
  · exact congrArg Host.Outcome.next (if_neg hoff)
  · exact congrArg Host.Outcome.next (if_pos hfeed)
  · obtain ⟨hmode, hfuses, hpending, hvsb, htrip, -⟩ := goOff_keeps s
    exact ⟨_, congrArg Host.Outcome.next (if_neg (by simp [hfeed])), hmode, hfuses, hpending, hvsb, htrip⟩
  · obtain ⟨hactive, hfuses, hdrafts, -, hmode⟩ := powerDown_darkens s 1
    have hgo : exec .bothFeedsLost s = .next (powerDown s 1) := by
      refine congrArg Host.Outcome.next ?_
      rw [hfeed]
      exact if_pos (by simp [hbad, hother])
    exact ⟨_, hgo, hactive, hfuses, hdrafts, hmode⟩
  · obtain ⟨d, hd⟩ := hhot
    have hany : (s.feed.hot.toList.any fun n => decide (n ≥ 10)) = true :=
      List.any_eq_true.mpr ⟨s.feed.hot[d], by simp, by simpa using hd⟩
    obtain ⟨hactive, hfuses, -, htrip, hmode⟩ := powerDown_darkens { s with feed := { s.feed with trip := true } } 2
    refine ⟨_, congrArg Host.Outcome.next (if_pos (by simp [hk, hfeed, hany])), ?_, hactive, htrip, hfuses⟩
    exact hmode.trans (if_pos hvsb)

end Sys2Proof.Machine

/-! The control store: image slots, the fuses, errors, the update and the next microaddress (18). -/

namespace Sys2Proof.Machine
-- Proofs one after the other: side by side they take more memory than the check allows.
set_option Elab.async false

variable {s t : State} {m : Master}

/-! ### Image slots -/

theorem slotVerified_setSlot (slot : Nat) (ver : Bool) (res : Nat) :
    slotVerified (setSlot s slot ver res) slot = ver := by
  unfold slotVerified setSlot
  by_cases h : slot = 0
  · rw [if_pos h]; simp [h]
  · rw [if_neg h]; simp [h]

theorem setSlot_words (slot : Nat) (ver : Bool) (res : Nat) : (setSlot s slot ver res).cs.words = s.cs.words := by
  unfold setSlot
  by_cases h : slot = 0
  · simp [h]
  · simp [h]

theorem slotVerified_of_cs (h : t.cs = s.cs) (slot : Nat) : slotVerified t slot = slotVerified s slot := by
  unfold slotVerified
  rw [h]

theorem advanceIdx_cs (s : State) : (advanceIdx s).cs = s.cs := setCell_cs ..

/-- IMG_IDX (18 R437): the slot in bit 31 and the index of the word in bits 15:0. -/
def imgIdx (s : State) : Word := cell s (regKey (csPage 6) 0x040)

theorem imgIdx_of_regs (h : t.regs = s.regs) : imgIdx t = imgIdx s := cell_of_regs h _

/-- The low bits of what IMG_IDX holds are the index. -/
theorem field_idx (f : Nat) {i : Nat} (hi : i < 65536) : field (BitVec.ofNat 64 (at_ f 31 + i)) 0 16 = i := by
  simp only [at_, field, BitVec.toNat_ofNat, Nat.shiftRight_zero]
  rw [Nat.mod_mod_of_dvd _ (by decide : 2 ^ 16 ∣ 2 ^ 64),
    show f * 2 ^ 31 + i = i + f * 2 ^ 15 * 2 ^ 16 by omega, Nat.add_mul_mod_self_right]
  exact Nat.mod_eq_of_lt hi

theorem imgIdx_setCell (s : State) (v : Word) : imgIdx (setCell s (regKey (csPage 6) 0x040) v) = v :=
  (cell_setCell ..).trans (if_pos rfl)

/-- IMG_IDX moves past the word, its slot the same. -/
theorem imgIdx_advanceIdx (s : State) : field (imgIdx (advanceIdx s)) 0 16 = (field (imgIdx s) 0 16 + 1) % 65536 := by
  have hset : imgIdx (advanceIdx s) =
      BitVec.ofNat 64 (at_ (field (imgIdx s) 31 1) 31 + (field (imgIdx s) 0 16 + 1) % 65536) := imgIdx_setCell ..
  rw [hset, field_idx _ (Nat.mod_lt _ (by decide))]

/-- What a write of IMG_DATA puts into the word that IMG_IDX names. -/
def imgWritten (s : State) (v : Word) : Tab Word :=
  Tab.write (fun _ => (0 : Word)) s.cs.words (field (imgIdx s) 31 1 * 65536 + field (imgIdx s) 0 16) v

theorem writeImg_goes (v : Word) (hw : writable s m (csPage 6) = true)
    (hu : slotInUse s (field (imgIdx s) 31 1) = false) (hb : s.cs.busy = none) :
    ∃ x, writeImg s m 0x048 8 v = advanceIdx x ∧ slotVerified x (field (imgIdx s) 31 1) = false ∧
      x.cs.words = imgWritten s v ∧ x.regs = s.regs := by
  have hwords : (setSlot s (field (imgIdx s) 31 1) false 0).cs.words = s.cs.words := setSlot_words ..
  have hver := slotVerified_setSlot (s := s) (field (imgIdx s) 31 1) false 0
  unfold imgWritten
  unfold imgIdx at *
  unfold writeImg
  rw [if_neg (by rw [hw, hb]; simpa using hu)]
  extract_lets k old u _ w
  obtain ⟨hwcs, hwregs⟩ : w.cs = u.cs ∧ w.regs = s.regs := by
    dsimp only [w]
    split <;> exact ⟨rfl, rfl⟩
  clear_value w
  refine ⟨_, rfl, ?_, ?_, hwregs⟩
  · exact (slotVerified_of_cs hwcs _).trans hver
  · show Tab.write (fun _ => (0 : Word)) w.cs.words _ _ = _
    rw [hwcs, hwords]
    rfl

/-- A write of IMG_DATA goes to the word that IMG_IDX names, and its slot is no longer VERIFIED. -/
theorem imgData_writes (v : Word) (hw : writable s m (csPage 6) = true)
    (hu : slotInUse s (field (imgIdx s) 31 1) = false) (hb : s.cs.busy = none) :
    Gives (.imgData m true v) s fun t => slotVerified t (field (imgIdx s) 31 1) = false ∧
      Tab.read (fun _ => (0 : Word)) t.cs.words (field (imgIdx s) 31 1 * 65536 + field (imgIdx s) 0 16) = v ∧
      field (imgIdx t) 0 16 = (field (imgIdx s) 0 16 + 1) % 65536 := by
  obtain ⟨x, hx, hver, hwords, hregs⟩ := writeImg_goes v hw hu hb
  refine ⟨_, congrArg Host.Outcome.next hx, (slotVerified_of_cs (advanceIdx_cs x) _).trans hver, ?_, ?_⟩
  · rw [advanceIdx_cs, hwords, imgWritten, read_write_self]
  · rw [imgIdx_advanceIdx, imgIdx_of_regs hregs]

/-! ### Commands -/

theorem imgVal_of_words (h : t.cs.words = s.cs.words) (slot off n : Nat) :
    imgVal t slot off n = imgVal s slot off n := by
  unfold imgVal imgBytes imgByte
  rw [h]

/-- An image that passes is of format 1. -/
theorem imgVal_of_passes {slot : Nat} (h : imageVerdict s slot = 1) : imgVal s slot 14 2 = 1 := by
  unfold imageVerdict at h
  grind

theorem slotHdr_of_cs (h : t.cs = s.cs) (slot : Nat) : slotHdr t slot = slotHdr s slot := by
  unfold slotHdr
  rw [h]

theorem loadGoesOn_cs (s : State) (slot : Nat) : (loadGoesOn s slot).cs = s.cs := by
  unfold loadGoesOn
  split <;> rfl

theorem setSlot_keeps (s : State) (slot : Nat) (ver : Bool) (res : Nat) :
    (setSlot s slot ver res).cs.busy = s.cs.busy ∧ slotHdr (setSlot s slot ver res) slot = slotHdr s slot := by
  unfold setSlot slotHdr
  by_cases h : slot = 0
  · simp [h]
  · simp [h]

/-- The header of a slot with the key it was signed with. -/
def withHdr (s : State) (slot : Nat) (h : Word) (k : Nat) : State :=
  { s with cs := if slot = 0 then { s.cs with hdr0 := h, key0 := k } else { s.cs with hdr1 := h, key1 := k } }

theorem withHdr_takes (s : State) (slot : Nat) (h : Word) (k : Nat) : (withHdr s slot h k).cs.busy = s.cs.busy ∧
    slotVerified (withHdr s slot h k) slot = slotVerified s slot ∧ slotHdr (withHdr s slot h k) slot = h := by
  unfold withHdr slotVerified slotHdr
  by_cases h : slot = 0
  · simp [h]
  · simp [h]

/-- The verdict ends the verification, and the slot's header is taken where the image passes. -/
theorem verification_ends {slot : Fin 2} (hb : s.cs.busy = some slot) (hk : keeperRuns s = true) :
    Gives .verificationComplete s fun t => t.cs.busy = none ∧
      slotVerified t slot.val = decide (imageVerdict s slot.val = 1) ∧
      slotHdr t slot.val = (if imageVerdict s slot.val = 1 then
        BitVec.ofNat 64 (imgVal s slot.val 8 4 * 2 ^ 32 + imgVal s slot.val 12 2 * 65536 + 1)
        else slotHdr s slot.val) := by
  obtain ⟨u, hu, hbusy, hwords, hhdr⟩ : ∃ u, execVerificationComplete s = .next (
      let x := setSlot u slot.val (imageVerdict s slot.val = 1) (imageVerdict s slot.val)
      if imageVerdict s slot.val = 1 then
        loadGoesOn (withHdr x slot.val (BitVec.ofNat 64 (imgVal x slot.val 8 4 * 2 ^ 32 +
          imgVal x slot.val 12 2 * 65536 + imgVal x slot.val 14 2)) ((imgKey x slot.val).getD 0)) slot.val
      else logEvent x { page := csPage 6, code := 0x2183, sub := slot.val * 256 + imageVerdict s slot.val }) ∧
      u.cs.busy = none ∧ u.cs.words = s.cs.words ∧ slotHdr u slot.val = slotHdr s slot.val := by
    refine ⟨{ s with cs := { s.cs with busy := none }, cmds := Tab.del s.cmds (csPage 6) }, ?_, rfl, rfl, rfl⟩
    unfold execVerificationComplete
    rw [hk, hb]
    rfl
  obtain ⟨hxb, hxh⟩ := setSlot_keeps u slot.val (imageVerdict s slot.val = 1) (imageVerdict s slot.val)
  have hxv := slotVerified_setSlot (s := u) slot.val (imageVerdict s slot.val = 1) (imageVerdict s slot.val)
  have hxw : (setSlot u slot.val (imageVerdict s slot.val = 1) (imageVerdict s slot.val)).cs.words = s.cs.words :=
    (setSlot_words ..).trans hwords
  refine ⟨_, hu, ?_⟩
  dsimp only
  generalize setSlot u slot.val (imageVerdict s slot.val = 1) (imageVerdict s slot.val) = x at *
  simp only [imgVal_of_words hxw]
  by_cases hr : imageVerdict s slot.val = 1
  · rw [if_pos hr, if_pos hr, imgVal_of_passes hr]
    have hcs := fun y => loadGoesOn_cs y slot.val
    obtain ⟨hyb, hyv, hyh⟩ := withHdr_takes x slot.val (BitVec.ofNat 64 (imgVal s slot.val 8 4 * 2 ^ 32 +
      imgVal s slot.val 12 2 * 65536 + 1)) ((imgKey x slot.val).getD 0)
    rw [slotVerified_of_cs (hcs _), slotHdr_of_cs (hcs _), hcs]
    exact ⟨hyb.trans (hxb.trans hbusy), hyv.trans hxv, hyh⟩
  · have hcs : ∀ e, (logEvent x e).cs = x.cs := fun e => by rw [(logEvent_logged x e).eq]
    rw [if_neg hr, if_neg hr, slotVerified_of_cs (hcs _), slotHdr_of_cs (hcs _), hcs]
    exact ⟨hxb.trans hbusy, hxv, hxh.trans hhdr⟩

/-! ### The update -/

theorem startRotation_starts {p q : Fin 48}
    (hbest : bestFor s p (all48.filter fun q => (pairAt s q).role = .dormant && !(pairAt s q).failed) = some q)
    (hwear : wearBudget s p = true) : startRotation s p true =
      { updPair s q fun x => { x with role := .preparing } with
        rotation := some ⟨p, q, .powering, 0, true, false⟩, rotRetry := none, rotAgain := none } := by
  unfold startRotation
  extract_lets free later
  rw [show bestFor s p free = some q from hbest]
  exact if_pos hwear

theorem updateRotation_starts {p q : Fin 48} (hu : updEnabled s = true) (hrun : running s = true)
    (hd : s.err.degKeeper = false) (hr : s.rotation = none) (hg : s.cs.gap = 0) (hq : s.mode.quiesce = false)
    (hp : oldest s ((oldPairs s).filter (rotatable s)) = some p)
    (hbest : bestFor s p (all48.filter fun q => (pairAt s q).role = .dormant && !(pairAt s q).failed) = some q)
    (hwear : wearBudget s p = true) :
    Gives .updateRotation s fun t => t.rotation = some ⟨p, q, .powering, 0, true, false⟩ ∧ t.cs.updating = true ∧
      (pairAt t q).role = .preparing := by
  have hk : keeperRuns s = true := by
    unfold running at hrun
    unfold keeperRuns
    rw [hd]
    rcases Bool.or_eq_true_iff.mp hrun with h | h <;> simp [of_decide_eq_true h]
  have hgo : execUpdateRotation s = .next (
      if (startRotation s p true).rotation.isSome then
        { startRotation s p true with cs := { (startRotation s p true).cs with updating := true } }
      else { startRotation s p true with
        rotRetry := s.rotRetry, cs := { (startRotation s p true).cs with updating := true, gap := updGap s } }) := by
    unfold execUpdateRotation
    rw [if_pos (by simp [hu, hrun, hk, hr, hg, hq]), hp]
  rw [startRotation_starts hbest hwear] at hgo
  exact ⟨_, hgo, rfl, rfl, congrArg Pair.role (pairAt_updPair s q fun x => { x with role := .preparing })⟩

/-- The channel processors. -/
def cps (s : State) : Vector Cp 32 := s.chan.cps

theorem mem_of_look {α : Type} {m : Tab α} {k : Nat} {v : α} (h : Tab.look m k = some v) : (k, v) ∈ m := by
  induction m with
  | nil => cases h
  | cons e m ih =>
    obtain ⟨i, x⟩ := e
    rw [Tab.look] at h
    split at h
    next hik =>
      cases h
      subst hik
      exact List.mem_cons_self
    next => exact List.mem_cons_of_mem _ (ih h)

/-- What a table holds after an entry is put: the entry, or what it held. -/
theorem mem_put {α : Type} {m : Tab α} {k : Nat} {v : α} {e : Nat × α} (h : e ∈ Tab.put m k v) : e = (k, v) ∨ e ∈ m :=
  (mem_ins h).imp_right fun h => (List.mem_filter.mp h).1

theorem chan_bump (s : State) (p o n i : Nat) : (bump s p o n i).chan = s.chan := by
  rw [(bump_logged s p o n i).eq]

theorem chan_sendFrame (s : State) (n : Nat) (o : Op) (ty seq flags code len addr : Nat) :
    (sendFrame s n o ty seq flags code len addr false).chan = s.chan := rfl

/-- A RESYNC changes nothing of the channel processors, and no operation's channel processor. -/
theorem sendResync_keeps {c : Nat} (n : Nat) (h : ∀ e ∈ s.chan.ops, e.2.cp ≠ c) :
    cps (sendResync s n) = cps s ∧ ∀ e ∈ (sendResync s n).chan.ops, e.2.cp ≠ c := by
  unfold sendResync
  cases ho : opAt s n with
  | none => exact ⟨rfl, h⟩
  | some o =>
    dsimp only
    split
    · have hv : (sendFrame (bump s (pciePage (o.path / 64)) 0x7C8) n o 6 (max o.acked o.journalled) 0 0 0 0
          false).chan = s.chan := (chan_sendFrame ..).trans (chan_bump ..)
      generalize sendFrame (bump s (pciePage (o.path / 64)) 0x7C8) n o 6 (max o.acked o.journalled) 0 0 0 0 false = v
        at hv ⊢
      refine ⟨(congrArg Channel.cps hv : v.chan.cps = s.chan.cps), fun e he => ?_⟩
      have he' : e ∈ Tab.put s.chan.ops n { o with resync := true } := hv ▸ he
      rcases mem_put he' with rfl | he'
      · exact h (n, o) (mem_of_look ho)
      · exact h e he'
    · exact ⟨rfl, h⟩

theorem sendResyncs_keep {c : Nat} (l : List (Nat × Op)) (h : ∀ e ∈ s.chan.ops, e.2.cp ≠ c) :
    cps (l.foldl (fun s e => sendResync s e.1) s) = cps s ∧
      ∀ e ∈ (l.foldl (fun s e => sendResync s e.1) s).chan.ops, e.2.cp ≠ c := by
  induction l generalizing s with
  | nil => exact ⟨rfl, h⟩
  | cons e l ih =>
    obtain ⟨hcps, hops⟩ := sendResync_keeps e.1 h
    obtain ⟨hc, ho⟩ := ih hops
    exact ⟨hc.trans hcps, ho⟩

theorem endUpdate_chan (s : State) : (endUpdate s).chan = s.chan := by
  unfold endUpdate
  split
  · exact chan_logEvent ..
  · rfl

theorem cpAt_updCp_ne {c h : Nat} (hne : c ≠ h) (f : Cp → Cp) : cpAt (updCp s h f) c = cpAt s c := by
  show vget (vset s.chan.cps h (f (cpAt s h))) (Cp.reset c) c = _
  rw [vget_vset, if_neg (by simp [Ne.symm hne])]
  rfl

theorem cpAt_updCp {c : Nat} (hc : c < 32) (f : Cp → Cp) : cpAt (updCp s c f) c = f (cpAt s c) :=
  vget_vset_self _ _ _ hc

theorem old_of_found {f : Nat → Bool} {c : Nat} (h : (oldCps s).find? f = some c) :
    c < 32 ∧ (cpAt s c).role = .active := by
  have hmem := List.mem_of_find?_eq_some h
  unfold oldCps at hmem
  simp only [List.mem_filter, List.mem_range, Bool.and_eq_true, decide_eq_true_eq] at hmem
  exact ⟨hmem.1, hmem.2.1⟩

theorem spare_of_found {f : Nat → Bool} {c : Nat}
    (h : ((List.range 32).filter fun c => (cpAt s c).role = .spare).find? f = some c) :
    c < 32 ∧ (cpAt s c).role = .spare := by
  have hmem := List.mem_of_find?_eq_some h
  simpa only [List.mem_filter, List.mem_range, decide_eq_true_eq] using hmem

theorem handover_moves {die : Fin 2} {c h : Nat} (hu : updEnabled s = true) (hrun : running s = true)
    (hp : oldPairs s = []) (hc : (oldCps s).find? (fun c => c / 16 = die.val) = some c)
    (hh : ((List.range 32).filter fun c => (cpAt s c).role = .spare).find? (fun c => c / 16 = die.val) = some h) :
    Gives (.cpUpdateHandover die) s fun t => (cpAt t h).role = .active ∧ (cpAt t c).role = .spare ∧
      (cpAt t h).image = cpImage (currentImage s) ∧ ∀ e ∈ t.chan.ops, e.2.cp ≠ c := by
  obtain ⟨hc32, hcrole⟩ := old_of_found hc
  obtain ⟨hh32, hhrole⟩ := spare_of_found hh
  have hne : c ≠ h := by
    rintro rfl
    rw [hcrole] at hhrole
    cases hhrole
  obtain ⟨u, l, hu', hcps, hops⟩ : ∃ (u : State) (l : List (Nat × Op)), execCpUpdateHandover die s =
      .next (endUpdate (l.foldl (fun s e => sendResync s e.1) u)) ∧
      cps u = cps (updCp (updCp s h fun x => { x with role := .active, image := cpImage (currentImage s) }) c
        fun x => { x with role := .spare, image := cpImage (currentImage s) }) ∧
      u.chan.ops = s.chan.ops.map fun e => if e.2.cp = c then (e.1, { e.2 with cp := h }) else e := by
    have hgo : (updEnabled s && running s && (oldPairs s).isEmpty) = true := by rw [hu, hrun, hp]; rfl
    unfold execCpUpdateHandover
    extract_lets of
    rw [if_pos hgo, show of (oldCps s) = some c from hc,
      show of ((List.range 32).filter fun c => (cpAt s c).role = .spare) = some h from hh]
    dsimp only
    exact ⟨_, _, rfl, rfl, rfl⟩
  obtain ⟨hkcps, hkops⟩ := sendResyncs_keep (s := u) (c := c) l (by
    rw [hops]
    intro e he
    obtain ⟨e', -, rfl⟩ := List.mem_map.mp he
    split
    · exact Ne.symm hne
    · assumption)
  have hat : ∀ i, cpAt (endUpdate (l.foldl (fun s e => sendResync s e.1) u)) i = vget (cps u) (Cp.reset i) i := by
    intro i
    rw [cpAt, endUpdate_chan, ← hkcps]
    rfl
  refine ⟨_, hu', ?_, ?_, ?_, by rw [endUpdate_chan]; exact hkops⟩
  · rw [hat, hcps]
    exact congrArg Cp.role ((cpAt_updCp_ne (Ne.symm hne) _).trans (cpAt_updCp hh32 _))
  · rw [hat, hcps]
    exact congrArg Cp.role (cpAt_updCp hc32 _)
  · rw [hat, hcps]
    exact congrArg Cp.image ((cpAt_updCp_ne (Ne.symm hne) _).trans (cpAt_updCp hh32 _))

/-! ### The next microaddress -/

theorem nextAddr_follows (kd : StoreKind) (slot : Nat) (uc : UConds) (sq : Seq) (hk : kd ≠ .rom) :
    (nextAddr s kd slot uc sq).toNat =
      (nextRaw uc (ucond (microword s kd slot (sq.addr.toNat % kd.micro))) sq.addr sq.link
        (unext (nanoword s kd slot
          ((unano (microword s kd slot (sq.addr.toNat % kd.micro))).toNat % kd.nano)))).toNat % kd.micro := by
  have hsize : kd.micro ≤ 2 ^ 15 ∧ 0 < kd.micro := by cases kd <;> simp_all [StoreKind.micro]
  unfold nextAddr patched wrapAddr
  rw [if_pos hk, BitVec.toNat_ofNat, Nat.mod_eq_of_lt]
  exact Nat.lt_of_lt_of_le (Nat.mod_lt _ hsize.2) hsize.1

theorem mod_micro (kd : StoreKind) (hk : kd ≠ .rom) (n : Nat) : n % 2 ^ 15 % kd.micro = n % kd.micro := by
  refine Nat.mod_mod_of_dvd _ ?_
  cases kd
  · exact ⟨2, rfl⟩
  · exact absurd rfl hk
  · exact ⟨4, rfl⟩

section Sequencer
variable (uc : UConds) {cond : BitVec 4} (cur link next : BitVec 15)

theorem nextRaw_next (h : cond = 1) : nextRaw uc cond cur link next = next := by subst h; rfl

theorem nextRaw_zero (h : cond = 2) :
    (nextRaw uc cond cur link next).toNat = next.toNat ||| uc.zero.toNat := by
  subst h
  show (next ||| bit0 uc.zero).toNat = _
  rw [BitVec.toNat_or]
  cases uc.zero <;> rfl

theorem nextRaw_length (h : cond = 0xB) :
    (nextRaw uc cond cur link next).toNat = next.toNat ||| uc.lenClass.toNat := by
  subst h
  show (next ||| uc.lenClass.setWidth 15).toNat = _
  rw [BitVec.toNat_or, BitVec.toNat_setWidth_of_le (by decide)]

theorem nextRaw_opcode (h : cond = 0xD) :
    (nextRaw uc cond cur link next).toNat = next.toNat ||| uc.opcode.toNat * 8 := by
  subst h
  show (next ||| uc.opcode.setWidth 15 <<< 3).toNat = _
  have hlt := uc.opcode.isLt
  rw [BitVec.toNat_or, BitVec.toNat_shiftLeft, BitVec.toNat_setWidth_of_le (by decide), Nat.shiftLeft_eq,
    Nat.mod_eq_of_lt (by omega)]

theorem nextRaw_link (h : cond = 0xF) : nextRaw uc cond cur link next = link := by subst h; rfl

theorem nextRaw_step (h : cond = 0) : (nextRaw uc cond cur link next).toNat = (cur.toNat + 1) % 2 ^ 15 := by
  subst h
  exact BitVec.toNat_add ..

end Sequencer

/-- Settles O54: each part of the control store does what its rule says. -/
theorem controlStoreWorks : Obligations.ControlStoreWorks := by
  unfold Obligations.ControlStoreWorks
  intro s m v x slot k word dom d p q cp c h die cs cur ix
  refine ⟨fun hw hu hb => imgData_writes v hw hu hb, fun hl hr => ?_, fun hm => ⟨fun hb => ?_, fun hv hall => ?_,
    fun hv => ?_⟩, fun hb hk => verification_ends hb hk, fun hd => ?_, rfl, rfl, rfl, ⟨_, rfl⟩,
    fun hu hrun hd => ⟨fun hr hg hq hp hbest hwear => updateRotation_starts hu hrun hd hr hg hq hp hbest hwear,
      fun hp hc hh => handover_moves hu hrun hp hc hh⟩, fun hu hs => ?_, fun kd uc sq hk => ?_⟩
  · have hgo : readBy s m (csPage 6 * 4096 + 0x048) 8 =
        emit (.reply m x) (readEffect s m (csPage 6 * 4096 + 0x048) 8) := by
      unfold readBy
      rw [hl, hr]
      rfl
    exact congrArg Host.Outcome.next hgo
  · have hgo : verifyCommand s m slot.val = { s with
        cs := { s.cs with busy := some (if slot.val % 2 = 0 then 0 else 1) },
        cmds := Tab.put s.cmds (csPage 6) (BitVec.ofNat 64 (slot.val % 2 ^ 24 * 256 + 0x10)) } := by
      unfold verifyCommand
      rw [hb]
      exact command_may hm
    refine ⟨_, congrArg Host.Outcome.next hgo, congrArg some ?_, rfl⟩
    exact (by decide : ∀ slot : Fin 2, (if slot.val % 2 = 0 then 0 else 1) = slot) slot
  · have hok : (slotVerified s cur && (runImages s).all fun w =>
        decide (field w 16 16 ≥ field (slotHdr s cur) 16 16)) = true := by
      rw [hv, Bool.true_and, List.all_eq_true]
      exact fun w hw => decide_eq_true (hall w hw)
    have hgo : ∃ cs, advanceCommand s m = { s with
        fuses := { s.fuses with svn := max s.fuses.svn (field (slotHdr s cur) 16 16) }, cs := cs } := by
      unfold advanceCommand
      dsimp only
      rw [hok]
      exact ⟨_, command_may hm⟩
    obtain ⟨cs, hgo⟩ := hgo
    exact ⟨_, congrArg Host.Outcome.next hgo, rfl, rfl⟩
  · have hgo : revokeCommand s m k.val =
        { s with fuses := { s.fuses with revoked := s.fuses.revoked ||| BitVec.ofNat 4 (2 ^ (k.val % 4)) } } := by
      unfold revokeCommand
      dsimp only
      rw [show slotVerified s (currentSlot s) = false from hv]
      exact command_may hm
    have hbit : BitVec.ofNat 4 (2 ^ (k.val % 4)) = 1 <<< k.val := (by decide : ∀ k : Fin 4, BitVec.ofNat 4 (2 ^ (k.val % 4)) = 1 <<< k.val) k
    rw [← hbit]
    exact congrArg Host.Outcome.next hgo
  · have hgo : execControlStoreError dom true s =
        .next (logEvent (bump s (csPage d) 0x7C0) { page := csPage d, code := 0x0181 }) := by
      unfold execControlStoreError
      rw [hd]
      rfl
    exact hgo
  · exact congrArg Host.Outcome.next (if_pos (by simp [hu, hs]))
  · intro mw next follows
    have hf : follows = (nextRaw uc (ucond mw) sq.addr sq.link next).toNat % kd.micro := nextAddr_follows kd _ uc sq hk
    rw [hf]
    refine ⟨fun hcond => ?_, fun hcond => ?_, fun hcond => ?_, fun hcond => ?_, fun hcond => ?_, fun hcond => ?_⟩
    · rw [nextRaw_step _ _ _ _ hcond, mod_micro kd hk]
    · rw [nextRaw_next _ _ _ _ hcond]
    · rw [nextRaw_zero _ _ _ _ hcond]
    · rw [nextRaw_length _ _ _ _ hcond]
    · rw [nextRaw_opcode _ _ _ _ hcond]
    · rw [nextRaw_link _ _ _ _ hcond]

end Sys2Proof.Machine

/-! The power feeds: votes, the switchover, the repair, the status input and the guardband (20). -/

namespace Sys2Proof.Machine
-- Proofs one after the other: side by side they take more memory than the check allows.
set_option Elab.async false

variable {s t : State} {m : Master} {b : Bool}

/-! ### The feeds of a state -/

@[simp] theorem feedOf_updFeed (s : State) (b : Bool) (f : FeedIn → FeedIn) :
    feedOf (updFeed s b f) b = f (feedOf s b) := by
  cases b <;> rfl

@[simp] theorem feedOf_updFeed_other (s : State) (b : Bool) (f : FeedIn → FeedIn) :
    feedOf (updFeed s b f) (!b) = feedOf s !b := by
  cases b <;> rfl

theorem feedOf_congr (h : t.feed = s.feed) (b : Bool) : feedOf t b = feedOf s b := by
  unfold feedOf
  rw [h]

theorem active_updFeed (s : State) (b : Bool) (f : FeedIn → FeedIn) : (updFeed s b f).feed.active = s.feed.active := by
  cases b <;> rfl

theorem updFeed_mode (s : State) (b : Bool) (f : FeedIn → FeedIn) :
    (updFeed s b f).mode = s.mode ∧ (updFeed s b f).err = s.err := ⟨rfl, rfl⟩

theorem failVotes_of_mode (h : t.mode = s.mode) (x : FeedIn) : failVotes t x = failVotes s x := by
  unfold failVotes sdVotes
  rw [h]

theorem inRange_of_mode (h : t.mode = s.mode) (x : FeedIn) : inRange t x = inRange s x := by
  unfold inRange sdVotes
  rw [h]

theorem keeperRuns_of_mode (hm : t.mode = s.mode) (he : t.err = s.err) : keeperRuns t = keeperRuns s := by
  unfold keeperRuns
  rw [hm, he]

theorem keeperRuns_updFeed (s : State) (b : Bool) (f : FeedIn → FeedIn) : keeperRuns (updFeed s b f) = keeperRuns s :=
  keeperRuns_of_mode rfl rfl

theorem failVotes_updFeed (s : State) (b : Bool) (f : FeedIn → FeedIn) (x : FeedIn) :
    failVotes (updFeed s b f) x = failVotes s x := failVotes_of_mode rfl x

theorem inRange_updFeed (s : State) (b : Bool) (f : FeedIn → FeedIn) (x : FeedIn) :
    inRange (updFeed s b f) x = inRange s x := inRange_of_mode rfl x

theorem feed_feedEvent (s : State) (code sub : Nat) : (feedEvent s code sub).feed = s.feed := by
  rw [feedEvent, (logEvent_logged _ _).eq]

theorem feed_bump (s : State) (p o n i : Nat) : (bump s p o n i).feed = s.feed := by
  rw [(bump_logged s p o n i).eq]

theorem feed_degrade (s : State) (c : Degraded) : (degrade s c).feed = s.feed := by
  cases c with
  | feed =>
    unfold degrade
    dsimp only
    split
    · rfl
    · rw [(logEvent_logged _ _).eq]
  | spares =>
    unfold degrade
    dsimp only
    split
    · rfl
    · rw [(logEvent_logged _ _).eq]
  | keeper => rfl

/-! ### Verdicts -/

theorem judge_runs (hk : keeperRuns s = true) (b against : Bool) :
    judge s b against = judgeActive (judgeOther s b) (against && s.feed.active = some b) := if_pos hk

/-- The verdict on the active feed leaves the other as it is. -/
theorem judgeOther_active (h : s.feed.active = some b) : judgeOther s b = s := by
  unfold judgeOther
  exact if_pos h

/-- A feed in standby with two votes against it fails. -/
theorem judgeOther_fails (h : s.feed.active = some !b) (hst : (feedOf s b).st = .standby)
    (hv : 2 ≤ failVotes s (feedOf s b)) : judgeOther s b =
      degrade (feedEvent (updFeed s b fun x => { x with st := .failed, repair := 0 }) 0x21A2 0) .feed := by
  unfold judgeOther
  dsimp only
  rw [if_neg (by simp [h]), if_neg (by simp [h]), if_neg (by simp [h]), if_pos (by simp [hst, hv])]

/-- A failed feed that is in range again begins its repair. -/
theorem judgeOther_repairs (h : s.feed.active = some !b) (hst : (feedOf s b).st = .failed)
    (hin : inRange s (feedOf s b) = true) :
    judgeOther s b = updFeed s b fun x => { x with st := .repairing, repair := 0 } := by
  unfold judgeOther
  dsimp only
  rw [if_neg (by simp [h]), if_neg (by simp [h]), if_neg (by simp [h]), if_neg (by simp [hst]), if_neg (by simp [hst]),
    if_pos (by simp [hst, hin])]

/-- The active feed goes out of range, and the other is taken. -/
theorem judgeActive_switches (single : Bool) (h : s.feed.active = some b) (hv : 2 ≤ failVotes s (feedOf s b))
    (hg : keeperBad (feedOf s !b) = false) :
    (judgeActive s single).feed.active = some !b ∧ (feedOf (judgeActive s single) b).st = .failed ∧
      (feedOf (judgeActive s single) !b).st = .active := by
  unfold judgeActive
  rw [h]
  dsimp only
  rw [if_pos hv, hg, if_neg Bool.false_ne_true]
  generalize hu : updFeed (updFeed s b fun x => { x with st := .failed, repair := 0 }) (!b)
    (fun x => { x with st := .active, repair := 0 }) = u
  have hb : (feedOf u b).st = .failed := by
    subst hu
    cases b <;> rfl
  have ho : (feedOf u !b).st = .active := by
    subst hu
    cases b <;> rfl
  have hfeed : (degrade (feedEvent (bump { u with feed := { u.feed with active := some !b } } feedPage 0x7C0) 0x21A1
      (feedCode !b)) .feed).feed = { u.feed with active := some !b } := by
    rw [feed_degrade, feed_feedEvent, feed_bump]
  have hof : ∀ c, feedOf (degrade (feedEvent (bump { u with feed := { u.feed with active := some !b } } feedPage 0x7C0)
      0x21A1 (feedCode !b)) .feed) c = feedOf u c := fun c => by
    unfold feedOf
    rw [hfeed]
  rw [hof, hof, hfeed]
  exact ⟨rfl, hb, ho⟩

/-- An active feed with no two votes against it stays. -/
theorem judgeActive_stays (h : s.feed.active = some b) (hv : failVotes s (feedOf s b) < 2) :
    judgeActive s false = s := by
  unfold judgeActive
  rw [h]
  dsimp only
  rw [if_neg (by omega), Bool.and_false, if_neg Bool.false_ne_true]

/-- What a verdict on a feed leaves of it: its status input. -/
def statusInput (x : FeedIn) : Bool × Bool × Bool × Nat × Nat := (x.pg, x.pgBad, x.chat, x.changes, x.quiet)

/-- The status input of both feeds. -/
def inputs (s : State) : (Bool × Bool × Bool × Nat × Nat) × (Bool × Bool × Bool × Nat × Nat) :=
  (statusInput s.feed.a, statusInput s.feed.b)

theorem inputs_updFeed (s : State) (b : Bool) {f : FeedIn → FeedIn} (hf : ∀ x, statusInput (f x) = statusInput x) :
    inputs (updFeed s b f) = inputs s := by
  cases b
  · exact congrArg (·, _) (hf _)
  · exact congrArg (_, ·) (hf _)

theorem inputs_of_feed (h : t.feed = s.feed) : inputs t = inputs s := by
  unfold inputs
  rw [h]

theorem inputs_ite {c : Prop} [Decidable c] {t u : State} (ht : inputs t = inputs s) (hu : inputs u = inputs s) :
    inputs (if c then t else u) = inputs s := by
  split <;> assumption

theorem inputs_judgeOther (s : State) (b : Bool) : inputs (judgeOther s b) = inputs s := by
  have hst : ∀ st, inputs (updFeed s b fun x => { x with st := st }) = inputs s :=
    fun _ => inputs_updFeed s b fun _ => rfl
  have hrepair : ∀ st, inputs (updFeed s b fun x => { x with st := st, repair := 0 }) = inputs s :=
    fun _ => inputs_updFeed s b fun _ => rfl
  have hfail : inputs (degrade
      (feedEvent (updFeed s b fun x => { x with st := .failed, repair := 0 }) 0x21A2 0) .feed) = inputs s := by
    rw [inputs_of_feed (feed_degrade ..), inputs_of_feed (feed_feedEvent ..), hrepair]
  unfold judgeOther
  exact inputs_ite rfl (inputs_ite (inputs_ite (hst _) rfl) (inputs_ite (hrepair _) (inputs_ite hfail
    (inputs_ite (hrepair _) (inputs_ite (hrepair _) rfl)))))

theorem inputs_judgeActive (s : State) (single : Bool) : inputs (judgeActive s single) = inputs s := by
  unfold judgeActive
  split
  · rfl
  · next b _ =>
    extract_lets x v u _ w
    have hu : inputs u = inputs s := by
      dsimp only [u]
      rw [inputs_updFeed, inputs_updFeed]
      · exact fun _ => rfl
      · exact fun _ => rfl
    have hw : inputs w = inputs u := (inputs_of_feed (feed_bump ..)).trans rfl
    refine inputs_ite (inputs_ite rfl ?_) (inputs_ite ?_ rfl)
    · rw [inputs_of_feed (feed_degrade ..), inputs_of_feed (feed_feedEvent ..), hw, hu]
    · rw [inputs_of_feed (feed_bump ..), inputs_of_feed (feed_feedEvent ..)]

theorem inputs_judge (s : State) (b against : Bool) : inputs (judge s b against) = inputs s := by
  unfold judge
  exact inputs_ite ((inputs_judgeActive ..).trans (inputs_judgeOther ..)) rfl

/-- The status input of a feed is not changed by a verdict. -/
theorem statusInput_judge (s : State) (b against c : Bool) :
    statusInput (feedOf (judge s b against) c) = statusInput (feedOf s c) := by
  obtain ⟨ha, hb⟩ := Prod.mk.inj (inputs_judge s b against)
  cases c
  · exact ha
  · exact hb

theorem feedOf_setFeed (s : State) (b : Bool) (x : FeedIn) : feedOf (setFeed s b x) b = x := by
  cases b <;> rfl

theorem feedRestored_clears (s : State) : (feedRestored s).feed = s.feed ∧ (feedRestored s).err.degFeed = false := by
  unfold feedRestored
  split
  next h => exact ⟨rfl, by simpa using h⟩
  next =>
    extract_lets _ u
    split
    · exact ⟨rfl, rfl⟩
    · rw [(logEvent_logged _ _).err, (logEvent_logged _ _).eq]
      exact ⟨rfl, rfl⟩

/-! ### The statement -/

section Keeper
variable (hk : keeperRuns s = true)
include hk

/-- A verdict on the active feed. -/
theorem judge_active (f : FeedIn → FeedIn) (against : Bool) (h : s.feed.active = some b) :
    judge (updFeed s b f) b against = judgeActive (updFeed s b f) against := by
  have ha : (updFeed s b f).feed.active = some b := (active_updFeed ..).trans h
  rw [judge_runs ((keeperRuns_updFeed ..).trans hk), judgeOther_active ha, ha]
  simp

/-- A verdict on the feed that is not active, where the active one stays. -/
theorem judge_other (f : FeedIn → FeedIn) (against : Bool) (h : s.feed.active = some !b)
    (hv : failVotes s (feedOf s !b) < 2) {u : State} (hu : judgeOther (updFeed s b f) b = u)
    (hm : u.mode = s.mode) (ha : u.feed.active = some !b) (ho : feedOf u (!b) = feedOf s !b) :
    judge (updFeed s b f) b against = u := by
  have hact : (updFeed s b f).feed.active = some !b := (active_updFeed ..).trans h
  rw [judge_runs ((keeperRuns_updFeed ..).trans hk), hu, hact, decide_eq_false (by simp), Bool.and_false]
  refine judgeActive_stays ha ?_
  rw [ho, failVotes_of_mode hm]
  exact hv

theorem feedOutOfRange_switches (mon : Fin 3) (h : s.feed.active = some b)
    (hv : 2 ≤ failVotes s { feedOf s b with bad := (feedOf s b).bad.set mon true })
    (hg : keeperBad (feedOf s !b) = false) :
    Gives (.feedOutOfRange b mon) s fun t =>
      t.feed.active = some !b ∧ (feedOf t b).st = .failed ∧ (feedOf t !b).st = .active := by
  refine ⟨_, congrArg Host.Outcome.next (judge_active hk _ true h), judgeActive_switches _ ?_ ?_ ?_⟩
  · exact (active_updFeed ..).trans h
  · rw [feedOf_updFeed, failVotes_updFeed]
    exact hv
  · rw [feedOf_updFeed_other]
    exact hg

section Other
variable (mon : Fin 3) (h : s.feed.active = some !b) (hv : failVotes s (feedOf s !b) < 2)
include h hv

theorem feedOutOfRange_fails (hst : (feedOf s b).st = .standby)
    (hbad : 2 ≤ failVotes s { feedOf s b with bad := (feedOf s b).bad.set mon true }) :
    Gives (.feedOutOfRange b mon) s fun t => (feedOf t b).st = .failed ∧ t.feed.active = some !b := by
  let u := updFeed s b fun x => { x with bad := x.bad.set mon true }
  have hact : u.feed.active = some !b := (active_updFeed ..).trans h
  have hother : judgeOther u b =
      degrade (feedEvent (updFeed u b fun x => { x with st := .failed, repair := 0 }) 0x21A2 0) .feed := by
    refine judgeOther_fails hact ?_ ?_
    · rw [feedOf_updFeed]
      exact hst
    · rw [feedOf_updFeed, failVotes_updFeed]
      exact hbad
  have hfeed : (degrade (feedEvent (updFeed u b fun x => { x with st := .failed, repair := 0 }) 0x21A2 0) .feed).feed =
      (updFeed u b fun x => { x with st := .failed, repair := 0 }).feed := by rw [feed_degrade, feed_feedEvent]
  have hmode := (Prod.mk.inj (supply_degrade (feedEvent (updFeed u b fun x => { x with st := .failed, repair := 0 })
    0x21A2 0) .feed)).1.trans (Prod.mk.inj (supply_logEvent ..)).1
  refine ⟨_, congrArg Host.Outcome.next (judge_other hk _ true h hv hother hmode ?_ ?_), ?_, ?_⟩
  · rw [hfeed, active_updFeed, hact]
  · rw [feedOf_congr hfeed, feedOf_updFeed_other, feedOf_updFeed_other]
  · rw [feedOf_congr hfeed, feedOf_updFeed]
  · rw [hfeed, active_updFeed, hact]

theorem feedInRange_repairs (hst : (feedOf s b).st = .failed)
    (hgood : inRange s { feedOf s b with bad := (feedOf s b).bad.set mon false } = true) :
    Gives (.feedInRange b mon) s fun t => (feedOf t b).st = .repairing ∧ (feedOf t b).repair = 0 ∧
      t.feed.active = some !b := by
  let u := updFeed s b fun x => { x with bad := x.bad.set mon false }
  have hact : u.feed.active = some !b := (active_updFeed ..).trans h
  have hother : judgeOther u b = updFeed u b fun x => { x with st := .repairing, repair := 0 } := by
    refine judgeOther_repairs hact ?_ ?_
    · rw [feedOf_updFeed]
      exact hst
    · rw [feedOf_updFeed, inRange_updFeed]
      exact hgood
  refine ⟨_, congrArg Host.Outcome.next (judge_other hk _ false h hv hother rfl ?_ ?_), ?_, ?_, ?_⟩
  · rw [active_updFeed, hact]
  · rw [feedOf_updFeed_other, feedOf_updFeed_other]
  · rw [feedOf_updFeed]
  · rw [feedOf_updFeed]
  · rw [active_updFeed, hact]

end Other

theorem feedRepaired_restores (hst : (feedOf s b).st = .repairing) (hr : 100000 ≤ (feedOf s b).repair)
    (hin : inRange s (feedOf s b) = true) :
    Gives (.feedRepaired b) s fun t => (feedOf t b).st = .standby ∧ t.err.degFeed = false := by
  have hgo : execFeedRepaired b s = .next
      (feedRestored (feedEvent (updFeed s b fun x => { x with st := .standby, repair := 0 }) 0x01A3 0)) :=
    congrArg Host.Outcome.next (if_pos (by simp [hst, hr, hin, hk]))
  obtain ⟨hfeed, hdeg⟩ := feedRestored_clears (feedEvent (updFeed s b fun x => { x with st := .standby, repair := 0 })
    0x01A3 0)
  refine ⟨_, hgo, ?_, hdeg⟩
  rw [feedOf_congr (hfeed.trans (feed_feedEvent ..)), feedOf_updFeed]

end Keeper

theorem feedStatusChange_counts (level : Bool) (ns : Nat) (h : (feedOf s b).pg ≠ level) :
    Gives (.feedStatusChange b level ns) s fun t =>
      (feedOf t b).pg = level ∧ (feedOf t b).changes = (feedOf s b).changes + 1 ∧ (feedOf t b).quiet = 0 ∧
      (feedOf t b).chat = ((feedOf s b).chat || decide ((feedOf s b).changes + 1 > 8)) := by
  obtain ⟨u, hgo, hfeed⟩ : ∃ u, execFeedStatusChange b level ns s = .next (judge u b true) ∧
      u.feed = (setFeed s b { feedOf s b with
        pg := level, pgBad := !level && decide (ns ≥ 1000), changes := (feedOf s b).changes + 1, quiet := 0,
        chat := (feedOf s b).chat || decide ((feedOf s b).changes + 1 > 8) }).feed := by
    unfold execFeedStatusChange
    dsimp only
    rw [if_neg h]
    refine ⟨_, rfl, ?_⟩
    split
    · rw [feed_bump, feed_feedEvent]
    · rfl
  have hin := statusInput_judge u b true b
  rw [feedOf_congr hfeed, feedOf_setFeed] at hin
  refine ⟨_, hgo, ?_⟩
  simp only [statusInput, Prod.mk.injEq] at hin
  obtain ⟨hpg, -, hchat, hchanges, hquiet⟩ := hin
  exact ⟨hpg, hchanges, hquiet, hchat⟩

theorem chatterEnd_ends (hc : (feedOf s b).chat = true) (hq : 1000 ≤ (feedOf s b).quiet) :
    Gives (.chatterEnd b) s fun t => (feedOf t b).chat = false ∧ (feedOf t b).pgBad = !(feedOf s b).pg := by
  have hgo : execChatterEnd b s =
      .next (judge (setFeed s b { feedOf s b with chat := false, pgBad := !(feedOf s b).pg }) b true) :=
    congrArg Host.Outcome.next (if_pos (by simp [hc, hq]))
  have hin := statusInput_judge (setFeed s b { feedOf s b with chat := false, pgBad := !(feedOf s b).pg }) b true b
  rw [feedOf_setFeed] at hin
  refine ⟨_, hgo, ?_⟩
  generalize judge (setFeed s b { feedOf s b with chat := false, pgBad := !(feedOf s b).pg }) b true = t at *
  simp only [statusInput, Prod.mk.injEq] at hin
  obtain ⟨-, hbad, hchat, -⟩ := hin
  exact ⟨hchat, hbad⟩

theorem swap_swaps (hm : MayCommand s m feedPage) (h : s.feed.active = some b) (hst : (feedOf s !b).st = .standby)
    (ht : s.feed.trip = false) :
    Gives (.swap m) s fun t => t.feed.active = some !b ∧ (feedOf t b).st = .standby ∧ (feedOf t !b).st = .active := by
  let u := updFeed (updFeed s b fun x => { x with st := .standby, repair := 0 }) (!b)
    fun x => { x with st := .active, repair := 0 }
  have hgo : swapCommand s m = bump { u with feed := { u.feed with active := some !b } } feedPage 0x7C0 := by
    unfold swapCommand
    rw [h]
    dsimp only
    rw [hst, ht]
    refine (command_may hm).trans ?_
    rw [h]
  have hfeed : (bump { u with feed := { u.feed with active := some !b } } feedPage 0x7C0).feed =
      { u.feed with active := some !b } := feed_bump ..
  refine ⟨_, congrArg Host.Outcome.next hgo, by rw [hfeed], ?_, ?_⟩
  · unfold feedOf
    rw [hfeed]
    cases b <;> rfl
  · unfold feedOf
    rw [hfeed]
    cases b <;> rfl

theorem vget_eq {α : Type} {n : Nat} (v : Vector α n) (d : α) (i : Fin n) : vget v d i.val = v[i] := by
  simp [vget]

theorem agingCheck_steps (die : Fin 4) (hk : keeperRuns s = true) (hv : s.feed.vgb[die] < 8) :
    Gives (.agingCheck die true) s fun t => t.feed.vgb[die] = s.feed.vgb[die] + 1 := by
  obtain ⟨t, ht, hfeed⟩ : ∃ t, execAgingCheck die true s = .next t ∧
      t.feed = { s.feed with vgb := vset s.feed.vgb die.val (s.feed.vgb[die] + 1) } := by
    unfold execAgingCheck
    rw [vget_eq]
    dsimp only
    rw [if_neg (by simp [hk]), if_neg (by omega)]
    refine ⟨_, rfl, ?_⟩
    split
    · rw [feed_feedEvent]
    · rfl
  refine ⟨t, ht, ?_⟩
  dsimp only
  rw [hfeed, ← vget_eq _ 0]
  exact vget_vset_self _ _ _ die.isLt

/-- Settles O55: each part of the feeds' arbitration does what its rule says. -/
theorem feedsWork : Obligations.FeedsWork := by
  unfold Obligations.FeedsWork
  intro s m b level mon ns die hk x worse better
  refine ⟨fun h hv hg => feedOutOfRange_switches hk mon h hv hg, fun h hv => ⟨feedOutOfRange_fails hk mon h hv,
    feedInRange_repairs hk mon h hv⟩, feedStatusChange_counts level ns, feedRepaired_restores hk, chatterEnd_ends,
    fun hm => ⟨swap_swaps hm, ?_⟩, ?_⟩
  · exact congrArg Host.Outcome.next (command_may hm)
  · intro v
    refine ⟨rfl, agingCheck_steps die hk, fun hv => ?_⟩
    have hgo : execAgingCheck die true s = .next (feedEvent s 0x21AA 0) := by
      unfold execAgingCheck
      rw [vget_eq]
      dsimp only
      rw [if_neg (by simp [hk]), if_pos hv]
    exact hgo

end Sys2Proof.Machine
